-- ==== Sys2Proof/Word.lean ====
section
/-! DEFINITION. The word types of the machine and nothing else (spec/00 R5, R6; spec/02 R41, R43). -/

namespace Sys2Proof

/-- A 32-bit register or instruction word. -/
abbrev Word := BitVec 32

/-- One byte. -/
abbrev Byte := BitVec 8

/-- One bit for each of the 32 lanes of a group (R14). -/
abbrev Mask := BitVec 32

end Sys2Proof
end

