-- ==== Sys2Proof/Syntax.lean ====
section
/-! DEFINITION. The operands and the ONE inductive of instructions and operations (spec/02 R41 to R50, spec/opcode_table.json). -/

namespace Sys2Proof

/-- A 7-bit register field (R43): 0 to 95 a lane register, 96 to 126 a uniform register, 127 sz. -/
abbrev RF := Fin 128

/-- Integer conditions, codes 0 to 9 (R53). -/
inductive ICond where | eq | ne | lt | le | gt | ge | ltu | leu | gtu | geu
  deriving DecidableEq, Repr

/-- Float conditions, codes 0 to 11 (R53, R255). -/
inductive FCond where | eq | ne | lt | le | gt | ge | ult | ule | ugt | uge | un | ord
  deriving DecidableEq, Repr

/-- Load sizes (R217). -/
inductive LSize where | b | bz | h | hz | w | d | q
  deriving DecidableEq, Repr

/-- Store sizes (R217): sizes 1 and 3 exist only for loads. -/
inductive SSize where | b | h | w | d | q
  deriving DecidableEq, Repr

/-- Global atomic operations, fn 0 to 13 (R225). -/
inductive AtomOp where
  | add | min | max | minu | maxu | and | or | xor | exch | cas | fadd | xadd | addw | casw
  deriving DecidableEq, Repr

/-- Scratchpad atomic operations, fn 0 to 10 (R227). -/
inductive AtomSOp where
  | add | min | max | minu | maxu | and | or | xor | exch | cas | fadd
  deriving DecidableEq, Repr

/-- Scopes (R94). -/
inductive Scope where | group | block | course | device | system
  deriving DecidableEq, Repr

/-- Fence orders (R52, R103). -/
inductive Order where | acq | rel | ar | sc
  deriving DecidableEq, Repr

/-- Rounding modes of CVTFI and CVTFU (R260), and of FMT.RND (R73). -/
inductive RMode where | rne | rtz | rdn | rup
  deriving DecidableEq, Repr

/-- The memory form of MONARM and of ACCLD, ACCST and ACCSS (R295, R319). -/
inductive MemForm where
  | glob (c : Fin 16)
  | scratch
  | window
  deriving DecidableEq, Repr

/-- One set point an island controller orders (spec/17 R472, R473). -/
structure IslandSet where
  isl : Nat
  mhz : Nat
  mv : Nat
  deriving DecidableEq, Repr

/-- One width order for a link direction: link 4 × router + direction (spec/15 R443); width 0 full, 1 half, 2 quarter. -/
structure LinkOrder where
  link : Nat
  width : Nat
  deriving DecidableEq, Repr

/-- The contents of a fault report that the requester determines (spec/14 R413), with the memory-side die whose port met the page (R414). -/
structure FaultRec where
  ctx : Nat
  obj : Nat
  page : Nat
  access : Nat
  core : Nat
  part : Nat
  port : Nat
  deriving DecidableEq, Repr

/-- How a PCI Express completion ends (spec/14 R421, spec/16 R452). -/
inductive CplStatus where | success | unsupported | abort | poisoned
  deriving DecidableEq, Repr

/-- What the error correction finds in a sector read from memory (spec/14 R416). -/
inductive Ecc where | clean | corrected | uncorrectable
  deriving DecidableEq, Repr

/-- A discovery message of a Sahper Link peer (spec/16 R455). -/
structure DiscMsg where
  version : Nat
  domain : Nat
  package : Nat
  size : Nat
  port : Nat
  deriving DecidableEq, Repr

/-- A remote write or read as it reaches its target (spec/16 R457, R459). -/
structure RmaReq where
  tctx : Nat
  tobj : Nat
  off : Nat
  count : Nat
  tenant : Nat
  imm : Nat
  tag : Nat
  data : List Nat
  deriving DecidableEq, Repr

/-- How a remote request was answered (spec/16 R457, R460); a slab request or an atomic on a peer may also meet poison at its home (R416, R424). -/
inductive RmaStatus where | done | absent | tenant | rights | appendFailed | lost | poisoned
  deriving DecidableEq, Repr

/-- A privileged-channel request (spec/16 R461). -/
structure ChanReq where
  channel : Nat
  write : Bool
  addr : Nat
  count : Nat
  data : List Nat
  deriving DecidableEq, Repr

/-- A slab message between packages (spec/15 R440, R441). `slab` is global address bits [63:12]; `line` one of its 16 lines;
`reply` marks the answer to this package's own request for operation `tag`; `data` holds line bytes. -/
structure SlabMsg where
  slab : Nat
  line : Nat
  pkg : Nat
  ctx : Nat
  tenant : Nat
  reply : Bool
  tag : Nat
  refused : Option RmaStatus
  data : List Nat
  deriving DecidableEq, Repr

/-- An atomic on a peer's memory, and its answer (spec/14 R418, R424). -/
structure PeerAtomic where
  adr : Nat
  ctx : Nat
  tenant : Nat
  fn : Nat
  x : Nat
  y : Nat
  tag : Nat
  lane : Nat
  reply : Bool
  refused : Option RmaStatus
  value : Nat
  deriving DecidableEq, Repr

/-- A coherence message as it reaches a router (spec/15 R431, R432). `key` is the line address, or the slab address when
`slab`; `core` and `agent` (0 L1 or link agent, 1 copy, 2 matrix, 3 merge) name the requester; `router` is 32 × y + x;
`arr` is the arrival direction 0 N, 1 E, 2 S, 3 W, 4 local; `dirty` a mask of the two sectors carried dirty,
with bits 2 and 3 for those that L2 is to place as first candidates for eviction (R402). -/
structure TMsg where
  key : Nat
  slab : Bool
  sector : Nat
  core : Nat
  agent : Nat
  router : Nat
  arr : Nat
  hops : Nat
  dirty : Nat
  tag : Nat
  excl : Bool
  /-- the context that wrote the data of a write-back, and that of the access which evicts it -/
  ctx : Nat
  evict : Nat
  /-- the router, plus one, whose entry caught a read (R433); of a slab's message its proxy root -/
  top : Nat
  deriving DecidableEq, Repr

/-- A transaction-layer message delivered by a flit (spec/16 R453, R455, R457, R461; spec/15 R441). -/
inductive LinkMsg where
  | idle
  | discovery (m : DiscMsg)
  | rwri (r : RmaReq)
  | rrd (r : RmaReq)
  | rwriAck (tag : Nat) (st : RmaStatus)
  | rrdData (tag : Nat) (st : RmaStatus) (data : List Nat)
  | channel (r : ChanReq)
  | slabRead (m : SlabMsg)
  | slabExclusive (m : SlabMsg)
  | slabDowngrade (m : SlabMsg)
  | slabTeardown (m : SlabMsg)
  | atomic (m : PeerAtomic)
  | channelAnswer (channel : Nat) (ok : Bool) (data : List Nat)
  /-- a message between management engines, on channel 0 (R461, R467): SPDM code and body -/
  | mgmt (code : Nat) (body : List Nat)
  deriving DecidableEq, Repr

/-- One constructor per row of spec/opcode_table.json: 213 instruction words, then 138 events and operations. -/
inductive Instr where
  /-- NOP (R198). Does nothing. -/
  | nop
  /-- BRA (R199). Branches on a uniform predicate, optionally inverted, to an offset from the clause header. -/
  | bra (i : Bool) (q : Fin 8) (o : BitVec 21)
  /-- BRD (R183). Splits the active lanes by a lane predicate, runs the taken lanes first and pushes a deferred entry. -/
  | brd (i : Bool) (p : Fin 8) (o : BitVec 21)
  /-- PUSHJ (R182). Opens a divergence region by pushing a join entry with the join address, EM and FMT. -/
  | pushj (o : BitVec 21)
  /-- JOIN (R184). Ends the current path and pops the join stack to the next path or join address. -/
  | join
  /-- CALL (R200). Writes the fallthrough offset to s30 and transfers to the target. -/
  | call (o : BitVec 21)
  /-- RET (R200). Transfers to the offset held in a uniform register. -/
  | ret (a : RF)
  /-- BRX (R200). Transfers to s(a) + 4 × s(b). -/
  | brx (a : RF) (b : RF)
  /-- WBASE (R202). Moves the register window base. -/
  | wbase (i : BitVec 18)
  /-- MRD (R203). Reads the execution mask. -/
  | mrd (d : RF)
  /-- MWR (R203). Writes the execution mask, limited to live lanes. -/
  | mwr (a : RF)
  /-- MAND (R203). Ands the execution mask with a lane predicate. -/
  | mand (i : Bool) (p : Fin 8)
  /-- HRD (R203). Reads the helper mask. -/
  | hrd (d : RF)
  /-- FMTS (R204). Writes the format register. -/
  | fmts (a : RF)
  /-- FMTR (R204). Reads the format register. -/
  | fmtr (d : RF)
  /-- YIELD (R201). Waits on a flag or gives up the active-set place, then continues at the target. -/
  | yield (c : Option (Fin 12)) (o : BitVec 21)
  /-- EXIT (R185). Ends the active lanes, and the group when the join stack empties. -/
  | exit
  /-- TRAP (R206). Enters the trap handler with software trap cause and a code. -/
  | trap (i : BitVec 18)
  /-- TRET (R192). Leaves the handler and resumes at TPC for the lanes chosen. -/
  | tret
  /-- SRD (R195). Reads a special register. -/
  | srd (d : RF) (i : Fin 30)
  /-- SWR (R196). Writes a trap register in handler mode. -/
  | swr (a : RF) (i : Fin 30)
  /-- UCMP (R205). Compares two uniform registers into a uniform predicate. -/
  | ucmp (c : ICond) (q : Fin 8) (a : RF) (b : RF)
  /-- TCINV (R207). Drains the group's accesses and drops cached translations at every memory port. -/
  | tcinv (a : RF)
  /-- BRK (R206). Enters the trap handler with breakpoint cause. -/
  | brk
  /-- IADD (R246). Adds two integers modulo 2^32. -/
  | iadd (d : RF) (a : RF) (b : RF)
  /-- ISUB (R246). Subtracts two integers modulo 2^32. -/
  | isub (d : RF) (a : RF) (b : RF)
  /-- IMIN (R246). Signed minimum. -/
  | imin (d : RF) (a : RF) (b : RF)
  /-- IMAX (R246). Signed maximum. -/
  | imax (d : RF) (a : RF) (b : RF)
  /-- IMINU (R246). Unsigned minimum. -/
  | iminu (d : RF) (a : RF) (b : RF)
  /-- IMAXU (R246). Unsigned maximum. -/
  | imaxu (d : RF) (a : RF) (b : RF)
  /-- IABSD (R246). Exact absolute difference of signed values. -/
  | iabsd (d : RF) (a : RF) (b : RF)
  /-- IADDS (R246). Saturating signed addition. -/
  | iadds (d : RF) (a : RF) (b : RF)
  /-- ISUBS (R246). Saturating signed subtraction. -/
  | isubs (d : RF) (a : RF) (b : RF)
  /-- IMUL (R247). Multiplies modulo 2^32. -/
  | imul (d : RF) (a : RF) (b : RF)
  /-- IMULH (R247). High word of the signed product. -/
  | imulh (d : RF) (a : RF) (b : RF)
  /-- IMULHU (R247). High word of the unsigned product. -/
  | imulhu (d : RF) (a : RF) (b : RF)
  /-- IMAD (R247). Multiply-add modulo 2^32 into d. -/
  | imad (d : RF) (a : RF) (b : RF)
  /-- AND (R248). Bitwise and. -/
  | and (d : RF) (a : RF) (b : RF)
  /-- OR (R248). Bitwise or. -/
  | or (d : RF) (a : RF) (b : RF)
  /-- XOR (R248). Bitwise exclusive or. -/
  | xor (d : RF) (a : RF) (b : RF)
  /-- ANDN (R248). a and not b. -/
  | andn (d : RF) (a : RF) (b : RF)
  /-- ORN (R248). a or not b. -/
  | orn (d : RF) (a : RF) (b : RF)
  /-- XNOR (R248). Not of exclusive or. -/
  | xnor (d : RF) (a : RF) (b : RF)
  /-- SHL (R248). Shift left by a register count. -/
  | shl (d : RF) (a : RF) (b : RF)
  /-- SHR (R248). Logical shift right by a register count. -/
  | shr (d : RF) (a : RF) (b : RF)
  /-- SAR (R248). Arithmetic shift right by a register count. -/
  | sar (d : RF) (a : RF) (b : RF)
  /-- ROL (R248). Rotate left. -/
  | rol (d : RF) (a : RF) (b : RF)
  /-- ROR (R248). Rotate right. -/
  | ror (d : RF) (a : RF) (b : RF)
  /-- POPC (R248). Population count. -/
  | popc (d : RF) (a : RF)
  /-- CLZ (R248). Count leading zeros. -/
  | clz (d : RF) (a : RF)
  /-- CTZ (R248). Count trailing zeros. -/
  | ctz (d : RF) (a : RF)
  /-- BREV (R248). Bit reversal. -/
  | brev (d : RF) (a : RF)
  /-- BSWAP (R248). Byte swap. -/
  | bswap (d : RF) (a : RF)
  /-- BFE (R249). Signed bit-field extract. -/
  | bfe (d : RF) (a : RF) (b : RF)
  /-- BFEU (R249). Unsigned bit-field extract. -/
  | bfeu (d : RF) (a : RF) (b : RF)
  /-- BFI (R249). Bit-field insert. -/
  | bfi (d : RF) (a : RF) (b : RF)
  /-- ICMP (R250). Compares integers into a lane predicate. -/
  | icmp (c : ICond) (p : Fin 8) (a : RF) (b : RF)
  /-- SEL (R251). Selects a or b by a lane predicate. -/
  | sel (p : Fin 8) (d : RF) (a : RF) (b : RF)
  /-- MOV (R251). Moves a register. -/
  | mov (d : RF) (a : RF)
  /-- PMOV (R251). Moves a lane predicate into a register as 0 or 1. -/
  | pmov (d : RF) (p : Fin 8)
  /-- MOVP (R251). Sets a lane predicate from a non-zero register. -/
  | movp (p : Fin 8) (a : RF)
  /-- ADDI (R252). Adds a signed immediate. -/
  | addi (d : RF) (a : RF) (i : BitVec 11)
  /-- ANDI (R252). Ands a zero-extended immediate. -/
  | andi (d : RF) (a : RF) (i : BitVec 11)
  /-- ORI (R252). Ors a zero-extended immediate. -/
  | ori (d : RF) (a : RF) (i : BitVec 11)
  /-- XORI (R252). Exclusive-ors a zero-extended immediate. -/
  | xori (d : RF) (a : RF) (i : BitVec 11)
  /-- SHLI (R252). Shift left by an immediate count. -/
  | shli (d : RF) (a : RF) (n : Fin 32)
  /-- SHRI (R252). Logical shift right by an immediate count. -/
  | shri (d : RF) (a : RF) (n : Fin 32)
  /-- SARI (R252). Arithmetic shift right by an immediate count. -/
  | sari (d : RF) (a : RF) (n : Fin 32)
  /-- ICMPI (R250). Compares an integer with a signed immediate into a lane predicate. -/
  | icmpi (p : Fin 8) (a : RF) (c : ICond) (i : BitVec 7)
  /-- MULI (R252). Multiplies by a signed immediate. -/
  | muli (d : RF) (a : RF) (i : BitVec 11)
  /-- MOVI (R252). Loads a sign-extended 18-bit immediate. -/
  | movi (d : RF) (i : BitVec 18)
  /-- MOVHI (R252). Writes an immediate to bits [31:14], keeping the low bits. -/
  | movhi (d : RF) (i : BitVec 18)
  /-- FADD (R254). FP32 addition. -/
  | fadd (d : RF) (a : RF) (b : RF)
  /-- FSUB (R254). FP32 subtraction. -/
  | fsub (d : RF) (a : RF) (b : RF)
  /-- FMUL (R254). FP32 multiplication. -/
  | fmul (d : RF) (a : RF) (b : RF)
  /-- FFMA (R254). FP32 fused multiply-add into d. -/
  | ffma (d : RF) (a : RF) (b : RF)
  /-- FFMS (R254). FP32 fused multiply-subtract of d. -/
  | ffms (d : RF) (a : RF) (b : RF)
  /-- FMIN (R254). FP32 minimum. -/
  | fmin (d : RF) (a : RF) (b : RF)
  /-- FMAX (R254). FP32 maximum. -/
  | fmax (d : RF) (a : RF) (b : RF)
  /-- FDIV (R254). Correctly rounded FP32 division. -/
  | fdiv (d : RF) (a : RF) (b : RF)
  /-- FABS (R254). Clears the sign bit. -/
  | fabs (d : RF) (a : RF)
  /-- FNEG (R254). Inverts the sign bit. -/
  | fneg (d : RF) (a : RF)
  /-- FCPYS (R254). Magnitude of a with the sign of b. -/
  | fcpys (d : RF) (a : RF) (b : RF)
  /-- FCMP (R255). Compares FP32 values into a lane predicate. -/
  | fcmp (c : FCond) (p : Fin 8) (a : RF) (b : RF)
  /-- FRCP (R256). Correctly rounded reciprocal. -/
  | frcp (d : RF) (a : RF)
  /-- FRSQ (R256). Correctly rounded reciprocal square root. -/
  | frsq (d : RF) (a : RF)
  /-- FSQRT (R256). Correctly rounded square root. -/
  | fsqrt (d : RF) (a : RF)
  /-- FEXP2 (R256). Correctly rounded 2^x. -/
  | fexp2 (d : RF) (a : RF)
  /-- FLOG2 (R256). Correctly rounded log2. -/
  | flog2 (d : RF) (a : RF)
  /-- FSINPI (R256). Correctly rounded sin(pi x). -/
  | fsinpi (d : RF) (a : RF)
  /-- FCOSPI (R256). Correctly rounded cos(pi x). -/
  | fcospi (d : RF) (a : RF)
  /-- FTANH (R256). Correctly rounded tanh. -/
  | ftanh (d : RF) (a : RF)
  /-- FRNE (R257). Rounds to an integral value, ties to even. -/
  | frne (d : RF) (a : RF)
  /-- FRTZ (R257). Rounds to an integral value toward zero. -/
  | frtz (d : RF) (a : RF)
  /-- FFLR (R257). Rounds to an integral value toward minus infinity. -/
  | fflr (d : RF) (a : RF)
  /-- FCEIL (R257). Rounds to an integral value toward plus infinity. -/
  | fceil (d : RF) (a : RF)
  /-- HADD2 (R258). Packed 16-bit float addition. -/
  | hadd2 (d : RF) (a : RF) (b : RF)
  /-- HMUL2 (R258). Packed 16-bit float multiplication. -/
  | hmul2 (d : RF) (a : RF) (b : RF)
  /-- HFMA2 (R258). Packed 16-bit fused multiply-add. -/
  | hfma2 (d : RF) (a : RF) (b : RF)
  /-- HMIN2 (R258). Packed 16-bit minimum. -/
  | hmin2 (d : RF) (a : RF) (b : RF)
  /-- HMAX2 (R258). Packed 16-bit maximum. -/
  | hmax2 (d : RF) (a : RF) (b : RF)
  /-- CVTFI (R260). FP32 to signed INT32 with a rounding mode in b. -/
  | cvtfi (d : RF) (a : RF) (m : RMode)
  /-- CVTFU (R260). FP32 to unsigned 32-bit with a rounding mode in b. -/
  | cvtfu (d : RF) (a : RF) (m : RMode)
  /-- CVTIF (R259). Signed integer to FP32. -/
  | cvtif (d : RF) (a : RF)
  /-- CVTUF (R259). Unsigned integer to FP32. -/
  | cvtuf (d : RF) (a : RF)
  /-- CVTFN (R261). Two FP32 values to two narrow elements of format AF. -/
  | cvtfn (d : RF) (a : RF) (b : RF)
  /-- CVTNF (R259). One narrow element to FP32 exactly. -/
  | cvtnf (d : RF) (a : RF) (b : RF)
  /-- CVTNFH (R262). Two narrow elements to two 16-bit elements of format BF. -/
  | cvtnfh (d : RF) (a : RF) (b : RF)
  /-- CVTFC (R263). FP32 to an E8M0 scale byte. -/
  | cvtfc (d : RF) (a : RF)
  /-- CVTCF (R259). An E8M0 byte to FP32. -/
  | cvtcf (d : RF) (a : RF) (b : RF)
  /-- CVTFNT (R78). Two FP32 values to a narrow float format with truncation. -/
  | cvtfnt (d : RF) (a : RF) (b : RF)
  /-- QSWH (R265). Horizontal swap within a quad. -/
  | qswh (d : RF) (a : RF)
  /-- QSWV (R265). Vertical swap within a quad. -/
  | qswv (d : RF) (a : RF)
  /-- QSWD (R265). Diagonal swap within a quad. -/
  | qswd (d : RF) (a : RF)
  /-- QBC (R265). Broadcast of one quad lane within each quad. -/
  | qbc (d : RF) (a : RF) (n : Fin 4)
  /-- SHFLI (R266). Shuffle from an indexed lane. -/
  | shfli (d : RF) (a : RF) (b : RF)
  /-- SHFLU (R266). Shuffle up by c lanes. -/
  | shflu (d : RF) (a : RF) (b : RF)
  /-- SHFLD (R266). Shuffle down by c lanes. -/
  | shfld (d : RF) (a : RF) (b : RF)
  /-- SHFLX (R266). Shuffle by exclusive-or of the lane number. -/
  | shflx (d : RF) (a : RF) (b : RF)
  /-- VANY (R267). Sets a uniform predicate when any present lane holds the predicate. -/
  | vany (q : Fin 8) (i : Bool) (p : Fin 8)
  /-- VALL (R267). Sets a uniform predicate when every present lane holds the predicate. -/
  | vall (q : Fin 8) (i : Bool) (p : Fin 8)
  /-- VBAL (R267). Writes the ballot mask of the predicate over present lanes. -/
  | vbal (d : RF) (i : Bool) (p : Fin 8)
  /-- RDADD (R268). Integer sum over present lanes. -/
  | rdadd (d : RF) (a : RF)
  /-- RDMIN (R268). Signed minimum over present lanes. -/
  | rdmin (d : RF) (a : RF)
  /-- RDMAX (R268). Signed maximum over present lanes. -/
  | rdmax (d : RF) (a : RF)
  /-- RDAND (R268). Bitwise and over present lanes. -/
  | rdand (d : RF) (a : RF)
  /-- RDOR (R268). Bitwise or over present lanes. -/
  | rdor (d : RF) (a : RF)
  /-- RDXOR (R268). Bitwise exclusive or over present lanes. -/
  | rdxor (d : RF) (a : RF)
  /-- RDFADD (R84). FP32 sum over the fixed lane tree. -/
  | rdfadd (d : RF) (a : RF)
  /-- MOVXR (R269). Reads a lane's own register at base plus an index. -/
  | movxr (d : RF) (a : RF) (b : RF)
  /-- MOVXW (R269). Writes a lane's own register at base plus an index. -/
  | movxw (d : RF) (a : RF) (b : RF)
  /-- HMIX (R271). Fixed 32-bit hash of two operands. -/
  | hmix (d : RF) (a : RF) (b : RF)
  /-- PRMT (R272). Assembles a word from bytes of two registers under a selector in d. -/
  | prmt (d : RF) (a : RF) (b : RF)
  /-- ADDW (R253). 64-bit addition of register pairs. -/
  | addw (d : RF) (a : RF) (b : RF)
  /-- SUBW (R253). 64-bit subtraction of register pairs. -/
  | subw (d : RF) (a : RF) (b : RF)
  /-- MULW (R253). Exact signed 64-bit product. -/
  | mulw (d : RF) (a : RF) (b : RF)
  /-- MULWU (R253). Exact unsigned 64-bit product. -/
  | mulwu (d : RF) (a : RF) (b : RF)
  /-- SHLW (R253). 64-bit shift left. -/
  | shlw (d : RF) (a : RF) (b : RF)
  /-- SHRW (R253). 64-bit logical shift right. -/
  | shrw (d : RF) (a : RF) (b : RF)
  /-- LD (R219). Loads from global memory through a capability. -/
  | ld (h : Bool) (z : LSize) (d : RF) (a : RF) (c : Fin 16)
  /-- LDA (R219). Acquiring load from global memory at a scope. -/
  | lda (h : Bool) (z : LSize) (d : RF) (a : RF) (k : Scope) (c : Fin 16)
  /-- ST (R220). Stores to global memory through a capability. -/
  | st (h : Bool) (z : SSize) (d : RF) (a : RF) (c : Fin 16)
  /-- STL (R220). Releasing store to global memory at a scope. -/
  | stl (h : Bool) (z : SSize) (d : RF) (a : RF) (k : Scope) (c : Fin 16)
  /-- LDS (R219). Loads from the block's scratchpad. -/
  | lds (h : Bool) (z : LSize) (d : RF) (a : RF) (b : RF)
  /-- STS (R220). Stores to the block's scratchpad. -/
  | sts (h : Bool) (z : SSize) (d : RF) (a : RF) (b : RF)
  /-- LDW (R219). Loads through the course window. -/
  | ldw (h : Bool) (z : LSize) (d : RF) (a : RF)
  /-- STW (R220). Stores through the course window. -/
  | stw (h : Bool) (z : SSize) (d : RF) (a : RF)
  /-- ATOM (R226). Unordered atomic on global memory. -/
  | atom (f : AtomOp) (d : RF) (a : RF) (c : Fin 16)
  /-- ATOMA (R226). Acquiring atomic on global memory. -/
  | atoma (f : AtomOp) (d : RF) (a : RF) (k : Scope) (c : Fin 16)
  /-- ATOML (R226). Releasing atomic on global memory. -/
  | atoml (f : AtomOp) (d : RF) (a : RF) (k : Scope) (c : Fin 16)
  /-- ATOMR (R226). Acquire-release atomic on global memory. -/
  | atomr (f : AtomOp) (d : RF) (a : RF) (k : Scope) (c : Fin 16)
  /-- ATOMS (R227). Atomic on the block's own scratchpad. -/
  | atoms (f : AtomSOp) (d : RF) (a : RF) (b : RF)
  /-- FENCE (R103). Orders the group's accesses by order and scope. -/
  | fence (r : Order) (k : Scope)
  /-- CAPLD (R210). Makes a capability from an object handle via the object table. -/
  | capld (e : Fin 16) (a : RF)
  /-- CAPNAR (R211). Narrows a capability to a sub-range. -/
  | capnar (e : Fin 16) (a : RF) (c : Fin 16)
  /-- CAPRD (R213). Reads a capability into four registers. -/
  | caprd (d : RF) (c : Fin 16)
  /-- CAPRR (R212). Removes rights from a capability. -/
  | caprr (e : Fin 16) (a : RF) (c : Fin 16)
  /-- DISCARD (R234). Marks whole pages of an object dead. -/
  | discard (a : RF) (c : Fin 16)
  /-- PREF (R235). Prefetches a range into L2 and arrives on a barrier when done. -/
  | pref (a : RF) (c : Fin 16)
  /-- CPYGS (R277). Copies global memory into the block's scratchpad. -/
  | cpygs (q : Fin 8) (a : RF) (c : Fin 16)
  /-- CPYSG (R277). Copies scratchpad to global memory. -/
  | cpysg (q : Fin 8) (e : Fin 16) (a : RF)
  /-- CPYSW (R277). Copies scratchpad to a course-window address. -/
  | cpysw (q : Fin 8) (a : RF)
  /-- CPYGG (R277). Copies global memory to global memory. -/
  | cpygg (q : Fin 8) (e : Fin 16) (a : RF) (c : Fin 16)
  /-- CPYX (R281). Gathers global rows into scratchpad through an index list. -/
  | cpyx (q : Fin 8) (a : RF) (c : Fin 16)
  /-- BARINIT (R288). Initialises a barrier object's counts. -/
  | barinit (a : RF)
  /-- BARARR (R289). Arrives on a barrier, optionally declaring bytes. -/
  | bararr (a : RF)
  /-- BARWAIT (R290). Waits for a barrier phase to complete. -/
  | barwait (q : Fin 8) (a : RF)
  /-- BARTRY (R291). Tests a barrier phase without waiting. -/
  | bartry (d : RF) (a : RF) (x : Bool)
  /-- MONARM (R295). Arms a monitor on a word with a compare value. -/
  | monarm (i : Fin 4) (a : RF) (f : MemForm)
  /-- MONWAIT (R297). Waits for a monitor to fire and returns the value. -/
  | monwait (d : RF) (i : Fin 4)
  /-- MONCLR (R298). Disarms a monitor. -/
  | monclr (i : Fin 4)
  /-- MMA (R310). Multiplies A by B and accumulates into 32 accumulator rows. -/
  | mma (r : Bool) (z : Bool) (t : Bool) (d : RF) (a : RF) (b : RF)
  /-- ACCZ (R321). Zeroes accumulator rows. -/
  | accz (a : RF)
  /-- ACCLD (R320). Loads accumulator rows from memory. -/
  | accld (a : RF) (f : MemForm)
  /-- ACCST (R320). Stores accumulator rows to memory. -/
  | accst (a : RF) (f : MemForm)
  /-- ACCSS (R322). Converts accumulator rows to a narrow format, optionally scaled, and stores them. -/
  | accss (a : RF) (f : MemForm)
  /-- ACCXA (R324). Adds FP32 values or combines cells into exact cells. -/
  | accxa (d : RF) (a : RF) (m : Bool)
  /-- ACCXR (R325). Reads exact cells as FP32, optionally clearing them. -/
  | accxr (d : RF) (a : RF) (m : Bool)
  /-- ACCCP (R321). Copies accumulator rows within the region. -/
  | acccp (a : RF)
  /-- CBLD (R317). Loads a codebook slot from global memory. -/
  | cbld (n : Fin 8) (a : RF) (c : Fin 16)
  /-- LDSB (R318). Loads A operands with interleaved block scales into lane registers. -/
  | ldsb (n : Fin 16) (d : RF) (a : RF) (c : Fin 16)
  /-- WSET (R338). Validates a loop-nest descriptor into a slot. -/
  | wset (n : Bool) (a : RF)
  /-- WGO (R339). Starts a walk from a descriptor slot. -/
  | wgo (n : Bool)
  /-- QPOP (R343). Pops the oldest entry of an operand queue. -/
  | qpop (q : Fin 4) (d : RF)
  /-- WSTOP (R342). Removes every walk and discards queued entries. -/
  | wstop
  /-- WSTAT (R342). Reads the walker status word. -/
  | wstat (d : RF)
  /-- SQRES (R359). Reserves up to n positions in one brick of a sequence. -/
  | sqres (d : RF) (a : RF)
  /-- SQCOM (R362). Commits a range of reserved positions and advances CLEN and the window. -/
  | sqcom (a : RF)
  /-- SQAPP (R360). Reserves exactly n positions, one slot per lane. -/
  | sqapp (d : RF) (a : RF) (b : RF)
  /-- SQLEN (R363). Reads the committed length with acquire. -/
  | sqlen (d : RF) (a : RF)
  /-- SQRLEN (R363). Reads the reserved length. -/
  | sqrlen (d : RF) (a : RF)
  /-- SQWLO (R363). Reads the window low. -/
  | sqwlo (d : RF) (a : RF)
  /-- SQMAP (R364). Translates positions to slot displacements per lane. -/
  | sqmap (d : RF) (a : RF) (b : RF)
  /-- SQFORK (R366). Makes a new sequence sharing a committed prefix of a parent. -/
  | sqfork (d : RF) (a : RF)
  /-- SQNEW (R365). Creates an empty sequence. -/
  | sqnew (d : RF) (a : RF)
  /-- SQREL (R368). Releases a sequence and its bricks. -/
  | sqrel (a : RF)
  /-- SQWIN (R369). Sets a sequence's window length and advances the window. -/
  | sqwin (a : RF)
  /-- SQTAKE (R370). Advances the consumer cursor over committed positions. -/
  | sqtake (d : RF) (a : RF)
  /-- SQSEAL (R371). Seals a sequence against further reservations. -/
  | sqseal (a : RF)
  /-- FLPOP (R372). Pops a brick from a free list. -/
  | flpop (d : RF) (a : RF)
  /-- FLPUSH (R372). Pushes a brick onto a free list. -/
  | flpush (a : RF)
  /-- FLCNT (R372). Reads a free list's count. -/
  | flcnt (d : RF) (a : RF)
  /-- MGMATCH (R384). Pairs tokens by key similarity and selects the best r pairs. -/
  | mgmatch (d : RF) (a : RF)
  /-- MGMERGE (R386). Merges selected pairs and pushes an unmerge map. -/
  | mgmerge (d : RF) (a : RF)
  /-- MGSPLIT (R390). Restores original positions through the top map. -/
  | mgsplit (a : RF)
  /-- MGBIAS (R392). Writes the log2 size bias of merged tokens. -/
  | mgbias (a : RF)
  /-- MGPOP (R391). Discards the top map of the stack. -/
  | mgpop (a : RF)
  /-- MGSTAT (R393). Reads the state of a map stack. -/
  | mgstat (d : RF) (a : RF)
  /-- LAUNCH (R160). Appends a launch record to a device-fed queue and later returns its token. -/
  | launch (d : RF) (a : RF) (c : Fin 16)
  /-- LWAIT (R161). Waits for a launch token and returns its status. -/
  | lwait (d : RF) (a : RF)
  /-- LSTAT (R162). Tests a launch token without waiting. -/
  | lstat (d : RF) (a : RF)
  /-- RWRI (R459). Remote write with immediate to another package. -/
  | rwri (a : RF) (c : Fin 16)
  /-- RRD (R459). Remote read from another package into scratchpad. -/
  | rrd (a : RF) (c : Fin 16)
  /-- CLAUSE_FETCH (R37). A clause fetch completes and its fetch, header and placement checks are made. -/
  | clauseFetch (g : Nat)
  /-- CLAUSE_ACCEPT (R18). A clause whose WAIT flags have all cleared is accepted and begins to issue. -/
  | clauseAccept (g : Nat)
  /-- DEFERRED_TRAP (R191). A waiting deferred fault is taken at the group's next issue. -/
  | deferredTrap (g : Nat)
  /-- GROUP_AGED (R173). A group ready and unissued for 256 cycles becomes aged. -/
  | groupAged (g : Nat)
  /-- PENDING_AGE_SWAP (R174). A pending group ready for 256 cycles swaps into the active set. -/
  | pendingAgeSwap (g : Nat)
  /-- SWAP (R174). A long-wait, deschedule, voluntary or free-place swap starts. -/
  | swap (inn : Nat) (out : Option Nat)
  /-- SWAP_DONE (R174). A two-cycle swap completes. -/
  | swapDone (inn : Nat) (out : Option Nat)
  /-- WAIT_EVENT_WAKE (R177). The event of a scheduler-visible wait reaches the core and the group becomes ready. -/
  | waitEventWake (g : Nat)
  /-- FAR_CHECK_REPORT (R170). A far check reports success or failure, clearing or trapping the access. -/
  | farCheckReport (op : Nat)
  /-- LOAD_DATA_RETURN (R219). A load's value arrives and its destination and flag update. -/
  | loadDataReturn (op : Nat)
  /-- ATOMIC_RETURN (R226). An atomic's returned values arrive. -/
  | atomicReturn (op : Nat)
  /-- ATOMIC_RESULT_LOST (R420). An applied atomic's response is lost and a deferred trap is queued. -/
  | atomicResultLost (op : Nat)
  /-- CAPLD_ENTRY_RETURN (R210). CAPLD's object-entry read returns and the capability is written. -/
  | capldEntryReturn (op : Nat)
  /-- FENCE_SC_COMPLETE (R105). An sc fence completes at the second tick after its drain and enters the sc order. -/
  | fenceScComplete (op : Nat)
  /-- TCINV_COMPLETE (R207). All sixteen ports have acknowledged a TCINV. -/
  | tcinvComplete (op : Nat)
  /-- PREF_ARRIVAL (R235). Every line of a PREF is filled or skipped and it arrives on its barrier. -/
  | prefArrival (op : Nat)
  /-- RECLAIM_COMPLETE (R238). A reclaim of lent L1 space ends and the block may start. -/
  | reclaimComplete (core : Nat)
  /-- COPY_COMPLETE (R274). A copy command completes, applying its barrier decrement. -/
  | copyComplete (op : Nat)
  /-- SEAM_COMPLETION_MESSAGE (R287). A seam barrier's completion reaches the other half, which wakes waiters and acknowledges. -/
  | seamCompletionMessage (blk : Nat) (off : Nat)
  /-- SEAM_COMPLETION_ACK (R287). The acknowledgement of a seam half-phase arrives and the phase completes. -/
  | seamCompletionAck (blk : Nat) (off : Nat)
  /-- MONITOR_REREAD (R296). A monitored line leaves the copy engine or word is written and the word is read again. -/
  | monitorReread (g : Nat) (i : Nat)
  /-- MATRIX_COMMAND_COMPLETE (R310). A matrix-engine command completes. -/
  | matrixCommandComplete (op : Nat)
  /-- WALKER_READ_RETURN (R340). A walker read returns and its entry may enter its queue. -/
  | walkerReadReturn (g : Nat) (ent : Nat)
  /-- PROBE_TIMEOUT (R335). A residency probe is unanswered after 64 cycles and ranks 2. -/
  | probeTimeout (g : Nat)
  /-- SEQUENCE_ANSWER (R357). A serving instance's answer reaches the group and completes the instruction. -/
  | sequenceAnswer (op : Nat)
  /-- MERGE_COMMAND_COMPLETE (R381). A merge command completes. -/
  | mergeCommandComplete (op : Nat)
  /-- PACKAGE_TICK (R35). The package heartbeat ticks every 128 fabric cycles. -/
  | packageTick
  /-- SYSTEM_TICK (R35). Every eighth package tick, aligned across packages. -/
  | systemTick
  /-- ROTATION (R136). A mapped queue whose tenure reaches its quantum is moved back to IW. -/
  | rotation (ctx : Nat) (qn : Nat)
  /-- SPILL_COMPLETE (R153). A course's spill ends and its context image becomes complete. -/
  | spillComplete (course : Nat)
  /-- PREDICTOR_DECAY (R419). Every 64th package tick, contention-predictor counters fall by one. -/
  | predictorDecay
  /-- MAPPING_BOUND_EXCEEDED (R137). A queue stays in IW past its mapping bound and is logged. -/
  | mappingBoundExceeded (ctx : Nat) (qn : Nat)
  /-- RECORD_ACCEPT (R130). The launch engine accepts a committed record and checks it. -/
  | recordAccept (ctx : Nat) (qn : Nat)
  /-- LAUNCH_COMPLETE (R156). A launch completes, appends its record, sets ERR and counts the completion. -/
  | launchComplete (launch : Nat)
  /-- BLOCK_RETIRE (R155). A block retires and its pool is released. -/
  | blockRetire (blk : Nat)
  /-- DIE_FATAL_FAILURE (R159). A compute die fails fatally and its blocks are lost. -/
  | dieFatalFailure (die : Nat)
  /-- RESERVE (R124). Doorbell reserve of host positions in a queue. -/
  | reserve (ctx : Nat) (qn : Nat) (n : Nat)
  /-- COMMIT (R124). Doorbell commit of the oldest host-reserved positions. -/
  | commit (ctx : Nat) (qn : Nat) (n : Nat)
  /-- REFRESH (R121). Doorbell refresh of a queue-table entry. -/
  | refresh (ctx : Nat) (qn : Nat)
  /-- REPLAY_PAGE (R415). Replay register write replaying one page. -/
  | replayPage (ctx : Nat) (obj : Nat) (page : Nat)
  /-- REPLAY_CONTEXT (R415). Replay register write replaying every page of a context. -/
  | replayContext (ctx : Nat)
  /-- STATUS (R466). Mailbox command returning the management state and island table. -/
  | status
  /-- CTXREG (R466). Mailbox command registering a context. -/
  | ctxreg
  /-- SEQAREA (R348). Mailbox command registering and preparing the sequence area and map pool. -/
  | seqarea
  /-- FLSET (R466). Mailbox command setting a free list's pool and brick size. -/
  | flset
  /-- OBJTAB (R477). Mailbox command registering an object table and its region. -/
  | objtab
  /-- FAULTSEQ (R413). Mailbox command registering the fault-report sequence. -/
  | faultseq
  /-- NOTETAB (R458). Mailbox command registering the notification table. -/
  | notetab
  /-- QUANTUM (R136). Mailbox command setting a class's rotation quantum. -/
  | quantum
  /-- TCLIMSET (R446). Mailbox command setting a router's tree-cache limit. -/
  | tclimset
  /-- DOMAIN (R455). Mailbox command setting the domain values. -/
  | domain
  /-- PROTDOM (R461). Mailbox command setting a privileged channel's protection domain. -/
  | protdom
  /-- POISONDEL (R417). Mailbox command removing a poison-table entry. -/
  | poisondel
  /-- CNTREAD (R466). Mailbox command copying counters into ARGS. -/
  | cntread
  /-- LOGROT (R471). Mailbox command sealing the log and making a new log object. -/
  | logrot
  /-- LOGREAD (R466). Mailbox command returning records of the error log. -/
  | logread
  /-- PWRLIM (R473). Mailbox command setting the package power limit. -/
  | pwrlim
  /-- PORTRST (R454). Mailbox command resetting a failed link port. -/
  | portrst
  /-- DIEUP (R466). Mailbox command returning a die to service. -/
  | dieup
  /-- CTXREL (R466). Mailbox command unregistering a context. -/
  | ctxrel
  /-- SQCREATE (R365). Mailbox command creating a sequence without a running group. -/
  | sqcreate
  /-- FLFILL (R372). Mailbox command pushing a run of bricks onto a free list. -/
  | flfill
  /-- SQDEL (R368). Mailbox command releasing a sequence, launch queues included. -/
  | sqdel
  /-- REGISTER_WRITE (R449). A host write to a BAR0 register with no behaviour of its own, or ignored. -/
  | registerWrite (off : Nat) (size : Nat) (val : Nat)
  /-- HOST_APERTURE_READ (R450). A host read through a BAR2 aperture. -/
  | hostApertureRead (off : Nat) (size : Nat)
  /-- HOST_APERTURE_WRITE (R450). A host write through a BAR2 aperture. -/
  | hostApertureWrite (off : Nat) (bytes : List Nat)
  /-- HOST_ATOMICOP_RECEIVED (R448). An AtomicOp from the host is completed with Unsupported Request. -/
  | hostAtomicopReceived (tag : Nat)
  /-- GET_VERSION (R467). SPDM GET_VERSION request. -/
  | getVersion (ch : Nat)
  /-- GET_CAPABILITIES (R467). SPDM GET_CAPABILITIES request. -/
  | getCapabilities (ch : Nat)
  /-- NEGOTIATE_ALGORITHMS (R467). SPDM NEGOTIATE_ALGORITHMS request. -/
  | negotiateAlgorithms (ch : Nat) (sigs : List Nat) (hashes : List Nat)
  /-- GET_DIGESTS (R467). SPDM GET_DIGESTS request. -/
  | getDigests (ch : Nat)
  /-- GET_CERTIFICATE (R467). SPDM GET_CERTIFICATE request. -/
  | getCertificate (ch : Nat) (slot : Nat) (off : Nat) (len : Nat)
  /-- CHALLENGE (R467). SPDM CHALLENGE request. -/
  | challenge (ch : Nat) (slot : Nat) (nonce : Nat)
  /-- GET_MEASUREMENTS (R467). SPDM GET_MEASUREMENTS request. -/
  | getMeasurements (ch : Nat) (idx : Nat) (nonce : Nat)
  /-- PACKAGE_RESET (R463). Power-on or package reset starts the boot ROM check. -/
  | packageReset
  /-- SELFTEST_COMPLETE (R463). Self-test ends and the package goes to READY or SAFE. -/
  | selftestComplete (code : Nat) (repaired : Nat)
  /-- POWER_CONTROL (R473). Every 10 µs the island controllers adjust island frequencies to PWRLIM. -/
  | powerControl (isl : List IslandSet) (links : List LinkOrder)
  /-- THERMAL_THROTTLE (R473). A junction nears 105 °C and the island is throttled. -/
  | thermalThrottle (isl : Nat)
  /-- DIE_OVERHEAT (R473). A junction reaches 115 °C and the die is taken out of service. -/
  | dieOverheat (die : Nat)
  /-- PORT_CHECK (R406). A request enters a slice and is checked and translated at the memory port. -/
  | portCheck (op : Nat) (line : Nat)
  /-- FAULT_REPORT (R414). A missing-page fault reaches its reporting slice, which appends one record. -/
  | faultReport (r : FaultRec)
  /-- HBM_READ_COMPLETE (R416). A memory read returns, corrected, or failing as uncorrectable and poisoned. -/
  | hbmReadComplete (line : Nat) (sector : Nat) (ecc : Ecc)
  /-- FAR_ATOMIC (R420). A far atomic is applied at the home atomic unit. -/
  | farAtomic (op : Nat) (lane : Nat)
  /-- HOST_ATOMIC (R421). The host bridge takes an atomic on host memory and sends an AtomicOp or falls back. -/
  | hostAtomic (op : Nat) (lane : Nat)
  /-- ATOMICOP_COMPLETION (R421). An AtomicOp completion arrives; a refusal leads to the fallback or a trap. -/
  | atomicopCompletion (op : Nat) (lane : Nat) (st : CplStatus) (val : Nat)
  /-- SLICE_TCINV (R410). A slice receives a TCINV block and stops translating the pages. -/
  | sliceTcinv (op : Nat) (slice : Nat)
  /-- SLICE_TCINV_DRAINED (R410). Earlier translated requests are performed; the slice tears down, writes back, drops and acknowledges. -/
  | sliceTcinvDrained (op : Nat) (slice : Nat)
  /-- PCIE_COMPLETION (R452). A completion for a device request through the bridge arrives. -/
  | pcieCompletion (op : Nat) (lane : Nat) (st : CplStatus) (val : Nat)
  /-- COMPLETION_TIMEOUT (R452). A bridge request has no completion after 50 ms and fails with link error. -/
  | completionTimeout (op : Nat) (lane : Nat)
  /-- PCIE_LINK_DOWN (R452). The PCI Express link goes down and in-flight accesses fail. -/
  | pcieLinkDown
  /-- PCIE_LINK_UP (R452). The PCI Express link comes up again. -/
  | pcieLinkUp
  /-- LINK_TRAINED (R454). A port's electrical link trains and it enters DISCOVER. -/
  | linkTrained (port : Nat)
  /-- DISCOVERY (R455). A discovery message is received and the port becomes a domain or remote port. -/
  | discovery (port : Nat) (m : DiscMsg)
  /-- FLIT_RECEIVED (R453). A link flit arrives and is delivered or dropped with NAK. -/
  | flitReceived (port : Nat) (seq : Nat) (ack : Nat) (crcOk : Bool) (msg : LinkMsg)
  /-- NAK (R453). A NAK arrives and the sender resends from the flit after the last good one. -/
  | nak (port : Nat) (last : Nat)
  /-- ACK_TIMEOUT (R453). No acknowledgement for 8 µs and the sender resends. -/
  | ackTimeout (port : Nat)
  /-- LOSS_OF_SIGNAL (R454). A port loses signal and enters RETRAIN. -/
  | lossOfSignal (port : Nat)
  /-- RETRAIN_COMPLETE (R454). Retraining ends and the port returns to DISCOVER or enters FAILED. -/
  | retrainComplete (port : Nat)
  /-- INBOUND_RWRI (R459). An RWRI arrives at the target, is checked, written and notified. -/
  | inboundRwri (port : Nat) (r : RmaReq)
  /-- INBOUND_RRD (R459). An RRD arrives at the target, is checked and read. -/
  | inboundRrd (port : Nat) (r : RmaReq)
  /-- RWRI_ACK (R459). The target's acknowledgement of an RWRI arrives and the command completes. -/
  | rwriAck (op : Nat) (st : RmaStatus)
  /-- RRD_DATA (R459). RRD data arrives, is written to scratchpad and the barrier decremented. -/
  | rrdData (op : Nat) (st : RmaStatus) (data : List Nat)
  /-- CHANNEL_REQUEST (R461). An inbound privileged channel request is checked against its protection domain. -/
  | channelRequest (port : Nat) (r : ChanReq)
  /-- SLAB_READ (R441). A slab read request from another package reaches the slab root. -/
  | slabRead (port : Nat) (m : SlabMsg)
  /-- SLAB_EXCLUSIVE (R441). A request for a slab exclusive reaches the slab root, which tears down other holders. -/
  | slabExclusive (port : Nat) (m : SlabMsg)
  /-- SLAB_DOWNGRADE (R441). A downgrade request reaches an exclusive package's proxy root. -/
  | slabDowngrade (port : Nat) (m : SlabMsg)
  /-- SLAB_TEARDOWN (R441). A slab teardown request reaches a proxy root, which invalidates the slab's lines. -/
  | slabTeardown (port : Nat) (m : SlabMsg)
  /-- RD (R433). A read of one sector travels toward the root, installing or catching entries. -/
  | rd (m : TMsg)
  /-- XREQ (R435). An ownership request reaches the root, which tears down other holders. -/
  | xreq (m : TMsg)
  /-- SRD_STEERED_READ (R433). A steered read moves along tree links to a holder that supplies the sector. -/
  | srdSteeredRead (m : TMsg)
  /-- INV (R432). An invalidation travels down child links. -/
  | inv (m : TMsg)
  /-- TKEEP (R432). An invalidation beside the requester's path keeps that path. -/
  | tkeep (m : TMsg)
  /-- GRANT (R432). Ownership is granted down the requester's path with data. -/
  | grant (m : TMsg)
  /-- DATA (R432). Data reaches the requester and its waiting loads complete. -/
  | data (m : TMsg)
  /-- ACK (R432). An acknowledgement with any dirty sectors reaches the parent. -/
  | ack (m : TMsg)
  /-- PRUNE (R432). A child prunes itself from its parent's entry. -/
  | prune (m : TMsg)
  /-- JDONE (R432). Joining entries become stable and depth hints are set. -/
  | jdone (m : TMsg)
  /-- LEAVE (R432). An agent drops a line and leaves the tree. -/
  | leave (m : TMsg)
  /-- WB (R432). Dirty sectors are written back to the home. -/
  | wb (m : TMsg)
  /-- WBACK (R432). The home's write-back acknowledgement arrives. -/
  | wback (m : TMsg)
  /-- SNOOP (R441). A snoop travels down a slab tree to find or downgrade holders. -/
  | snoop (m : TMsg)
  /-- QUIET (R445). A quiet report for a tag travels up the quiet tree. -/
  | quiet (tag : Nat) (router : Nat)
  /-- HELD_MESSAGE_RELEASE (R431). A held message is released when its entry leaves tearing or pruning. -/
  | heldMessageRelease (router : Nat) (tag : Nat) (slab : Bool)
  /-- WREQ (R443). A width request reaches the receiver, which switches and sends WACK. -/
  | wreq (link : Nat) (width : Nat)
  /-- WACK (R443). The width acknowledgement reaches the sender, which starts retraining. -/
  | wack (link : Nat)
  /-- TRAINING_END (R443). Sixteen cycles of training end and FRAME is sent. -/
  | trainingEnd (link : Nat)
  /-- FRAME (R443). The framing marker arrives and the receiver locks at the new width. -/
  | frame (link : Nat)
  /-- FRAME_LOCK_TIMEOUT (R443). The receiver fails to lock within 8 cycles and sends WNAK. -/
  | frameLockTimeout (link : Nat)
  /-- WNAK (R443). The sender retrains, or falls back to quarter width after the fourth failure. -/
  | wnak (link : Nat)
  /-- ROM_CHECK_COMPLETE (R463). The boot ROM's signature and security-version check of the firmware image ends, leading to SELFTEST or to SAFE with code 0x10. -/
  | romCheckComplete (ok : Bool)
  /-- SLOT_MOVE_COMPLETE (R135). A slot move decided at a package tick completes within 4 µs, and the queue becomes mapped and its tenure starts. -/
  | slotMoveComplete (ctx : Nat) (qn : Nat)
  /-- POOL_ALLOCATION_COMPLETE (R140). A placed block's 64-cycle pool allocation, with its capabilities made from CH0 to CH3, ends and its groups start. -/
  | poolAllocationComplete (blk : Nat)
  /-- IMAGE_FILL_COMPLETE (R152). A resumed block's pool shares and engine state have been filled from its context image, so the incoming work is ready. -/
  | imageFillComplete (course : Nat) (bad : List (Nat × Nat))
  /-- BANK_SWITCH_COMPLETE (R149). The 96-cycle bank switch of the affected cores ends, so the incoming course issues and the outgoing one lies in the shadow bank. -/
  | bankSwitchComplete (course : Nat)
  /-- WALKER_COMMAND_COMPLETE (R337). A WSET, WGO, WSTOP or WSTAT reaches the walker, acts, writes any result and completes, decrementing its SETB flag. -/
  | walkerCommandComplete (op : Nat)
  /-- WALKER_ENTRY_GENERATE (R329). In each cycle the walker generates the next entry of one running walk in rotation, choosing tiles, pushing tags and issuing its reads. -/
  | walkerEntryGenerate (g : Nat)
  /-- RESIDENCY_PROBE_ANSWER (R335). A residency probe of a candidate tile answers with rank 0 or rank 1 before its 64-cycle limit. -/
  | residencyProbeAnswer (g : Nat) (tile : Nat) (rank : Nat)
  /-- FIXED_LATENCY_COMPLETE (R243). A lane instruction or fixed-latency read reaches its fixed latency, writes its result and clears its pending bits. -/
  | fixedLatencyComplete (g : Nat) (tok : Nat)
  deriving DecidableEq, Repr

end Sys2Proof
end

