-- ==== Sys2Proof/Machine/Operands.lean ====
section
/-! DEFINITION. The register operands of every instruction word: kinds, runs and alignment (spec/02 R43 to R45, R50),
from which the issue checks, the pending stalls and well-formedness are computed. -/

namespace Sys2Proof

/-- Kinds of a register field (R44); `vb` is the base of MOVX, v0 to v95 only (R269). -/
inductive Kind where | vs | v | s | sb | vb
  deriving DecidableEq, Repr

/-- One register operand: the field, its kind, the offsets from its first register that are read or written, and the
multiple its first register number must be (R45, R217). -/
structure Opnd where
  kind : Kind
  field : RF
  offs : List Nat
  align : Nat
  deriving DecidableEq, Repr

/-- A run of `len` consecutive registers. -/
def run (k : Kind) (f : RF) (len al : Nat) : Opnd := ⟨k, f, List.range len, al⟩

/-- One past the highest offset a run names. -/
def Opnd.extent (o : Opnd) : Nat := o.offs.foldl (fun m k => Nat.max m (k + 1)) 0

/-- Check 1 of R50 for one operand: the kind (R44), and the run within v95, s30 (R45). -/
def Opnd.legal (o : Opnd) : Bool :=
  let f := o.field.val
  if f < 96 then (o.kind != .s && o.kind != .sb) && decide (f + o.extent ≤ 96)
  else if f < 127 then (o.kind != .v && o.kind != .vb) && decide (f - 96 + o.extent ≤ 31)
  else o.kind != .sb && o.kind != .vb

/-- Check 4 of R50 for one operand: true when the first register is a multiple of the run's alignment. -/
def Opnd.aligned (o : Opnd) : Bool :=
  let f := o.field.val
  if f < 96 then decide (f % o.align = 0) else if f < 127 then decide ((f - 96) % o.align = 0) else true

/-- Bytes of a load (R217). -/
def LSize.bytes : LSize → Nat
  | .b => 1 | .bz => 1 | .h => 2 | .hz => 2 | .w => 4 | .d => 8 | .q => 16

/-- Registers of a load (R217). -/
def LSize.regs : LSize → Nat
  | .d => 2 | .q => 4 | _ => 1

/-- First-register multiple of a load (R45, R217). -/
def LSize.align : LSize → Nat
  | .d => 2 | .q => 4 | _ => 1

/-- Bytes of a store (R217). -/
def SSize.bytes : SSize → Nat
  | .b => 1 | .h => 2 | .w => 4 | .d => 8 | .q => 16

/-- Registers of a store (R217). -/
def SSize.regs : SSize → Nat
  | .d => 2 | .q => 4 | _ => 1

/-- First-register multiple of a store (R45, R217). -/
def SSize.align : SSize → Nat
  | .d => 2 | .q => 4 | _ => 1

/-- Operand registers of a global atomic (R225). -/
def AtomOp.regs : AtomOp → Nat
  | .cas => 2 | .addw => 2 | .casw => 4 | _ => 1

/-- First-register multiple of an atomic's operand (R225). -/
def AtomOp.align : AtomOp → Nat
  | .cas => 2 | .addw => 2 | .casw => 4 | _ => 1

/-- Registers an atomic's returned value is written to (R225). -/
def AtomOp.results : AtomOp → Nat
  | .addw => 2 | .casw => 2 | _ => 1

/-- Bytes of an atomic's location (R225). -/
def AtomOp.bytes : AtomOp → Nat
  | .xadd => 64 | .addw => 8 | .casw => 8 | _ => 4

/-- The operation of a scratchpad atomic (R227). -/
def AtomSOp.op : AtomSOp → AtomOp
  | .add => .add | .min => .min | .max => .max | .minu => .minu | .maxu => .maxu | .and => .and | .or => .or
  | .xor => .xor | .exch => .exch | .cas => .cas | .fadd => .fadd

/-- Operand registers of a scratchpad atomic (R227). -/
def AtomSOp.regs (f : AtomSOp) : Nat := f.op.regs

/-- First-register multiple of a scratchpad atomic's operand (R227). -/
def AtomSOp.align (f : AtomSOp) : Nat := f.op.align

/-- Length of the A run of an MMA: 17 registers when FMT.SCL = 1, else 16 (R305, R311). -/
def mmaRun (fmt : Word) : Nat := if fmt.toNat / 2 ^ 14 % 4 = 1 then 17 else 16

/-- Offsets an LDSB of nb = n + 1 blocks writes: the data registers of the blocks loaded and one scale register for each
A run (R318). A format LDSB refuses names no block length; its first register alone is then checked (log entry 6). -/
def ldsbOffs (fmt : Word) (n : Nat) : List Nat :=
  let af := fmt.toNat % 16
  let (t, r) := if af = 2 ∨ af = 3 then (2, 8) else if af = 4 then (4, 4) else (0, 0)
  if t = 0 then [0]
  else (List.range (n / t + 1)).flatMap fun g =>
    (List.range (r * Nat.min t (n + 1 - g * t))).map (17 * g + ·) ++ [17 * g + 16]

/-- The register operands of an instruction word under the given FMT (R44, R45; each instruction's chapter). -/
def Instr.operands (i : Instr) (fmt : Word) : List Opnd :=
  match i with
  | .ret a => [run .s a 1 1]
  | .brx a b => [run .s a 1 1, run .s b 1 1]
  | .mrd d => [run .vs d 1 1]
  | .mwr a => [run .s a 1 1]
  | .hrd d => [run .vs d 1 1]
  | .fmts a => [run .s a 1 1]
  | .fmtr d => [run .vs d 1 1]
  | .srd d _ => [run .vs d 1 1]
  | .swr a _ => [run .s a 1 1]
  | .ucmp _ _ a b => [run .s a 1 1, run .s b 1 1]
  | .tcinv a => [run .sb a 3 1]
  | .iadd d a b => [run .vs d 1 1, run .vs a 1 1, run .vs b 1 1]
  | .isub d a b => [run .vs d 1 1, run .vs a 1 1, run .vs b 1 1]
  | .imin d a b => [run .vs d 1 1, run .vs a 1 1, run .vs b 1 1]
  | .imax d a b => [run .vs d 1 1, run .vs a 1 1, run .vs b 1 1]
  | .iminu d a b => [run .vs d 1 1, run .vs a 1 1, run .vs b 1 1]
  | .imaxu d a b => [run .vs d 1 1, run .vs a 1 1, run .vs b 1 1]
  | .iabsd d a b => [run .vs d 1 1, run .vs a 1 1, run .vs b 1 1]
  | .iadds d a b => [run .vs d 1 1, run .vs a 1 1, run .vs b 1 1]
  | .isubs d a b => [run .vs d 1 1, run .vs a 1 1, run .vs b 1 1]
  | .imul d a b => [run .vs d 1 1, run .vs a 1 1, run .vs b 1 1]
  | .imulh d a b => [run .vs d 1 1, run .vs a 1 1, run .vs b 1 1]
  | .imulhu d a b => [run .vs d 1 1, run .vs a 1 1, run .vs b 1 1]
  | .imad d a b => [run .vs d 1 1, run .vs a 1 1, run .vs b 1 1]
  | .and d a b => [run .vs d 1 1, run .vs a 1 1, run .vs b 1 1]
  | .or d a b => [run .vs d 1 1, run .vs a 1 1, run .vs b 1 1]
  | .xor d a b => [run .vs d 1 1, run .vs a 1 1, run .vs b 1 1]
  | .andn d a b => [run .vs d 1 1, run .vs a 1 1, run .vs b 1 1]
  | .orn d a b => [run .vs d 1 1, run .vs a 1 1, run .vs b 1 1]
  | .xnor d a b => [run .vs d 1 1, run .vs a 1 1, run .vs b 1 1]
  | .shl d a b => [run .vs d 1 1, run .vs a 1 1, run .vs b 1 1]
  | .shr d a b => [run .vs d 1 1, run .vs a 1 1, run .vs b 1 1]
  | .sar d a b => [run .vs d 1 1, run .vs a 1 1, run .vs b 1 1]
  | .rol d a b => [run .vs d 1 1, run .vs a 1 1, run .vs b 1 1]
  | .ror d a b => [run .vs d 1 1, run .vs a 1 1, run .vs b 1 1]
  | .popc d a => [run .vs d 1 1, run .vs a 1 1]
  | .clz d a => [run .vs d 1 1, run .vs a 1 1]
  | .ctz d a => [run .vs d 1 1, run .vs a 1 1]
  | .brev d a => [run .vs d 1 1, run .vs a 1 1]
  | .bswap d a => [run .vs d 1 1, run .vs a 1 1]
  | .bfe d a b => [run .vs d 1 1, run .vs a 1 1, run .vs b 1 1]
  | .bfeu d a b => [run .vs d 1 1, run .vs a 1 1, run .vs b 1 1]
  | .bfi d a b => [run .vs d 1 1, run .vs a 1 1, run .vs b 1 1]
  | .icmp _ _ a b => [run .vs a 1 1, run .vs b 1 1]
  | .sel _ d a b => [run .vs d 1 1, run .vs a 1 1, run .vs b 1 1]
  | .mov d a => [run .vs d 1 1, run .vs a 1 1]
  | .pmov d _ => [run .vs d 1 1]
  | .movp _ a => [run .vs a 1 1]
  | .addi d a _ => [run .vs d 1 1, run .vs a 1 1]
  | .andi d a _ => [run .vs d 1 1, run .vs a 1 1]
  | .ori d a _ => [run .vs d 1 1, run .vs a 1 1]
  | .xori d a _ => [run .vs d 1 1, run .vs a 1 1]
  | .shli d a _ => [run .vs d 1 1, run .vs a 1 1]
  | .shri d a _ => [run .vs d 1 1, run .vs a 1 1]
  | .sari d a _ => [run .vs d 1 1, run .vs a 1 1]
  | .icmpi _ a _ _ => [run .vs a 1 1]
  | .muli d a _ => [run .vs d 1 1, run .vs a 1 1]
  | .movi d _ => [run .vs d 1 1]
  | .movhi d _ => [run .vs d 1 1]
  | .fadd d a b => [run .vs d 1 1, run .vs a 1 1, run .vs b 1 1]
  | .fsub d a b => [run .vs d 1 1, run .vs a 1 1, run .vs b 1 1]
  | .fmul d a b => [run .vs d 1 1, run .vs a 1 1, run .vs b 1 1]
  | .ffma d a b => [run .vs d 1 1, run .vs a 1 1, run .vs b 1 1]
  | .ffms d a b => [run .vs d 1 1, run .vs a 1 1, run .vs b 1 1]
  | .fmin d a b => [run .vs d 1 1, run .vs a 1 1, run .vs b 1 1]
  | .fmax d a b => [run .vs d 1 1, run .vs a 1 1, run .vs b 1 1]
  | .fdiv d a b => [run .vs d 1 1, run .vs a 1 1, run .vs b 1 1]
  | .fabs d a => [run .vs d 1 1, run .vs a 1 1]
  | .fneg d a => [run .vs d 1 1, run .vs a 1 1]
  | .fcpys d a b => [run .vs d 1 1, run .vs a 1 1, run .vs b 1 1]
  | .fcmp _ _ a b => [run .vs a 1 1, run .vs b 1 1]
  | .frcp d a => [run .vs d 1 1, run .vs a 1 1]
  | .frsq d a => [run .vs d 1 1, run .vs a 1 1]
  | .fsqrt d a => [run .vs d 1 1, run .vs a 1 1]
  | .fexp2 d a => [run .vs d 1 1, run .vs a 1 1]
  | .flog2 d a => [run .vs d 1 1, run .vs a 1 1]
  | .fsinpi d a => [run .vs d 1 1, run .vs a 1 1]
  | .fcospi d a => [run .vs d 1 1, run .vs a 1 1]
  | .ftanh d a => [run .vs d 1 1, run .vs a 1 1]
  | .frne d a => [run .vs d 1 1, run .vs a 1 1]
  | .frtz d a => [run .vs d 1 1, run .vs a 1 1]
  | .fflr d a => [run .vs d 1 1, run .vs a 1 1]
  | .fceil d a => [run .vs d 1 1, run .vs a 1 1]
  | .hadd2 d a b => [run .vs d 1 1, run .vs a 1 1, run .vs b 1 1]
  | .hmul2 d a b => [run .vs d 1 1, run .vs a 1 1, run .vs b 1 1]
  | .hfma2 d a b => [run .vs d 1 1, run .vs a 1 1, run .vs b 1 1]
  | .hmin2 d a b => [run .vs d 1 1, run .vs a 1 1, run .vs b 1 1]
  | .hmax2 d a b => [run .vs d 1 1, run .vs a 1 1, run .vs b 1 1]
  | .cvtfi d a _ => [run .vs d 1 1, run .vs a 1 1]
  | .cvtfu d a _ => [run .vs d 1 1, run .vs a 1 1]
  | .cvtif d a => [run .vs d 1 1, run .vs a 1 1]
  | .cvtuf d a => [run .vs d 1 1, run .vs a 1 1]
  | .cvtfn d a b => [run .vs d 1 1, run .vs a 1 1, run .vs b 1 1]
  | .cvtnf d a b => [run .vs d 1 1, run .vs a 1 1, run .vs b 1 1]
  | .cvtnfh d a b => [run .vs d 1 1, run .vs a 1 1, run .vs b 1 1]
  | .cvtfc d a => [run .vs d 1 1, run .vs a 1 1]
  | .cvtcf d a b => [run .vs d 1 1, run .vs a 1 1, run .vs b 1 1]
  | .cvtfnt d a b => [run .vs d 1 1, run .vs a 1 1, run .vs b 1 1]
  | .qswh d a => [run .vs d 1 1, run .vs a 1 1]
  | .qswv d a => [run .vs d 1 1, run .vs a 1 1]
  | .qswd d a => [run .vs d 1 1, run .vs a 1 1]
  | .qbc d a _ => [run .vs d 1 1, run .vs a 1 1]
  | .shfli d a b => [run .vs d 1 1, run .vs a 1 1, run .vs b 1 1]
  | .shflu d a b => [run .vs d 1 1, run .vs a 1 1, run .vs b 1 1]
  | .shfld d a b => [run .vs d 1 1, run .vs a 1 1, run .vs b 1 1]
  | .shflx d a b => [run .vs d 1 1, run .vs a 1 1, run .vs b 1 1]
  | .vbal d _ _ => [run .vs d 1 1]
  | .rdadd d a => [run .vs d 1 1, run .vs a 1 1]
  | .rdmin d a => [run .vs d 1 1, run .vs a 1 1]
  | .rdmax d a => [run .vs d 1 1, run .vs a 1 1]
  | .rdand d a => [run .vs d 1 1, run .vs a 1 1]
  | .rdor d a => [run .vs d 1 1, run .vs a 1 1]
  | .rdxor d a => [run .vs d 1 1, run .vs a 1 1]
  | .rdfadd d a => [run .vs d 1 1, run .vs a 1 1]
  | .movxr d a b => [run .vs d 1 1, run .vs a 1 1, run .vb b 1 1]
  | .movxw d a b => [run .vs d 1 1, run .vs a 1 1, run .vb b 1 1]
  | .hmix d a b => [run .vs d 1 1, run .vs a 1 1, run .vs b 1 1]
  | .prmt d a b => [run .vs d 1 1, run .vs a 1 1, run .vs b 1 1]
  | .addw d a b => [run .vs d 2 2, run .vs a 2 2, run .vs b 2 2]
  | .subw d a b => [run .vs d 2 2, run .vs a 2 2, run .vs b 2 2]
  | .mulw d a b => [run .vs d 2 2, run .vs a 1 1, run .vs b 1 1]
  | .mulwu d a b => [run .vs d 2 2, run .vs a 1 1, run .vs b 1 1]
  | .shlw d a b => [run .vs d 2 2, run .vs a 2 2, run .vs b 1 1]
  | .shrw d a b => [run .vs d 2 2, run .vs a 2 2, run .vs b 1 1]
  | .ld _ z d a _ => [run .vs d z.regs z.align, run .vs a 1 1]
  | .lda _ z d a _ _ => [run .vs d z.regs z.align, run .vs a 1 1]
  | .st _ z d a _ => [run .vs d z.regs z.align, run .vs a 1 1]
  | .stl _ z d a _ _ => [run .vs d z.regs z.align, run .vs a 1 1]
  | .lds _ z d a b => [run .vs d z.regs z.align, run .vs a 1 1, run .s b 1 1]
  | .sts _ z d a b => [run .vs d z.regs z.align, run .vs a 1 1, run .s b 1 1]
  | .ldw _ z d a => [run .vs d z.regs z.align, run .vs a 1 1]
  | .stw _ z d a => [run .vs d z.regs z.align, run .vs a 1 1]
  | .atom f d a _ => [run .vs d f.regs f.align, run .vs a 1 1]
  | .atoma f d a _ _ => [run .vs d f.regs f.align, run .vs a 1 1]
  | .atoml f d a _ _ => [run .vs d f.regs f.align, run .vs a 1 1]
  | .atomr f d a _ _ => [run .vs d f.regs f.align, run .vs a 1 1]
  | .atoms f d a b => [run .vs d f.regs f.align, run .vs a 1 1, run .s b 1 1]
  | .capld _ a => [run .s a 1 1]
  | .capnar _ a _ => [run .sb a 4 1]
  | .caprd d _ => [run .vs d 4 4]
  | .caprr _ a _ => [run .s a 1 1]
  | .discard a _ => [run .sb a 2 1]
  | .pref a _ => [run .sb a 3 1]
  | .cpygs _ a _ => [run .sb a 4 1]
  | .cpysg _ _ a => [run .sb a 4 1]
  | .cpysw _ a => [run .sb a 4 1]
  | .cpygg _ _ a _ => [run .sb a 4 1]
  | .cpyx _ a _ => [run .sb a 6 1]
  | .barinit a => [run .sb a 3 1]
  | .bararr a => [run .sb a 2 1]
  | .barwait _ a => [run .sb a 2 1]
  | .bartry d a _ => [run .s d 1 1, run .sb a 2 1]
  | .monarm _ a _ => [run .sb a 2 1]
  | .monwait d _ => [run .s d 1 1]
  | .mma _ _ _ d a b => [run .s d 1 1, run .v a (mmaRun fmt) 1, run .sb b 3 1]
  | .accz a => [run .sb a 2 1]
  | .accld a _ => [run .sb a 4 1]
  | .accst a _ => [run .sb a 4 1]
  | .accss a _ => [run .sb a 4 1]
  | .accxa d a _ => [run .vs d 1 1, run .vs a 1 1]
  | .accxr d a _ => [run .vs d 1 1, run .vs a 1 1]
  | .acccp a => [run .sb a 3 1]
  | .cbld _ a _ => [run .s a 1 1]
  | .ldsb n d a _ => [⟨.v, d, ldsbOffs fmt n.val, 1⟩, run .vs a 1 1]
  | .wset _ a => [run .sb a 1 1]
  | .qpop _ d => [run .vs d 1 1]
  | .wstat d => [run .s d 1 1]
  | .sqres d a => [run .s d 4 4, run .sb a 3 1]
  | .sqcom a => [run .sb a 4 1]
  | .sqapp d a b => [run .v d 2 2, run .sb a 2 1, run .s b 2 2]
  | .sqlen d a => [run .s d 2 2, run .sb a 1 1]
  | .sqrlen d a => [run .s d 2 2, run .sb a 1 1]
  | .sqwlo d a => [run .s d 2 2, run .sb a 1 1]
  | .sqmap d a b => [run .vs d 1 1, run .sb a 3 1, run .vs b 1 1]
  | .sqfork d a => [run .s d 1 1, run .sb a 4 1]
  | .sqnew d a => [run .s d 1 1, run .sb a 3 1]
  | .sqrel a => [run .sb a 1 1]
  | .sqwin a => [run .sb a 2 1]
  | .sqtake d a => [run .s d 2 2, run .sb a 2 1]
  | .sqseal a => [run .sb a 1 1]
  | .flpop d a => [run .s d 1 1, run .sb a 1 1]
  | .flpush a => [run .sb a 2 1]
  | .flcnt d a => [run .s d 1 1, run .sb a 1 1]
  | .mgmatch d a => [run .s d 1 1, run .sb a 5 1]
  | .mgmerge d a => [run .s d 1 1, run .sb a 13 1]
  | .mgsplit a => [run .sb a 6 1]
  | .mgbias a => [run .sb a 3 1]
  | .mgpop a => [run .sb a 1 1]
  | .mgstat d a => [run .s d 1 1, run .sb a 1 1]
  | .launch d a _ => [run .s d 1 1, run .sb a 2 1]
  | .lwait d a => [run .s d 1 1, run .s a 1 1]
  | .lstat d a => [run .s d 1 1, run .s a 1 1]
  | .rwri a _ => [run .sb a 4 1]
  | .rrd a _ => [run .sb a 4 1]
  | _ => []

/-- A register that may be pending (R20, R209, R243): a physical lane register, a uniform register, a lane predicate, a
uniform predicate or a capability register. -/
inductive PReg where
  | lane (n : Nat)
  | uni (n : Nat)
  | pred (n : Nat)
  | upred (n : Nat)
  | cap (n : Nat)
  deriving DecidableEq, Repr

/-- Capabilities a memory form names. -/
def MemForm.caps : MemForm → List PReg
  | .glob c => [.cap c.val]
  | _ => []

/-- Predicates, capabilities and link register an instruction word reads or writes beside its register operands. -/
def Instr.others (i : Instr) : List PReg :=
  match i with
  | .bra _ q _ => [.upred q.val]
  | .brd _ p _ => [.pred p.val]
  | .call _ => [.uni 30]
  | .mand _ p => [.pred p.val]
  | .ucmp _ q _ _ => [.upred q.val]
  | .icmp _ p _ _ => [.pred p.val]
  | .sel p _ _ _ => [.pred p.val]
  | .pmov _ p => [.pred p.val]
  | .movp p _ => [.pred p.val]
  | .icmpi p _ _ _ => [.pred p.val]
  | .fcmp _ p _ _ => [.pred p.val]
  | .vany q _ p => [.upred q.val, .pred p.val]
  | .vall q _ p => [.upred q.val, .pred p.val]
  | .vbal _ _ p => [.pred p.val]
  | .ld _ _ _ _ c => [.cap c.val]
  | .lda _ _ _ _ _ c => [.cap c.val]
  | .st _ _ _ _ c => [.cap c.val]
  | .stl _ _ _ _ _ c => [.cap c.val]
  | .atom _ _ _ c => [.cap c.val]
  | .atoma _ _ _ _ c => [.cap c.val]
  | .atoml _ _ _ _ c => [.cap c.val]
  | .atomr _ _ _ _ c => [.cap c.val]
  | .capld e _ => [.cap e.val]
  | .capnar e _ c => [.cap e.val, .cap c.val]
  | .caprd _ c => [.cap c.val]
  | .caprr e _ c => [.cap e.val, .cap c.val]
  | .discard _ c => [.cap c.val]
  | .pref _ c => [.cap c.val]
  | .cpygs _ _ c => [.cap c.val]
  | .cpysg _ e _ => [.cap e.val]
  | .cpygg _ e _ c => [.cap e.val, .cap c.val]
  | .cpyx _ _ c => [.cap c.val]
  | .barwait q _ => [.upred q.val]
  | .monarm _ _ f => f.caps
  | .accld _ f => f.caps
  | .accst _ f => f.caps
  | .accss _ f => f.caps
  | .cbld _ _ c => [.cap c.val]
  | .ldsb _ _ _ c => [.cap c.val]
  | .launch _ _ c => [.cap c.val]
  | .rwri _ c => [.cap c.val]
  | .rrd _ c => [.cap c.val]
  | _ => []

/-- The registers one operand reads or writes, resolved with the window base `wb` (R43, R46). -/
def Opnd.pregs (o : Opnd) (wb : Nat) : List PReg :=
  let f := o.field.val
  if f < 96 then o.offs.map fun k => .lane (wb + f + k)
  else if f < 127 then o.offs.map fun k => .uni (f - 96 + k)
  else []

/-- Registers whose reads and writes are interlocked: all but p7 and q7, which read as true (R243, R244). -/
def PReg.interlocked (r : PReg) : Bool := r != .pred 7 && r != .upred 7

/-- Every register an instruction word reads or writes through its fields (R20). -/
def Instr.touched (i : Instr) (fmt : Word) (wb : Nat) : List PReg :=
  ((i.operands fmt).flatMap (·.pregs wb) ++ i.others).filter PReg.interlocked

/-- First physical lane register of the operands at or beyond ALLOC (check 3 of R50). DESIGN CHOICE: of several failing operands the first in the
order d, a, b, each run ascending (log entry 55). -/
def Instr.beyondAlloc (i : Instr) (fmt : Word) (wb alloc : Nat) : Option Nat :=
  (((i.operands fmt).flatMap (·.pregs wb)).filterMap fun
    | .lane n => if alloc ≤ n then some n else none
    | _ => none).head?

/-- First misaligned operand's field value (check 4 of R50). DESIGN CHOICE: of several the first in the order d, a, b (log entry 55). -/
def Instr.misaligned (i : Instr) (fmt : Word) : Option Nat :=
  (((i.operands fmt).filter fun o => !o.aligned).map (·.field.val)).head?

end Sys2Proof
end

