-- ==== Sys2Proof/WellFormed.lean ====
section
/-! DEFINITION. What makes an instruction word well-formed beyond its shape: the register kinds and runs of check 1 of
R50 (spec/02 R44, R45). Ranges of conditions, sizes, scopes and indices hold by the types of Syntax. -/

namespace Sys2Proof

/-- The word passes check 1 of R50 under the format register value `fmt` (the run of MMA and LDSB depends on it). -/
def Instr.wfAt (i : Instr) (fmt : Word) : Bool := (i.operands fmt).all Opnd.legal

/-- The word passes check 1 of R50 with the format register as it is when a group starts. -/
def Instr.wf (i : Instr) : Bool := i.wfAt 0

/-- An instruction word, rather than an event or an operation of an engine, the host or a peer. -/
def Instr.isWord (i : Instr) : Bool :=
  match i with
  | .nop => true
  | .bra _ _ _ => true
  | .brd _ _ _ => true
  | .pushj _ => true
  | .join => true
  | .call _ => true
  | .ret _ => true
  | .brx _ _ => true
  | .wbase _ => true
  | .mrd _ => true
  | .mwr _ => true
  | .mand _ _ => true
  | .hrd _ => true
  | .fmts _ => true
  | .fmtr _ => true
  | .yield _ _ => true
  | .exit => true
  | .trap _ => true
  | .tret => true
  | .srd _ _ => true
  | .swr _ _ => true
  | .ucmp _ _ _ _ => true
  | .tcinv _ => true
  | .brk => true
  | .iadd _ _ _ => true
  | .isub _ _ _ => true
  | .imin _ _ _ => true
  | .imax _ _ _ => true
  | .iminu _ _ _ => true
  | .imaxu _ _ _ => true
  | .iabsd _ _ _ => true
  | .iadds _ _ _ => true
  | .isubs _ _ _ => true
  | .imul _ _ _ => true
  | .imulh _ _ _ => true
  | .imulhu _ _ _ => true
  | .imad _ _ _ => true
  | .and _ _ _ => true
  | .or _ _ _ => true
  | .xor _ _ _ => true
  | .andn _ _ _ => true
  | .orn _ _ _ => true
  | .xnor _ _ _ => true
  | .shl _ _ _ => true
  | .shr _ _ _ => true
  | .sar _ _ _ => true
  | .rol _ _ _ => true
  | .ror _ _ _ => true
  | .popc _ _ => true
  | .clz _ _ => true
  | .ctz _ _ => true
  | .brev _ _ => true
  | .bswap _ _ => true
  | .bfe _ _ _ => true
  | .bfeu _ _ _ => true
  | .bfi _ _ _ => true
  | .icmp _ _ _ _ => true
  | .sel _ _ _ _ => true
  | .mov _ _ => true
  | .pmov _ _ => true
  | .movp _ _ => true
  | .addi _ _ _ => true
  | .andi _ _ _ => true
  | .ori _ _ _ => true
  | .xori _ _ _ => true
  | .shli _ _ _ => true
  | .shri _ _ _ => true
  | .sari _ _ _ => true
  | .icmpi _ _ _ _ => true
  | .muli _ _ _ => true
  | .movi _ _ => true
  | .movhi _ _ => true
  | .fadd _ _ _ => true
  | .fsub _ _ _ => true
  | .fmul _ _ _ => true
  | .ffma _ _ _ => true
  | .ffms _ _ _ => true
  | .fmin _ _ _ => true
  | .fmax _ _ _ => true
  | .fdiv _ _ _ => true
  | .fabs _ _ => true
  | .fneg _ _ => true
  | .fcpys _ _ _ => true
  | .fcmp _ _ _ _ => true
  | .frcp _ _ => true
  | .frsq _ _ => true
  | .fsqrt _ _ => true
  | .fexp2 _ _ => true
  | .flog2 _ _ => true
  | .fsinpi _ _ => true
  | .fcospi _ _ => true
  | .ftanh _ _ => true
  | .frne _ _ => true
  | .frtz _ _ => true
  | .fflr _ _ => true
  | .fceil _ _ => true
  | .hadd2 _ _ _ => true
  | .hmul2 _ _ _ => true
  | .hfma2 _ _ _ => true
  | .hmin2 _ _ _ => true
  | .hmax2 _ _ _ => true
  | .cvtfi _ _ _ => true
  | .cvtfu _ _ _ => true
  | .cvtif _ _ => true
  | .cvtuf _ _ => true
  | .cvtfn _ _ _ => true
  | .cvtnf _ _ _ => true
  | .cvtnfh _ _ _ => true
  | .cvtfc _ _ => true
  | .cvtcf _ _ _ => true
  | .cvtfnt _ _ _ => true
  | .qswh _ _ => true
  | .qswv _ _ => true
  | .qswd _ _ => true
  | .qbc _ _ _ => true
  | .shfli _ _ _ => true
  | .shflu _ _ _ => true
  | .shfld _ _ _ => true
  | .shflx _ _ _ => true
  | .vany _ _ _ => true
  | .vall _ _ _ => true
  | .vbal _ _ _ => true
  | .rdadd _ _ => true
  | .rdmin _ _ => true
  | .rdmax _ _ => true
  | .rdand _ _ => true
  | .rdor _ _ => true
  | .rdxor _ _ => true
  | .rdfadd _ _ => true
  | .movxr _ _ _ => true
  | .movxw _ _ _ => true
  | .hmix _ _ _ => true
  | .prmt _ _ _ => true
  | .addw _ _ _ => true
  | .subw _ _ _ => true
  | .mulw _ _ _ => true
  | .mulwu _ _ _ => true
  | .shlw _ _ _ => true
  | .shrw _ _ _ => true
  | .ld _ _ _ _ _ => true
  | .lda _ _ _ _ _ _ => true
  | .st _ _ _ _ _ => true
  | .stl _ _ _ _ _ _ => true
  | .lds _ _ _ _ _ => true
  | .sts _ _ _ _ _ => true
  | .ldw _ _ _ _ => true
  | .stw _ _ _ _ => true
  | .atom _ _ _ _ => true
  | .atoma _ _ _ _ _ => true
  | .atoml _ _ _ _ _ => true
  | .atomr _ _ _ _ _ => true
  | .atoms _ _ _ _ => true
  | .fence _ _ => true
  | .capld _ _ => true
  | .capnar _ _ _ => true
  | .caprd _ _ => true
  | .caprr _ _ _ => true
  | .discard _ _ => true
  | .pref _ _ => true
  | .cpygs _ _ _ => true
  | .cpysg _ _ _ => true
  | .cpysw _ _ => true
  | .cpygg _ _ _ _ => true
  | .cpyx _ _ _ => true
  | .barinit _ => true
  | .bararr _ => true
  | .barwait _ _ => true
  | .bartry _ _ _ => true
  | .monarm _ _ _ => true
  | .monwait _ _ => true
  | .monclr _ => true
  | .mma _ _ _ _ _ _ => true
  | .accz _ => true
  | .accld _ _ => true
  | .accst _ _ => true
  | .accss _ _ => true
  | .accxa _ _ _ => true
  | .accxr _ _ _ => true
  | .acccp _ => true
  | .cbld _ _ _ => true
  | .ldsb _ _ _ _ => true
  | .wset _ _ => true
  | .wgo _ => true
  | .qpop _ _ => true
  | .wstop => true
  | .wstat _ => true
  | .sqres _ _ => true
  | .sqcom _ => true
  | .sqapp _ _ _ => true
  | .sqlen _ _ => true
  | .sqrlen _ _ => true
  | .sqwlo _ _ => true
  | .sqmap _ _ _ => true
  | .sqfork _ _ => true
  | .sqnew _ _ => true
  | .sqrel _ => true
  | .sqwin _ => true
  | .sqtake _ _ => true
  | .sqseal _ => true
  | .flpop _ _ => true
  | .flpush _ => true
  | .flcnt _ _ => true
  | .mgmatch _ _ => true
  | .mgmerge _ _ => true
  | .mgsplit _ => true
  | .mgbias _ => true
  | .mgpop _ => true
  | .mgstat _ _ => true
  | .launch _ _ _ => true
  | .lwait _ _ => true
  | .lstat _ _ => true
  | .rwri _ _ => true
  | .rrd _ _ => true
  | _ => false

end Sys2Proof
end

