-- ==== Sys2Proof/Decode.lean ====
section
/-! DEFINITION. Decoding and encoding of instruction words (spec/02 R41 to R50). -/

namespace Sys2Proof

/-- Why a word is not an instruction (R48, R49): each is the illegal-instruction case of check 1 of R50. -/
inductive DecodeError where
  | badMajor | badFn | badCond | badSize | badScope | badFlag | badIndex | badForm | nonzero | short
  deriving DecidableEq, Repr

/-- Bits [hi:lo] of a word held as a number (R6). -/
def bits (w hi lo : Nat) : Nat := w / 2 ^ lo % 2 ^ (hi - lo + 1)

/-- A 7-bit register field (R43). -/
def rf (n : Nat) : RF := Fin.ofNat 128 n

/-- The rest is decoded when bits [hi:lo] are zero; a non-zero field of kind Z or fixed bit is illegal (R47, R48). -/
def zero (w hi lo : Nat) (k : Except DecodeError Instr) : Except DecodeError Instr :=
  if bits w hi lo = 0 then k else .error .nonzero

/-- The rest is decoded with the value of a field, or the field's error is reported. -/
def need {α : Type} (o : Option α) (e : DecodeError) (k : α → Except DecodeError Instr) : Except DecodeError Instr :=
  match o with
  | some x => k x
  | none => .error e

/-- Code of a integer condition (R53). -/
def ICond.code : ICond → Nat
  | .eq => 0 | .ne => 1 | .lt => 2 | .le => 3 | .gt => 4 | .ge => 5 | .ltu => 6 | .leu => 7 | .gtu => 8 | .geu => 9

/-- The integer condition (R53) of a code. -/
def icondOf : Nat → Option ICond
  | 0 => some .eq | 1 => some .ne | 2 => some .lt | 3 => some .le | 4 => some .gt | 5 => some .ge | 6 => some .ltu | 7 => some .leu | 8 => some .gtu | 9 => some .geu | _ => none

/-- Code of a float condition (R53). -/
def FCond.code : FCond → Nat
  | .eq => 0 | .ne => 1 | .lt => 2 | .le => 3 | .gt => 4 | .ge => 5 | .ult => 6 | .ule => 7 | .ugt => 8 | .uge => 9 | .un => 10 | .ord => 11

/-- The float condition (R53) of a code. -/
def fcondOf : Nat → Option FCond
  | 0 => some .eq | 1 => some .ne | 2 => some .lt | 3 => some .le | 4 => some .gt | 5 => some .ge | 6 => some .ult | 7 => some .ule | 8 => some .ugt | 9 => some .uge | 10 => some .un | 11 => some .ord | _ => none

/-- Code of a global atomic operation (R225). -/
def AtomOp.code : AtomOp → Nat
  | .add => 0 | .min => 1 | .max => 2 | .minu => 3 | .maxu => 4 | .and => 5 | .or => 6 | .xor => 7 | .exch => 8 | .cas => 9 | .fadd => 10 | .xadd => 11 | .addw => 12 | .casw => 13

/-- The global atomic operation (R225) of a code. -/
def atomOpOf : Nat → Option AtomOp
  | 0 => some .add | 1 => some .min | 2 => some .max | 3 => some .minu | 4 => some .maxu | 5 => some .and | 6 => some .or | 7 => some .xor | 8 => some .exch | 9 => some .cas | 10 => some .fadd | 11 => some .xadd | 12 => some .addw | 13 => some .casw | _ => none

/-- Code of a scratchpad atomic operation (R227). -/
def AtomSOp.code : AtomSOp → Nat
  | .add => 0 | .min => 1 | .max => 2 | .minu => 3 | .maxu => 4 | .and => 5 | .or => 6 | .xor => 7 | .exch => 8 | .cas => 9 | .fadd => 10

/-- The scratchpad atomic operation (R227) of a code. -/
def atomSOpOf : Nat → Option AtomSOp
  | 0 => some .add | 1 => some .min | 2 => some .max | 3 => some .minu | 4 => some .maxu | 5 => some .and | 6 => some .or | 7 => some .xor | 8 => some .exch | 9 => some .cas | 10 => some .fadd | _ => none

/-- Code of a scope (R94). -/
def Scope.code : Scope → Nat
  | .group => 0 | .block => 1 | .course => 2 | .device => 3 | .system => 4

/-- The scope (R94) of a code. -/
def scopeOf : Nat → Option Scope
  | 0 => some .group | 1 => some .block | 2 => some .course | 3 => some .device | 4 => some .system | _ => none

/-- Code of a load size (R217). -/
def LSize.code : LSize → Nat
  | .b => 0 | .bz => 1 | .h => 2 | .hz => 3 | .w => 4 | .d => 5 | .q => 6

/-- The load size (R217) of a code. -/
def lsizeOf : Nat → Option LSize
  | 0 => some .b | 1 => some .bz | 2 => some .h | 3 => some .hz | 4 => some .w | 5 => some .d | 6 => some .q | _ => none

/-- Code of a store size (R217). -/
def SSize.code : SSize → Nat
  | .b => 0 | .h => 2 | .w => 4 | .d => 5 | .q => 6

/-- The store size (R217) of a code. -/
def ssizeOf : Nat → Option SSize
  | 0 => some .b | 2 => some .h | 4 => some .w | 5 => some .d | 6 => some .q | _ => none

/-- Code of a order (R103). -/
def Order.code : Order → Nat
  | .acq => 0 | .rel => 1 | .ar => 2 | .sc => 3

/-- The order (R103) of a 2-bit code. -/
def orderOf : Nat → Order
  | 0 => .acq | 1 => .rel | 2 => .ar | _ => .sc

/-- Code of a rounding mode (R260). -/
def RMode.code : RMode → Nat
  | .rne => 0 | .rtz => 1 | .rdn => 2 | .rup => 3

/-- The rounding mode (R260) of a 2-bit code. -/
def rmodeOf : Nat → RMode
  | 0 => .rne | 1 => .rtz | 2 => .rdn | _ => .rup

/-- The flag field of YIELD: 0 to 11, or 15 for none (R201). -/
def yieldFlagOf (n : Nat) : Option (Option (Fin 12)) :=
  if h : n < 12 then some (some ⟨n, h⟩) else if n = 15 then some none else none

/-- Code of the flag field of YIELD (R201). -/
def yieldFlagCode : Option (Fin 12) → Nat
  | some f => f.val
  | none => 15

/-- A special-register index, 0 to 29 (R47, R48). -/
def spIdx (n : Nat) : Option (Fin 30) := if h : n < 30 then some ⟨n, h⟩ else none

/-- The b field of MONARM and the ACC memory forms: form in [6:4], capability in [3:0], which forms 1 and 2 hold zero
(R295, R319). -/
def memFormOf (b : Nat) : Option MemForm :=
  if b < 16 then some (.glob (Fin.ofNat 16 b)) else if b = 16 then some .scratch else if b = 32 then some .window else none

/-- Code of the b field of a memory form. -/
def memFormCode : MemForm → Nat
  | .glob c => c.val
  | .scratch => 16
  | .window => 32

/-- The instruction a word names, or why it names none (R48, R49). -/
def decodeWord (w : Nat) : Except DecodeError Instr :=
  match bits w 31 25 with
  | 0x00 => zero w 24 0 <| .ok (.nop)
  | 0x01 => .ok (.bra (bits w 24 24 == 1) (Fin.ofNat 8 (bits w 23 21)) (BitVec.ofNat 21 (bits w 20 0)))
  | 0x02 => .ok (.brd (bits w 24 24 == 1) (Fin.ofNat 8 (bits w 23 21)) (BitVec.ofNat 21 (bits w 20 0)))
  | 0x03 => zero w 24 21 <| .ok (.pushj (BitVec.ofNat 21 (bits w 20 0)))
  | 0x04 => zero w 24 0 <| .ok (.join)
  | 0x05 => zero w 24 21 <| .ok (.call (BitVec.ofNat 21 (bits w 20 0)))
  | 0x06 => zero w 24 14 <| zero w 6 0 <| .ok (.ret (rf (bits w 13 7)))
  | 0x07 => zero w 24 14 <| .ok (.brx (rf (bits w 13 7)) (rf (bits w 6 0)))
  | 0x08 => zero w 24 18 <| .ok (.wbase (BitVec.ofNat 18 (bits w 17 0)))
  | 0x09 => match bits w 24 21 with
    | 0 => zero w 13 0 <| .ok (.mrd (rf (bits w 20 14)))
    | 1 => zero w 20 14 <| zero w 6 0 <| .ok (.mwr (rf (bits w 13 7)))
    | 2 => zero w 20 4 <| .ok (.mand (bits w 3 3 == 1) (Fin.ofNat 8 (bits w 2 0)))
    | 3 => zero w 13 0 <| .ok (.hrd (rf (bits w 20 14)))
    | _ => .error .badFn
  | 0x0A => match bits w 24 21 with
    | 0 => zero w 20 14 <| zero w 6 0 <| .ok (.fmts (rf (bits w 13 7)))
    | 1 => zero w 13 0 <| .ok (.fmtr (rf (bits w 20 14)))
    | _ => .error .badFn
  | 0x0B => need (yieldFlagOf (bits w 24 21)) .badFlag fun c => .ok (.yield c (BitVec.ofNat 21 (bits w 20 0)))
  | 0x0C => zero w 24 0 <| .ok (.exit)
  | 0x0D => zero w 24 18 <| .ok (.trap (BitVec.ofNat 18 (bits w 17 0)))
  | 0x0E => zero w 24 0 <| .ok (.tret)
  | 0x0F => zero w 17 11 <| need (spIdx (bits w 10 0)) .badIndex fun i => .ok (.srd (rf (bits w 24 18)) i)
  | 0x10 => zero w 24 18 <| need (spIdx (bits w 10 0)) .badIndex fun i => .ok (.swr (rf (bits w 17 11)) i)
  | 0x11 => zero w 20 17 <| need (icondOf (bits w 24 21)) .badCond fun c => .ok (.ucmp c (Fin.ofNat 8 (bits w 16 14)) (rf (bits w 13 7)) (rf (bits w 6 0)))
  | 0x12 => zero w 24 14 <| zero w 6 0 <| .ok (.tcinv (rf (bits w 13 7)))
  | 0x13 => zero w 24 0 <| .ok (.brk)
  | 0x14 => match bits w 24 21 with
    | 0 => .ok (.iadd (rf (bits w 20 14)) (rf (bits w 13 7)) (rf (bits w 6 0)))
    | 1 => .ok (.isub (rf (bits w 20 14)) (rf (bits w 13 7)) (rf (bits w 6 0)))
    | 2 => .ok (.imin (rf (bits w 20 14)) (rf (bits w 13 7)) (rf (bits w 6 0)))
    | 3 => .ok (.imax (rf (bits w 20 14)) (rf (bits w 13 7)) (rf (bits w 6 0)))
    | 4 => .ok (.iminu (rf (bits w 20 14)) (rf (bits w 13 7)) (rf (bits w 6 0)))
    | 5 => .ok (.imaxu (rf (bits w 20 14)) (rf (bits w 13 7)) (rf (bits w 6 0)))
    | 6 => .ok (.iabsd (rf (bits w 20 14)) (rf (bits w 13 7)) (rf (bits w 6 0)))
    | 7 => .ok (.iadds (rf (bits w 20 14)) (rf (bits w 13 7)) (rf (bits w 6 0)))
    | 8 => .ok (.isubs (rf (bits w 20 14)) (rf (bits w 13 7)) (rf (bits w 6 0)))
    | _ => .error .badFn
  | 0x15 => match bits w 24 21 with
    | 0 => .ok (.imul (rf (bits w 20 14)) (rf (bits w 13 7)) (rf (bits w 6 0)))
    | 1 => .ok (.imulh (rf (bits w 20 14)) (rf (bits w 13 7)) (rf (bits w 6 0)))
    | 2 => .ok (.imulhu (rf (bits w 20 14)) (rf (bits w 13 7)) (rf (bits w 6 0)))
    | 3 => .ok (.imad (rf (bits w 20 14)) (rf (bits w 13 7)) (rf (bits w 6 0)))
    | _ => .error .badFn
  | 0x16 => match bits w 24 21 with
    | 0 => .ok (.and (rf (bits w 20 14)) (rf (bits w 13 7)) (rf (bits w 6 0)))
    | 1 => .ok (.or (rf (bits w 20 14)) (rf (bits w 13 7)) (rf (bits w 6 0)))
    | 2 => .ok (.xor (rf (bits w 20 14)) (rf (bits w 13 7)) (rf (bits w 6 0)))
    | 3 => .ok (.andn (rf (bits w 20 14)) (rf (bits w 13 7)) (rf (bits w 6 0)))
    | 4 => .ok (.orn (rf (bits w 20 14)) (rf (bits w 13 7)) (rf (bits w 6 0)))
    | 5 => .ok (.xnor (rf (bits w 20 14)) (rf (bits w 13 7)) (rf (bits w 6 0)))
    | _ => .error .badFn
  | 0x17 => match bits w 24 21 with
    | 0 => .ok (.shl (rf (bits w 20 14)) (rf (bits w 13 7)) (rf (bits w 6 0)))
    | 1 => .ok (.shr (rf (bits w 20 14)) (rf (bits w 13 7)) (rf (bits w 6 0)))
    | 2 => .ok (.sar (rf (bits w 20 14)) (rf (bits w 13 7)) (rf (bits w 6 0)))
    | 3 => .ok (.rol (rf (bits w 20 14)) (rf (bits w 13 7)) (rf (bits w 6 0)))
    | 4 => .ok (.ror (rf (bits w 20 14)) (rf (bits w 13 7)) (rf (bits w 6 0)))
    | _ => .error .badFn
  | 0x18 => match bits w 24 21 with
    | 0 => zero w 6 0 <| .ok (.popc (rf (bits w 20 14)) (rf (bits w 13 7)))
    | 1 => zero w 6 0 <| .ok (.clz (rf (bits w 20 14)) (rf (bits w 13 7)))
    | 2 => zero w 6 0 <| .ok (.ctz (rf (bits w 20 14)) (rf (bits w 13 7)))
    | 3 => zero w 6 0 <| .ok (.brev (rf (bits w 20 14)) (rf (bits w 13 7)))
    | 4 => zero w 6 0 <| .ok (.bswap (rf (bits w 20 14)) (rf (bits w 13 7)))
    | _ => .error .badFn
  | 0x19 => match bits w 24 21 with
    | 0 => .ok (.bfe (rf (bits w 20 14)) (rf (bits w 13 7)) (rf (bits w 6 0)))
    | 1 => .ok (.bfeu (rf (bits w 20 14)) (rf (bits w 13 7)) (rf (bits w 6 0)))
    | 2 => .ok (.bfi (rf (bits w 20 14)) (rf (bits w 13 7)) (rf (bits w 6 0)))
    | _ => .error .badFn
  | 0x1A => zero w 20 17 <| need (icondOf (bits w 24 21)) .badCond fun c => .ok (.icmp c (Fin.ofNat 8 (bits w 16 14)) (rf (bits w 13 7)) (rf (bits w 6 0)))
  | 0x1B => zero w 24 24 <| .ok (.sel (Fin.ofNat 8 (bits w 23 21)) (rf (bits w 20 14)) (rf (bits w 13 7)) (rf (bits w 6 0)))
  | 0x1C => match bits w 24 21 with
    | 0 => zero w 6 0 <| .ok (.mov (rf (bits w 20 14)) (rf (bits w 13 7)))
    | 1 => zero w 13 10 <| zero w 6 0 <| .ok (.pmov (rf (bits w 20 14)) (Fin.ofNat 8 (bits w 9 7)))
    | 2 => zero w 20 17 <| zero w 6 0 <| .ok (.movp (Fin.ofNat 8 (bits w 16 14)) (rf (bits w 13 7)))
    | _ => .error .badFn
  | 0x1D => .ok (.addi (rf (bits w 24 18)) (rf (bits w 17 11)) (BitVec.ofNat 11 (bits w 10 0)))
  | 0x1E => .ok (.andi (rf (bits w 24 18)) (rf (bits w 17 11)) (BitVec.ofNat 11 (bits w 10 0)))
  | 0x1F => .ok (.ori (rf (bits w 24 18)) (rf (bits w 17 11)) (BitVec.ofNat 11 (bits w 10 0)))
  | 0x20 => .ok (.xori (rf (bits w 24 18)) (rf (bits w 17 11)) (BitVec.ofNat 11 (bits w 10 0)))
  | 0x21 => zero w 10 5 <| .ok (.shli (rf (bits w 24 18)) (rf (bits w 17 11)) (Fin.ofNat 32 (bits w 4 0)))
  | 0x22 => zero w 10 5 <| .ok (.shri (rf (bits w 24 18)) (rf (bits w 17 11)) (Fin.ofNat 32 (bits w 4 0)))
  | 0x23 => zero w 10 5 <| .ok (.sari (rf (bits w 24 18)) (rf (bits w 17 11)) (Fin.ofNat 32 (bits w 4 0)))
  | 0x24 => zero w 24 21 <| need (icondOf (bits w 10 7)) .badCond fun c => .ok (.icmpi (Fin.ofNat 8 (bits w 20 18)) (rf (bits w 17 11)) c (BitVec.ofNat 7 (bits w 6 0)))
  | 0x25 => .ok (.muli (rf (bits w 24 18)) (rf (bits w 17 11)) (BitVec.ofNat 11 (bits w 10 0)))
  | 0x26 => .ok (.movi (rf (bits w 24 18)) (BitVec.ofNat 18 (bits w 17 0)))
  | 0x27 => .ok (.movhi (rf (bits w 24 18)) (BitVec.ofNat 18 (bits w 17 0)))
  | 0x28 => match bits w 24 21 with
    | 0 => .ok (.fadd (rf (bits w 20 14)) (rf (bits w 13 7)) (rf (bits w 6 0)))
    | 1 => .ok (.fsub (rf (bits w 20 14)) (rf (bits w 13 7)) (rf (bits w 6 0)))
    | 2 => .ok (.fmul (rf (bits w 20 14)) (rf (bits w 13 7)) (rf (bits w 6 0)))
    | 3 => .ok (.ffma (rf (bits w 20 14)) (rf (bits w 13 7)) (rf (bits w 6 0)))
    | 4 => .ok (.ffms (rf (bits w 20 14)) (rf (bits w 13 7)) (rf (bits w 6 0)))
    | 5 => .ok (.fmin (rf (bits w 20 14)) (rf (bits w 13 7)) (rf (bits w 6 0)))
    | 6 => .ok (.fmax (rf (bits w 20 14)) (rf (bits w 13 7)) (rf (bits w 6 0)))
    | 7 => .ok (.fdiv (rf (bits w 20 14)) (rf (bits w 13 7)) (rf (bits w 6 0)))
    | 8 => zero w 6 0 <| .ok (.fabs (rf (bits w 20 14)) (rf (bits w 13 7)))
    | 9 => zero w 6 0 <| .ok (.fneg (rf (bits w 20 14)) (rf (bits w 13 7)))
    | 10 => .ok (.fcpys (rf (bits w 20 14)) (rf (bits w 13 7)) (rf (bits w 6 0)))
    | _ => .error .badFn
  | 0x29 => zero w 20 17 <| need (fcondOf (bits w 24 21)) .badCond fun c => .ok (.fcmp c (Fin.ofNat 8 (bits w 16 14)) (rf (bits w 13 7)) (rf (bits w 6 0)))
  | 0x2A => match bits w 24 21 with
    | 0 => zero w 6 0 <| .ok (.frcp (rf (bits w 20 14)) (rf (bits w 13 7)))
    | 1 => zero w 6 0 <| .ok (.frsq (rf (bits w 20 14)) (rf (bits w 13 7)))
    | 2 => zero w 6 0 <| .ok (.fsqrt (rf (bits w 20 14)) (rf (bits w 13 7)))
    | 3 => zero w 6 0 <| .ok (.fexp2 (rf (bits w 20 14)) (rf (bits w 13 7)))
    | 4 => zero w 6 0 <| .ok (.flog2 (rf (bits w 20 14)) (rf (bits w 13 7)))
    | 5 => zero w 6 0 <| .ok (.fsinpi (rf (bits w 20 14)) (rf (bits w 13 7)))
    | 6 => zero w 6 0 <| .ok (.fcospi (rf (bits w 20 14)) (rf (bits w 13 7)))
    | 7 => zero w 6 0 <| .ok (.ftanh (rf (bits w 20 14)) (rf (bits w 13 7)))
    | _ => .error .badFn
  | 0x2B => match bits w 24 21 with
    | 0 => zero w 6 0 <| .ok (.frne (rf (bits w 20 14)) (rf (bits w 13 7)))
    | 1 => zero w 6 0 <| .ok (.frtz (rf (bits w 20 14)) (rf (bits w 13 7)))
    | 2 => zero w 6 0 <| .ok (.fflr (rf (bits w 20 14)) (rf (bits w 13 7)))
    | 3 => zero w 6 0 <| .ok (.fceil (rf (bits w 20 14)) (rf (bits w 13 7)))
    | _ => .error .badFn
  | 0x2C => match bits w 24 21 with
    | 0 => .ok (.hadd2 (rf (bits w 20 14)) (rf (bits w 13 7)) (rf (bits w 6 0)))
    | 1 => .ok (.hmul2 (rf (bits w 20 14)) (rf (bits w 13 7)) (rf (bits w 6 0)))
    | 2 => .ok (.hfma2 (rf (bits w 20 14)) (rf (bits w 13 7)) (rf (bits w 6 0)))
    | 3 => .ok (.hmin2 (rf (bits w 20 14)) (rf (bits w 13 7)) (rf (bits w 6 0)))
    | 4 => .ok (.hmax2 (rf (bits w 20 14)) (rf (bits w 13 7)) (rf (bits w 6 0)))
    | _ => .error .badFn
  | 0x2D => match bits w 24 21 with
    | 0 => zero w 6 2 <| .ok (.cvtfi (rf (bits w 20 14)) (rf (bits w 13 7)) (rmodeOf (bits w 1 0)))
    | 1 => zero w 6 2 <| .ok (.cvtfu (rf (bits w 20 14)) (rf (bits w 13 7)) (rmodeOf (bits w 1 0)))
    | 2 => zero w 6 0 <| .ok (.cvtif (rf (bits w 20 14)) (rf (bits w 13 7)))
    | 3 => zero w 6 0 <| .ok (.cvtuf (rf (bits w 20 14)) (rf (bits w 13 7)))
    | 4 => .ok (.cvtfn (rf (bits w 20 14)) (rf (bits w 13 7)) (rf (bits w 6 0)))
    | 5 => .ok (.cvtnf (rf (bits w 20 14)) (rf (bits w 13 7)) (rf (bits w 6 0)))
    | 6 => .ok (.cvtnfh (rf (bits w 20 14)) (rf (bits w 13 7)) (rf (bits w 6 0)))
    | 7 => zero w 6 0 <| .ok (.cvtfc (rf (bits w 20 14)) (rf (bits w 13 7)))
    | 8 => .ok (.cvtcf (rf (bits w 20 14)) (rf (bits w 13 7)) (rf (bits w 6 0)))
    | 9 => .ok (.cvtfnt (rf (bits w 20 14)) (rf (bits w 13 7)) (rf (bits w 6 0)))
    | _ => .error .badFn
  | 0x2E => match bits w 24 21 with
    | 0 => zero w 6 0 <| .ok (.qswh (rf (bits w 20 14)) (rf (bits w 13 7)))
    | 1 => zero w 6 0 <| .ok (.qswv (rf (bits w 20 14)) (rf (bits w 13 7)))
    | 2 => zero w 6 0 <| .ok (.qswd (rf (bits w 20 14)) (rf (bits w 13 7)))
    | 3 => zero w 6 2 <| .ok (.qbc (rf (bits w 20 14)) (rf (bits w 13 7)) (Fin.ofNat 4 (bits w 1 0)))
    | _ => .error .badFn
  | 0x2F => match bits w 24 21 with
    | 0 => .ok (.shfli (rf (bits w 20 14)) (rf (bits w 13 7)) (rf (bits w 6 0)))
    | 1 => .ok (.shflu (rf (bits w 20 14)) (rf (bits w 13 7)) (rf (bits w 6 0)))
    | 2 => .ok (.shfld (rf (bits w 20 14)) (rf (bits w 13 7)) (rf (bits w 6 0)))
    | 3 => .ok (.shflx (rf (bits w 20 14)) (rf (bits w 13 7)) (rf (bits w 6 0)))
    | _ => .error .badFn
  | 0x30 => match bits w 24 21 with
    | 0 => zero w 20 17 <| zero w 13 11 <| zero w 6 0 <| .ok (.vany (Fin.ofNat 8 (bits w 16 14)) (bits w 10 10 == 1) (Fin.ofNat 8 (bits w 9 7)))
    | 1 => zero w 20 17 <| zero w 13 11 <| zero w 6 0 <| .ok (.vall (Fin.ofNat 8 (bits w 16 14)) (bits w 10 10 == 1) (Fin.ofNat 8 (bits w 9 7)))
    | 2 => zero w 13 11 <| zero w 6 0 <| .ok (.vbal (rf (bits w 20 14)) (bits w 10 10 == 1) (Fin.ofNat 8 (bits w 9 7)))
    | _ => .error .badFn
  | 0x31 => match bits w 24 21 with
    | 0 => zero w 6 0 <| .ok (.rdadd (rf (bits w 20 14)) (rf (bits w 13 7)))
    | 1 => zero w 6 0 <| .ok (.rdmin (rf (bits w 20 14)) (rf (bits w 13 7)))
    | 2 => zero w 6 0 <| .ok (.rdmax (rf (bits w 20 14)) (rf (bits w 13 7)))
    | 3 => zero w 6 0 <| .ok (.rdand (rf (bits w 20 14)) (rf (bits w 13 7)))
    | 4 => zero w 6 0 <| .ok (.rdor (rf (bits w 20 14)) (rf (bits w 13 7)))
    | 5 => zero w 6 0 <| .ok (.rdxor (rf (bits w 20 14)) (rf (bits w 13 7)))
    | 6 => zero w 6 0 <| .ok (.rdfadd (rf (bits w 20 14)) (rf (bits w 13 7)))
    | _ => .error .badFn
  | 0x32 => match bits w 24 21 with
    | 0 => .ok (.movxr (rf (bits w 20 14)) (rf (bits w 13 7)) (rf (bits w 6 0)))
    | 1 => .ok (.movxw (rf (bits w 20 14)) (rf (bits w 13 7)) (rf (bits w 6 0)))
    | _ => .error .badFn
  | 0x33 => zero w 24 21 <| .ok (.hmix (rf (bits w 20 14)) (rf (bits w 13 7)) (rf (bits w 6 0)))
  | 0x34 => zero w 24 21 <| .ok (.prmt (rf (bits w 20 14)) (rf (bits w 13 7)) (rf (bits w 6 0)))
  | 0x35 => match bits w 24 21 with
    | 0 => .ok (.addw (rf (bits w 20 14)) (rf (bits w 13 7)) (rf (bits w 6 0)))
    | 1 => .ok (.subw (rf (bits w 20 14)) (rf (bits w 13 7)) (rf (bits w 6 0)))
    | 2 => .ok (.mulw (rf (bits w 20 14)) (rf (bits w 13 7)) (rf (bits w 6 0)))
    | 3 => .ok (.mulwu (rf (bits w 20 14)) (rf (bits w 13 7)) (rf (bits w 6 0)))
    | 4 => .ok (.shlw (rf (bits w 20 14)) (rf (bits w 13 7)) (rf (bits w 6 0)))
    | 5 => .ok (.shrw (rf (bits w 20 14)) (rf (bits w 13 7)) (rf (bits w 6 0)))
    | _ => .error .badFn
  | 0x40 => zero w 6 4 <| need (lsizeOf (bits w 23 21)) .badSize fun z => .ok (.ld (bits w 24 24 == 1) z (rf (bits w 20 14)) (rf (bits w 13 7)) (Fin.ofNat 16 (bits w 3 0)))
  | 0x41 => need (lsizeOf (bits w 23 21)) .badSize fun z => need (scopeOf (bits w 6 4)) .badScope fun k => .ok (.lda (bits w 24 24 == 1) z (rf (bits w 20 14)) (rf (bits w 13 7)) k (Fin.ofNat 16 (bits w 3 0)))
  | 0x42 => zero w 6 4 <| need (ssizeOf (bits w 23 21)) .badSize fun z => .ok (.st (bits w 24 24 == 1) z (rf (bits w 20 14)) (rf (bits w 13 7)) (Fin.ofNat 16 (bits w 3 0)))
  | 0x43 => need (ssizeOf (bits w 23 21)) .badSize fun z => need (scopeOf (bits w 6 4)) .badScope fun k => .ok (.stl (bits w 24 24 == 1) z (rf (bits w 20 14)) (rf (bits w 13 7)) k (Fin.ofNat 16 (bits w 3 0)))
  | 0x44 => need (lsizeOf (bits w 23 21)) .badSize fun z => .ok (.lds (bits w 24 24 == 1) z (rf (bits w 20 14)) (rf (bits w 13 7)) (rf (bits w 6 0)))
  | 0x45 => need (ssizeOf (bits w 23 21)) .badSize fun z => .ok (.sts (bits w 24 24 == 1) z (rf (bits w 20 14)) (rf (bits w 13 7)) (rf (bits w 6 0)))
  | 0x46 => zero w 6 0 <| need (lsizeOf (bits w 23 21)) .badSize fun z => .ok (.ldw (bits w 24 24 == 1) z (rf (bits w 20 14)) (rf (bits w 13 7)))
  | 0x47 => zero w 6 0 <| need (ssizeOf (bits w 23 21)) .badSize fun z => .ok (.stw (bits w 24 24 == 1) z (rf (bits w 20 14)) (rf (bits w 13 7)))
  | 0x48 => zero w 6 4 <| need (atomOpOf (bits w 24 21)) .badFn fun f => .ok (.atom f (rf (bits w 20 14)) (rf (bits w 13 7)) (Fin.ofNat 16 (bits w 3 0)))
  | 0x49 => need (atomOpOf (bits w 24 21)) .badFn fun f => need (scopeOf (bits w 6 4)) .badScope fun k => .ok (.atoma f (rf (bits w 20 14)) (rf (bits w 13 7)) k (Fin.ofNat 16 (bits w 3 0)))
  | 0x4A => need (atomOpOf (bits w 24 21)) .badFn fun f => need (scopeOf (bits w 6 4)) .badScope fun k => .ok (.atoml f (rf (bits w 20 14)) (rf (bits w 13 7)) k (Fin.ofNat 16 (bits w 3 0)))
  | 0x4B => need (atomOpOf (bits w 24 21)) .badFn fun f => need (scopeOf (bits w 6 4)) .badScope fun k => .ok (.atomr f (rf (bits w 20 14)) (rf (bits w 13 7)) k (Fin.ofNat 16 (bits w 3 0)))
  | 0x4C => need (atomSOpOf (bits w 24 21)) .badFn fun f => .ok (.atoms f (rf (bits w 20 14)) (rf (bits w 13 7)) (rf (bits w 6 0)))
  | 0x4D => zero w 24 5 <| need (scopeOf (bits w 2 0)) .badScope fun k => .ok (.fence (orderOf (bits w 4 3)) k)
  | 0x4E => match bits w 24 21 with
    | 0 => zero w 20 18 <| zero w 6 0 <| .ok (.capld (Fin.ofNat 16 (bits w 17 14)) (rf (bits w 13 7)))
    | 1 => zero w 20 18 <| zero w 6 4 <| .ok (.capnar (Fin.ofNat 16 (bits w 17 14)) (rf (bits w 13 7)) (Fin.ofNat 16 (bits w 3 0)))
    | 2 => zero w 13 4 <| .ok (.caprd (rf (bits w 20 14)) (Fin.ofNat 16 (bits w 3 0)))
    | 3 => zero w 20 18 <| zero w 6 4 <| .ok (.caprr (Fin.ofNat 16 (bits w 17 14)) (rf (bits w 13 7)) (Fin.ofNat 16 (bits w 3 0)))
    | _ => .error .badFn
  | 0x4F => match bits w 24 21 with
    | 0 => zero w 20 14 <| zero w 6 4 <| .ok (.discard (rf (bits w 13 7)) (Fin.ofNat 16 (bits w 3 0)))
    | 1 => zero w 20 14 <| zero w 6 4 <| .ok (.pref (rf (bits w 13 7)) (Fin.ofNat 16 (bits w 3 0)))
    | _ => .error .badFn
  | 0x50 => match bits w 24 21 with
    | 0 => zero w 17 14 <| zero w 6 4 <| .ok (.cpygs (Fin.ofNat 8 (bits w 20 18)) (rf (bits w 13 7)) (Fin.ofNat 16 (bits w 3 0)))
    | 1 => zero w 6 0 <| .ok (.cpysg (Fin.ofNat 8 (bits w 20 18)) (Fin.ofNat 16 (bits w 17 14)) (rf (bits w 13 7)))
    | 2 => zero w 17 14 <| zero w 6 0 <| .ok (.cpysw (Fin.ofNat 8 (bits w 20 18)) (rf (bits w 13 7)))
    | 3 => zero w 6 4 <| .ok (.cpygg (Fin.ofNat 8 (bits w 20 18)) (Fin.ofNat 16 (bits w 17 14)) (rf (bits w 13 7)) (Fin.ofNat 16 (bits w 3 0)))
    | _ => .error .badFn
  | 0x51 => zero w 24 21 <| zero w 17 14 <| zero w 6 4 <| .ok (.cpyx (Fin.ofNat 8 (bits w 20 18)) (rf (bits w 13 7)) (Fin.ofNat 16 (bits w 3 0)))
  | 0x52 => match bits w 24 21 with
    | 0 => zero w 20 14 <| zero w 6 0 <| .ok (.barinit (rf (bits w 13 7)))
    | 1 => zero w 20 14 <| zero w 6 0 <| .ok (.bararr (rf (bits w 13 7)))
    | 2 => zero w 20 17 <| zero w 6 0 <| .ok (.barwait (Fin.ofNat 8 (bits w 16 14)) (rf (bits w 13 7)))
    | 3 => zero w 6 1 <| .ok (.bartry (rf (bits w 20 14)) (rf (bits w 13 7)) (bits w 0 0 == 1))
    | _ => .error .badFn
  | 0x53 => match bits w 24 21 with
    | 0 => zero w 20 16 <| need (memFormOf (bits w 6 0)) .badForm fun f => .ok (.monarm (Fin.ofNat 4 (bits w 15 14)) (rf (bits w 13 7)) f)
    | 1 => zero w 13 2 <| .ok (.monwait (rf (bits w 20 14)) (Fin.ofNat 4 (bits w 1 0)))
    | 2 => zero w 20 2 <| .ok (.monclr (Fin.ofNat 4 (bits w 1 0)))
    | _ => .error .badFn
  | 0x58 => zero w 21 21 <| .ok (.mma (bits w 24 24 == 1) (bits w 23 23 == 1) (bits w 22 22 == 1) (rf (bits w 20 14)) (rf (bits w 13 7)) (rf (bits w 6 0)))
  | 0x59 => match bits w 24 21 with
    | 0 => zero w 20 14 <| zero w 6 0 <| .ok (.accz (rf (bits w 13 7)))
    | 1 => zero w 20 14 <| need (memFormOf (bits w 6 0)) .badForm fun f => .ok (.accld (rf (bits w 13 7)) f)
    | 2 => zero w 20 14 <| need (memFormOf (bits w 6 0)) .badForm fun f => .ok (.accst (rf (bits w 13 7)) f)
    | 3 => zero w 20 14 <| need (memFormOf (bits w 6 0)) .badForm fun f => .ok (.accss (rf (bits w 13 7)) f)
    | 4 => zero w 6 1 <| .ok (.accxa (rf (bits w 20 14)) (rf (bits w 13 7)) (bits w 0 0 == 1))
    | 5 => zero w 6 1 <| .ok (.accxr (rf (bits w 20 14)) (rf (bits w 13 7)) (bits w 0 0 == 1))
    | 6 => zero w 20 14 <| zero w 6 0 <| .ok (.acccp (rf (bits w 13 7)))
    | _ => .error .badFn
  | 0x5A => zero w 24 24 <| zero w 20 14 <| zero w 6 4 <| .ok (.cbld (Fin.ofNat 8 (bits w 23 21)) (rf (bits w 13 7)) (Fin.ofNat 16 (bits w 3 0)))
  | 0x5B => zero w 6 4 <| .ok (.ldsb (Fin.ofNat 16 (bits w 24 21)) (rf (bits w 20 14)) (rf (bits w 13 7)) (Fin.ofNat 16 (bits w 3 0)))
  | 0x60 => zero w 24 22 <| zero w 20 14 <| zero w 6 0 <| .ok (.wset (bits w 21 21 == 1) (rf (bits w 13 7)))
  | 0x61 => zero w 24 1 <| .ok (.wgo (bits w 0 0 == 1))
  | 0x62 => zero w 24 23 <| zero w 13 0 <| .ok (.qpop (Fin.ofNat 4 (bits w 22 21)) (rf (bits w 20 14)))
  | 0x63 => match bits w 24 21 with
    | 0 => zero w 20 0 <| .ok (.wstop)
    | 1 => zero w 13 0 <| .ok (.wstat (rf (bits w 20 14)))
    | _ => .error .badFn
  | 0x64 => zero w 24 21 <| zero w 6 0 <| .ok (.sqres (rf (bits w 20 14)) (rf (bits w 13 7)))
  | 0x65 => zero w 24 14 <| zero w 6 0 <| .ok (.sqcom (rf (bits w 13 7)))
  | 0x66 => zero w 24 21 <| .ok (.sqapp (rf (bits w 20 14)) (rf (bits w 13 7)) (rf (bits w 6 0)))
  | 0x67 => match bits w 24 21 with
    | 0 => zero w 6 0 <| .ok (.sqlen (rf (bits w 20 14)) (rf (bits w 13 7)))
    | 1 => zero w 6 0 <| .ok (.sqrlen (rf (bits w 20 14)) (rf (bits w 13 7)))
    | 2 => zero w 6 0 <| .ok (.sqwlo (rf (bits w 20 14)) (rf (bits w 13 7)))
    | _ => .error .badFn
  | 0x68 => zero w 24 21 <| .ok (.sqmap (rf (bits w 20 14)) (rf (bits w 13 7)) (rf (bits w 6 0)))
  | 0x69 => zero w 24 21 <| zero w 6 0 <| .ok (.sqfork (rf (bits w 20 14)) (rf (bits w 13 7)))
  | 0x6A => match bits w 24 21 with
    | 0 => zero w 6 0 <| .ok (.sqnew (rf (bits w 20 14)) (rf (bits w 13 7)))
    | 1 => zero w 20 14 <| zero w 6 0 <| .ok (.sqrel (rf (bits w 13 7)))
    | 2 => zero w 20 14 <| zero w 6 0 <| .ok (.sqwin (rf (bits w 13 7)))
    | 3 => zero w 6 0 <| .ok (.sqtake (rf (bits w 20 14)) (rf (bits w 13 7)))
    | 4 => zero w 20 14 <| zero w 6 0 <| .ok (.sqseal (rf (bits w 13 7)))
    | _ => .error .badFn
  | 0x6B => match bits w 24 21 with
    | 0 => zero w 6 0 <| .ok (.flpop (rf (bits w 20 14)) (rf (bits w 13 7)))
    | 1 => zero w 20 14 <| zero w 6 0 <| .ok (.flpush (rf (bits w 13 7)))
    | 2 => zero w 6 0 <| .ok (.flcnt (rf (bits w 20 14)) (rf (bits w 13 7)))
    | _ => .error .badFn
  | 0x6C => zero w 24 21 <| zero w 6 0 <| .ok (.mgmatch (rf (bits w 20 14)) (rf (bits w 13 7)))
  | 0x6D => zero w 24 21 <| zero w 6 0 <| .ok (.mgmerge (rf (bits w 20 14)) (rf (bits w 13 7)))
  | 0x6E => zero w 24 14 <| zero w 6 0 <| .ok (.mgsplit (rf (bits w 13 7)))
  | 0x6F => match bits w 24 21 with
    | 0 => zero w 20 14 <| zero w 6 0 <| .ok (.mgbias (rf (bits w 13 7)))
    | 1 => zero w 20 14 <| zero w 6 0 <| .ok (.mgpop (rf (bits w 13 7)))
    | 2 => zero w 6 0 <| .ok (.mgstat (rf (bits w 20 14)) (rf (bits w 13 7)))
    | _ => .error .badFn
  | 0x70 => match bits w 24 21 with
    | 0 => zero w 6 4 <| .ok (.launch (rf (bits w 20 14)) (rf (bits w 13 7)) (Fin.ofNat 16 (bits w 3 0)))
    | 1 => zero w 6 0 <| .ok (.lwait (rf (bits w 20 14)) (rf (bits w 13 7)))
    | 2 => zero w 6 0 <| .ok (.lstat (rf (bits w 20 14)) (rf (bits w 13 7)))
    | _ => .error .badFn
  | 0x71 => match bits w 24 21 with
    | 0 => zero w 20 14 <| zero w 6 4 <| .ok (.rwri (rf (bits w 13 7)) (Fin.ofNat 16 (bits w 3 0)))
    | 1 => zero w 20 14 <| zero w 6 4 <| .ok (.rrd (rf (bits w 13 7)) (Fin.ofNat 16 (bits w 3 0)))
    | _ => .error .badFn
  | _ => .error .badMajor

/-- A word from four bytes, the least significant first (R5, R36). -/
def wordOfBytes (b0 b1 b2 b3 : Byte) : Nat := b0.toNat + 256 * b1.toNat + 65536 * b2.toNat + 16777216 * b3.toNat

/-- The instruction at the head of a byte list and the bytes after it. -/
def decodeBytes : List Byte → Except DecodeError (Instr × List Byte)
  | b0 :: b1 :: b2 :: b3 :: rest => (decodeWord (wordOfBytes b0 b1 b2 b3)).map (·, rest)
  | _ => .error .short

/-- The four bytes of a word, the least significant first (R5). -/
def bytesOfWord (w : Nat) : List Byte :=
  [BitVec.ofNat 8 w, BitVec.ofNat 8 (w / 256), BitVec.ofNat 8 (w / 65536), BitVec.ofNat 8 (w / 16777216)]

/-- The instruction read from a word numbered as the opcode table numbers it: every instruction is one 32-bit word. -/
def decodeTableWord (nbits w : Nat) : Option Instr :=
  match decodeBytes (bytesOfWord (w % 2 ^ nbits)) with
  | .ok (i, _) => some i
  | .error _ => none

/-- The word of an instruction (R41, R48); an event or an engine's operation has none. -/
def encode (i : Instr) : Option Nat :=
  match i with
  | .nop => some (0x00000000)
  | .bra i q o => some (0x02000000 + 0x1000000 * i.toNat + 0x200000 * q.val + o.toNat)
  | .brd i p o => some (0x04000000 + 0x1000000 * i.toNat + 0x200000 * p.val + o.toNat)
  | .pushj o => some (0x06000000 + o.toNat)
  | .join => some (0x08000000)
  | .call o => some (0x0A000000 + o.toNat)
  | .ret a => some (0x0C000000 + 0x80 * a.val)
  | .brx a b => some (0x0E000000 + 0x80 * a.val + b.val)
  | .wbase i => some (0x10000000 + i.toNat)
  | .mrd d => some (0x12000000 + 0x4000 * d.val)
  | .mwr a => some (0x12200000 + 0x80 * a.val)
  | .mand i p => some (0x12400000 + 0x8 * i.toNat + p.val)
  | .hrd d => some (0x12600000 + 0x4000 * d.val)
  | .fmts a => some (0x14000000 + 0x80 * a.val)
  | .fmtr d => some (0x14200000 + 0x4000 * d.val)
  | .yield c o => some (0x16000000 + 0x200000 * yieldFlagCode c + o.toNat)
  | .exit => some (0x18000000)
  | .trap i => some (0x1A000000 + i.toNat)
  | .tret => some (0x1C000000)
  | .srd d i => some (0x1E000000 + 0x40000 * d.val + i.val)
  | .swr a i => some (0x20000000 + 0x800 * a.val + i.val)
  | .ucmp c q a b => some (0x22000000 + 0x200000 * c.code + 0x4000 * q.val + 0x80 * a.val + b.val)
  | .tcinv a => some (0x24000000 + 0x80 * a.val)
  | .brk => some (0x26000000)
  | .iadd d a b => some (0x28000000 + 0x4000 * d.val + 0x80 * a.val + b.val)
  | .isub d a b => some (0x28200000 + 0x4000 * d.val + 0x80 * a.val + b.val)
  | .imin d a b => some (0x28400000 + 0x4000 * d.val + 0x80 * a.val + b.val)
  | .imax d a b => some (0x28600000 + 0x4000 * d.val + 0x80 * a.val + b.val)
  | .iminu d a b => some (0x28800000 + 0x4000 * d.val + 0x80 * a.val + b.val)
  | .imaxu d a b => some (0x28A00000 + 0x4000 * d.val + 0x80 * a.val + b.val)
  | .iabsd d a b => some (0x28C00000 + 0x4000 * d.val + 0x80 * a.val + b.val)
  | .iadds d a b => some (0x28E00000 + 0x4000 * d.val + 0x80 * a.val + b.val)
  | .isubs d a b => some (0x29000000 + 0x4000 * d.val + 0x80 * a.val + b.val)
  | .imul d a b => some (0x2A000000 + 0x4000 * d.val + 0x80 * a.val + b.val)
  | .imulh d a b => some (0x2A200000 + 0x4000 * d.val + 0x80 * a.val + b.val)
  | .imulhu d a b => some (0x2A400000 + 0x4000 * d.val + 0x80 * a.val + b.val)
  | .imad d a b => some (0x2A600000 + 0x4000 * d.val + 0x80 * a.val + b.val)
  | .and d a b => some (0x2C000000 + 0x4000 * d.val + 0x80 * a.val + b.val)
  | .or d a b => some (0x2C200000 + 0x4000 * d.val + 0x80 * a.val + b.val)
  | .xor d a b => some (0x2C400000 + 0x4000 * d.val + 0x80 * a.val + b.val)
  | .andn d a b => some (0x2C600000 + 0x4000 * d.val + 0x80 * a.val + b.val)
  | .orn d a b => some (0x2C800000 + 0x4000 * d.val + 0x80 * a.val + b.val)
  | .xnor d a b => some (0x2CA00000 + 0x4000 * d.val + 0x80 * a.val + b.val)
  | .shl d a b => some (0x2E000000 + 0x4000 * d.val + 0x80 * a.val + b.val)
  | .shr d a b => some (0x2E200000 + 0x4000 * d.val + 0x80 * a.val + b.val)
  | .sar d a b => some (0x2E400000 + 0x4000 * d.val + 0x80 * a.val + b.val)
  | .rol d a b => some (0x2E600000 + 0x4000 * d.val + 0x80 * a.val + b.val)
  | .ror d a b => some (0x2E800000 + 0x4000 * d.val + 0x80 * a.val + b.val)
  | .popc d a => some (0x30000000 + 0x4000 * d.val + 0x80 * a.val)
  | .clz d a => some (0x30200000 + 0x4000 * d.val + 0x80 * a.val)
  | .ctz d a => some (0x30400000 + 0x4000 * d.val + 0x80 * a.val)
  | .brev d a => some (0x30600000 + 0x4000 * d.val + 0x80 * a.val)
  | .bswap d a => some (0x30800000 + 0x4000 * d.val + 0x80 * a.val)
  | .bfe d a b => some (0x32000000 + 0x4000 * d.val + 0x80 * a.val + b.val)
  | .bfeu d a b => some (0x32200000 + 0x4000 * d.val + 0x80 * a.val + b.val)
  | .bfi d a b => some (0x32400000 + 0x4000 * d.val + 0x80 * a.val + b.val)
  | .icmp c p a b => some (0x34000000 + 0x200000 * c.code + 0x4000 * p.val + 0x80 * a.val + b.val)
  | .sel p d a b => some (0x36000000 + 0x200000 * p.val + 0x4000 * d.val + 0x80 * a.val + b.val)
  | .mov d a => some (0x38000000 + 0x4000 * d.val + 0x80 * a.val)
  | .pmov d p => some (0x38200000 + 0x4000 * d.val + 0x80 * p.val)
  | .movp p a => some (0x38400000 + 0x4000 * p.val + 0x80 * a.val)
  | .addi d a i => some (0x3A000000 + 0x40000 * d.val + 0x800 * a.val + i.toNat)
  | .andi d a i => some (0x3C000000 + 0x40000 * d.val + 0x800 * a.val + i.toNat)
  | .ori d a i => some (0x3E000000 + 0x40000 * d.val + 0x800 * a.val + i.toNat)
  | .xori d a i => some (0x40000000 + 0x40000 * d.val + 0x800 * a.val + i.toNat)
  | .shli d a n => some (0x42000000 + 0x40000 * d.val + 0x800 * a.val + n.val)
  | .shri d a n => some (0x44000000 + 0x40000 * d.val + 0x800 * a.val + n.val)
  | .sari d a n => some (0x46000000 + 0x40000 * d.val + 0x800 * a.val + n.val)
  | .icmpi p a c i => some (0x48000000 + 0x40000 * p.val + 0x800 * a.val + 0x80 * c.code + i.toNat)
  | .muli d a i => some (0x4A000000 + 0x40000 * d.val + 0x800 * a.val + i.toNat)
  | .movi d i => some (0x4C000000 + 0x40000 * d.val + i.toNat)
  | .movhi d i => some (0x4E000000 + 0x40000 * d.val + i.toNat)
  | .fadd d a b => some (0x50000000 + 0x4000 * d.val + 0x80 * a.val + b.val)
  | .fsub d a b => some (0x50200000 + 0x4000 * d.val + 0x80 * a.val + b.val)
  | .fmul d a b => some (0x50400000 + 0x4000 * d.val + 0x80 * a.val + b.val)
  | .ffma d a b => some (0x50600000 + 0x4000 * d.val + 0x80 * a.val + b.val)
  | .ffms d a b => some (0x50800000 + 0x4000 * d.val + 0x80 * a.val + b.val)
  | .fmin d a b => some (0x50A00000 + 0x4000 * d.val + 0x80 * a.val + b.val)
  | .fmax d a b => some (0x50C00000 + 0x4000 * d.val + 0x80 * a.val + b.val)
  | .fdiv d a b => some (0x50E00000 + 0x4000 * d.val + 0x80 * a.val + b.val)
  | .fabs d a => some (0x51000000 + 0x4000 * d.val + 0x80 * a.val)
  | .fneg d a => some (0x51200000 + 0x4000 * d.val + 0x80 * a.val)
  | .fcpys d a b => some (0x51400000 + 0x4000 * d.val + 0x80 * a.val + b.val)
  | .fcmp c p a b => some (0x52000000 + 0x200000 * c.code + 0x4000 * p.val + 0x80 * a.val + b.val)
  | .frcp d a => some (0x54000000 + 0x4000 * d.val + 0x80 * a.val)
  | .frsq d a => some (0x54200000 + 0x4000 * d.val + 0x80 * a.val)
  | .fsqrt d a => some (0x54400000 + 0x4000 * d.val + 0x80 * a.val)
  | .fexp2 d a => some (0x54600000 + 0x4000 * d.val + 0x80 * a.val)
  | .flog2 d a => some (0x54800000 + 0x4000 * d.val + 0x80 * a.val)
  | .fsinpi d a => some (0x54A00000 + 0x4000 * d.val + 0x80 * a.val)
  | .fcospi d a => some (0x54C00000 + 0x4000 * d.val + 0x80 * a.val)
  | .ftanh d a => some (0x54E00000 + 0x4000 * d.val + 0x80 * a.val)
  | .frne d a => some (0x56000000 + 0x4000 * d.val + 0x80 * a.val)
  | .frtz d a => some (0x56200000 + 0x4000 * d.val + 0x80 * a.val)
  | .fflr d a => some (0x56400000 + 0x4000 * d.val + 0x80 * a.val)
  | .fceil d a => some (0x56600000 + 0x4000 * d.val + 0x80 * a.val)
  | .hadd2 d a b => some (0x58000000 + 0x4000 * d.val + 0x80 * a.val + b.val)
  | .hmul2 d a b => some (0x58200000 + 0x4000 * d.val + 0x80 * a.val + b.val)
  | .hfma2 d a b => some (0x58400000 + 0x4000 * d.val + 0x80 * a.val + b.val)
  | .hmin2 d a b => some (0x58600000 + 0x4000 * d.val + 0x80 * a.val + b.val)
  | .hmax2 d a b => some (0x58800000 + 0x4000 * d.val + 0x80 * a.val + b.val)
  | .cvtfi d a m => some (0x5A000000 + 0x4000 * d.val + 0x80 * a.val + m.code)
  | .cvtfu d a m => some (0x5A200000 + 0x4000 * d.val + 0x80 * a.val + m.code)
  | .cvtif d a => some (0x5A400000 + 0x4000 * d.val + 0x80 * a.val)
  | .cvtuf d a => some (0x5A600000 + 0x4000 * d.val + 0x80 * a.val)
  | .cvtfn d a b => some (0x5A800000 + 0x4000 * d.val + 0x80 * a.val + b.val)
  | .cvtnf d a b => some (0x5AA00000 + 0x4000 * d.val + 0x80 * a.val + b.val)
  | .cvtnfh d a b => some (0x5AC00000 + 0x4000 * d.val + 0x80 * a.val + b.val)
  | .cvtfc d a => some (0x5AE00000 + 0x4000 * d.val + 0x80 * a.val)
  | .cvtcf d a b => some (0x5B000000 + 0x4000 * d.val + 0x80 * a.val + b.val)
  | .cvtfnt d a b => some (0x5B200000 + 0x4000 * d.val + 0x80 * a.val + b.val)
  | .qswh d a => some (0x5C000000 + 0x4000 * d.val + 0x80 * a.val)
  | .qswv d a => some (0x5C200000 + 0x4000 * d.val + 0x80 * a.val)
  | .qswd d a => some (0x5C400000 + 0x4000 * d.val + 0x80 * a.val)
  | .qbc d a n => some (0x5C600000 + 0x4000 * d.val + 0x80 * a.val + n.val)
  | .shfli d a b => some (0x5E000000 + 0x4000 * d.val + 0x80 * a.val + b.val)
  | .shflu d a b => some (0x5E200000 + 0x4000 * d.val + 0x80 * a.val + b.val)
  | .shfld d a b => some (0x5E400000 + 0x4000 * d.val + 0x80 * a.val + b.val)
  | .shflx d a b => some (0x5E600000 + 0x4000 * d.val + 0x80 * a.val + b.val)
  | .vany q i p => some (0x60000000 + 0x4000 * q.val + 0x400 * i.toNat + 0x80 * p.val)
  | .vall q i p => some (0x60200000 + 0x4000 * q.val + 0x400 * i.toNat + 0x80 * p.val)
  | .vbal d i p => some (0x60400000 + 0x4000 * d.val + 0x400 * i.toNat + 0x80 * p.val)
  | .rdadd d a => some (0x62000000 + 0x4000 * d.val + 0x80 * a.val)
  | .rdmin d a => some (0x62200000 + 0x4000 * d.val + 0x80 * a.val)
  | .rdmax d a => some (0x62400000 + 0x4000 * d.val + 0x80 * a.val)
  | .rdand d a => some (0x62600000 + 0x4000 * d.val + 0x80 * a.val)
  | .rdor d a => some (0x62800000 + 0x4000 * d.val + 0x80 * a.val)
  | .rdxor d a => some (0x62A00000 + 0x4000 * d.val + 0x80 * a.val)
  | .rdfadd d a => some (0x62C00000 + 0x4000 * d.val + 0x80 * a.val)
  | .movxr d a b => some (0x64000000 + 0x4000 * d.val + 0x80 * a.val + b.val)
  | .movxw d a b => some (0x64200000 + 0x4000 * d.val + 0x80 * a.val + b.val)
  | .hmix d a b => some (0x66000000 + 0x4000 * d.val + 0x80 * a.val + b.val)
  | .prmt d a b => some (0x68000000 + 0x4000 * d.val + 0x80 * a.val + b.val)
  | .addw d a b => some (0x6A000000 + 0x4000 * d.val + 0x80 * a.val + b.val)
  | .subw d a b => some (0x6A200000 + 0x4000 * d.val + 0x80 * a.val + b.val)
  | .mulw d a b => some (0x6A400000 + 0x4000 * d.val + 0x80 * a.val + b.val)
  | .mulwu d a b => some (0x6A600000 + 0x4000 * d.val + 0x80 * a.val + b.val)
  | .shlw d a b => some (0x6A800000 + 0x4000 * d.val + 0x80 * a.val + b.val)
  | .shrw d a b => some (0x6AA00000 + 0x4000 * d.val + 0x80 * a.val + b.val)
  | .ld h z d a c => some (0x80000000 + 0x1000000 * h.toNat + 0x200000 * z.code + 0x4000 * d.val + 0x80 * a.val + c.val)
  | .lda h z d a k c => some (0x82000000 + 0x1000000 * h.toNat + 0x200000 * z.code + 0x4000 * d.val + 0x80 * a.val + 0x10 * k.code + c.val)
  | .st h z d a c => some (0x84000000 + 0x1000000 * h.toNat + 0x200000 * z.code + 0x4000 * d.val + 0x80 * a.val + c.val)
  | .stl h z d a k c => some (0x86000000 + 0x1000000 * h.toNat + 0x200000 * z.code + 0x4000 * d.val + 0x80 * a.val + 0x10 * k.code + c.val)
  | .lds h z d a b => some (0x88000000 + 0x1000000 * h.toNat + 0x200000 * z.code + 0x4000 * d.val + 0x80 * a.val + b.val)
  | .sts h z d a b => some (0x8A000000 + 0x1000000 * h.toNat + 0x200000 * z.code + 0x4000 * d.val + 0x80 * a.val + b.val)
  | .ldw h z d a => some (0x8C000000 + 0x1000000 * h.toNat + 0x200000 * z.code + 0x4000 * d.val + 0x80 * a.val)
  | .stw h z d a => some (0x8E000000 + 0x1000000 * h.toNat + 0x200000 * z.code + 0x4000 * d.val + 0x80 * a.val)
  | .atom f d a c => some (0x90000000 + 0x200000 * f.code + 0x4000 * d.val + 0x80 * a.val + c.val)
  | .atoma f d a k c => some (0x92000000 + 0x200000 * f.code + 0x4000 * d.val + 0x80 * a.val + 0x10 * k.code + c.val)
  | .atoml f d a k c => some (0x94000000 + 0x200000 * f.code + 0x4000 * d.val + 0x80 * a.val + 0x10 * k.code + c.val)
  | .atomr f d a k c => some (0x96000000 + 0x200000 * f.code + 0x4000 * d.val + 0x80 * a.val + 0x10 * k.code + c.val)
  | .atoms f d a b => some (0x98000000 + 0x200000 * f.code + 0x4000 * d.val + 0x80 * a.val + b.val)
  | .fence r k => some (0x9A000000 + 0x8 * r.code + k.code)
  | .capld e a => some (0x9C000000 + 0x4000 * e.val + 0x80 * a.val)
  | .capnar e a c => some (0x9C200000 + 0x4000 * e.val + 0x80 * a.val + c.val)
  | .caprd d c => some (0x9C400000 + 0x4000 * d.val + c.val)
  | .caprr e a c => some (0x9C600000 + 0x4000 * e.val + 0x80 * a.val + c.val)
  | .discard a c => some (0x9E000000 + 0x80 * a.val + c.val)
  | .pref a c => some (0x9E200000 + 0x80 * a.val + c.val)
  | .cpygs q a c => some (0xA0000000 + 0x40000 * q.val + 0x80 * a.val + c.val)
  | .cpysg q e a => some (0xA0200000 + 0x40000 * q.val + 0x4000 * e.val + 0x80 * a.val)
  | .cpysw q a => some (0xA0400000 + 0x40000 * q.val + 0x80 * a.val)
  | .cpygg q e a c => some (0xA0600000 + 0x40000 * q.val + 0x4000 * e.val + 0x80 * a.val + c.val)
  | .cpyx q a c => some (0xA2000000 + 0x40000 * q.val + 0x80 * a.val + c.val)
  | .barinit a => some (0xA4000000 + 0x80 * a.val)
  | .bararr a => some (0xA4200000 + 0x80 * a.val)
  | .barwait q a => some (0xA4400000 + 0x4000 * q.val + 0x80 * a.val)
  | .bartry d a x => some (0xA4600000 + 0x4000 * d.val + 0x80 * a.val + x.toNat)
  | .monarm i a f => some (0xA6000000 + 0x4000 * i.val + 0x80 * a.val + memFormCode f)
  | .monwait d i => some (0xA6200000 + 0x4000 * d.val + i.val)
  | .monclr i => some (0xA6400000 + i.val)
  | .mma r z t d a b => some (0xB0000000 + 0x1000000 * r.toNat + 0x800000 * z.toNat + 0x400000 * t.toNat + 0x4000 * d.val + 0x80 * a.val + b.val)
  | .accz a => some (0xB2000000 + 0x80 * a.val)
  | .accld a f => some (0xB2200000 + 0x80 * a.val + memFormCode f)
  | .accst a f => some (0xB2400000 + 0x80 * a.val + memFormCode f)
  | .accss a f => some (0xB2600000 + 0x80 * a.val + memFormCode f)
  | .accxa d a m => some (0xB2800000 + 0x4000 * d.val + 0x80 * a.val + m.toNat)
  | .accxr d a m => some (0xB2A00000 + 0x4000 * d.val + 0x80 * a.val + m.toNat)
  | .acccp a => some (0xB2C00000 + 0x80 * a.val)
  | .cbld n a c => some (0xB4000000 + 0x200000 * n.val + 0x80 * a.val + c.val)
  | .ldsb n d a c => some (0xB6000000 + 0x200000 * n.val + 0x4000 * d.val + 0x80 * a.val + c.val)
  | .wset n a => some (0xC0000000 + 0x200000 * n.toNat + 0x80 * a.val)
  | .wgo n => some (0xC2000000 + n.toNat)
  | .qpop q d => some (0xC4000000 + 0x200000 * q.val + 0x4000 * d.val)
  | .wstop => some (0xC6000000)
  | .wstat d => some (0xC6200000 + 0x4000 * d.val)
  | .sqres d a => some (0xC8000000 + 0x4000 * d.val + 0x80 * a.val)
  | .sqcom a => some (0xCA000000 + 0x80 * a.val)
  | .sqapp d a b => some (0xCC000000 + 0x4000 * d.val + 0x80 * a.val + b.val)
  | .sqlen d a => some (0xCE000000 + 0x4000 * d.val + 0x80 * a.val)
  | .sqrlen d a => some (0xCE200000 + 0x4000 * d.val + 0x80 * a.val)
  | .sqwlo d a => some (0xCE400000 + 0x4000 * d.val + 0x80 * a.val)
  | .sqmap d a b => some (0xD0000000 + 0x4000 * d.val + 0x80 * a.val + b.val)
  | .sqfork d a => some (0xD2000000 + 0x4000 * d.val + 0x80 * a.val)
  | .sqnew d a => some (0xD4000000 + 0x4000 * d.val + 0x80 * a.val)
  | .sqrel a => some (0xD4200000 + 0x80 * a.val)
  | .sqwin a => some (0xD4400000 + 0x80 * a.val)
  | .sqtake d a => some (0xD4600000 + 0x4000 * d.val + 0x80 * a.val)
  | .sqseal a => some (0xD4800000 + 0x80 * a.val)
  | .flpop d a => some (0xD6000000 + 0x4000 * d.val + 0x80 * a.val)
  | .flpush a => some (0xD6200000 + 0x80 * a.val)
  | .flcnt d a => some (0xD6400000 + 0x4000 * d.val + 0x80 * a.val)
  | .mgmatch d a => some (0xD8000000 + 0x4000 * d.val + 0x80 * a.val)
  | .mgmerge d a => some (0xDA000000 + 0x4000 * d.val + 0x80 * a.val)
  | .mgsplit a => some (0xDC000000 + 0x80 * a.val)
  | .mgbias a => some (0xDE000000 + 0x80 * a.val)
  | .mgpop a => some (0xDE200000 + 0x80 * a.val)
  | .mgstat d a => some (0xDE400000 + 0x4000 * d.val + 0x80 * a.val)
  | .launch d a c => some (0xE0000000 + 0x4000 * d.val + 0x80 * a.val + c.val)
  | .lwait d a => some (0xE0200000 + 0x4000 * d.val + 0x80 * a.val)
  | .lstat d a => some (0xE0400000 + 0x4000 * d.val + 0x80 * a.val)
  | .rwri a c => some (0xE2000000 + 0x80 * a.val + c.val)
  | .rrd a c => some (0xE2200000 + 0x80 * a.val + c.val)
  | .clauseFetch _ => none
  | .clauseAccept _ => none
  | .deferredTrap _ => none
  | .groupAged _ => none
  | .pendingAgeSwap _ => none
  | .swap _ _ => none
  | .swapDone _ _ => none
  | .waitEventWake _ => none
  | .farCheckReport _ => none
  | .loadDataReturn _ => none
  | .atomicReturn _ => none
  | .atomicResultLost _ => none
  | .capldEntryReturn _ => none
  | .fenceScComplete _ => none
  | .tcinvComplete _ => none
  | .prefArrival _ => none
  | .reclaimComplete _ => none
  | .copyComplete _ => none
  | .seamCompletionMessage _ _ => none
  | .seamCompletionAck _ _ => none
  | .monitorReread _ _ => none
  | .matrixCommandComplete _ => none
  | .walkerReadReturn _ _ => none
  | .probeTimeout _ => none
  | .sequenceAnswer _ => none
  | .mergeCommandComplete _ => none
  | .packageTick => none
  | .systemTick => none
  | .rotation _ _ => none
  | .spillComplete _ => none
  | .predictorDecay => none
  | .mappingBoundExceeded _ _ => none
  | .recordAccept _ _ => none
  | .launchComplete _ => none
  | .blockRetire _ => none
  | .dieFatalFailure _ => none
  | .reserve _ _ _ => none
  | .commit _ _ _ => none
  | .refresh _ _ => none
  | .replayPage _ _ _ => none
  | .replayContext _ => none
  | .status => none
  | .ctxreg => none
  | .seqarea => none
  | .flset => none
  | .objtab => none
  | .faultseq => none
  | .notetab => none
  | .quantum => none
  | .tclimset => none
  | .domain => none
  | .protdom => none
  | .poisondel => none
  | .cntread => none
  | .logrot => none
  | .logread => none
  | .pwrlim => none
  | .portrst => none
  | .dieup => none
  | .ctxrel => none
  | .sqcreate => none
  | .flfill => none
  | .sqdel => none
  | .registerWrite _ _ _ => none
  | .hostApertureRead _ _ => none
  | .hostApertureWrite _ _ => none
  | .hostAtomicopReceived _ => none
  | .getVersion _ => none
  | .getCapabilities _ => none
  | .negotiateAlgorithms _ _ _ => none
  | .getDigests _ => none
  | .getCertificate _ _ _ _ => none
  | .challenge _ _ _ => none
  | .getMeasurements _ _ _ => none
  | .packageReset => none
  | .selftestComplete _ _ => none
  | .powerControl _ _ => none
  | .thermalThrottle _ => none
  | .dieOverheat _ => none
  | .portCheck _ _ => none
  | .faultReport _ => none
  | .hbmReadComplete _ _ _ => none
  | .farAtomic _ _ => none
  | .hostAtomic _ _ => none
  | .atomicopCompletion _ _ _ _ => none
  | .sliceTcinv _ _ => none
  | .sliceTcinvDrained _ _ => none
  | .pcieCompletion _ _ _ _ => none
  | .completionTimeout _ _ => none
  | .pcieLinkDown => none
  | .pcieLinkUp => none
  | .linkTrained _ => none
  | .discovery _ _ => none
  | .flitReceived _ _ _ _ _ => none
  | .nak _ _ => none
  | .ackTimeout _ => none
  | .lossOfSignal _ => none
  | .retrainComplete _ => none
  | .inboundRwri _ _ => none
  | .inboundRrd _ _ => none
  | .rwriAck _ _ => none
  | .rrdData _ _ _ => none
  | .channelRequest _ _ => none
  | .slabRead _ _ => none
  | .slabExclusive _ _ => none
  | .slabDowngrade _ _ => none
  | .slabTeardown _ _ => none
  | .rd _ => none
  | .xreq _ => none
  | .srdSteeredRead _ => none
  | .inv _ => none
  | .tkeep _ => none
  | .grant _ => none
  | .data _ => none
  | .ack _ => none
  | .prune _ => none
  | .jdone _ => none
  | .leave _ => none
  | .wb _ => none
  | .wback _ => none
  | .snoop _ => none
  | .quiet _ _ => none
  | .heldMessageRelease _ _ _ => none
  | .wreq _ _ => none
  | .wack _ => none
  | .trainingEnd _ => none
  | .frame _ => none
  | .frameLockTimeout _ => none
  | .wnak _ => none
  | .romCheckComplete _ => none
  | .slotMoveComplete _ _ => none
  | .poolAllocationComplete _ => none
  | .imageFillComplete _ _ => none
  | .bankSwitchComplete _ => none
  | .walkerCommandComplete _ => none
  | .walkerEntryGenerate _ => none
  | .residencyProbeAnswer _ _ _ => none
  | .fixedLatencyComplete _ _ => none

end Sys2Proof
end

