-- ==== Sys2Proof/Config.lean ====
section
/-! DEFINITION. What the spec leaves to the part or gives no value for: constants and free values without a body.
Each is named in a log entry (notes/assumptions). -/

namespace Sys2Proof.Config

/-- The chip revision less one: REVID reads a value of 0x01 or higher (spec/06 R194; log entry 3). -/
opaque revisionStep : Fin 255

/-- The n-th free value drawn: a 64-bit reading of the core clock (spec/06 R194, R15; log entry 3). -/
opaque freeClock : Nat → BitVec 64

/-- The n-th free word drawn, for a result the spec states no value for (log entry 3). -/
opaque freeWord : Nat → BitVec 32

/-- TVAL of an instruction-wide trap whose value the spec does not state, by cause and instruction word: the same in every run (spec/03 R86,
R87; log entry 3). -/
opaque openValue : Nat → BitVec 32 → BitVec 32

/-- A digest, certificate or signature byte string of the package, by kind and index (spec/17 R467; log entry 14). -/
opaque secret : Nat → Nat → Nat

/-- An FP32 result for a function argument on which the model's interval method does not decide the rounding
(spec/03 R79; log entry 13): by function code and operand bits. -/
opaque undecided : Nat → BitVec 32 → BitVec 32

/-- The voltage in millivolts a controller holds for an island at a command (spec/17 R466; log entry 15). -/
opaque islandVolts : Nat → Nat → Fin 4096

/-- What a counter of stalls or of fabric timing reads at a command, by draw and counter (spec/06 R176; log entry 18). -/
opaque timedCount : Nat → Nat → BitVec 64

/-- What the management engine finds when it verifies what a peer answered: its certificate chain (step 0) or measurement 1 to 5 (spec/17 R467; log
entry 14). -/
opaque peerSound : Nat → List Nat → Bool

end Sys2Proof.Config
end

