-- ==== Sys2Proof/Machine/Event.lean ====
section
/-! DEFINITION. The steps that are due, as data of the state: one constructor for each row of spec/opcode_table.json that
has no encoding, with the same name and arguments as its constructor of `Instr`. -/

namespace Sys2Proof.Machine

/-- An event or operation of an engine, the host or a peer (the rows of spec/opcode_table.json without an encoding). -/
inductive Event where
  | clauseFetch (g : Nat)
  | clauseAccept (g : Nat)
  | deferredTrap (g : Nat)
  | groupAged (g : Nat)
  | pendingAgeSwap (g : Nat)
  | swap (inn : Nat) (out : Option Nat)
  | swapDone (inn : Nat) (out : Option Nat)
  | waitEventWake (g : Nat)
  | farCheckReport (op : Nat)
  | loadDataReturn (op : Nat)
  | atomicReturn (op : Nat)
  | atomicResultLost (op : Nat)
  | capldEntryReturn (op : Nat)
  | fenceScComplete (op : Nat)
  | tcinvComplete (op : Nat)
  | prefArrival (op : Nat)
  | reclaimComplete (core : Nat)
  | copyComplete (op : Nat)
  | seamCompletionMessage (blk : Nat) (off : Nat)
  | seamCompletionAck (blk : Nat) (off : Nat)
  | monitorReread (g : Nat) (i : Nat)
  | matrixCommandComplete (op : Nat)
  | walkerReadReturn (g : Nat) (ent : Nat)
  | probeTimeout (g : Nat)
  | sequenceAnswer (op : Nat)
  | mergeCommandComplete (op : Nat)
  | packageTick
  | systemTick
  | rotation (ctx : Nat) (qn : Nat)
  | spillComplete (course : Nat)
  | predictorDecay
  | mappingBoundExceeded (ctx : Nat) (qn : Nat)
  | recordAccept (ctx : Nat) (qn : Nat)
  | launchComplete (launch : Nat)
  | blockRetire (blk : Nat)
  | dieFatalFailure (die : Nat)
  | reserve (ctx : Nat) (qn : Nat) (n : Nat)
  | commit (ctx : Nat) (qn : Nat) (n : Nat)
  | refresh (ctx : Nat) (qn : Nat)
  | replayPage (ctx : Nat) (obj : Nat) (page : Nat)
  | replayContext (ctx : Nat)
  | status
  | ctxreg
  | seqarea
  | flset
  | objtab
  | faultseq
  | notetab
  | quantum
  | tclimset
  | domain
  | protdom
  | poisondel
  | cntread
  | logrot
  | logread
  | pwrlim
  | portrst
  | dieup
  | ctxrel
  | sqcreate
  | flfill
  | sqdel
  | registerWrite (off : Nat) (size : Nat) (val : Nat)
  | hostApertureRead (off : Nat) (size : Nat)
  | hostApertureWrite (off : Nat) (bytes : List Nat)
  | hostAtomicopReceived (tag : Nat)
  | getVersion (ch : Nat)
  | getCapabilities (ch : Nat)
  | negotiateAlgorithms (ch : Nat) (sigs : List Nat) (hashes : List Nat)
  | getDigests (ch : Nat)
  | getCertificate (ch : Nat) (slot : Nat) (off : Nat) (len : Nat)
  | challenge (ch : Nat) (slot : Nat) (nonce : Nat)
  | getMeasurements (ch : Nat) (idx : Nat) (nonce : Nat)
  | packageReset
  | selftestComplete (code : Nat) (repaired : Nat)
  | powerControl (isl : List IslandSet) (links : List LinkOrder)
  | thermalThrottle (isl : Nat)
  | dieOverheat (die : Nat)
  | portCheck (op : Nat) (line : Nat)
  | faultReport (r : FaultRec)
  | hbmReadComplete (line : Nat) (sector : Nat) (ecc : Ecc)
  | farAtomic (op : Nat) (lane : Nat)
  | hostAtomic (op : Nat) (lane : Nat)
  | atomicopCompletion (op : Nat) (lane : Nat) (st : CplStatus) (val : Nat)
  | sliceTcinv (op : Nat) (slice : Nat)
  | sliceTcinvDrained (op : Nat) (slice : Nat)
  | pcieCompletion (op : Nat) (lane : Nat) (st : CplStatus) (val : Nat)
  | completionTimeout (op : Nat) (lane : Nat)
  | pcieLinkDown
  | pcieLinkUp
  | linkTrained (port : Nat)
  | discovery (port : Nat) (m : DiscMsg)
  | flitReceived (port : Nat) (seq : Nat) (ack : Nat) (crcOk : Bool) (msg : LinkMsg)
  | nak (port : Nat) (last : Nat)
  | ackTimeout (port : Nat)
  | lossOfSignal (port : Nat)
  | retrainComplete (port : Nat)
  | inboundRwri (port : Nat) (r : RmaReq)
  | inboundRrd (port : Nat) (r : RmaReq)
  | rwriAck (op : Nat) (st : RmaStatus)
  | rrdData (op : Nat) (st : RmaStatus) (data : List Nat)
  | channelRequest (port : Nat) (r : ChanReq)
  | slabRead (port : Nat) (m : SlabMsg)
  | slabExclusive (port : Nat) (m : SlabMsg)
  | slabDowngrade (port : Nat) (m : SlabMsg)
  | slabTeardown (port : Nat) (m : SlabMsg)
  | rd (m : TMsg)
  | xreq (m : TMsg)
  | srdSteeredRead (m : TMsg)
  | inv (m : TMsg)
  | tkeep (m : TMsg)
  | grant (m : TMsg)
  | data (m : TMsg)
  | ack (m : TMsg)
  | prune (m : TMsg)
  | jdone (m : TMsg)
  | leave (m : TMsg)
  | wb (m : TMsg)
  | wback (m : TMsg)
  | snoop (m : TMsg)
  | quiet (tag : Nat) (router : Nat)
  | heldMessageRelease (router : Nat) (tag : Nat) (slab : Bool)
  | wreq (link : Nat) (width : Nat)
  | wack (link : Nat)
  | trainingEnd (link : Nat)
  | frame (link : Nat)
  | frameLockTimeout (link : Nat)
  | wnak (link : Nat)
  | romCheckComplete (ok : Bool)
  | slotMoveComplete (ctx : Nat) (qn : Nat)
  | poolAllocationComplete (blk : Nat)
  | imageFillComplete (course : Nat) (bad : List (Nat × Nat))
  | bankSwitchComplete (course : Nat)
  | walkerCommandComplete (op : Nat)
  | walkerEntryGenerate (g : Nat)
  | residencyProbeAnswer (g : Nat) (tile : Nat) (rank : Nat)
  | fixedLatencyComplete (g : Nat) (tok : Nat)
  deriving DecidableEq, Repr

end Sys2Proof.Machine
end

