-- ==== Sys2Proof/Machine/State.lean ====
section
/-! DEFINITION. The state of one Plodogo package, as plain data. INVENTORY.md lists every field with the rule of spec/
that names it and its reset value. -/

namespace Sys2Proof.Machine

/-- A sparse table in one canonical form: keys strictly rising, no entry equal to the table's default. -/
abbrev SMap (α : Type) := List (Nat × α)

/-! ## Groups -/

/-- A capability (spec/01 R23). -/
structure Cap where
  obj : Nat
  base : Nat
  len : Nat
  rights : Nat
  kind : Nat
  gen : Nat
  deriving DecidableEq, Repr

/-- The null capability: all 128 bits zero (R24). -/
def Cap.null : Cap := ⟨0, 0, 0, 0, 0, 0⟩

/-- A fetched clause: offset of its header, header fields and instruction words (spec/02 R37, R38). -/
structure Clause where
  hdr : Nat
  wait : Nat
  seta : Nat
  setb : Nat
  words : List Nat
  deriving DecidableEq, Repr

/-- The clause of a group that has fetched none. -/
def Clause.none : Clause := ⟨0, 0, 15, 15, []⟩

/-- What a descheduled group waits on (spec/06 R177). -/
inductive WaitOn where
  | barrier (blk off phase : Nat)
  | monitor (i : Nat)
  | flag (f : Nat)
  | sequence (ctx h : Nat)
  | counter (ctx idx : Nat)
  deriving DecidableEq, Repr

/-- Where a group stands (spec/06 R169, R177, R185, R190). -/
inductive Phase where
  /-- the clause at this offset is to be fetched -/
  | fetch (pc : Nat)
  /-- a clause is fetched; it is accepted when its WAIT mask is met -/
  | fetched
  /-- the word of this index in the clause issues next -/
  | issue (idx : Nat)
  /-- a TRET resumes at the word of this index once the WAIT mask of the clause is met (R192) -/
  | resume (idx : Nat)
  /-- descheduled at the word of this index -/
  | waiting (idx : Nat) (on : WaitOn)
  /-- parked at the word of this index by the operation of this number -/
  | parked (idx op : Nat)
  /-- parked at the fetch of the clause at this offset, on this page of its code object -/
  | parkedFetch (pc page : Nat)
  /-- held at the word of this index until the operation of this number completes (TCINV, LAUNCH phase 1) -/
  | held (idx op : Nat)
  | exited
  | stopped
  deriving DecidableEq, Repr

/-- An entry of the join stack (spec/06 R181). -/
structure JoinEntry where
  deferred : Bool
  pc : Nat
  em : Mask
  fmt : Word
  deriving DecidableEq, Repr

/-- A trap's report: cause, values, faulting lanes, and per-lane values by lane (spec/06 R187, R188). -/
structure Trap where
  cause : Nat
  val : Word
  valhi : Word
  mask : Mask
  lanes : SMap Word
  deriving DecidableEq, Repr

/-- The trap registers and the remembered clause (spec/06 R187, R192, R194). -/
structure TrapRegs where
  handler : Bool
  tem : Mask
  tfm : Mask
  tpc : Word
  tcause : Word
  tval : Word
  tvalhi : Word
  tlane : SMap Word
  tdef : Bool
  tpcWritten : Bool
  clause : Clause
  deriving DecidableEq, Repr

/-- A monitor (spec/09 R294 to R297). -/
inductive Monitor where
  | idle
  | armed (form : MemForm) (cap : Cap) (adr cmp : Nat)
  | fired (val : Nat)
  | failed (t : Trap)
  deriving DecidableEq, Repr

/-- One operand-queue entry: 32 words by lane, or the failure it carries (spec/11 R328, R341). -/
structure QEntry where
  words : SMap Word
  fail : Option Trap
  /-- reads still in flight -/
  inFlight : Bool
  /-- pages (object, page) whose replay it waits for -/
  pages : List (Nat × Nat)
  id : Nat
  deriving DecidableEq, Repr

/-- A running or chained walk (spec/11 R339). `desc` holds the 32 descriptor words; `step` counts the entries of the
present tile still to push. -/
structure Walk where
  desc : List Nat
  caps : SMap Cap
  lanes : Mask
  helpers : Mask
  /-- tiles not yet visited, with the number of choices each has waited in the window -/
  tiles : List (Nat × Nat)
  /-- the tile being generated, its tag still due, inner iterations done, streams done of the present iteration -/
  tile : Option Nat
  tagDue : Bool
  inner : Nat
  stream : Nat
  /-- ranks the residency probes answered in the present choice (tile, rank) -/
  ranks : List (Nat × Nat)
  probed : Bool
  stopped : Bool
  /-- the operation number of its WGO: the group's accesses numbered below it come before its reads (R340) -/
  start : Nat
  deriving DecidableEq, Repr

/-- The walker state of a group (spec/11 R328). -/
structure WalkSt where
  slots : SMap (List Nat)
  queues : SMap (List QEntry)
  walks : List Walk
  nextId : Nat
  deriving DecidableEq, Repr

/-- How the scheduler sees a group (spec/06 R172 to R174, R177): its age, its place, when it entered the active set, the
issues of its partition it has waited through while ready, its aged mark, a swap that holds it, a voluntary swap it has asked
for, the object a stalled group records, and the kinds of stall already counted at its present word (R17, R20, R273). -/
structure Sched where
  age : Nat
  active : Bool
  entered : Nat
  waited : Nat
  aged : Bool
  swapping : Bool
  leaving : Bool
  sv : Option WaitOn
  stalls : Nat
  deriving DecidableEq, Repr

/-- The masks of a group (spec/06 R164, R165). -/
structure Lanes where
  em : Mask
  launch : Mask
  live : Mask
  helper : Mask
  /-- lanes for which the next word issues, after a TRET (R192) -/
  only : Option Mask
  deriving DecidableEq, Repr

/-- A group (spec/01 R14, spec/05 R145). -/
structure Group where
  blk : Nat
  gid : Nat
  part : Nat
  phase : Phase
  clause : Clause
  lanes : Lanes
  regs : SMap Word
  uregs : SMap Word
  preds : SMap Mask
  upreds : SMap Bool
  caps : SMap Cap
  flags : SMap Nat
  fmt : Word
  wb : Nat
  alloc : Nat
  join : List JoinEntry
  trap : TrapRegs
  deferred : List Trap
  /-- pending registers, each with the token of the operation that will write it (R20) -/
  pend : List (PReg × Nat)
  nextTok : Nat
  /-- marks of order (R96): later accesses come after the reads numbered below the first, later writes after the accesses below the
  second -/
  acqTo : Nat
  relTo : Nat
  mons : SMap Monitor
  walk : WalkSt
  latch : Option (SMap Word)
  clockHi : Word
  sched : Sched
  deriving DecidableEq, Repr

/-! ## Operations in flight -/

/-- How far one lane's access has come (spec/06 R170, spec/07 R228). -/
inductive AccSt where
  /-- the far check is still to be made -/
  | need
  /-- asked of the host, of a device register or of a peer; the answer is still to come -/
  | sent
  /-- its far check has passed; its data or ownership is still to come -/
  | clear
  /-- its line or target is ready for it -/
  | ready
  /-- a read of a dead page: it reads as zero while the page stays dead (R409) -/
  | zero
  | failed (t : Trap)
  /-- waiting for the replay of its page -/
  | page
  /-- performed: loaded value or returned old value -/
  | done (v : Nat)
  deriving DecidableEq, Repr

/-- One lane's access: displacement, offset or window address as a trap reports it; global address, or offset in the target
block; physical address and memory type once its port has translated it; bytes; operand values (store data or atomic
operands). -/
structure Acc where
  lane : Nat
  disp : Nat
  adr : Nat
  pa : Nat
  mt : Nat
  size : Nat
  data : Nat
  data2 : Nat
  /-- target block of a scratchpad or window access -/
  blk : Option Nat
  st : AccSt
  deriving DecidableEq, Repr

/-- Where an operation stands. -/
inductive Stage where
  | issued
  | cleared
  /-- waiting for the replay of a page of an object (an engine command, a walker read, a parked instruction) -/
  | page (obj page : Nat)
  /-- waiting at a sequence, the commit window or an empty take (R361, R370) -/
  | seqWait
  /-- a fence or TCINV waiting for the tick of this number (R103) -/
  | tick (n : Nat)
  /-- waiting for outside answers or for this many parts -/
  | parts (n : Nat)
  deriving DecidableEq, Repr

/-- An operation issued and not complete (spec/01 R16 to R21). -/
structure Op where
  gid : Nat
  instr : Instr
  /-- the flag it marks, 15 for none -/
  flag : Nat
  /-- active launch lanes and active helper lanes at issue -/
  mask : Mask
  helpers : Mask
  /-- the parameter block, and other uniform values read at issue -/
  ps : List Nat
  cap1 : Cap
  cap2 : Cap
  fmt : Word
  /-- lane values read at issue, keyed 32 × register index + lane -/
  vals : SMap Word
  dest : List PReg
  tok : Nat
  accs : List Acc
  stage : Stage
  /-- clause and index of the word, to issue it again (R192, R229) -/
  clause : Clause
  idx : Nat
  /-- latency class (R33) -/
  cls : Nat
  /-- the group's marks of order at its issue (R96): reads numbered below the first, and accesses below the second, come before it -/
  acqTo : Nat
  relTo : Nat
  /-- lines of global memory that a command of an engine is to write, and owns from its issue (R108) -/
  owns : List Nat
  deriving DecidableEq, Repr

/-! ## Blocks, courses, launches -/

/-- State of a block (spec/05 R155, R159). -/
inductive BlockSt where | allocating | live | retired | released | lost
  deriving DecidableEq, Repr

/-- An update held by a seam barrier during a half-phase (spec/09 R286, R287): barrier offset, kind 0 apply, 1 BARINIT. -/
structure HeldBar where
  off : Nat
  init : Bool
  da : Nat
  db : Nat
  win : Bool
  /-- the command that completes when the update is applied (R274, R289) -/
  op : Option Nat
  deriving DecidableEq, Repr

/-- A block (spec/01 R14). -/
structure Block where
  launch : Nat
  course : Nat
  rank : Nat
  core : Nat
  upper : Bool
  st : BlockSt
  scr : List Host.Cell
  acc : List Host.Cell
  /-- codebook entries, keyed 16 × slot + entry -/
  books : SMap Nat
  marked : List Nat
  ssat : Nat
  held : List HeldBar
  /-- offsets that have been acted on as barrier objects (R282, R293) -/
  bars : List Nat
  deriving DecidableEq, Repr

/-- State of a course (spec/05 R147 to R153). -/
inductive CourseSt where
  | placed
  | running
  /-- in the shadow bank, its image being written -/
  | spilling
  /-- out of the cores, its image complete -/
  | saved
  /-- its image being filled into a bank -/
  | filling
  /-- waiting for the bank switch -/
  | switching
  | retired
  | lost
  deriving DecidableEq, Repr

/-- A course (spec/05 R142 to R153). -/
structure Course where
  launch : Nat
  num : Nat
  blocks : List Nat
  seam : Bool
  st : CourseSt
  sliceStart : Nat
  waitSince : Option Nat
  /-- its context image is complete (R153) -/
  complete : Bool
  /-- offset of its context image in the context's save object (R154) -/
  image : Option Nat
  /-- courses that leave their cores when this one is switched in, and whether its present slice was counted as stretched -/
  outs : List Nat
  stretched : Bool
  /-- the course, by launch and course number, for which this one left its cores on the slow path: its cores are kept for it (R152) -/
  yieldTo : Option (Nat × Nat)
  deriving DecidableEq, Repr

/-- A launch record's fields (spec/05 R126). -/
structure LRec where
  ver : Nat
  flags : Nat
  gpb : Nat
  bpc : Nat
  code : Nat
  cls : Nat
  entry : Nat
  part : Nat
  ncourse : Nat
  nlanes : Nat
  handler : Nat
  cseq : Nat
  cctr : Nat
  s : List Nat
  ch : List Nat
  tok : List Nat
  deriving DecidableEq, Repr

/-- State of an accepted launch (spec/05 R130, R133, R156, R158). -/
inductive LaunchSt where | accepted | placing | running | draining | complete
  deriving DecidableEq, Repr

/-- An accepted launch. -/
structure Launch where
  ctx : Nat
  qn : Nat
  pos : Nat
  lr : LRec
  codeCap : Cap
  chCaps : List Cap
  token : Nat
  accTick : Nat
  nextCourse : Nat
  retired : Nat
  st : LaunchSt
  status : Nat
  tcause : Nat
  tpc : Nat
  tag : Nat
  /-- when it began to wait for cores -/
  since : Option Nat
  /-- the launch accepted before it from the same queue, and whether a failed die held blocks of it -/
  prev : Option Nat
  broken : Bool
  /-- the quiet waves of its tag that must have returned before it completes (R115, R445) -/
  wave : Nat
  deriving DecidableEq, Repr

/-! ## Cores -/

/-- Coherence states (spec/01 R29). -/
inductive Coh where | M | O | E | S | I
  deriving DecidableEq, Repr

/-- A line in a caching agent: state, the physical address of its first byte and the memory type it was translated with, valid and dirty sectors,
streaming hint, recency, near-atomic ownership. -/
structure CLine where
  st : Coh
  pa : Nat
  mt : Nat
  valid : Nat
  dirty : Nat
  hint : Bool
  use : Nat
  near : Bool
  /-- in flight: bits 0 and 1 a fill of that sector, bit 2 an ownership request, bit 3 set when the line was invalidated
  meanwhile (R438); bits 4 and 5 say that a fill from memory is not placed in L2, or is placed there as streaming (R402); bits 6 and 7 a
  sector whose read waits for the fill in flight (R433); bit 8 that the home gives the fill in flight in E (R433); bit 10 that a SNOOP asks for the
  line (R441) -/
  pending : Nat
  /-- the context whose port check translated it, and the phase tag of the request in flight for it (R115) -/
  ctx : Nat
  tag : Nat
  /-- the router, plus one, whose entry caught the read in flight (R433) -/
  top : Nat
  deriving DecidableEq, Repr

/-- A core (spec/01 R9, R12). -/
structure Core where
  /-- lines of the four agents, keyed 4 × line + agent -/
  lines : SMap CLine
  lent : Nat
  reclaim : List Nat
  pred : SMap Nat
  cq : SMap (List Nat)
  mq : List Nat
  matq : SMap (List Nat)
  ptab : SMap (List Nat)
  use : Nat
  /-- the group whose walk generated the last entry, by partition (R329) -/
  walkLast : SMap Nat
  deriving DecidableEq, Repr

/-! ## Launch engine and contexts -/

/-- Queue states (spec/05 R134). -/
inductive QState where | off | ie | iw | mw | me
  deriving DecidableEq, Repr

/-- A launch queue (spec/05 R121, R130, R134). -/
structure Queue where
  st : QState
  seq : Nat
  cls : Nat
  host : Bool
  since : Nat
  tenure : Nat
  cursor : Nat
  /-- host-reserved positions not yet committed, oldest first -/
  hostRes : List Nat
  /-- accepted launches not yet placed, oldest first -/
  waiting : List Nat
  last : Option Nat
  moving : Bool
  /-- the mapping bound was exceeded and logged in the present wait -/
  bound : Bool
  /-- the most queues of its class in IW or MW, and the fewest slots of its class, seen during the present wait (R137) -/
  mostW : Nat
  leastS : Nat
  deriving DecidableEq, Repr

/-- The launch engine (spec/05). -/
structure LaunchEng where
  /-- keyed 1024 × context + queue number -/
  queues : SMap Queue
  quanta : SMap Nat
  /-- completions remembered beyond COMPLETED, keyed 128 × context + counter: the targets completed, with their ERR -/
  done : SMap (List Nat)
  cdbr0 : Nat
  cdbr1 : Nat
  deadDies : List Nat
  /-- queues whose head may now be accepted or placed are found from the queues themselves; order of acceptance -/
  nextAge : Nat
  deriving DecidableEq, Repr

/-- A registered context (spec/17 R465, R466). -/
structure Ctx where
  reg : Bool
  tenant : Nat
  priv : Bool
  launchArea : Nat
  saveObj : Nat
  tbl : Bool
  tblBase : Nat
  tblN : Nat
  regBase : Nat
  regLen : Nat
  aliasCtx : Nat
  aliasObj : Nat
  seq : Bool
  seqArea : Nat
  mapPool : Nat
  nseq : Nat
  faultSeq : Option Nat
  noteObj : Nat
  noteN : Nat
  deriving DecidableEq, Repr

/-! ## Memory side, fabric, links -/

/-- A line in an L2 slice (spec/14 R401). -/
structure L2Line where
  valid : Nat
  dirty : Nat
  stream : Bool
  use : Nat
  /-- a sector being read from HBM -/
  filling : Nat
  /-- the context of the access that brought or wrote it last -/
  ctx : Nat
  deriving DecidableEq, Repr

/-- An outstanding fault at a page's reporting slice (spec/14 R414). -/
structure PageFault where
  ctx : Nat
  obj : Nat
  page : Nat
  deriving DecidableEq, Repr

/-- A memory-side die (spec/14). Cached entries hold the raw entry values. -/
structure Slice where
  objs : List (Nat × Nat × Nat)
  pages : List (Nat × Nat × Nat × Nat)
  l2 : SMap L2Line
  faults : List PageFault
  poisonSec : List Nat
  poison : List (Nat × Nat × Nat)
  /-- operations with a TCINV in progress at this slice -/
  tcinv : List Nat
  use : Nat
  /-- dirty sectors found uncorrectable as they were written back, and not yet reported (R417): line, sectors, the contexts of the line and of the evicting
  access -/
  lost : List (Nat × Nat × Nat × Nat)
  deriving DecidableEq, Repr

/-- States of a tree entry (spec/15 R429). -/
inductive TSt where | invalid | joining | stable | tearing | pruning
  deriving DecidableEq, Repr

/-- A tree entry (spec/15 R429), with what a teardown of it still waits for. While it is tearing, `own` names the path that the teardown keeps (R435);
`dirty` has the two sectors of a line, with two bits more for those that L2 places as first candidates, or the 32 sectors of a slab. -/
structure TEntry where
  st : TSt
  par : Nat
  ch : Nat
  loc : Nat
  own : Nat
  dep : Nat
  pst : Nat
  pkg : Nat
  use : Nat
  /-- child links whose ACK is awaited, dirty sectors collected, and an INV of an ownership teardown merged (R438) -/
  acks : Nat
  dirty : Nat
  merged : Bool
  /-- the context whose requests made a slab's entry (R28, R440) -/
  ctx : Nat
  deriving DecidableEq, Repr

/-- Kinds of a held message (spec/15 R431). -/
inductive HKind where | rd | xreq | srd
  deriving DecidableEq, Repr

/-- An ownership request that the root of a line serves or holds (spec/15 R435, R436). -/
structure RootReq where
  m : TMsg
  deriving DecidableEq, Repr

/-- States of a width change (spec/15 R443). -/
inductive WSt where | steady | asked | answered | training | framing
  deriving DecidableEq, Repr

/-- One direction of a mesh link (spec/15 R443); widths 0 full, 1 half, 2 quarter. -/
structure MLink where
  width : Nat
  target : Nat
  st : WSt
  fails : Nat
  deriving DecidableEq, Repr

/-- The fabric (spec/15). -/
structure Fabric where
  /-- keyed by `treeKey router slab key` -/
  tree : SMap TEntry
  held : List (Nat × HKind × TMsg)
  roots : SMap (List RootReq)
  tclim : SMap Nat
  links : SMap MLink
  /-- for each phase tag: routers that the present wave has visited, and 1000 more for one that did not report quiet (R445) -/
  quiet : SMap (List Nat)
  /-- waves that returned quiet, by tag -/
  waves : SMap Nat
  /-- for each phase tag: routers that accepted or sent a message of it since their last report (R445) -/
  active : SMap (List Nat)
  use : Nat
  deriving DecidableEq, Repr

/-- States of a Sahper Link port (spec/16 R454). -/
inductive PortSt where | down | discover | up | retrain | failed
  deriving DecidableEq, Repr

/-- A Sahper Link port (spec/16 R453 to R456). -/
structure Port where
  st : PortSt
  isDomain : Bool
  pkg : Nat
  txSeq : Nat
  rxSeq : Nat
  /-- flits not yet acknowledged, oldest first: number, how often resent, message; the first 512 have been sent -/
  unacked : List (Nat × Nat × LinkMsg)
  /-- the last good numbers of the NAKs this port has sent -/
  naks : List Nat
  retrains : List Nat
  /-- flits sent: number, cumulative acknowledgement of the reverse direction, message (R453) -/
  sent : List (Nat × Nat × LinkMsg)
  /-- how much of what the peer attests this package's management engine has verified: 1 its certificate chain, then its five measurements (R461, R467) -/
  verified : Nat
  deriving DecidableEq, Repr

/-- A PCI Express request or message the bridge has sent (spec/16 R448, R452). -/
inductive PcieMsg where
  | memRead (op lane adr size : Nat)
  | memWrite (adr : Nat) (bytes : List Host.Cell)
  | atomicOp (op lane adr kind size a b : Nat)
  | msix (vector : Nat)
  | cplData (size data : Nat)
  | cplUnsupported (tag : Nat)
  | spdm (ch code : Nat) (body : List Nat)
  deriving DecidableEq, Repr

/-- A region of a protection domain (spec/16 R461). -/
structure Region where
  base : Nat
  len : Nat
  rd : Bool
  wr : Bool
  deriving DecidableEq, Repr

/-- The link engine (spec/16). -/
structure LinkEng where
  ports : SMap Port
  domId : Nat
  domPkg : Nat
  domSize : Nat
  prot : SMap (List Region)
  ap : SMap Nat
  irqb : SMap Nat
  /-- vectors whose binding's sequence has advanced since the last package tick (R451) -/
  irqDue : List Nat
  msixTab : SMap Nat
  msixPend : Nat
  hostUp : Bool
  fallback : List Nat
  locks : SMap (List (Nat × Nat))
  out : List PcieMsg
  /-- bytes of peer-package lines held under slab trees, by global address -/
  peerMem : List Host.Cell
  /-- requests of peers that wait at a slab root of this package: port, message -/
  waiting : List (Nat × LinkMsg)
  /-- the model's own: writes (and reads) by agents at the homes, of lines that peers hold or engines own, in the step being taken: address, whether it
  writes -/
  wants : List (Nat × Bool)
  deriving DecidableEq, Repr

/-! ## Management -/

/-- Boot states (spec/17 R463). -/
inductive Boot where | rom | selftest | ready | safe
  deriving DecidableEq, Repr

/-- An error-log record (spec/17 R468). -/
structure LogRec where
  num : Nat
  tick : Nat
  srck : Nat
  srci : Nat
  cls : Nat
  code : Nat
  adr : Nat
  ctx : Nat
  ctx2 : Option Nat
  detail : Nat
  deriving DecidableEq, Repr

/-- The error log (spec/17 R468 to R471). -/
structure ErrLog where
  boot : List LogRec
  ctx : Nat
  obj : Nat
  first : Nat
  committed : Nat
  next : Nat
  everLogs : List (Nat × Nat)
  /-- size of the log object and the frames of its pages, as LOGROT found them (R468) -/
  size : Nat
  frames : List Nat
  /-- the frames of the sealed logs -/
  sealed : List Nat
  deriving DecidableEq, Repr

/-- A voltage and frequency island (spec/17 R472). -/
structure Island where
  mhz : Nat
  mv : Nat
  throttled : Bool
  outOf : Bool
  deriving DecidableEq, Repr

/-- The management engine (spec/17). -/
structure Mgmt where
  boot : Boot
  code : Nat
  repaired : Nat
  /-- the 4,096 mailbox bytes -/
  mbox : List Host.Cell
  log : ErrLog
  pwrlim : Nat
  islands : SMap Island
  spdm : Nat
  deriving DecidableEq, Repr

/-! ## The machine -/

/-- Why the machine itself stops. -/
inductive Fault where
  /-- `exec` of an instruction word with no current group to issue it for: raised by every word's meaning; safe, since no
  hardware issues a word without a group. -/
  | noGroup
  /-- An access reached a physical byte beyond the device memory of R3 and R405: raised by the step after it; safe. -/
  | beyondMemory
  deriving DecidableEq, Repr

/-- Why the model gives no meaning. -/
inductive Refusal where
  /-- An instruction not modelled: raised by its arm of `exec`; safe. -/
  | notModelled (mnemonic : String)
  deriving DecidableEq, Repr

/-- The package. -/
structure State where
  /-- the model's own: the steps due, which of them is taken next, the group whose word issues, the partition rotation -/
  agenda : List Event
  sched : List Nat
  cur : Nat
  turn : Nat
  /-- the model's own: the fault to report, and how many free values were drawn -/
  stuck : Option Fault
  free : Nat
  tick : Nat
  mem : List Host.Cell
  groups : List Group
  blocks : List Block
  courses : List Course
  launches : List Launch
  ops : SMap Op
  nextOp : Nat
  /-- operations waiting at a sequence: context, handle, operation, in order of arrival (R361, R370) -/
  seqWait : List (Nat × Nat × Nat)
  cores : SMap Core
  ctxs : SMap Ctx
  le : LaunchEng
  slices : SMap Slice
  fab : Fabric
  link : LinkEng
  mg : Mgmt
  /-- counters, keyed (block × 65536 + instance) × 64 + counter (R466) -/
  cnt : SMap Nat
  deriving DecidableEq, Repr

/-- The walker state when a group starts (R328). -/
def WalkSt.empty : WalkSt := ⟨[], [], [], 0⟩

/-- The trap registers when a group starts (R194). -/
def TrapRegs.empty : TrapRegs := ⟨false, 0, 0, 0, 0, 0, 0, [], false, false, .none⟩

/-- A core that nothing has used (log entry 1 for the predictor). -/
def Core.empty : Core := ⟨[], 0, [], [], [], [], [], [], 0, []⟩

/-- A context that is not registered. -/
def Ctx.empty : Ctx := ⟨false, 0, false, 0, 0, false, 0, 0, 0, 0, 0, 0, false, 0, 0, 0, none, 0, 0⟩

/-- A queue that was never refreshed (R134). -/
def Queue.empty : Queue := ⟨.off, 0, 0, false, 0, 0, 0, [], [], none, false, false, 0, 0⟩

/-- A memory-side die with nothing cached. -/
def Slice.empty : Slice := ⟨[], [], [], [], [], [], [], 0, []⟩

/-- An invalid tree entry. -/
def TEntry.empty : TEntry := ⟨.invalid, 0, 0, 0, 0, 0, 0, 0, 0, 0, 0, false, 0⟩

/-- A link at full width (log entry 1). -/
def MLink.empty : MLink := ⟨0, 0, .steady, 0⟩

/-- A port before training (R454). -/
def Port.empty : Port := ⟨.down, false, 0, 0, 0, [], [], [], [], 0⟩

/-- An island at reset (log entry 1). -/
def Island.empty : Island := ⟨1750, 0, false, false⟩

/-- The package right after power-on or a package reset (R463): the boot ROM runs, no context is registered, nothing is
cached, and every counter is zero. Values the spec does not give are named in log entries 1, 2 and 4. -/
def State.reset : State where
  agenda := []
  sched := []
  cur := 0
  turn := 0
  stuck := none
  free := 0
  tick := 0
  mem := []
  groups := []
  blocks := []
  courses := []
  launches := []
  ops := []
  nextOp := 0
  seqWait := []
  cores := []
  ctxs := []
  le := ⟨[], [], [], 0, 0, [], 0⟩
  slices := []
  fab := ⟨[], [], [], [], [], [], [], [], 0⟩
  link := ⟨[], 0, 0, 1, [], [], [], [], [], 0, true, [], [], [], [], [], []⟩
  mg := ⟨.rom, 0, 0, [(0x8, 1)], ⟨[], 0, 0, 0, 0, 0, [], 0, [], []⟩, 4500, [], 0⟩
  cnt := []

end Sys2Proof.Machine
end

