-- ==== Sys2Proof/Machine/Ops.lean ====
section
/-! DEFINITION. The named operations over tables, memory, registers, counters and groups, and the one operation that takes
a trap, with the return from it (spec/06 R187 to R192). -/

namespace Sys2Proof.Machine

/-! ## Sparse tables and memory -/

/-- The entry at `k`, or the default. -/
def tget {α : Type} (d : α) : SMap α → Nat → α
  | [], _ => d
  | (k', v) :: t, k => if k' = k then v else tget d t k

/-- The entry at `k`, if there is one. -/
def tfind {α : Type} : SMap α → Nat → Option α
  | [], _ => none
  | (k', v) :: t, k => if k' = k then some v else tfind t k

/-- Entry `k` is `v`, keys kept rising. -/
def tins {α : Type} : SMap α → Nat → α → SMap α
  | [], k, v => [(k, v)]
  | (k', v') :: t, k, v =>
    if k < k' then (k, v) :: (k', v') :: t else if k = k' then (k, v) :: t else (k', v') :: tins t k v

/-- No entry at `k`. -/
def tdel {α : Type} (m : SMap α) (k : Nat) : SMap α := m.filter fun e => e.1 != k

/-- Entry `k` reads as `v`; an entry equal to the default is not listed. -/
def tset {α : Type} [DecidableEq α] (d : α) (m : SMap α) (k : Nat) (v : α) : SMap α :=
  if v = d then tdel m k else tins m k v

/-- Keys strictly rise from `lo`. -/
def rising {α : Type} : Nat → SMap α → Bool
  | _, [] => true
  | lo, (k, _) :: t => decide (lo ≤ k) && rising (k + 1) t

/-- The canonical form: keys strictly rise and no entry is the default. -/
def twf {α : Type} [DecidableEq α] (d : α) (m : SMap α) : Bool := rising 0 m && m.all fun e => decide (e.2 ≠ d)

/-- The canonical form of memory: addresses strictly rise and no listed byte is 0, which an unlisted byte reads as (log
entry 2). -/
def Memory.wf (m : List Host.Cell) : Bool := twf (0 : Byte) m

/-- One byte of memory; a byte nothing has written reads as zero (R140 for the pool; log entry 2 for device memory). -/
def mget (m : List Host.Cell) (a : Nat) : Byte := tget (0 : Byte) m a

/-- One byte stored. -/
def mset (m : List Host.Cell) (a : Nat) (v : Byte) : List Host.Cell := tset (0 : Byte) m a v

/-- `n` bytes at `a` as one little-endian number (R5). -/
def mread (m : List Host.Cell) (a : Nat) : Nat → Nat
  | 0 => 0
  | n + 1 => (mget m a).toNat + 256 * mread m (a + 1) n

/-- The low `n` bytes of `v` stored little-endian at `a` (R5). -/
def mwrite (m : List Host.Cell) (a : Nat) : Nat → Nat → List Host.Cell
  | 0, _ => m
  | n + 1, v => mwrite (mset m a (BitVec.ofNat 8 v)) (a + 1) n (v / 256)

/-- The bytes of `n` addresses from `a`. -/
def mbytes (m : List Host.Cell) (a n : Nat) : List Nat := (List.range n).map fun i => (mget m (a + i)).toNat

/-- The bytes of a list stored from `a` up. -/
def mstore (m : List Host.Cell) (a : Nat) : List Nat → List Host.Cell
  | [] => m
  | b :: t => mstore (mset m a (BitVec.ofNat 8 b)) (a + 1) t

/-- `n` bytes from `a` become zero. -/
def mzero (m : List Host.Cell) (a n : Nat) : List Host.Cell := m.filter fun e => !(decide (a ≤ e.1) && decide (e.1 < a + n))

/-- A little-endian number from its bytes. -/
def ofBytes : List Nat → Nat
  | [] => 0
  | b :: t => b % 256 + 256 * ofBytes t

/-- The `n` bytes of a number, the least significant first. -/
def toBytes : Nat → Nat → List Nat
  | 0, _ => []
  | n + 1, v => v % 256 :: toBytes n (v / 256)

/-- A number taken as a 32-bit two's-complement value. -/
def s32 (n : Nat) : Int := (BitVec.ofNat 32 n).toInt

/-- A 32-bit word from a number. -/
def w32 (n : Nat) : Word := BitVec.ofNat 32 n

/-! ## Masks -/

/-- The lanes of a mask, ascending. -/
def lanesOf (m : Mask) : List Nat := (List.range 32).filter fun L => m.getLsbD L

/-- The mask of the lanes for which `p` holds. -/
def maskOf (p : Nat → Bool) : Mask := (List.range 32).foldl (fun m L => if p L then m ||| (1#32 <<< L) else m) 0

/-- The mask of a list of lanes. -/
def maskList (l : List Nat) : Mask := maskOf fun L => l.contains L

/-- Only the lanes of `m` whose quad meets `a` (R165). -/
def quadsMeeting (m a : Mask) : Mask :=
  maskOf fun L => m.getLsbD L && (List.range 4).any fun j => a.getLsbD (4 * (L / 4) + j)

/-! ## Empty records, for totality of the accessors -/

/-- A group that issues nothing. -/
def Group.empty : Group :=
  ⟨0, 0, 0, .stopped, .none, ⟨0, 0, 0, 0, none⟩, [], [], [], [], [], [], 0, 0, 0, [], .empty, [], [], 0, 0, 0, [], .empty, none, 0,
    ⟨0, false, 0, 0, false, false, false, none, 0⟩⟩

/-- A block that holds nothing. -/
def Block.empty : Block := ⟨0, 0, 0, 0, false, .lost, [], [], [], [], 0, [], []⟩

/-- A course without blocks. -/
def Course.empty : Course := ⟨0, 0, [], false, .lost, 0, none, false, none, [], false, none⟩

/-- A record of zeros. -/
def LRec.empty : LRec := ⟨0, 0, 0, 0, 0, 0, 0, 0, 0, 0, 0xFFFFFFFF, 0, 0, [], [], []⟩

/-- A launch that has completed. -/
def Launch.empty : Launch := ⟨0, 0, 0, .empty, .null, [], 0, 0, 0, 0, .complete, 0, 0, 0, 0, none, none, false, 0⟩

namespace State

/-- Group `g`. -/
def grp (s : State) (g : Nat) : Group := s.groups.getD g .empty

/-- Block `b`. -/
def blk (s : State) (b : Nat) : Block := s.blocks.getD b .empty

/-- Course `c`. -/
def crs (s : State) (c : Nat) : Course := s.courses.getD c .empty

/-- Launch `l`. -/
def lch (s : State) (l : Nat) : Launch := s.launches.getD l .empty

/-- Core `c`. -/
def core (s : State) (c : Nat) : Core := tget .empty s.cores c

/-- Context `c`. -/
def ctx (s : State) (c : Nat) : Ctx := tget .empty s.ctxs c

/-- Memory-side die `m`. -/
def slice (s : State) (m : Nat) : Slice := tget .empty s.slices m

/-- Group `g` becomes `x`. -/
def setGrp (s : State) (g : Nat) (x : Group) : State := { s with groups := s.groups.set g x }

/-- Block `b` becomes `x`. -/
def setBlk (s : State) (b : Nat) (x : Block) : State := { s with blocks := s.blocks.set b x }

/-- Course `c` becomes `x`. -/
def setCrs (s : State) (c : Nat) (x : Course) : State := { s with courses := s.courses.set c x }

/-- Launch `l` becomes `x`. -/
def setLch (s : State) (l : Nat) (x : Launch) : State := { s with launches := s.launches.set l x }

/-- Core `c` becomes `x`. -/
def setCore (s : State) (c : Nat) (x : Core) : State := { s with cores := tset .empty s.cores c x }

/-- Context `c` becomes `x`. -/
def setCtx (s : State) (c : Nat) (x : Ctx) : State := { s with ctxs := tset .empty s.ctxs c x }

/-- Memory-side die `m` becomes `x`. -/
def setSlice (s : State) (m : Nat) (x : Slice) : State := { s with slices := tset .empty s.slices m x }

/-- Block of group `g`. -/
def gblk (s : State) (g : Nat) : Block := s.blk (s.grp g).blk

/-- Launch of group `g`. -/
def glch (s : State) (g : Nat) : Launch := s.lch (s.gblk g).launch

/-- A step becomes due. -/
def push (s : State) (i : Event) : State := { s with agenda := s.agenda ++ [i] }

/-- An event becomes due unless it is due already. -/
def pushNew (s : State) (e : Event) : State := if s.agenda.contains e then s else s.push e

/-- A counter rises by `n`, saturating at 2^64 − 1 (R163, R176 and the other counter rules): block, instance, counter. -/
def count (s : State) (b i k n : Nat) : State :=
  let key := (b * 65536 + i) * 64 + k
  { s with cnt := tset 0 s.cnt key (Nat.min (tget 0 s.cnt key + n) (2 ^ 64 - 1)) }

/-- Operation `o` becomes `x`. -/
def setOp (s : State) (o : Nat) (x : Op) : State := { s with ops := tins s.ops o x }

/-- Operation `o` is no longer in flight. -/
def delOp (s : State) (o : Nat) : State := { s with ops := tdel s.ops o }

/-- A free value is drawn (log entry 3). -/
def draw (s : State) : State := { s with free := s.free + 1 }

end State

/-! ## Placement facts -/

/-- Bytes of a block's scratchpad: SCR × 16 KiB (R138). -/
def Launch.scr (l : Launch) : Nat := l.lr.part / 256 % 256 * 16384

/-- Rows of a block's accumulator region: ACC × 128 (R302). -/
def Launch.accRows (l : Launch) : Nat := l.lr.part / 65536 % 256 * 128

/-- Lane registers of a lane: 8 × REGS (R138). -/
def Launch.alloc (l : Launch) : Nat := 8 * (l.lr.part % 256)

/-- A flag bit of the record (R127): 0 PRE, 1 WHOLE, 2 HOLD, 3 REPLAY, 4 SEAM, 5 CSV, 6 SER. -/
def Launch.flag (l : Launch) (b : Nat) : Bool := l.lr.flags / 2 ^ b % 2 == 1

/-- Compute die of a physical core (R9). -/
def dieOf (core : Nat) : Nat := core / 56

/-- Instance number of a partition's counters: 4 × core + partition (R466). -/
def State.partOf (s : State) (g : Nat) : Nat := 4 * (s.gblk g).core + (s.grp g).part

/-! ## Registers of a group -/

namespace Group

/-- Physical lane register `n` of a lane. -/
def phys (g : Group) (n lane : Nat) : Word := tget 0 g.regs (32 * n + lane)

/-- Physical lane register `n` of a lane becomes `v`. -/
def setPhys (g : Group) (n lane : Nat) (v : Word) : Group := { g with regs := tset 0 g.regs (32 * n + lane) v }

/-- Uniform register s(n). -/
def uni (g : Group) (n : Nat) : Word := tget 0 g.uregs n

/-- Uniform register s(n) becomes `v`. -/
def setUni (g : Group) (n : Nat) (v : Word) : Group := { g with uregs := tset 0 g.uregs n v }

/-- Register `f` + `k` as a source in one lane: a lane register through the window, a uniform register broadcast, sz zero
(R43, R44, R45). -/
def src (g : Group) (f : RF) (k lane : Nat) : Word :=
  if f.val < 96 then g.phys (g.wb + f.val + k) lane else if f.val < 127 then g.uni (f.val - 96 + k) else 0

/-- A uniform source: s(n) or sz (kind S, R44). -/
def usrc (g : Group) (f : RF) : Word := g.src f 0 0

/-- The parameter block s[a] to s[a + n − 1] (R21). -/
def params (g : Group) (f : RF) (n : Nat) : List Nat := (List.range n).map fun k => (g.src f k 0).toNat

/-- The launch lanes an instruction acts for: EM, or EM ∧ TFM for the word a TRET issues again (R165, R192). -/
def launchAct (g : Group) : Mask :=
  (match g.lanes.only with | some m => g.lanes.em &&& m | none => g.lanes.em) &&& g.lanes.live

/-- The helper lanes an instruction acts for: those whose quad holds an active launch lane (R165). -/
def helperAct (g : Group) : Mask := quadsMeeting g.lanes.helper g.launchAct

/-- The active lanes of an instruction (R165). -/
def act (g : Group) : Mask := g.launchAct ||| g.helperAct

/-- Predicate p(n) as a mask; p7 reads true (R244). -/
def pred (g : Group) (n : Nat) : Mask := if n = 7 then BitVec.allOnes 32 else tget 0 g.preds n

/-- Predicate p(n) in the lanes of `m` becomes the lanes of `v`; a write to p7 is discarded (R244). -/
def setPred (g : Group) (n : Nat) (m v : Mask) : Group :=
  if n = 7 then g else { g with preds := tset 0 g.preds n ((tget 0 g.preds n &&& ~~~m) ||| (v &&& m)) }

/-- Uniform predicate q(n); q7 reads true (R244). -/
def upred (g : Group) (n : Nat) : Bool := if n = 7 then true else tget false g.upreds n

/-- Uniform predicate q(n) becomes `b`; a write to q7 is discarded (R244). -/
def setUpred (g : Group) (n : Nat) (b : Bool) : Group := if n = 7 then g else { g with upreds := tset false g.upreds n b }

/-- Capability register c(n). -/
def cap (g : Group) (n : Nat) : Cap := tget .null g.caps n

/-- Capability register c(n) becomes `c`. -/
def setCap (g : Group) (n : Nat) (c : Cap) : Group := { g with caps := tset .null g.caps n c }

/-- Register `f` + `k` as a destination: the active lanes of a lane register, or a uniform register with the value of the
lowest active launch lane; a write to sz is discarded (R44, R166, R242). -/
def dst (g : Group) (f : RF) (k : Nat) (v : Nat → Word) : Group :=
  if f.val < 96 then
    { g with regs := (lanesOf g.act).foldl (fun r L => tset 0 r (32 * (g.wb + f.val + k) + L) (v L)) g.regs }
  else if f.val < 127 then
    match (lanesOf g.launchAct).head? with
    | some L => g.setUni (f.val - 96 + k) (v L)
    | none => g
  else g

/-- A uniform destination written whatever lanes are active (kind S, and the group events). -/
def udst (g : Group) (f : RF) (k : Nat) (v : Word) : Group :=
  if 96 ≤ f.val ∧ f.val < 127 then g.setUni (f.val - 96 + k) v else g

/-- A destination that a group event gives one value: every active lane, or a uniform register even when no lane is
active (R195, R203). -/
def bcast (g : Group) (f : RF) (v : Word) : Group :=
  if f.val < 96 then g.dst f 0 fun _ => v else g.udst f 0 v

end Group

/-! ## Completion flags and pending bits -/

/-- Count of flag f(n) (R17). -/
def Group.flagOf (g : Group) (n : Nat) : Nat := tget 0 g.flags n

/-- An operation marks flag `n`; 15 marks none (R16, R17). -/
def Group.mark (g : Group) (n : Nat) : Group :=
  if n = 15 then g else { g with flags := tset 0 g.flags n (tget 0 g.flags n + 1) }

/-- An operation's completion, or its removal, leaves flag `n` (R17, R19). -/
def Group.unmark (g : Group) (n : Nat) : Group :=
  if n = 15 then g else { g with flags := tset 0 g.flags n (tget 0 g.flags n - 1) }

/-- Registers become pending under a token (R20). -/
def Group.addPend (g : Group) (rs : List PReg) (tok : Nat) : Group := { g with pend := g.pend ++ rs.map (·, tok) }

/-- The registers of a token are no longer pending (R20). -/
def Group.clearPend (g : Group) (tok : Nat) : Group := { g with pend := g.pend.filter fun e => e.2 != tok }

/-- Some register of the list is pending. -/
def Group.pending (g : Group) (rs : List PReg) : Bool := g.pend.any fun e => rs.contains e.1

/-- Every flag of a WAIT mask is clear (R18). -/
def Group.waitMet (g : Group) (wait : Nat) : Bool :=
  (List.range 12).all fun i => wait / 2 ^ i % 2 == 0 || g.flagOf i == 0

/-! ## Issue position -/

/-- Offset that follows a clause: h + 4 × (LEN + 2), LEN + 1 being the number of its words (R36). -/
def Clause.fall (c : Clause) : Nat := (c.hdr + 4 * (c.words.length + 1)) % 2 ^ 32

/-- Offset of a word of a clause (R36). -/
def Clause.at (c : Clause) (idx : Nat) : Nat := c.hdr + 4 * (idx + 1)

/-- The word of an index. -/
def Clause.word (c : Clause) (idx : Nat) : Nat := c.words.getD idx 0

/-- Index of the word the group stands at. -/
def Group.idx (g : Group) : Nat :=
  match g.phase with
  | .issue i | .resume i | .waiting i _ | .parked i _ | .held i _ => i
  | _ => 0

/-- Offset of the word the group stands at. -/
def Group.pc (g : Group) : Nat :=
  match g.phase with
  | .fetch pc | .parkedFetch pc _ => pc
  | .fetched => g.clause.hdr
  | _ => g.clause.at g.idx

/-- The group goes on at the word after index `i`, or at the clause that follows (R36, R168). -/
def Group.after (g : Group) (i : Nat) : Group :=
  { g with
    phase := if i + 1 < g.clause.words.length then .issue (i + 1) else .fetch g.clause.fall
    lanes := { g.lanes with only := none } }

/-- The group has issued its word and goes on (R36, R168). -/
def Group.next (g : Group) : Group := g.after g.idx

/-- The group transfers to an offset of the code object (R39). -/
def Group.goto (g : Group) (pc : Nat) : Group :=
  { g with phase := .fetch pc, lanes := { g.lanes with only := none } }

/-- Target of an FB transfer: h + 4 × sext(off21) (R42). DESIGN CHOICE: modulo 2^32, for which the spec states no rule (log entry 55). -/
def fbTarget (h : Nat) (o : BitVec 21) : Nat := (((h : Int) + 4 * o.toInt) % 2 ^ 32).toNat

/-! ## Traps -/

/-- Lanes of a group that are not yet exited leave it, and it issues nothing further (R185, R190): its monitors are
disarmed (R298), its walks, queues and slots emptied (R345) and its latch emptied (R306). -/
def Group.finish (g : Group) (ph : Phase) : Group :=
  { g with
    phase := ph, lanes := { g.lanes with live := 0, em := 0, only := none }, deferred := [], mons := [], walk := .empty,
    latch := none, sched := { g.sched with active := false, waited := 0, aged := false, swapping := false, leaving := false, sv := none, stalls := 0 } }

/-- A waiting or parked group of a stopped launch stops at once; an issuing group stops at its next clause boundary
(R158). -/
def Group.stopsNow (g : Group) : Bool :=
  match g.phase with
  | .waiting _ _ | .parked _ _ | .parkedFetch _ _ | .fetch _ | .fetched => true
  | _ => g.sched.sv.isSome

/-- The operation a group is parked on, or held by, is abandoned with its group (R158). -/
def State.dropParked (s : State) (g : Nat) : State :=
  match (s.grp g).phase with
  | .parked _ o => s.delOp o
  | _ => s

/-- Operations of a group that wait at a sequence or for a token are withdrawn (R151, R158, R376). -/
def State.withdraw (s : State) (g : Nat) : State :=
  let ws := s.ops.filter fun e => e.2.gid == g && e.2.stage == .seqWait
  ws.foldl (fun s e => s.delOp e.1) { s with seqWait := s.seqWait.filter fun e => !ws.any fun w => w.1 == e.2.2 }

/-- What a group's fetch, its monitors' reads and its walks have in flight ends with it, and so does a QPOP, whose queue is emptied (R158, R298,
R345); a WSTOP that waited for those reads is taken up again (R342). -/
def State.dropIdle (s : State) (g : Nat) : State :=
  let mine := s.ops.filter fun e => e.2.gid == g
  let s := (mine.filter fun e => match e.2.instr, e.2.stage with
    | .nop, _ | .monclr _, _ | .wgo _, .parts _ | .qpop _ _, _ => true
    | _, _ => false).foldl (fun s e => s.delOp e.1) s
  mine.foldl (fun s e => match e.2.instr with | .wstop => s.push (.walkerCommandComplete e.1) | _ => s) s

/-- Group `g` stops without a handler (R158, R190). -/
def State.stopGroup (s : State) (g : Nat) : State :=
  let s := ((s.dropParked g).withdraw g).dropIdle g
  (s.setGrp g ((s.grp g).finish .stopped)).push (.blockRetire (s.grp g).blk)

/-- The groups of a launch. -/
def State.groupsOf (s : State) (l : Nat) : List Nat :=
  (List.range s.groups.length).filter fun g => (s.gblk g).launch == l

/-- An unhandled trap (R190): the group stops, the completion record keeps the first trap, and the launch's other groups
stop under R158. -/
def State.unhandled (s : State) (g : Nat) (t : Trap) (pc : Nat) : State :=
  let l := (s.gblk g).launch
  let x := s.lch l
  let s := if x.status = 0 then s.setLch l { x with status := 1, tcause := t.cause, tpc := pc } else s
  let s := s.stopGroup g
  (s.groupsOf l).foldl (fun s k => if (s.grp k).stopsNow then s.stopGroup k else s) s

/-- Taking a trap (R187): TEM, TFM, TPC, TCAUSE, TVAL, TVALHI, TLANE and TDEF are saved, the clause is remembered, EM
becomes the live lanes and the handler's clause is fetched; without a handler, or in handler mode, the trap is unhandled
(R190). `pc` is the value for TPC and `c` the clause that holds it. -/
def State.takeTrap (s : State) (g : Nat) (t : Trap) (pc : Nat) (c : Clause) (deferred : Bool) : State :=
  let s := s.count 1 (s.partOf g) 5 1
  let x := s.grp g
  let h := (s.glch g).lr.handler
  if x.trap.handler ∨ h = 0xFFFFFFFF then s.unhandled g t pc
  else
    s.setGrp g
      { x with
        trap :=
          { handler := true, tem := x.lanes.em, tfm := t.mask, tpc := w32 pc, tcause := w32 t.cause, tval := t.val,
            tvalhi := t.valhi, tlane := t.lanes, tdef := deferred, tpcWritten := false, clause := c }
        lanes := { x.lanes with em := x.lanes.live, only := none }
        phase := .fetch h }

/-- A precise trap at the word the group stands at (R188). -/
def State.trapHere (s : State) (g : Nat) (t : Trap) : State := s.takeTrap g t (s.grp g).pc (s.grp g).clause false

/-- A fault found after its operation completed waits for the group's next issue (R191); on a group that has ended it is
unhandled at once, and on a stopped group it is discarded. DESIGN CHOICE: TPC is then the group's last pc (log entry 58). -/
def State.deferTrap (s : State) (g : Nat) (t : Trap) : State :=
  let x := s.grp g
  match x.phase with
  | .stopped => s
  | .exited =>
    if (s.glch g).status = 0 then (s.count 1 (s.partOf g) 5 1).unhandled g t x.pc else s
  | _ => s.setGrp g { x with deferred := x.deferred ++ [t] }

/-- An instruction-wide trap: TFM holds every active launch lane (R188). DESIGN CHOICE: TLANE is 0 in every lane (log entry 58). -/
def Group.wide (g : Group) (cause : Nat) (val valhi : Word) : Trap := ⟨cause, val, valhi, g.launchAct, []⟩

/-- An instruction-wide trap whose value the spec does not state: TVAL is an open value of its cause and word, the same in every run (R86; log
entry 3). -/
def State.trapOpen (s : State) (g cause : Nat) : State :=
  s.trapHere g ((s.grp g).wide cause (Config.openValue cause (w32 ((s.grp g).clause.word (s.grp g).idx))) 0)

/-- The group ends (R185); the earliest deferred fault still waiting is then unhandled (R191). DESIGN CHOICE: TPC is the offset of the word that
ends the group (log entry 58). -/
def State.groupEnd (s : State) (g : Nat) : State :=
  let ds := (s.grp g).deferred
  let pc := (s.grp g).pc
  let s := s.dropIdle g
  let s := (s.setGrp g ((s.grp g).finish .exited)).push (.blockRetire (s.grp g).blk)
  match ds with
  | [] => s
  | t :: _ => (s.count 1 (s.partOf g) 5 1).unhandled g t pc

/-- The return from a trap handler, outside its privilege check (R192). -/
def Group.tret (g : Group) : Group :=
  let t := g.trap
  let em := t.tem &&& g.lanes.live
  let pc := t.tpc.toNat
  let c := t.clause
  let inside := decide (c.hdr < pc) && decide (pc < c.hdr + 4 * (c.words.length + 1)) && !c.words.isEmpty
  let g := { g with trap := { t with handler := false }, lanes := { g.lanes with em := em, only := none } }
  if !t.tpcWritten && inside then
    { g with
      clause := c
      phase := .resume ((pc - c.hdr) / 4 - 1)
      lanes := { g.lanes with only := some (if t.tdef then BitVec.allOnes 32 else t.tfm) } }
  else { g with phase := .fetch pc, lanes := { g.lanes with only := some (BitVec.allOnes 32) } }

end Sys2Proof.Machine
end

