-- ==== Sys2Proof/Machine/Issue.lean ====
section
/-! DEFINITION. Issuing a word: the checks of R50, the classes of R16, operations in flight and their completion, and when a
group's next word may issue (spec/01 R16 to R20, spec/02 R50, spec/06 R169, R170). -/

namespace Sys2Proof.Machine

/-- The word the group stands at, as a 32-bit value. -/
def Group.word (g : Group) : Word := w32 (g.clause.word g.idx)

/-- The checks of R50 in their order. `pre` is an instruction's own refusal of the word or of its privilege (checks 1 and
2): the cause, with TVAL the word. -/
def Group.issueTrap (g : Group) (pre : Option Nat) (i : Instr) : Option Trap :=
  if !i.wfAt g.fmt then some (g.wide 0x01 g.word 0)
  else
    match pre with
    | some c => some (g.wide c g.word 0)
    | none =>
      match i.beyondAlloc g.fmt g.wb g.alloc with
      | some n => some (g.wide 0x04 (w32 n) 0)
      | none =>
        match i.misaligned g.fmt with
        | some v => some (g.wide 0x05 (w32 v) 0)
        | none => none

/-- A group stands at an issue. -/
def Group.atIssue (g : Group) : Bool := match g.phase with | .issue _ => true | _ => false

/-- A word of the current group issues: the checks of R50, then its own operation. -/
def issueChecked (pre : Group → Option Nat) (i : Instr) (s : State) (body : Nat → Group → State) :
    Host.Outcome State Fault Refusal :=
  match s.groups[s.cur]? with
  | none => .fault .noGroup
  | some g =>
    if g.atIssue then
      match g.issueTrap (pre g) i with
      | some t => .next (s.trapHere s.cur t)
      | none => .next (body s.cur g)
    else .fault .noGroup

/-- A word without a check of its own before allocation. -/
def issueWord (i : Instr) (s : State) (body : Nat → Group → State) : Host.Outcome State Fault Refusal :=
  issueChecked (fun _ => none) i s body

/-- A word that changes only its group and goes on at the next word. -/
def groupWord (i : Instr) (s : State) (f : Group → Group) : Host.Outcome State Fault Refusal :=
  issueWord i s fun n g => s.setGrp n (f g).next

/-! ## Classes (R16) -/

/-- Class of an operation: memory marks SETA, engine marks SETB, the rest mark nothing. -/
inductive Cls where | mem | eng | plain
  deriving DecidableEq, Repr

end Sys2Proof.Machine

namespace Sys2Proof

open Machine

/-- The class of a word in a group (R16): BARARR is engine-class when it declares bytes, SRD when its register is TICK. -/
def Instr.cls (i : Instr) (g : Group) : Cls :=
  match i with
  | .ld _ _ _ _ _ | .lda _ _ _ _ _ _ | .lds _ _ _ _ _ | .ldw _ _ _ _ | .atom _ _ _ _ | .atoma _ _ _ _ _
  | .atoml _ _ _ _ _ | .atomr _ _ _ _ _ | .atoms _ _ _ _ | .sqres _ _ | .sqcom _ | .sqapp _ _ _ | .sqlen _ _
  | .sqrlen _ _ | .sqwlo _ _ | .sqmap _ _ _ | .sqfork _ _ | .sqnew _ _ | .sqrel _ | .sqwin _ | .sqtake _ _ | .sqseal _
  | .flpop _ _ | .flpush _ | .flcnt _ _ | .qpop _ _ => .mem
  | .srd _ n => if n.val = 11 then .mem else .plain
  | .cpygs _ _ _ | .cpysg _ _ _ | .cpysw _ _ | .cpygg _ _ _ _ | .cpyx _ _ _ | .mma _ _ _ _ _ _ | .accz _ | .accld _ _
  | .accst _ _ | .accss _ _ | .accxa _ _ _ | .accxr _ _ _ | .acccp _ | .cbld _ _ _ | .ldsb _ _ _ _ | .wset _ _ | .wgo _
  | .wstop | .wstat _ | .mgmatch _ _ | .mgmerge _ _ | .mgsplit _ | .mgbias _ | .mgpop _ | .mgstat _ _ | .launch _ _ _
  | .lwait _ _ | .lstat _ _ | .rwri _ _ | .rrd _ _ => .eng
  | .bararr a => if g.src a 1 0 = 0 then .plain else .eng
  | _ => .plain

/-- A word that may issue while an older access is not cleared (R170). -/
def Instr.isLoad (i : Instr) : Bool :=
  match i with
  | .ld _ _ _ _ _ | .lda _ _ _ _ _ _ | .lds _ _ _ _ _ | .ldw _ _ _ _ => true
  | _ => false

/-- An acquire (R95). LWAIT, LSTAT and BARTRY order nothing when they answer without a token counted or a phase completed (R161, R162, R291);
BARWAIT, which nothing follows until it completes, is an acquire then (R290). -/
def Instr.acquires (i : Instr) : Bool :=
  match i with
  | .lda _ _ _ _ _ _ | .atoma _ _ _ _ _ | .atomr _ _ _ _ _ | .sqlen _ _ | .sqtake _ _ | .lwait _ _ | .lstat _ _
  | .bartry _ _ _ => true
  | _ => false

/-- A release (R95). -/
def Instr.releases (i : Instr) : Bool :=
  match i with
  | .stl _ _ _ _ _ _ | .atoml _ _ _ _ _ | .atomr _ _ _ _ _ | .sqcom _ | .bararr _ | .launch _ _ _ | .rwri _ _ => true
  | _ => false

/-- A fence orders later accesses after earlier reads (R103). -/
def Instr.fenceAcq (i : Instr) : Bool := match i with | .fence .rel _ => false | .fence _ _ => true | _ => false

/-- A fence orders later writes after earlier accesses (R103). -/
def Instr.fenceRel (i : Instr) : Bool := match i with | .fence .acq _ => false | .fence _ _ => true | _ => false

/-- An sc fence, which later accesses wait for (R103, R105). -/
def Instr.fenceSc (i : Instr) : Bool := match i with | .fence .sc _ => true | _ => false

/-- The caching agent through which a command reads and writes lines (R29, R340): 0 L1 for a walk's reads, 1 copy, 2 matrix; merge commands reach
the scratchpad only. The reads that a monitor makes after it was armed are operations under MONCLR's name (R296). -/
def Instr.agent (i : Instr) : Option Nat :=
  match i with
  | .cpygs _ _ _ | .cpysg _ _ _ | .cpysw _ _ | .cpygg _ _ _ _ | .cpyx _ _ _ | .monarm _ _ _ | .monclr _ => some 1
  | .mma _ _ _ _ _ _ | .accz _ | .accld _ _ | .accst _ _ | .accss _ _ | .accxa _ _ _ | .accxr _ _ _ | .acccp _ | .cbld _ _ _
  | .ldsb _ _ _ _ => some 2
  | .wgo _ => some 0
  | _ => none

/-- A command of the sequence engine (R356), whose homes act for the group (R89). -/
def Instr.isSeq (i : Instr) : Bool :=
  match i with
  | .sqres _ _ | .sqcom _ | .sqapp _ _ _ | .sqlen _ _ | .sqrlen _ _ | .sqwlo _ _ | .sqmap _ _ _ | .sqfork _ _ | .sqnew _ _ | .sqrel _
  | .sqwin _ | .sqtake _ _ | .sqseal _ | .flpop _ _ | .flpush _ | .flcnt _ _ => true
  | _ => false

end Sys2Proof

namespace Sys2Proof.Machine

/-- The flag an operation of a class marks under the group's clause, 15 for none (R16). -/
def Group.flagFor (g : Group) : Cls → Nat
  | .mem => g.clause.seta
  | .eng => g.clause.setb
  | .plain => 15

/-! ## Operations in flight -/

/-- The operation a group issues at its present word: the lanes, the clause and the token are those of the issue. -/
def Group.newOp (x : Group) (g : Nat) (i : Instr) : Op where
  gid := g
  instr := i
  flag := x.flagFor (i.cls x)
  mask := x.launchAct
  helpers := x.helperAct
  ps := []
  cap1 := .null
  cap2 := .null
  fmt := x.fmt
  vals := []
  dest := []
  tok := x.nextTok
  accs := []
  stage := .cleared
  clause := x.clause
  idx := x.idx
  cls := 0
  acqTo := x.acqTo
  relTo := x.relTo
  owns := []

/-- An operation that no group issued. -/
def Op.empty : Op := Group.empty.newOp 0 .nop

/-- Operation `o`. -/
def State.op (s : State) (o : Nat) : Op := tget .empty s.ops o

/-- The marks of order that instruction `i`, issued as operation `n`, leaves for what comes after it (R96, R103): an acquire's own read is one
of the reads that later accesses come after. -/
def Group.ordered (x : Group) (i : Instr) (n : Nat) : Group :=
  { x with
    acqTo := if i.acquires || i.fenceAcq then n + 1 else x.acqTo
    relTo := if i.releases || i.fenceRel then n else x.relTo }

/-- An operation is issued: it marks its flag, its destinations become pending, and the group goes on (R16, R17, R20). The write of a release
comes after the accesses before it (R96). -/
def State.issueOp (s : State) (g : Nat) (o : Op) : State :=
  let x := (((s.grp g).mark o.flag).addPend o.dest o.tok).ordered o.instr s.nextOp
  { (s.setGrp g { x.next with nextTok := x.nextTok + 1 }) with
    ops := tins s.ops s.nextOp { o with relTo := x.relTo }, nextOp := s.nextOp + 1 }

/-- A group that waits in YIELD on a flag that has become clear is woken (R177, R201). -/
def State.wakeFlag (s : State) (g : Nat) : State :=
  match (s.grp g).phase with
  | .waiting _ (.flag f) => if (s.grp g).flagOf f = 0 then s.push (.waitEventWake g) else s
  | _ => s

/-- An operation is over: it leaves its flag, its pending bits clear, and an ended group's block may retire (R17, R20,
R155). -/
def State.endOp (s : State) (o : Nat) : State :=
  let p := s.op o
  let x := ((s.grp p.gid).unmark p.flag).clearPend p.tok
  let s := ((s.setGrp p.gid x).delOp o).wakeFlag p.gid
  match x.phase with
  | .exited | .stopped => s.push (.blockRetire x.blk)
  | _ => s

/-- One register of an operation's result in the lanes of `m`: a lane register in every lane of `m` and of `hs`, a uniform
register with the value of the lowest lane of `m` (R44, R166). -/
def Group.put (g : Group) (r : PReg) (m hs : Mask) (v : Nat → Word) : Group :=
  match r with
  | .lane n => { g with regs := (lanesOf (m ||| hs)).foldl (fun t L => tset 0 t (32 * n + L) (v L)) g.regs }
  | .uni n =>
    match (lanesOf m).head? with
    | some L => g.setUni n (v L)
    | none => g
  | _ => g

/-- One register of a group-wide result: every lane of `m` and `hs`, or the uniform register whatever lanes are active. -/
def Group.putAll (g : Group) (r : PReg) (m hs : Mask) (v : Word) : Group :=
  match r with
  | .uni n => g.setUni n v
  | _ => g.put r m hs fun _ => v

/-- The registers a destination field names, `n` of them from the first; none for sz (R43, R45). -/
def Group.destRegs (g : Group) (f : RF) (n : Nat) : List PReg := (run .vs f n 1).pregs g.wb

/-- Results to consecutive destination registers: register k of the list gets `v k`. -/
def Group.puts (g : Group) (rs : List PReg) (m hs : Mask) (v : Nat → Nat → Word) : Group :=
  (rs.zipIdx).foldl (fun g r => g.put r.1 m hs (v r.2)) g

/-- Group-wide results to consecutive destination registers. -/
def Group.putsAll (g : Group) (rs : List PReg) (m hs : Mask) (v : List Word) : Group :=
  (rs.zip v).foldl (fun g r => g.putAll r.1 m hs r.2) g

/-- Operations of a group, with their numbers. -/
def State.opsOf (s : State) (g : Nat) : SMap Op := s.ops.filter fun e => e.2.gid == g

/-- Some older access of the group is not cleared in every lane that made it (R170). -/
def State.uncleared (s : State) (g : Nat) : Bool := (s.opsOf g).any fun e => e.2.stage == .issued

/-! ## Readiness (R169) -/

/-- While an older access is not cleared, a word may issue when it is a load that the checks of R50 do not refuse: its trap would come before
that access's own (R170, R188). -/
def State.clearFor (s : State) (g : Nat) (i : Instr) : Bool :=
  !s.uncleared g || (i.isLoad && ((s.grp g).issueTrap none i).isNone)

/-- The word may issue as far as the group's own state goes: no pending register, no full flag, clearance, and space in a
copy command queue (R17, R20, R170, R273). -/
def State.mayIssue (s : State) (g : Nat) (i : Instr) (queueFull : Bool) : Bool :=
  let x := s.grp g
  let f := x.flagFor (i.cls x)
  !x.pending (i.touched x.fmt x.wb) && (f == 15 || decide (x.flagOf f < 63)) && s.clearFor g i && !queueFull

/-- A group is resident in a core: its course runs (R147, R172). -/
def State.resident (s : State) (g : Nat) : Bool :=
  decide (g < s.groups.length) && (s.crs (s.gblk g).course).st == .running && (s.gblk g).st == .live

/-- A group of a stopped launch that comes to wait, or to be parked, stops at once (R158). -/
def State.stopWaiting (s : State) (g : Nat) : State := if (s.glch g).status = 1 ∧ (s.grp g).stopsNow then s.stopGroup g else s

/-- A group becomes descheduled in a scheduler-visible wait at its word (R177); a group of a stopped launch stops at once
(R158). -/
def State.enterWait (s : State) (g : Nat) (on : WaitOn) : State :=
  let x := s.grp g
  ((s.setGrp g { x with phase := .waiting x.idx on }).count 1 (s.partOf g) 4 1).stopWaiting g

end Sys2Proof.Machine
end

