-- ==== Sys2Proof/Machine/Home.lean ====
section
/-! DEFINITION. Homes of lines, object entries and page entries (spec/01 R10, R33, spec/14 R400, R403, R404, R477, spec/15
R427). -/

namespace Sys2Proof.Machine

/-! ## Homes (R10, R400, R427) -/

/-- Exclusive or of `n` groups of `b` bits. -/
def xorFold (x b : Nat) : Nat → Nat
  | 0 => 0
  | n + 1 => (x % 2 ^ b) ^^^ xorFold (x / 2 ^ b) b n

/-- Global line address of a global address. -/
def lineOf (a : Nat) : Nat := a / 256

/-- home_slice (R400). -/
def homeSlice (l : Nat) : Nat := xorFold l 4 14

/-- home_bank (R400). -/
def homeBank (l : Nat) : Nat := xorFold l 7 8

/-- Router index 32 × y + x. -/
def routerAt (x y : Nat) : Nat := 32 * y + x

/-- The router of root router `r` of die `m` (R427). -/
def rootAt (m r : Nat) : Nat :=
  let q := m / 4
  routerAt (16 * (q % 2) + 4 * (m % 4) + r % 4) (if q < 2 then r / 4 else 19 - r / 4)

/-- The root router of a line (R400, R427). -/
def rootRouter (l : Nat) : Nat := rootAt (homeSlice l) (homeBank l / 16)

/-- The router of a core (R427). -/
def coreRouter (c : Nat) : Nat :=
  let d := c / 56
  routerAt (8 * (d % 4) + c % 8) (if d < 4 then 3 + c / 8 % 7 else 10 + c / 8 % 7)

/-- Quadrant of a core (R10). -/
def quadOfCore (c : Nat) : Nat := 2 * (c / 56 / 4) + c / 56 % 4 / 2

/-- Latency class of a request from a core to a memory-side die (R33). -/
def quadClass (core m : Nat) : Nat := if quadOfCore core = m / 4 then 4 else 5

/-! ## Object entries and page entries (R403, R404) -/

/-- An object entry's 32 bytes, as one number. -/
abbrev ObjRaw := Nat

/-- Field of a number: bits lo to lo + n − 1. -/
def fld (x lo n : Nat) : Nat := x / 2 ^ lo % 2 ^ n

/-- KIND of an object entry. -/
def oKind (o : ObjRaw) : Nat := fld o 2 4
/-- RIGHTS of an object entry. -/
def oRights (o : ObjRaw) : Nat := fld o 6 8
/-- GEN of an object entry. -/
def oGen (o : ObjRaw) : Nat := fld o 16 12
/-- SIZE of an object entry. -/
def oSize (o : ObjRaw) : Nat := fld o 64 40
/-- PMAP of an object entry. -/
def oPmap (o : ObjRaw) : Nat := fld o 128 52
/-- OWNER of an object entry. -/
def oOwner (o : ObjRaw) : Nat := fld o 192 12
/-- TENANT of an object entry. -/
def oTenant (o : ObjRaw) : Nat := fld o 204 12
/-- AFB of an object entry. -/
def oAfb (o : ObjRaw) : Bool := fld o 216 1 == 1
/-- AFAR of an object entry. -/
def oAfar (o : ObjRaw) : Bool := fld o 217 1 == 1
/-- HPOL of an object entry. -/
def oHpol (o : ObjRaw) : Nat := fld o 218 4

/-- An entry is valid in a context: ST = 1, every reserved bit zero, and its whole page map within the context's table region
(R403, R477). -/
def objValid (c : Ctx) (o : ObjRaw) : Bool :=
  fld o 0 2 == 1 && fld o 14 2 == 0 && fld o 28 36 == 0 && fld o 104 24 == 0 && fld o 180 12 == 0 && fld o 222 34 == 0 &&
    decide (c.regBase ≤ oPmap o) && decide (oPmap o + 8 * ((oSize o + 65535) / 65536) ≤ c.regBase + c.regLen)

/-- The raw entry of object `n` in a context's table, 0 (absent) when the number names no entry (R403). -/
def State.objRaw (s : State) (ctx n : Nat) : ObjRaw :=
  let c := s.ctx ctx
  if !c.tbl || n == 0 || decide (c.tblN ≤ n) then 0 else mread s.mem (c.tblBase + 32 * n) 32

/-- An object is, or has been, an error log, by whatever context's table it is reached (R22, R468). -/
def State.everLog (s : State) (n : Nat) : Bool := s.mg.log.everLogs.any fun e => e.2 == n

/-- An object is a context's sequence area or map pool (R348). -/
def State.seqObject (s : State) (n : Nat) : Bool := s.ctxs.any fun e => e.2.seq && (n == e.2.seqArea || n == e.2.mapPool)

/-- An object that CAPLD and the link engine refuse (R348, R468). -/
def State.withheld (s : State) (n : Nat) : Bool := s.seqObject n || s.everLog n

/-- Region that an alias object maps, if (ctx, n) is one: its base and length (R477). -/
def State.aliasRegion (s : State) (ctx n : Nat) : Option (Nat × Nat) :=
  match s.ctxs.find? fun e => e.2.tbl && e.2.aliasCtx == ctx && e.2.aliasObj == n with
  | some e => some (e.2.regBase, e.2.regLen)
  | none => none

/-- Physical address of byte `off` of an object, for an agent that acts at the home and whose pages its rule has already
checked: none when there is no such byte in device memory of this package. -/
def State.xlate (s : State) (ctx n off : Nat) : Option Nat :=
  match s.aliasRegion ctx n with
  | some (b, len) => if off < len then some (b + off) else none
  | none =>
    let o := s.objRaw ctx n
    if !objValid (s.ctx ctx) o || decide (oSize o ≤ off) then none
    else
      let e := mread s.mem (oPmap o + 8 * (off / 65536)) 8
      if fld e 0 1 = 1 ∧ fld e 4 4 = 0 ∧ fld e 12 4 = 0 ∧ fld e 56 8 = 0 then
        some (fld e 16 40 * 65536 + off % 65536)
      else none

/-- Every page of an object is present and of memory type 0. -/
def State.allPages (s : State) (ctx n : Nat) : Bool :=
  (List.range ((oSize (s.objRaw ctx n) + 65535) / 65536)).all fun i => (s.xlate ctx n (65536 * i)).isSome

/-- The page of an object that byte `off` lies in is dead (R409). -/
def State.deadPage (s : State) (ctx n off : Nat) : Bool :=
  (s.aliasRegion ctx n).isNone && fld (mread s.mem (oPmap (s.objRaw ctx n) + 8 * (off / 65536)) 8) 3 1 == 1

/-- `n` bytes of an object that lie in one page; 0 for a dead page (R409), and where no memory stands behind them. -/
def State.oread (s : State) (ctx obj off n : Nat) : Nat :=
  match s.xlate ctx obj off with
  | some a => if s.deadPage ctx obj off then 0 else mread s.mem a n
  | none => 0

/-- Home policy of an access: the page's, or the object's when that is 0 (R402). -/
def homePolicy (e : Nat) (o : ObjRaw) : Nat := if fld e 8 4 = 0 then oHpol o else fld e 8 4

/-- Lines of a page are placed in L2 as the first candidates for eviction (R402). -/
def State.streams (s : State) (ctx l : Nat) : Bool :=
  let o := s.objRaw ctx (l / 2 ^ 32)
  homePolicy (if (s.aliasRegion ctx (l / 2 ^ 32)).isSome then 0 else mread s.mem (oPmap o + 8 * (l % 2 ^ 32 / 256)) 8) o == 2

/-- A quiet wave of a tag is under way (R445). -/
def State.waveOn (s : State) (tag : Nat) : Bool :=
  tget [] s.fab.quiet tag != [] || s.agenda.any fun e => match e with | .quiet b _ => b == tag | _ => false

/-! ## Bits -/

/-- Bit k of a number becomes 1. -/
def bitSet (x k : Nat) : Nat := if fld x k 1 = 1 then x else x + 2 ^ k

/-- Bit k of a number becomes 0. -/
def bitClr (x k : Nat) : Nat := if fld x k 1 = 1 then x - 2 ^ k else x

end Sys2Proof.Machine
end

