-- ==== Sys2Proof/Machine/Cache.lean ====
section
/-! DEFINITION. The lines of the caching agents, and requests that leave a core or the package (spec/01 R29, spec/07 R236,
spec/15 R433, R435, spec/16 R448 to R456). -/

namespace Sys2Proof.Machine

/-! ## Links to other packages (R440, R453, R456) -/

/-- A Sahper Link port. -/
def State.port (s : State) (p : Nat) : Port := tget .empty s.link.ports p

/-- A port becomes `x`. -/
def State.setPort (s : State) (p : Nat) (x : Port) : State := { s with link := { s.link with ports := tset .empty s.link.ports p x } }

/-- A message that discovery sends (R455). -/
def isDiscovery (m : LinkMsg) : Bool := match m with | .discovery _ => true | _ => false

/-- A port in its present state carries a message: everything in UP, discovery in DISCOVER (R454). -/
def Port.admits (x : Port) (m : LinkMsg) : Bool := match x.st with | .up => true | .discover => isDiscovery m | _ => false

/-- The cumulative acknowledgement of the reverse direction that a flit carries: the last good number received (R453). -/
def Port.lastGood (x : Port) : Nat := (x.rxSeq + 4095) % 4096

/-- The peer has attested: its certificate chain and all five measurements are verified (R461, R467). -/
def Port.attested (x : Port) : Bool := decide (6 ≤ x.verified)

/-- A message is sent on a port in the next flit, kept until it is acknowledged; beyond 512 unacknowledged flits it waits (R453). A port that is not in a
state for it sends nothing (R454, R460). -/
def State.linkSend (s : State) (p : Nat) (m : LinkMsg) : State :=
  let x := s.port p
  if !x.admits m then s
  else s.setPort p { x with
    txSeq := (x.txSeq + 1) % 4096, unacked := x.unacked ++ [(x.txSeq, 0, m)]
    sent := if x.unacked.length < 512 then x.sent ++ [(x.txSeq, x.lastGood, m)] else x.sent }

/-- The domain ports whose discovery reported a package, ascending (R456). -/
def State.portsTo (s : State) (h : Nat) : List Nat :=
  (List.range 12).filter fun p => (s.port p).isDomain && (s.port p).pkg == h

/-- The port of a slab toward a package that shares it (R440, R456). -/
def State.slabIndex (s : State) (h slab : Nat) : Option Nat :=
  let l := s.portsTo h
  if l = [] then none else l[((slab % 4) ^^^ (slab / 4 % 4)) % l.length]?

/-- That port, when it is UP. -/
def State.slabPort (s : State) (h slab : Nat) : Option Nat := (s.slabIndex h slab).filter fun p => (s.port p).st == .up

/-- Band router 0 of a memory-side die (R427). -/
def bandRouter (m : Nat) : Nat := routerAt (16 * (m / 4 % 2) + 4 * (m % 4)) (if m / 4 < 2 then 2 else 17)

/-- The router a Sahper Link port attaches to (R11, R427). -/
def portRouter (p : Nat) : Nat := bandRouter (4 * (p / 3) + p % 3)

/-- The router of the host bridge (R11, R427). -/
def bridgeRouter : Nat := bandRouter 3

/-- The router of the management engine (R427). -/
def mgmtRouter : Nat := routerAt 2 2

/-- The router of a core's agents; numbers from 448 on stand for the link agents of the twelve ports (R427, R440). -/
def agentRouter (c : Nat) : Nat := if c < 448 then coreRouter c else portRouter (c - 448)

/-! ## Lines of the caching agents -/

/-- A line an agent does not hold. -/
def CLine.none : CLine := ⟨.I, 0, 0, 0, 0, false, 0, false, 0, 0, 0, 0⟩

/-- Line `l` in agent `a` (0 L1, 1 copy, 2 matrix, 3 merge) of a core. -/
def State.line (s : State) (core a l : Nat) : CLine := tget .none (s.core core).lines (4 * l + a)

/-- Line `l` in agent `a` becomes `x`. -/
def State.setLine (s : State) (core a l : Nat) (x : CLine) : State :=
  let c := s.core core
  s.setCore core { c with lines := tset .none c.lines (4 * l + a) x }

/-- A line is used: it becomes the most recently used of its agent (R236). -/
def State.useLine (s : State) (core a l : Nat) : State :=
  let c := s.core core
  let x := s.line core a l
  (s.setCore core { c with use := c.use + 1 }).setLine core a l { x with use := c.use + 1 }

/-- A load of a sector hits (R170, R236). -/
def CLine.readHit (x : CLine) (sector : Nat) : Bool := x.st != .I && fld x.valid sector 1 == 1

/-- A store hits: the line is held in E or M (R220). -/
def CLine.writeHit (x : CLine) : Bool := x.st == .E || x.st == .M

/-- The line is held in M or O: its agent is the owner (R430). -/
def CLine.owner (x : CLine) : Bool := x.st == .M || x.st == .O

/-- The phase tag under which a group's messages travel (R115). -/
def State.tagOf (s : State) (g : Nat) : Nat := (s.glch g).tag

/-- A message of an agent of a core about a line, at the core's router. -/
def agentMsg (core a l sector tag : Nat) : TMsg := ⟨l, false, sector, core, a, agentRouter core, 4, 0, 0, tag, false, 0, 0, 0⟩

/-- A message of an agent about a line of a slab, whose proxy root is given plus one (R440): `sector` is the line's place in the slab, plus one. -/
def slabMsg (core a l tag ctx root : Nat) : TMsg :=
  { agentMsg core a (l / 16) (l % 16 + 1) tag with slab := true, ctx := ctx, top := root }

/-- The message of an event of the fabric. -/
def Event.msg (e : Event) : Option TMsg :=
  match e with
  | .rd m | .xreq m | .srdSteeredRead m | .inv m | .tkeep m | .grant m | .data m | .ack m | .prune m | .jdone m | .leave m | .wb m
  | .wback m | .snoop m => some m
  | _ => none

/-- A read of a sector is sent unless one is in flight; while a fill of the line's other sector is in flight it waits for that fill (R433). -/
def State.sendRD (s : State) (core a l sector tag : Nat) : State :=
  let x := s.line core a l
  if fld x.pending sector 1 = 1 ∨ fld x.pending 2 1 = 1 then s
  else if fld x.pending 0 2 ≠ 0 then s.setLine core a l { x with pending := bitSet x.pending (6 + sector) }
  else (s.setLine core a l { x with tag := tag, pending := bitClr (bitSet x.pending sector) 3 }).push (.rd (agentMsg core a l sector tag))

/-- The fill of a sector has ended, before which the line was `x`: a read of its other sector that waited for it is sent (R433). -/
def State.sendWanted (s : State) (core a l sector : Nat) (x : CLine) : State :=
  let y := s.line core a l
  if fld x.pending (7 - sector) 1 = 0 ∨ (y.st ≠ .I ∧ fld y.valid (1 - sector) 1 = 1) then s
  else (s.setLine core a l { y with pending := y.pending ||| (x.pending &&& 48) }).sendRD core a l (1 - sector) x.tag

/-- An ownership request is sent unless one is in flight (R435). -/
def State.sendXREQ (s : State) (core a l tag : Nat) : State :=
  let x := s.line core a l
  if fld x.pending 2 1 = 1 then s
  else (s.setLine core a l { x with tag := tag, pending := bitSet x.pending 2 }).push (.xreq (agentMsg core a l 0 tag))

/-- A read of a peer's line, or a request for its ownership, is sent to the proxy root of its slab unless one is in flight (R440, R441); none when no
port to its home is UP. -/
def State.sendSlab (s : State) (core a l pa ctx tag : Nat) (excl hint : Bool) : Option State :=
  (s.slabPort (pa / 65536 % 4) (l / 16)).map fun p =>
    let x := s.line core a l
    if (if excl then fld x.pending 2 1 else fld x.pending 0 3) ≠ 0 then s
    else
      let m := slabMsg core a l tag ctx (portRouter p + 1)
      let q := if excl then bitSet x.pending 2 else bitClr (x.pending ||| 3) 3
      (s.setLine core a l { x with pa := pa / 256 * 256, mt := 2, ctx := ctx, tag := tag, hint := x.hint || hint, pending := q }).push
        (if excl then .xreq m else .rd m)

/-- What the fill of an agent's line remembers of its translation, its home policy (R402) and its hint (R221). -/
def State.noteFill (s : State) (core agent adr pa mt ctx pol : Nat) (hint : Bool) : State :=
  let l := lineOf adr
  let x := s.line core agent l
  let q := if pol = 3 then bitSet x.pending 4 else x.pending
  s.setLine core agent l
    { x with pa := pa - adr % 256, mt := mt, ctx := ctx, pending := if pol = 2 ∨ hint then bitSet q 5 else q, hint := x.hint || hint }

/-- Ways of a set of a core's L1: sixteen and the lent ones (R236, R237). -/
def Core.ways (c : Core) : Nat := 16 + c.lent

/-- The line an L1 fill displaces: in a full set, a hinted line first, then the least recently used (R221, R236). -/
def Core.victim (c : Core) (l : Nat) : Option Nat :=
  let set := c.lines.filter fun e => e.1 % 4 == 0 && e.1 / 4 % 64 == l % 64 && e.1 / 4 != l && e.2.st != .I
  if set.length < c.ways then none
  else
    (set.foldl
      (fun v e =>
        match v with
        | none => some e
        | some w => if (e.2.hint && !w.2.hint) || (e.2.hint == w.2.hint && decide (e.2.use < w.2.use)) then some e else v)
      none).map fun e => e.1 / 4

/-- The dirty sectors of a copy as a message carries them: bits 0 and 1, and in bits 2 and 3 those that L2 places as first candidates (R221,
R402). -/
def State.dirtyOf (s : State) (x : CLine) (l : Nat) : Nat := if s.streams x.ctx l || x.hint then x.dirty + 4 * x.dirty else x.dirty

/-- Two dirty sectors of a line among the 32 of its slab. -/
def slabDirty (l d : Nat) : Nat := d % 4 * 4 ^ (l % 16)

/-- An agent drops a line on its own, for an access of context `by_`: an owner's dirty sectors, if only none, go to the home as WB, which clears the root's
OWN; any other agent leaves the tree at once (R417, R434, R437). -/
def State.dropLine (s : State) (core a l tag by_ : Nat) : State :=
  let x := s.line core a l
  let s := s.setLine core a l { CLine.none with pending := x.pending }
  let root := match s.slabIndex (x.pa / 65536 % 4) (l / 16) with | some p => portRouter p + 1 | none => 0
  let m := if x.mt = 2 then slabMsg core a l tag x.ctx root else agentMsg core a l 0 tag
  if x.dirty = 0 ∧ !x.owner then s.push (.leave m)
  else s.push (.wb { m with dirty := if x.mt = 2 then slabDirty l x.dirty else s.dirtyOf x l, ctx := x.ctx, evict := by_ })

/-- A line is brought into L1, displacing a victim where its set is full. -/
def State.fillL1 (s : State) (core l : Nat) (x : CLine) (tag : Nat) : State :=
  let s := match (s.core core).victim l with
    | some v => s.dropLine core 0 v tag x.ctx
    | none => s
  (s.setLine core 0 l x).useLine core 0 l

/-! ## L2 (R401, R402) -/

/-- A line of an L2 slice that holds nothing. -/
def L2Line.none : L2Line := ⟨0, 0, false, 0, 0, 0⟩

/-- Dirty sectors of a line, as a mask of two, that are poisoned where they lie: written back, they are found uncorrectable (R417). -/
def Slice.badBack (x : Slice) (l : Nat) (y : L2Line) : Nat :=
  (List.range 2).foldl (fun n k => if fld y.dirty k 1 = 1 ∧ x.poisonSec.contains (2 * l + k) then n + 2 ^ k else n) 0

/-- A line is written back from L2 for an access of context `by_`: what is uncorrectable of it is still to be reported. -/
def Slice.backLine (x : Slice) (l : Nat) (y : L2Line) (by_ : Nat) : Slice :=
  if x.badBack l y = 0 then x else { x with lost := x.lost ++ [(l, x.badBack l y, y.ctx, by_)] }

/-- A sector is brought into L2 for an access of context `by_`, displacing a line where its set is full: a streaming line first, then the least recently
used (R401, R402). `dirty` marks it written. -/
def State.fillL2 (s : State) (l sector : Nat) (stream dirty : Bool) (by_ : Nat) : State :=
  let m := homeSlice l
  let x := s.slice m
  let set := x.l2.filter fun e =>
    homeBank e.1 == homeBank l && e.1 / 128 % 1024 % 768 == l / 128 % 1024 % 768 && e.1 != l && e.2.valid != 0
  let victim := if set.length < 16 then none else
    set.foldl
      (fun v e =>
        match v with
        | none => some e
        | some w => if (e.2.stream && !w.2.stream) || (e.2.stream == w.2.stream && decide (e.2.use < w.2.use)) then some e else v)
      none
  let l2 := match victim with | some v => if v.2.filling = 0 then tdel x.l2 v.1 else tset .none x.l2 v.1 { L2Line.none with filling := v.2.filling } | none => x.l2
  let y := tget .none l2 l
  let y := { y with
    valid := bitSet y.valid sector, dirty := if dirty then bitSet y.dirty sector else y.dirty,
    stream := stream || (dirty && y.stream), use := x.use + 1, filling := bitClr y.filling sector, ctx := by_ }
  let x := match victim with | some v => x.backLine v.1 v.2 by_ | none => x
  s.setSlice m { x with l2 := tset .none l2 l y, use := x.use + 1 }

/-- Sectors that an agent at the home writes are placed in L2 (R402). -/
def State.allocL2 (s : State) (a n : Nat) (stream : Bool) (by_ : Nat) : State :=
  if n = 0 then s
  else (List.range ((a + n - 1) / 128 - a / 128 + 1)).foldl (fun s i => s.fillL2 ((a / 128 + i) / 2) ((a / 128 + i) % 2) stream true by_) s

/-! ## Monitors see writes (R296, R439) -/

/-- Armed monitors on the lines of `n` bytes at a global address read their words again. -/
def State.touch (s : State) (a n : Nat) : State :=
  (List.range s.groups.length).foldl
    (fun s g =>
      (s.grp g).mons.foldl
        (fun s e =>
          match e.2 with
          | .armed (.glob _) _ m _ => if lineOf a ≤ lineOf m ∧ m < a + n + 256 then s.push (.monitorReread g e.1) else s
          | _ => s)
        s)
    s

/-! ## Teardown at the home (R30, R436) -/

/-- The dirty sectors of a line that some agent of the package holds, as `State.dirtyOf` gives them. -/
def State.dirtyAt (s : State) (l : Nat) : Nat :=
  s.cores.foldl
    (fun d e => (List.range 4).foldl
      (fun d a => let x := s.line e.1 a l; if x.dirty = 0 ∨ x.mt = 2 then d else d ||| s.dirtyOf x l) d) 0

/-- Dirty sectors of a line in the caches of this package. -/
def State.dirtyOn (s : State) (l : Nat) : Nat :=
  s.cores.foldl (fun d e => (List.range 4).foldl (fun d a => d ||| (s.line e.1 a l).dirty) d) 0

/-- The context under which a dirty copy of a line was translated. -/
def State.ctxOn (s : State) (l : Nat) : Nat :=
  s.cores.foldl (fun c e => (List.range 4).foldl (fun c a => if (s.line e.1 a l).dirty = 0 then c else (s.line e.1 a l).ctx) c) 0

/-- Every agent's copy of a line and its tree leave at once, and requests the root held are handled afresh, for a change by an agent at the home: its
dirty sectors are collected into L2, their data being in the one data image already (R30, R436; log entry 9), and fills in flight end in state I
(R438); what routers hold for the line is handled afresh, and monitors on it read again (R439). -/
def State.tearLine (s : State) (l : Nat) : State :=
  let d := s.dirtyAt l
  let watched := s.cores.any fun e => (s.line e.1 1 l).st != .I
  let s := (List.range 2).foldl (fun s k => if fld d k 1 = 1 then s.fillL2 l k (fld d (k + 2) 1 == 1) true (s.ctxOn l) else s) s
  let s := s.cores.foldl
    (fun s e =>
      (List.range 4).foldl
        (fun s a =>
          let x := s.line e.1 a l
          if x.st = .I ∧ x.pending = 0 then s
          else s.setLine e.1 a l { CLine.none with pending := if x.pending = 0 then 0 else bitSet x.pending 3 })
        s)
    s
  let s := (tget [] s.fab.roots l).foldl (fun s r => s.push (.xreq { r.m with router := rootRouter l })) s
  let s : State := { s with fab := { s.fab with tree := s.fab.tree.filter fun e => e.1 % 2 ^ 57 != l, roots := tdel s.fab.roots l } }
  let s := (s.fab.held.filter fun e => e.2.2.key == l && !e.2.2.slab).foldl (fun s e => s.push (.heldMessageRelease e.1 l false)) s
  if watched then s.touch (256 * l) 256 else s

/-- Lines that `n` bytes at a global address meet. -/
def linesOf (a n : Nat) : List Nat := if n = 0 then [] else (List.range ((a + n - 1) / 256 - a / 256 + 1)).map (a / 256 + ·)

/-- The trees of every line of a range are torn down (R30). -/
def State.tearRange (s : State) (a n : Nat) : State := (linesOf a n).foldl State.tearLine s

/-- The lines of a range leave L2 (R234, R410): TCINV has written them back before. -/
def State.dropL2 (s : State) (a n : Nat) : State :=
  { s with slices := s.slices.map fun x => (x.1, { x.2 with l2 := x.2.l2.filter fun e => !(decide (a < 256 * e.1 + 256) && decide (256 * e.1 < a + n)) }) }

/-- A sector is in L2. -/
def State.inL2 (s : State) (l sector : Nat) : Bool := fld (tget .none (s.slice (homeSlice l)).l2 l).valid sector 1 == 1

/-! ## Leaving the package -/

/-- A PCI Express request or message leaves the bridge. -/
def State.pcie (s : State) (m : PcieMsg) : State := { s with link := { s.link with out := s.link.out ++ [m] } }

/-! ## Lines that peers hold (R429, R441) -/

/-- Key of a tree entry: router, slab flag and line or slab address (R429). -/
def treeKey (router : Nat) (slab : Bool) (key : Nat) : Nat := (router * 2 + (if slab then 1 else 0)) * 2 ^ 56 + key

/-- A tree entry. -/
def State.tent (s : State) (router : Nat) (slab : Bool) (key : Nat) : TEntry := tget .empty s.fab.tree (treeKey router slab key)

/-- The port whose router is the root of a slab homed here: the one that keeps PKG. -/
def State.slabHolder (s : State) (slab : Nat) : Option Nat := (List.range 12).find? fun p => (s.tent (portRouter p) true slab).pkg != 0

end Sys2Proof.Machine
end

