-- ==== Sys2Proof/Machine/Port.lean ====
section
/-! DEFINITION. The memory port, poison, the error log, and reads and writes of memory by the agents that act at the homes
(spec/14 R406 to R417, R477, spec/17 R468 to R470). -/

namespace Sys2Proof.Machine

/-! ## Monitors of scratchpad words (R296) -/

/-- Armed monitors on a word of a block's scratchpad read it again; such a monitor's address is 2^64 × window
address + 2^32 × block + offset. -/
def State.touchScr (s : State) (b a n : Nat) : State :=
  (List.range s.groups.length).foldl
    (fun s g =>
      (s.grp g).mons.foldl
        (fun s e =>
          match e.2 with
          | .armed .scratch _ m _ | .armed .window _ m _ =>
            if m / 2 ^ 32 % 2 ^ 32 = b ∧ a < m % 2 ^ 32 + 4 ∧ m % 2 ^ 32 < a + n then s.push (.monitorReread g e.1) else s
          | _ => s)
        s)
    s

/-- Bytes of device memory this package has: 768,000,000,000 (R3, R405). -/
def memBytes : Nat := 768000000000

/-- `n` bytes of a number written at a physical address (log entry 5 beyond the memory there is). -/
def State.pwrite (s : State) (a n v : Nat) : State :=
  if a + n ≤ memBytes then { s with mem := mwrite s.mem a n v } else { s with stuck := some .beyondMemory }

/-- Bytes at a global address are written: every sector wholly covered is poisoned no longer (R416). -/
def State.cleanSectors (s : State) (a n : Nat) : State :=
  { s with slices := s.slices.map fun e =>
      (e.1, { e.2 with poisonSec := e.2.poisonSec.filter fun q => !(decide (a ≤ 128 * q) && decide (128 * q + 128 ≤ a + n)) }) }

/-- A page entry that every port caches no more. -/
def State.dropPages (s : State) (ctx n page : Nat) : State :=
  { s with slices := s.slices.map fun x =>
      (x.1, { x.2 with pages := x.2.pages.filter fun q => !(q.1 == ctx && q.2.1 == n && q.2.2.1 == page) }) }

/-! ## The port (R406 to R409) -/

/-- Kind of an access at the port. -/
inductive PKind where | read | write | other
  deriving DecidableEq, Repr

/-- What port_check answers. -/
inductive PortRes where
  /-- translated: physical address or bus address, memory type, a dead page that reads as zero or is still to be cleared, the home policy
  (R402), the object entry -/
  | ok (pa mt : Nat) (dead : Bool) (pol : Nat) (o : ObjRaw)
  | fail (cause : Nat)
  | missing
  deriving DecidableEq, Repr

/-- The object entry a port uses: its cached one, or the table's, which it caches when it is valid (R407, log entry 19). -/
def State.portObj (s : State) (m ctx n : Nat) : State × ObjRaw :=
  let x := s.slice m
  match x.objs.find? fun e => e.1 == ctx && e.2.1 == n with
  | some e => (s, e.2.2)
  | none =>
    let o := s.objRaw ctx n
    if objValid (s.ctx ctx) o then (s.setSlice m { x with objs := ((ctx, n, o) :: x.objs).take 256 }, o) else (s, o)

/-- The page entry a port uses: its cached one, or the page map's, which it caches when the page is present (R407). -/
def State.portPage (s : State) (m ctx n page pmap : Nat) : State × Nat :=
  let x := s.slice m
  match x.pages.find? fun e => e.1 == ctx && e.2.1 == n && e.2.2.1 == page with
  | some e => (s, e.2.2.2)
  | none =>
    let e := mread s.mem (pmap + 8 * page) 8
    let s := s.count 8 m 0 1
    if fld e 0 1 = 1 then (s.setSlice m { x with pages := ((ctx, n, page, e) :: x.pages).take 4096 }, e) else (s, e)

/-- The global address by which software names a byte of a context's table region: through its alias object (R477). -/
def State.aliasAdr (s : State) (ctx a : Nat) : Option Nat :=
  let c := s.ctx ctx
  if c.tbl && decide (c.regBase ≤ a) && decide (a < c.regBase + c.regLen) then some (c.aliasObj * 2 ^ 40 + (a - c.regBase)) else none

/-- An agent at the home accesses bytes of lines that peers hold, that a command of an engine is to write, or whose root serves a request for ownership:
the step waits for those (R30, R435). -/
def State.homeWant (s : State) (a n : Nat) (write : Bool) : State :=
  let ls := (linesOf a n).filter fun l =>
    (s.slabHolder (l / 16)).isSome || (s.ops.any fun e => e.2.owns.contains l) || (write && tget [] s.fab.roots l != [])
  if ls = [] then s else { s with link := { s.link with wants := s.link.wants ++ ls.map fun l => (256 * l, write) } }

/-- A page entry is written by an agent at its home (R408, R477): the tree of its line is torn down, and monitors on it read again. -/
def State.putEntry (s : State) (ctx a e : Nat) : State :=
  let s : State := { s with mem := mwrite s.mem a 8 e }
  match s.aliasAdr ctx a with
  | some g =>
    ((s.homeWant g 8 true).tearLine (lineOf g)).touch g 8
  | none => s

/-- A frame of 64 KiB of the host is written with zeros, in requests of one sector (R409). -/
def State.zeroHost (s : State) (pfn : Nat) : State :=
  (List.range 512).foldl
    (fun s i => s.pcie (.memWrite (65536 * pfn + 128 * i) ((List.range 128).map fun j => (65536 * pfn + 128 * i + j, 0)))) s

/-- Every byte of a dead page's frame becomes zero at its first write (R409): a frame of this package or of the host; its sectors are poisoned no more
(R416). Register space has no bytes to clear; a peer's frame is cleared when its slabs are here (log entry 53). -/
def State.zeroFrame (s : State) (adr mt pfn : Nat) : State :=
  match mt with
  | 0 => ({ s with mem := mzero s.mem (65536 * pfn) 65536 } : State).cleanSectors (adr / 65536 * 65536) 65536
  | 1 => s.zeroHost pfn
  | _ => s

/-- A port drops a cached page entry. -/
def State.dropPage (s : State) (m ctx n page : Nat) : State :=
  let x := s.slice m
  s.setSlice m { x with pages := x.pages.filter fun e => !(e.1 == ctx && e.2.1 == n && e.2.2.1 == page) }

/-- Some port's poison table refuses the context's access to the page (R417). -/
def State.poisonedPage (s : State) (ctx n page : Nat) : Bool := s.slices.any fun e => e.2.poison.contains (ctx, n, page)

/-- A use of a reserved home policy is counted (R402). -/
def State.hpol (s : State) (m : Nat) (e : Nat) (o : ObjRaw) : State :=
  if 4 ≤ homePolicy e o then s.count 8 m 5 1 else s

/-- A frame of device memory that this package does not have (R3, R405) is reported (log entry 5). -/
def State.frameThere (s : State) (mt pfn : Nat) : State :=
  if mt = 0 ∧ memBytes < 65536 * (pfn + 1) then { s with stuck := some .beyondMemory } else s

/-- The checks that port_check makes of the object, the generation first (R406): the object entry, or the cause. An access under a capability reaches no
object that is the sequence engine's or a log (R348, R468). -/
def State.portHead (s : State) (ctx adr : Nat) (gen : Option Nat) : State × Except Nat ObjRaw :=
  let n := adr / 2 ^ 40
  let c := s.ctx ctx
  if n = 0 ∨ !c.tbl ∨ c.tblN ≤ n then (s, .error 0x09)
  else
    let (s, o) := s.portObj (homeSlice (lineOf adr)) ctx n
    if gen.isSome ∧ gen ≠ some (oGen o) then (s, .error 0x08)
    else if !objValid c o ∨ oSize o ≤ adr % 2 ^ 40 ∨ (gen.isSome ∧ s.withheld n) then (s, .error 0x09)
    else (s, .ok o)

/-- port_check (R406 to R409) with `fuel` more tries after a failed compare-and-swap. -/
def State.portTry (s : State) (ctx adr : Nat) (gen : Option Nat) (k : PKind) : Nat → State × PortRes
  | 0 => (s, .fail 0x09)
  | fuel + 1 =>
    let m := homeSlice (lineOf adr)
    let n := adr / 2 ^ 40
    let off := adr % 2 ^ 40
    match s.portHead ctx adr gen with
    | (s, .error cause) => (s, .fail cause)
    | (s, .ok o) =>
        match s.aliasRegion ctx n with
        | some (b, len) => if off < len then (s.hpol m 0 o, .ok (b + off) 0 false (homePolicy 0 o) o) else (s, .fail 0x09)
        | none =>
          let page := off / 65536
          let (s, e) := s.portPage m ctx n page (oPmap o)
          if fld e 0 1 = 0 then (s, .missing)
          else if fld e 12 4 ≠ 0 ∨ fld e 56 8 ≠ 0 ∨ 5 ≤ fld e 4 4 then (s, .fail 0x09)
          else if s.poisonedPage ctx n page then (s, .fail 0x0B)
          else
            let pfn := fld e 16 40
            let pa := pfn * 65536 + off % 65536
            let s := (s.hpol m e o).frameThere (fld e 4 4) pfn
            let peer := fld e 4 4 == 2 && fld e 3 1 == 1
            let needA := (k != .other) && fld e 1 1 == 0
            let needD := k == .write && !peer && (fld e 2 1 == 0 || fld e 3 1 == 1)
            let dead := fld e 3 1 == 1 && (k == .read || peer)
            if needD && fld e 3 1 == 1 && fld e 4 4 == 1 && !s.link.hostUp then (s, .fail 0x1B)
            else if needA || needD then
              let a := oPmap o + 8 * page
              let s := s.count 8 m 1 1
              if mread s.mem a 8 ≠ e then (s.dropPage m ctx n page).portTry ctx adr gen k fuel
              else
                let e' := if needD then bitClr (bitSet (bitSet e 1) 2) 3 else bitSet e 1
                let s := if needD && fld e 3 1 == 1 then s.zeroFrame adr (fld e 4 4) pfn else s
                let s := (s.putEntry ctx a e').dropPage m ctx n page
                let x := s.slice m
                let s := s.setSlice m { x with pages := ((ctx, n, page, e') :: x.pages).take 4096 }
                (s, .ok pa (fld e 4 4) dead (homePolicy e o) o)
            else (s, .ok pa (fld e 4 4) dead (homePolicy e o) o)

/-- port_check (R406): a compare-and-swap that fails once rereads an entry that then agrees with memory. -/
def State.portCheck (s : State) (ctx adr : Nat) (gen : Option Nat) (k : PKind) : State × PortRes :=
  s.portTry ctx adr gen k 3

/-! ## Writes of the agents that act at the homes (R30, R406) -/

/-- A sector is written at its home, or a store makes an exclusive line its own: the port sets A and D of its page (R406, R408, R412). A
dead page has no copies that such a write could belong to (R234). -/
def State.noteWrite (s : State) (ctx adr : Nat) : State :=
  if s.deadPage ctx (adr / 2 ^ 40) (adr % 2 ^ 40) then s else (s.portCheck ctx adr none .write).1


/-- An agent at the home reads bytes of an object: its port sets A (R406, R408), and a line that a peer or an engine owns is waited for (R433). -/
def State.noteRead (s : State) (ctx adr : Nat) : State := ((s.portCheck ctx adr none .read).1).homeWant adr 1 false

/-- `n` bytes that lie in one page, written to an object by an agent that acts at the home, through its port, the trees of their lines being torn down
before (R30, R406); they are placed in L2 (R402). -/
def State.owrite (s : State) (ctx obj off n v : Nat) : State :=
  let a := obj * 2 ^ 40 + off
  match s.portCheck ctx a none .write with
  | (s, .ok pa 0 _ pol _) => (((((s.homeWant a n true).tearRange a n).pwrite pa n v).cleanSectors a n).allocL2 a n (pol == 2) ctx).touch a n
  | (s, _) => s

/-! ## The error log (R468 to R470) -/

/-- The bytes of a log record, as one number (R468). -/
def LogRec.bits (r : LogRec) : Nat :=
  r.num % 2 ^ 64 + 2 ^ 64 * (r.tick % 2 ^ 32) + 2 ^ 96 * (r.srck % 16) + 2 ^ 100 * (r.srci % 4096) + 2 ^ 112 * (r.cls % 256)
    + 2 ^ 120 * (r.code % 256) + 2 ^ 128 * (r.adr % 2 ^ 64) + 2 ^ 192 * (r.ctx % 4096)
    + (match r.ctx2 with | some c => 2 ^ 208 * (c % 4096) + 2 ^ 223 | none => 0) + 2 ^ 224 * (r.detail % 2 ^ 32)

/-- Physical address of the record of place `i` of the log object (R468). -/
def ErrLog.at_ (l : ErrLog) (i : Nat) : Nat := 65536 * l.frames.getD (32 * i / 65536) 0 + 32 * i % 65536

/-- A record is written to its place of the log object, whose descriptor the management engine keeps itself (R468). -/
def State.logPut (s : State) (l : ErrLog) (i bits : Nat) : State :=
  let a := l.obj * 2 ^ 40 + 32 * i
  let s := (s.portCheck l.ctx a none .write).1
  (((((s.homeWant a 32 true).tearRange a 32).pwrite (l.at_ i) 32 bits).cleanSectors a 32).allocL2 a 32 false l.ctx).touch a 32

/-- An event is recorded: it takes the next number, and it is dropped and counted when the present log has no room (R470). -/
def State.logErr (s : State) (srck srci cls code adr ctx : Nat) (ctx2 : Option Nat) (detail : Nat) : State :=
  let l := s.mg.log
  let r : LogRec := ⟨l.next, s.tick, srck, srci, cls, code, adr, ctx, ctx2, detail⟩
  let put := fun (s : State) (l : ErrLog) => { s with mg := { s.mg with log := l } }
  let i := l.next - l.first
  if l.obj = 0 then
    if i < 2048 then put s { l with boot := l.boot ++ [r], committed := l.committed + 1, next := l.next + 1 }
    else (put s { l with next := l.next + 1 }).count 12 0 1 1
  else if 32 * i + 32 ≤ l.size then
    put (s.logPut l i r.bits) { l with committed := l.committed + 1, next := l.next + 1 }
  else (put s { l with next := l.next + 1 }).count 12 0 1 1

/-! ## Poisoned sectors (R416, R417) -/

/-- A sector number: global address ÷ 128. -/
def State.poisonedSector (s : State) (a : Nat) : Bool := (s.slice (homeSlice (lineOf a))).poisonSec.contains (a / 128)

/-- Sectors of a dirty line are found uncorrectable as they are written back (R417): they are poisoned, and the OWNER's later accesses to the page fail.
`ctx` is the context that translated the line, `evict` that of the access that evicts it. -/
def State.poisonBack (s : State) (l dirty ctx evict : Nat) : State :=
  let k := homeSlice l
  let x := s.slice k
  let secs := (((List.range 2).filter fun i => fld dirty i 1 == 1).map (2 * l + ·)).filter fun q => !x.poisonSec.contains q
  let s := (s.setSlice k { x with poisonSec := x.poisonSec ++ secs }).count 8 k 8 secs.length
  let n := l / 2 ^ 32
  let page := l % 2 ^ 32 / 256
  let has := fun (c : Nat) => (s.ctx c).tbl && objValid (s.ctx c) (s.objRaw c n)
  let own := if has ctx then oOwner (s.objRaw ctx n) else match s.ctxs.find? fun c => has c.1 with
    | some c => oOwner (s.objRaw c.1 n)
    | none => 0
  let x := s.slice k
  if x.poison.contains (own, n, page) then s.logErr 1 k 1 2 (256 * l) own (some evict) 0
  else if 1024 ≤ x.poison.length then s.logErr 1 k 1 3 (256 * l) own (some evict) 0
  else (s.setSlice k { x with poison := x.poison ++ [(own, n, page)] }).logErr 1 k 1 2 (256 * l) own (some evict) 0

/-! ## Data behind a translated access -/

/-- `n` bytes at a translated address: the package's memory, or the lines it holds of a peer's (R405, log entry 9). -/
def State.dread (s : State) (mt adr pa n : Nat) : Nat := if mt = 2 then mread s.link.peerMem adr n else mread s.mem pa n

/-- `n` bytes written at a translated address. -/
def State.dwrite (s : State) (mt adr pa n v : Nat) : State :=
  (if mt = 2 then { s with link := { s.link with peerMem := mwrite s.link.peerMem adr n v } }
    else (s.pwrite pa n v).cleanSectors adr n).touch adr n

end Sys2Proof.Machine
end

