-- ==== Sys2Proof/Machine/Bar.lean ====
section
/-! DEFINITION. Scratchpads, the course window and barrier objects (spec/07 R216, spec/09 R282 to R293). -/

namespace Sys2Proof.Machine

/-! ## Scratchpad -/

/-- `n` bytes of a block's scratchpad. -/
def State.sread (s : State) (b a n : Nat) : Nat := mread (s.blk b).scr a n

/-- `n` bytes written to a block's scratchpad: marked words lose their marks (R396) and monitors read again (R296). -/
def State.swrite (s : State) (b a n v : Nat) : State :=
  let x := s.blk b
  (s.setBlk b
    { x with
      scr := mwrite x.scr a n v
      marked := x.marked.filter fun w => !(decide (a < w + 4) && decide (w < a + n)) }).touchScr b a n

/-- Some word of `n` bytes at `a` is marked uncorrectable (R396). -/
def Block.markedAt (x : Block) (a n : Nat) : Bool := x.marked.any fun w => decide (a < w + 4) && decide (w < a + n)

/-! ## The course window (R142, R216) -/

/-- The rank that a window address names from a block of rank `k` (R216). -/
def windowRank (k w : Nat) : Nat :=
  let half := if fld w 23 1 = 1 then 1 - k / 4 % 2 else k / 4 % 2
  4 * half + fld w 21 2

/-- Offset of a window address (R216). -/
def windowOff (w : Nat) : Nat := w % 2 ^ 21

/-- The block of a rank of a block's course. -/
def State.peer (s : State) (b rank : Nat) : Nat := ((s.crs (s.blk b).course).blocks).getD rank s.blocks.length

/-- A target block's scratchpad is gone: released while its die works, or lost with its die (R216, R293). -/
def State.peerGone (s : State) (b : Nat) : Bool := (s.blk b).st == .released || (s.blk b).st == .lost

/-- Latency class of a window access (R299). -/
def State.windowClass (s : State) (b t : Nat) : Nat :=
  if (s.crs (s.blk b).course).seam ∧ (s.blk b).rank / 4 ≠ (s.blk t).rank / 4 then 3 else 2

/-! ## Barrier objects (R282 to R287) -/

/-- A barrier's words: REM, BAL, PHASE, ARR0, BYT0, STAT (R282). -/
structure Bar where
  rem : Nat
  bal : Nat
  phase : Nat
  arr0 : Nat
  byt0 : Nat
  stat : Nat
  deriving DecidableEq, Repr

/-- The barrier at an offset of a block's scratchpad. -/
def State.bar (s : State) (b off : Nat) : Bar :=
  ⟨s.sread b off 4, s.sread b (off + 4) 4, s.sread b (off + 8) 4, s.sread b (off + 12) 4, s.sread b (off + 16) 4,
    s.sread b (off + 20) 4⟩

/-- A barrier's words written, whole (R284); reserved bits of STAT are written as zero (R6, R283). -/
def State.setBar (s : State) (b off : Nat) (x : Bar) : State :=
  let k := s.blk b
  (s.setBlk b { k with bars := if k.bars.contains off then k.bars else k.bars ++ [off] }).swrite b off 24 (x.rem % 2 ^ 32 + 2 ^ 32 * (x.bal % 2 ^ 32) + 2 ^ 64 * (x.phase % 2 ^ 32) + 2 ^ 96 * (x.arr0 % 2 ^ 32)
    + 2 ^ 128 * (x.byt0 % 2 ^ 32) + 2 ^ 160 * (fld x.stat 0 3 + 256 * fld x.stat 8 2))

/-- BROKEN (R283). -/
def Bar.broken (x : Bar) : Bool := fld x.stat 0 1 == 1
/-- INIT (R283). -/
def Bar.init (x : Bar) : Bool := fld x.stat 1 1 == 1
/-- COURSE (R283). -/
def Bar.course (x : Bar) : Bool := fld x.stat 2 1 == 1
/-- H0 (R283). -/
def Bar.h0 (x : Bar) : Bool := fld x.stat 8 1 == 1

/-- Groups that wait in BARWAIT on a barrier. -/
def State.waitersOn (s : State) (b off : Nat) : List Nat :=
  (List.range s.groups.length).filter fun g =>
    match (s.grp g).phase with
    | .waiting _ (.barrier b' o _) => b' == b && o == off
    | _ => false

/-- Every group that waits on a barrier is to be woken (R177, R286). -/
def State.wakeBar (s : State) (b off : Nat) : State := (s.waitersOn b off).foldl (fun s g => s.push (.waitEventWake g)) s

/-- bar_complete, but for the held updates (R286). -/
def State.barComplete (s : State) (b off : Nat) : State :=
  let x := s.bar b off
  let x' := { x with phase := x.phase + 1, rem := x.arr0, bal := x.byt0, stat := bitClr (bitClr x.stat 8) 9 }
  ((s.setBar b off x').count 3 (s.blk b).core 2 1).wakeBar b off

/-- bar_check (R286): a seam barrier begins its half-phases (R287). -/
def State.barCheck (s : State) (b off : Nat) : State :=
  let x := s.bar b off
  if x.init ∧ x.rem = 0 ∧ x.bal = 0 then
    if x.course ∧ (s.crs (s.blk b).course).seam then
      (s.setBar b off { x with stat := bitSet x.stat 8 }).push (.seamCompletionMessage b off)
    else s.barComplete b off
  else s

/-- An update is held until the phase completes (R287). -/
def State.holdBar (s : State) (b : Nat) (h : HeldBar) : State :=
  let x := s.blk b
  (s.setBlk b { x with held := x.held ++ [h] }).count 3 x.core 3 1

/-- bar_apply (R286): `da` arrivals and `db` bytes, both modulo 2^32, for a command `op` that is complete when it is applied. -/
def State.barApply (s : State) (b off da db : Nat) (op : Option Nat) : State :=
  let x := s.bar b off
  if x.broken then s
  else if x.h0 then s.holdBar b ⟨off, false, da, db, false, op⟩
  else
    (s.setBar b off { x with rem := x.rem + 2 ^ 32 - da % 2 ^ 32, bal := x.bal + 2 ^ 32 - db % 2 ^ 32 }).barCheck b off

/-- BARINIT at its barrier (R288). -/
def State.barInit (s : State) (b off arr byt : Nat) (win : Bool) : State :=
  let x := s.bar b off
  if x.broken then s
  else if x.h0 then s.holdBar b ⟨off, true, arr, byt, win, none⟩
  else if !x.init then
    let st := bitSet x.stat 1
    (s.setBar b off
      { x with rem := x.rem + arr, bal := x.bal + byt, arr0 := arr, byt0 := byt, stat := if win then bitSet st 2 else st }).barCheck
      b off
  else s.setBar b off { x with arr0 := arr, byt0 := byt }

/-- A barrier has been reached through the course window (R289). -/
def State.barCourse (s : State) (b off : Nat) : State :=
  let x := s.bar b off
  if x.course ∨ x.broken then s else s.setBar b off { x with stat := bitSet x.stat 2 }

/-- Held updates are applied in arrival order (R286, R287). -/
def State.barRelease (s : State) (b off : Nat) : State :=
  let hs := (s.blk b).held.filter fun h => h.off == off
  let s := s.setBlk b { s.blk b with held := (s.blk b).held.filter fun h => h.off != off }
  hs.foldl (fun s h => if h.init then s.barInit b off h.da h.db h.win else s.barApply b off h.da h.db h.op) s

/-- A command's update is held at its barrier (R274, R287). -/
def State.heldAt (s : State) (b o : Nat) : Bool := (s.blk b).held.any fun h => h.op == some o

/-- The phase of a barrier is beyond n (R290). -/
def Bar.beyond (x : Bar) (n : Nat) : Bool :=
  let d := (x.phase + 2 ^ 32 - n % 2 ^ 32) % 2 ^ 32
  decide (1 ≤ d) && decide (d < 2 ^ 31)

/-- bar_addr (R285): the target block and offset, or the cause and value of the trap. TVALHI is 1 for misaligned. -/
def State.barAddr (s : State) (g x : Nat) : Except (Nat × Nat × Nat) (Nat × Nat) :=
  let b := (s.grp g).blk
  let win := fld x 31 1 == 1
  let off := if win then windowOff x else fld x 0 24
  let rank := if win then windowRank (s.blk b).rank (fld x 0 24) else (s.blk b).rank
  if fld x 24 7 ≠ 0 then .error (0x01, (s.grp g).word.toNat, 0)
  else if (s.glch g).lr.bpc ≤ rank ∨ (s.glch g).scr < off + 32 then .error (0x06, x, 0)
  else if off % 32 ≠ 0 then .error (0x05, x, 1)
  else .ok (if win then s.peer b rank else b, off)

/-- A barrier becomes broken: its waiters wake (R293). -/
def State.breakBar (s : State) (b off : Nat) : State :=
  let x := s.bar b off
  if x.broken then s
  else ((s.setBar b off { x with stat := bitSet x.stat 0 }).count 3 (s.blk b).core 4 1).wakeBar b off

end Sys2Proof.Machine
end

