-- ==== Sys2Proof/Machine/Flags.lean ====
section
/-! DEFINITION. Conditions (spec/02 R53, spec/08 R250, R255) and the fields of the format register (spec/03 R73). The machine
has no arithmetic flags: comparisons write predicates. -/

namespace Sys2Proof

/-- An integer condition on two words: LT to GE signed, LTU to GEU unsigned (R205, R250). -/
def ICond.holds (c : ICond) (x y : BitVec 32) : Bool :=
  match c with
  | .eq => x == y
  | .ne => x != y
  | .lt => decide (x.toInt < y.toInt)
  | .le => decide (x.toInt ≤ y.toInt)
  | .gt => decide (y.toInt < x.toInt)
  | .ge => decide (y.toInt ≤ x.toInt)
  | .ltu => decide (x.toNat < y.toNat)
  | .leu => decide (x.toNat ≤ y.toNat)
  | .gtu => decide (y.toNat < x.toNat)
  | .geu => decide (y.toNat ≤ x.toNat)

/-- A float condition on how two values compare, none when either is a NaN (R255). -/
def FCond.holds (c : FCond) (r : Option Ordering) : Bool :=
  match c, r with
  | .eq, some o => o == .eq
  | .ne, some o => o != .eq
  | .lt, some o => o == .lt
  | .le, some o => o != .gt
  | .gt, some o => o == .gt
  | .ge, some o => o != .lt
  | .ult, some o => o == .lt
  | .ule, some o => o != .gt
  | .ugt, some o => o == .gt
  | .uge, some o => o != .lt
  | .un, some _ => false
  | .ord, some _ => true
  | .eq, none | .lt, none | .le, none | .gt, none | .ge, none | .ord, none => false
  | .ne, none | .ult, none | .ule, none | .ugt, none | .uge, none | .un, none => true

end Sys2Proof

namespace Sys2Proof.Machine

/-- Format code AF of a format register (R73). -/
def fmtAF (f : Word) : Nat := f.toNat % 16
/-- Format code BF (R73). -/
def fmtBF (f : Word) : Nat := f.toNat / 16 % 16
/-- Codebook slot CSA (R73). -/
def fmtCSA (f : Word) : Nat := f.toNat / 256 % 8
/-- Codebook slot CSB (R73). -/
def fmtCSB (f : Word) : Nat := f.toNat / 2048 % 8
/-- Scale mode SCL (R73). -/
def fmtSCL (f : Word) : Nat := f.toNat / 16384 % 4
/-- Rounding mode RND (R73). -/
def fmtRND (f : Word) : RMode :=
  match f.toNat / 65536 % 4 with
  | 0 => .rne
  | 1 => .rtz
  | 2 => .rdn
  | _ => .rup
/-- Saturation SAT (R73). -/
def fmtSAT (f : Word) : Bool := f.toNat / 262144 % 2 == 1

/-- An FMTS source is legal when its reserved bits [31:19] are zero (R73, R204). -/
def fmtLegal (f : Word) : Bool := f.toNat / 2 ^ 19 == 0

end Sys2Proof.Machine
end

