-- ==== Sys2Proof/Machine/Num.lean ====
section
/-! DEFINITION. Number formats and exact arithmetic (spec/03): values are exact, and each result is rounded once. -/

namespace Sys2Proof.Machine

/-- An exact value: `fin neg m e` is (−1)^neg × m × 2^e, a signed zero when m = 0. -/
inductive Val where
  | nan
  | inf (neg : Bool)
  | fin (neg : Bool) (m : Nat) (e : Int)
  deriving DecidableEq, Repr

/-- A floating-point format (R61, R62): fraction width, bias, encoding of the largest finite magnitude, of infinity where
there is one, of the canonical NaN, and the place of the sign. -/
structure FltFmt where
  w : Nat
  bias : Nat
  maxFin : Nat
  inf : Option Nat
  nan : Nat
  sign : Nat
  deriving DecidableEq, Repr

/-- FP32 (R61). -/
def fp32 : FltFmt := ⟨23, 127, 0x7F7FFFFF, some 0x7F800000, 0x7FC00000, 31⟩
/-- BF16 (R61). -/
def bf16 : FltFmt := ⟨7, 127, 0x7F7F, some 0x7F80, 0x7FC0, 15⟩
/-- FP16 (R61). -/
def fp16 : FltFmt := ⟨10, 15, 0x7BFF, some 0x7C00, 0x7E00, 15⟩
/-- E4M3 (R61). -/
def e4m3 : FltFmt := ⟨3, 7, 0x7E, none, 0x7F, 7⟩
/-- E5M2 (R61). -/
def e5m2 : FltFmt := ⟨2, 15, 0x7B, some 0x7C, 0x7E, 7⟩

namespace FltFmt

/-- Sign bit of an encoding. -/
def neg (F : FltFmt) (x : Nat) : Bool := x / 2 ^ F.sign % 2 == 1

/-- Magnitude bits of an encoding. -/
def mag (F : FltFmt) (x : Nat) : Nat := x % 2 ^ F.sign

/-- Every NaN encoding (R62, R70): beyond infinity, or beyond the largest finite where the format has no infinity. -/
def isNan (F : FltFmt) (x : Nat) : Bool := decide (F.inf.getD F.maxFin < F.mag x)

/-- The value of an encoding (R61, R62). -/
def decode (F : FltFmt) (x : Nat) : Val :=
  let m := F.mag x
  if F.isNan x then .nan
  else if F.inf = some m then .inf (F.neg x)
  else
    let f := m % 2 ^ F.w
    let ex := m / 2 ^ F.w
    if ex = 0 then .fin (F.neg x) f (1 - F.bias - F.w) else .fin (F.neg x) (2 ^ F.w + f) ((ex : Int) - F.bias - F.w)

/-- The sign bit put before a magnitude. -/
def signed (F : FltFmt) (neg : Bool) (m : Nat) : Nat := if neg then 2 ^ F.sign + m else m

/-- The overflow value (R75): infinity becomes the canonical NaN 0x7F in E4M3. -/
def overflow (F : FltFmt) (md : RMode) (neg : Bool) : Nat :=
  let inf := match F.inf with | some i => F.signed neg i | none => F.nan
  match md, neg with
  | .rne, _ => inf
  | .rtz, _ => F.signed neg F.maxFin
  | .rdn, false => F.signed neg F.maxFin
  | .rdn, true => inf
  | .rup, false => inf
  | .rup, true => F.signed neg F.maxFin

end FltFmt

/-- Whether a magnitude k + rem/den is rounded up to k + 1 (R75). -/
def roundUp (md : RMode) (neg : Bool) (k rem den : Nat) : Bool :=
  match md with
  | .rne => decide (den < 2 * rem) || (decide (2 * rem = den) && k % 2 == 1)
  | .rtz => false
  | .rdn => neg && rem != 0
  | .rup => !neg && rem != 0

/-- floor(log2(n / d)) for n, d ≠ 0. -/
def lg2 (n d : Nat) : Int :=
  let k : Int := (Nat.log2 n : Int) - Nat.log2 d
  if n * 2 ^ (-k).toNat < d * 2 ^ k.toNat then k - 1 else k

/-- round_to (R75) of the value (−1)^neg × (n / d) × 2^e, d ≠ 0. -/
def roundTo (F : FltFmt) (neg : Bool) (n d : Nat) (e : Int) (md : RMode) (sat : Bool) : Nat :=
  if n = 0 then F.signed neg 0
  else
    let qmin : Int := 1 - F.bias - F.w
    let q := max (lg2 n d + e - F.w) qmin
    let num := n * 2 ^ (e - q).toNat
    let den := d * 2 ^ (q - e).toNat
    let k := num / den
    let k' := if roundUp md neg k (num % den) den then k + 1 else k
    let y := (q - qmin).toNat * 2 ^ F.w + k'
    if y ≤ F.maxFin then F.signed neg y
    else if sat then F.signed neg F.maxFin
    else F.overflow md neg

namespace Val

/-- Rounding a value, infinities and NaNs included (R70, R75, R76). -/
def round (F : FltFmt) (v : Val) (md : RMode) (sat : Bool) : Nat :=
  match v with
  | .nan => F.nan
  | .inf neg =>
    if sat then F.signed neg F.maxFin
    else match F.inf with | some i => F.signed neg i | none => F.nan
  | .fin neg m e => roundTo F neg m 1 e md sat

/-- The negated value. -/
def negate : Val → Val
  | .nan => .nan
  | .inf n => .inf (!n)
  | .fin n m e => .fin (!n) m e

/-- A value from a signed integer times 2^e; an integer zero is +0 (R72). -/
def ofInt (i : Int) (e : Int) : Val := .fin (decide (i < 0)) i.natAbs e

/-- The exact product; zero times an infinity is a NaN (R72, R80). -/
def mul : Val → Val → Val
  | .nan, _ => .nan
  | _, .nan => .nan
  | .inf a, .inf b => .inf (a ^^ b)
  | .inf a, .fin b m _ => if m = 0 then .nan else .inf (a ^^ b)
  | .fin a m _, .inf b => if m = 0 then .nan else .inf (a ^^ b)
  | .fin a m e, .fin b m' e' => .fin (a ^^ b) (m * m') (e + e')

/-- The signed mantissa of a finite value at the exponent `q` ≤ its own. -/
def scaled (neg : Bool) (m : Nat) (e q : Int) : Int :=
  let x : Int := (m * 2 ^ (e - q).toNat : Nat)
  if neg then -x else x

/-- The exact sum: +0 for an exact zero, but −0 when both operands are −0 (R72). -/
def add : Val → Val → Val
  | .nan, _ => .nan
  | _, .nan => .nan
  | .inf a, .inf b => if a = b then .inf a else .nan
  | .inf a, .fin _ _ _ => .inf a
  | .fin _ _ _, .inf b => .inf b
  | .fin a m e, .fin b m' e' =>
    if m = 0 ∧ m' = 0 then .fin (a && b) 0 0
    else ofInt (scaled a m e (min e e') + scaled b m' e' (min e e')) (min e e')

/-- Division rounded to FP32 (R74): x ÷ ±0 is a signed infinity, 0 ÷ 0 and ∞ ÷ ∞ are NaN. -/
def div32 : Val → Val → Nat
  | .nan, _ => fp32.nan
  | _, .nan => fp32.nan
  | .inf _, .inf _ => fp32.nan
  | .inf a, .fin b _ _ => fp32.signed (a ^^ b) 0x7F800000
  | .fin a _ _, .inf b => fp32.signed (a ^^ b) 0
  | .fin a m e, .fin b m' e' =>
    if m' = 0 then (if m = 0 then fp32.nan else fp32.signed (a ^^ b) 0x7F800000)
    else roundTo fp32 (a ^^ b) m m' (e - e') .rne false

/-- A value rounded to an integer (R76, R257, R260). -/
def roundInt (neg : Bool) (m : Nat) (e : Int) (md : RMode) : Nat :=
  let den := 2 ^ (-e).toNat
  let num := m * 2 ^ e.toNat
  let k := num / den
  if roundUp md neg k (num % den) den then k + 1 else k

/-- A value to an integer of the range lo to hi: NaN gives 0, and a value beyond the range its end (R70, R76, R260). -/
def toInt (v : Val) (md : RMode) (lo hi : Int) : Int :=
  match v with
  | .nan => 0
  | .inf neg => if neg then lo else hi
  | .fin neg m e =>
    let k : Int := roundInt neg m e md
    max lo (min hi (if neg then -k else k))

end Val

/-! ## FP32 operations (R254 to R257) -/

/-- An FP32 word's value. -/
def val32 (x : Word) : Val := fp32.decode x.toNat

/-- A value rounded to an FP32 word under RNE (R74). -/
def word32 (v : Val) : Word := BitVec.ofNat 32 (v.round fp32 .rne false)

/-- The sum in a float format, rounded to nearest even (R74). -/
def faddF (F : FltFmt) (a b : Nat) : Nat := ((F.decode a).add (F.decode b)).round F .rne false

/-- The product in a float format (R74). -/
def fmulF (F : FltFmt) (a b : Nat) : Nat := ((F.decode a).mul (F.decode b)).round F .rne false

/-- a × b + d, rounded once (R74). -/
def ffmaF (F : FltFmt) (a b d : Nat) : Nat := (((F.decode a).mul (F.decode b)).add (F.decode d)).round F .rne false

/-- Place of an encoding in the order in which −0 is below +0 (R254). -/
def FltFmt.key (F : FltFmt) (x : Nat) : Int := if F.neg x then -(F.mag x : Int) - 1 else F.mag x

/-- The lesser, or the greater, of two encodings (R254). -/
def fminmaxF (F : FltFmt) (greater : Bool) (a b : Nat) : Nat :=
  if F.isNan a then (if F.isNan b then F.nan else b)
  else if F.isNan b then a
  else if greater then (if F.key a < F.key b then b else a)
  else if F.key b < F.key a then b else a

/-- How two encodings compare: none when either is a NaN; +0 and −0 are equal (R255). -/
def fcompareF (F : FltFmt) (a b : Nat) : Option Ordering :=
  if F.isNan a || F.isNan b then none
  else
    let k := fun x => if F.neg x then -(F.mag x : Int) else (F.mag x : Int)
    some (compare (k a) (k b))

/-- Rounding to an integral value (R257). -/
def frnd (md : RMode) (x : Word) : Word :=
  match val32 x with
  | .nan => 0x7FC00000
  | .inf _ => x
  | .fin neg m e =>
    if m = 0 ∨ 0 ≤ e then x else BitVec.ofNat 32 (roundTo fp32 neg (Val.roundInt neg m e md) 1 0 .rne false)

/-! ## Correctly rounded functions (R79) -/

/-- floor(√n), bit by bit from bit k. -/
def isqrtFrom (n : Nat) : Nat → Nat → Nat
  | 0, r => if (r + 1) * (r + 1) ≤ n then r + 1 else r
  | k + 1, r => isqrtFrom n k (if (r + 2 ^ (k + 1)) * (r + 2 ^ (k + 1)) ≤ n then r + 2 ^ (k + 1) else r)

/-- floor(√n). -/
def isqrt (n : Nat) : Nat := isqrtFrom n (Nat.log2 n / 2 + 1) 0

/-- FRCP (R79). -/
def frcp (x : Word) : Word :=
  BitVec.ofNat 32
    (match val32 x with
    | .nan => fp32.nan
    | .inf neg => fp32.signed neg 0
    | .fin neg m e => if m = 0 then fp32.signed neg 0x7F800000 else roundTo fp32 neg 1 m (-e) .rne false)

/-- FSQRT (R79): a floor with a sticky bit, 60 bits below the integer. -/
def fsqrt (x : Word) : Word :=
  BitVec.ofNat 32
    (match val32 x with
    | .nan => fp32.nan
    | .inf neg => if neg then fp32.nan else 0x7F800000
    | .fin neg m e =>
      if m = 0 then fp32.signed neg 0
      else if neg then fp32.nan
      else
        let m := if e % 2 = 0 then m else 2 * m
        let n := m * 2 ^ 120
        let r := isqrt n
        roundTo fp32 false (2 * r + if r * r = n then 0 else 1) 1 (e / 2 - 61) .rne false)

/-- FRSQ (R79). -/
def frsq (x : Word) : Word :=
  BitVec.ofNat 32
    (match val32 x with
    | .nan => fp32.nan
    | .inf neg => if neg then fp32.nan else 0
    | .fin neg m e =>
      if m = 0 then fp32.signed neg 0x7F800000
      else if neg then fp32.nan
      else
        let m := if e % 2 = 0 then m else 2 * m
        let r := isqrt (2 ^ 160 / m)
        roundTo fp32 false (2 * r + if r * r * m = 2 ^ 160 then 0 else 1) 1 (-(e / 2) - 81) .rne false)

/-! The other functions are enclosed in an interval of multiples of 2^−400 and rounded when both ends round alike (log entry
13): an interval is a pair of such multiples. -/

/-- Bits below the integer of the fixed-point intervals. -/
def fxP : Nat := 400

/-- One step up from a floor: an upper bound of a truncated quotient. -/
def ceilDiv (a b : Nat) : Nat := (a + b - 1) / b

/-- Σ z^(2j+1)/(2j+1) with signs all + (atanh) or alternating (atan) for z = p/q ≤ 1/3, from the j-th term `t` = z^(2j+1):
sums of the positive and of the negative terms, rounded down. `n` terms are taken. -/
def atanSum (p q : Nat) (alt : Bool) : Nat → Nat → Nat → Nat → Nat → Nat × Nat
  | 0, _, _, ps, ns => (ps, ns)
  | n + 1, j, t, ps, ns =>
    let u := t / (2 * j + 1)
    let t' := t * (p * p) / (q * q)
    if alt && j % 2 == 1 then atanSum p q alt n (j + 1) t' ps (ns + u) else atanSum p q alt n (j + 1) t' (ps + u) ns

/-- atanh(p/q) for p/q ≤ 1/3, or atan(p/q) when `alt`, as an interval: the sums of 140 truncated terms err by less than 2^9
units either way. -/
def atanFx (p q : Nat) (alt : Bool) : Nat × Nat :=
  let (ps, ns) := atanSum p q alt 140 0 (p * 2 ^ fxP / q) 0 0
  (ps - ns - 2 ^ 9, ps - ns + 2 ^ 9)

/-- ln 2 = 2 atanh(1/3), as an interval. -/
def ln2Fx : Nat × Nat := let (l, h) := atanFx 1 3 false; (2 * l, 2 * h)

/-- π = 16 atan(1/5) − 4 atan(1/239), as an interval. -/
def piFx : Nat × Nat :=
  let (l5, h5) := atanFx 1 5 true
  let (l9, h9) := atanFx 1 239 true
  (16 * l5 - 4 * h9, 16 * h5 - 4 * l9)

/-- Σ y^k/k! from the k-th term, rounded down. -/
def expLo (y : Nat) : Nat → Nat → Nat → Nat → Nat
  | 0, _, _, s => s
  | n + 1, k, t, s => expLo y n (k + 1) (t * y / (2 ^ fxP * (k + 1))) (s + t)

/-- Σ y^k/k! from the k-th term, rounded up, with room for the terms left out. -/
def expHi (y : Nat) : Nat → Nat → Nat → Nat → Nat
  | 0, _, t, s => s + 2 * t + 1
  | n + 1, k, t, s => expHi y n (k + 1) (ceilDiv (t * y) (2 ^ fxP * (k + 1))) (s + t)

/-- e^y for an interval of y from 0 to 1. -/
def expFx (y : Nat × Nat) : Nat × Nat := (expLo y.1 110 0 (2 ^ fxP) 0, expHi y.2 110 0 (2 ^ fxP) 0)

/-- The interval squared n times. -/
def sqrFx : Nat → Nat × Nat → Nat × Nat
  | 0, v => v
  | n + 1, v => sqrFx n (v.1 * v.1 / 2 ^ fxP, ceilDiv (v.2 * v.2) (2 ^ fxP))

/-- sin(θ) for an interval of θ from 0 to π/2: the Taylor terms, `y2` being θ², as positive and negative sums. -/
def sinSum (y2 : Nat) (up : Bool) : Nat → Nat → Nat → Nat → Nat → Nat × Nat
  | 0, _, _, ps, ns => (ps, ns)
  | n + 1, k, t, ps, ns =>
    let d := 2 ^ fxP * ((2 * k + 2) * (2 * k + 3))
    let t' := if up then ceilDiv (t * y2) d else t * y2 / d
    if k % 2 = 0 then sinSum y2 up n (k + 1) t' (ps + t) ns else sinSum y2 up n (k + 1) t' ps (ns + t)

/-- sin of an interval of angles from 0 to π/2. -/
def sinFx (y : Nat × Nat) : Nat × Nat :=
  let lo := sinSum (y.1 * y.1 / 2 ^ fxP) false 60 0 y.1 0 0
  let hi := sinSum (ceilDiv (y.2 * y.2) (2 ^ fxP)) true 60 0 y.2 0 0
  (lo.1 - hi.2, hi.1 - lo.2 + 1)

/-- The FP32 rounding of every value of an interval times 2^e, if it is one value. -/
def roundFx (neg : Bool) (v : Nat × Nat) (e : Int) : Option Nat :=
  let a := roundTo fp32 neg v.1 1 (e - fxP) .rne false
  if a = roundTo fp32 neg v.2 1 (e - fxP) .rne false then some a else none

/-- The result of a function, or the open word of Config where the interval does not decide it (log entry 13). -/
def decided (fn : Nat) (x : Word) (r : Option Nat) : Word :=
  match r with
  | some n => BitVec.ofNat 32 n
  | none => Config.undecided fn x

/-- FEXP2 (R79). -/
def fexp2 (x : Word) : Word :=
  match val32 x with
  | .nan => 0x7FC00000
  | .inf neg => if neg then 0 else 0x7F800000
  | .fin neg m e =>
    -- x as an integer part i and a fraction f × 2^−149
    let fx : Int := Val.scaled neg m e (-149)
    let i := fx / 2 ^ 149
    let f := (fx % 2 ^ 149).toNat
    if 128 ≤ i then 0x7F800000
    else if i < -151 then 0
    else if f = 0 then BitVec.ofNat 32 (roundTo fp32 false 1 1 i .rne false)
    else
      let (l, h) := ln2Fx
      decided 3 x (roundFx false (expFx (l * f / 2 ^ 149, ceilDiv (h * f) (2 ^ 149))) i)

/-- FLOG2 (R79). -/
def flog2 (x : Word) : Word :=
  match val32 x with
  | .nan => 0x7FC00000
  | .inf neg => if neg then 0x7FC00000 else 0x7F800000
  | .fin neg m e =>
    if m = 0 then 0xFF800000
    else if neg then 0x7FC00000
    else
      -- x = 2^k × (m / p) with p = 2^log2(m), 1 ≤ m/p < 2
      let k : Int := Nat.log2 m + e
      let p := 2 ^ Nat.log2 m
      if m = p then BitVec.ofNat 32 (roundTo fp32 (decide (k < 0)) k.natAbs 1 0 .rne false)
      else
        let (l, h) := atanFx (m - p) (m + p) false
        let (l2, h2) := ln2Fx
        let lo : Int := k * 2 ^ fxP + (2 * l * 2 ^ fxP / h2 : Nat)
        let hi : Int := k * 2 ^ fxP + (ceilDiv (2 * h * 2 ^ fxP) l2 : Nat)
        if lo < 0 then decided 4 x (roundFx true (hi.natAbs, lo.natAbs) 0) else decided 4 x (roundFx false (lo.toNat, hi.toNat) 0)

/-- sin(πr) for r a multiple of 2^−149 from 0 to 2, given as that multiple: the sign and the interval of the magnitude. -/
def sinpiFx (r : Nat) : Bool × (Nat × Nat) :=
  let one := 2 ^ 149
  let neg := decide (one ≤ r)
  let t := r % one
  let t := if 2 * t ≤ one then t else one - t
  let (l, h) := piFx
  (neg, sinFx (l * t / one, ceilDiv (h * t) one))

/-- FSINPI (R79). -/
def fsinpi (x : Word) : Word :=
  match val32 x with
  | .nan | .inf _ => 0x7FC00000
  | .fin neg m e =>
    let fx := m * 2 ^ (e + 149).toNat
    if fx % 2 ^ 149 = 0 then BitVec.ofNat 32 (fp32.signed neg 0)
    else
      let (sg, v) := sinpiFx (fx % 2 ^ 150)
      decided 5 x (roundFx (neg ^^ sg) v 0)

/-- FCOSPI (R79): cos(πx) = sin(π(x + 1/2)). -/
def fcospi (x : Word) : Word :=
  match val32 x with
  | .nan | .inf _ => 0x7FC00000
  | .fin _ m e =>
    let r := (m * 2 ^ (e + 149).toNat + 2 ^ 148) % 2 ^ 150
    if r % 2 ^ 149 = 0 then 0
    else
      let (sg, v) := sinpiFx r
      decided 6 x (roundFx sg v 0)

/-- FTANH (R79): (E − 1)/(E + 1) with E = e^(2|x|), computed from e^(|x|/32) squared six times; from |x| = 16 on the nearest
value is 1. -/
def ftanh (x : Word) : Word :=
  match val32 x with
  | .nan => 0x7FC00000
  | .inf neg => BitVec.ofNat 32 (fp32.signed neg 0x3F800000)
  | .fin neg m e =>
    let fx := m * 2 ^ (e + 149).toNat
    if fx = 0 then x
    else if 16 * 2 ^ 149 ≤ fx then BitVec.ofNat 32 (fp32.signed neg 0x3F800000)
    else
      let y := fx * 2 ^ (fxP - 154)
      let (l, h) := sqrFx 6 (expFx (y, y))
      let one := 2 ^ fxP
      decided 7 x (roundFx neg ((l - one) * one / (h + one), ceilDiv ((h - one) * one) (l + one)) 0)

/-! ## Narrow formats (R59, R60, R76 to R78) -/

/-- A float format of a code 0 to 3 (R59). -/
def fltOf : Nat → Option FltFmt
  | 0 => some bf16
  | 1 => some fp16
  | 2 => some e4m3
  | 3 => some e5m2
  | _ => none

/-- Element bits of a format code 0 to 7 (R59). -/
def elemBits : Nat → Nat
  | 0 | 1 => 16
  | 2 | 3 | 5 => 8
  | 4 | 6 => 4
  | _ => 32

/-- Sign-extended low bits of a number. -/
def sextBits (n bits : Nat) : Int :=
  let m := n % 2 ^ bits
  if 2 * m < 2 ^ bits then m else (m : Int) - 2 ^ bits

/-- The exact value of an element of a format code; `book` gives the BF16 entries of the codebook slot of a C4 element
(R64, R65, R77). -/
def elemVal (code : Nat) (book : Nat → Nat) (x : Nat) : Val :=
  match fltOf code with
  | some F => F.decode x
  | none =>
    match code with
    | 4 => bf16.decode (book (x % 16))
    | 5 => Val.ofInt (sextBits x 8) 0
    | 6 => Val.ofInt (sextBits x 4) 0
    | _ => fp32.decode x

/-- The value of an E8M0 byte (R63). -/
def e8m0 (x : Nat) : Val := if x % 256 = 255 then .nan else .fin false 1 ((x % 256 : Nat) - 127)

/-- A value as an element of a format a conversion may target (R75, R76): a float format, INT8 or INT4. -/
def toElem (code : Nat) (v : Val) (md : RMode) (sat : Bool) : Nat :=
  match fltOf code with
  | some F => v.round F md sat
  | none =>
    if code = 5 then (v.toInt md (-128) 127 % 256).toNat
    else if code = 6 then (v.toInt md (-8) 7 % 16).toNat
    else v.round fp32 md sat

/-- CVTFC: the E8M0 byte of the least power of two not below the magnitude (R263). -/
def toE8m0 (v : Val) (sat : Bool) : Nat :=
  match v with
  | .nan | .inf _ => 0xFF
  | .fin _ m e =>
    if m = 0 then 0
    else
      let k : Int := if 2 ^ Nat.log2 m = m then Nat.log2 m + e else Nat.log2 m + e + 1
      if k ≤ -127 then 0 else if k ≤ 127 then (127 + k).toNat else if sat then 0xFE else 0xFF

/-! ## The aligned-chunk sum (R80) -/

/-- floor(log2 |z|) of the non-zero finite values, the greatest of them; none when there is none. -/
def maxExp : List Val → Option Int
  | [] => none
  | .fin _ m e :: t =>
    if m = 0 then maxExp t
    else
      match maxExp t with
      | none => some (Nat.log2 m + e)
      | some k => some (max k (Nat.log2 m + e))
  | _ :: t => maxExp t

/-- Sum of trunc(z / 2^q) over the finite values (R80). -/
def truncSum (q : Int) : List Val → Int
  | [] => 0
  | .fin neg m e :: t =>
    let k : Int := (m * 2 ^ (e - q).toNat / 2 ^ (q - e).toNat : Nat)
    (if neg then -k else k) + truncSum q t
  | _ :: t => truncSum q t

/-- aligned_chunk (R80). -/
def alignedChunk (ts : List Val) (c : Val) : Nat :=
  let T := ts ++ [c]
  if T.contains .nan || (T.contains (.inf false) && T.contains (.inf true)) then fp32.nan
  else if T.contains (.inf false) then 0x7F800000
  else if T.contains (.inf true) then 0xFF800000
  else
    match maxExp T with
    | none => if T.all fun v => match v with | .fin neg _ _ => neg | _ => false then 0x80000000 else 0
    | some E =>
      let n := truncSum (E - 47) T
      if n = 0 then 0 else roundTo fp32 (decide (n < 0)) n.natAbs 1 (E - 47) .rne false

/-- A list cut into chunks of 32; `n` is at least the number of chunks. -/
def chunks32 {α : Type} : Nat → List α → List (List α)
  | 0, _ => []
  | _, [] => []
  | n + 1, l => l.take 32 :: chunks32 n (l.drop 32)

/-- An operation over its products in chunks of 32, ascending (R81). -/
def chunkSum (ts : List Val) (c : Nat) : Nat :=
  (chunks32 (ts.length / 32 + 1) ts).foldl (fun acc t => alignedChunk t (fp32.decode acc)) c

/-! ## Exact cells (R66 to R68) -/

/-- A bit of a cell. -/
def xcBit (c k : Nat) : Bool := c / 2 ^ k % 2 == 1

/-- A cell from its value and flags NANS, PINF, NINF, OVF; the reserved bits are zero (R66, R67). -/
def xcMake (v : Int) (nan pinf ninf ovf : Bool) : Nat :=
  (v % 2 ^ 496).toNat + 2 ^ 496 * (nan.toNat + 2 * pinf.toNat + 4 * ninf.toNat +
    8 * (ovf || decide (v < -(2 ^ 495)) || decide (2 ^ 495 ≤ v)).toNat)

/-- The signed value of a cell. -/
def xcVal (c : Nat) : Int := sextBits c 496

/-- xc_add (R67). -/
def xcAdd (c : Nat) (x : Word) : Nat :=
  match val32 x with
  | .nan => xcMake (xcVal c) true (xcBit c 497) (xcBit c 498) (xcBit c 499)
  | .inf false => xcMake (xcVal c) (xcBit c 496) true (xcBit c 498) (xcBit c 499)
  | .inf true => xcMake (xcVal c) (xcBit c 496) (xcBit c 497) true (xcBit c 499)
  | .fin neg m e =>
    xcMake (xcVal c + Val.scaled neg m e (-149)) (xcBit c 496) (xcBit c 497) (xcBit c 498) (xcBit c 499)

/-- xc_combine (R67). -/
def xcCombine (c o : Nat) : Nat :=
  xcMake (xcVal c + xcVal o) (xcBit c 496 || xcBit o 496) (xcBit c 497 || xcBit o 497) (xcBit c 498 || xcBit o 498)
    (xcBit c 499 || xcBit o 499)

/-- xc_round (R68). -/
def xcRound (c : Nat) : Word :=
  BitVec.ofNat 32
    (if xcBit c 496 || xcBit c 499 || (xcBit c 497 && xcBit c 498) then fp32.nan
    else if xcBit c 497 then 0x7F800000
    else if xcBit c 498 then 0xFF800000
    else roundTo fp32 (decide (xcVal c < 0)) (xcVal c).natAbs 1 (-149) .rne false)

/-! ## The reduction tree (R84) -/

/-- One level of the tree: neighbours combine, an absent node passes the other through. -/
def treeLevel : List (Option Nat) → List (Option Nat)
  | a :: b :: t =>
    (match a, b with
    | some x, some y => some (faddF fp32 x y)
    | some x, none => some x
    | none, y => y) :: treeLevel t
  | l => l

/-- RDFADD over the 32 leaves (R84). -/
def treeSum (l : List (Option Nat)) : Nat :=
  match treeLevel (treeLevel (treeLevel (treeLevel (treeLevel l)))) with
  | some x :: _ => if fp32.isNan x then fp32.nan else x
  | _ => 0

end Sys2Proof.Machine
end

