-- ==== Sys2Proof/Machine/Access.lean ====
section
/-! DEFINITION. Accesses of a group: the core's checks, the order in which they are performed, far checks with their traps and
parking, and how loads, stores and atomics are performed (spec/04 R91 to R106, spec/07 R215 to R232). -/

namespace Sys2Proof.Machine

/-! ## Kinds of access -/

end Sys2Proof.Machine

namespace Sys2Proof

/-- A store of lanes (R218). -/
def Instr.isStore (i : Instr) : Bool :=
  match i with
  | .st _ _ _ _ _ | .stl _ _ _ _ _ _ | .sts _ _ _ _ _ | .stw _ _ _ _ => true
  | _ => false

/-- The operation of an atomic (R224). -/
def Instr.atomOp (i : Instr) : Option AtomOp :=
  match i with
  | .atom f _ _ _ | .atoma f _ _ _ _ | .atoml f _ _ _ _ | .atomr f _ _ _ _ => some f
  | .atoms f _ _ _ => some f.op
  | _ => none

/-- An access of lanes (R89). -/
def Instr.isAccess (i : Instr) : Bool :=
  i.isLoad || i.isStore || i.atomOp.isSome || (match i with | .discard _ _ | .monarm _ _ _ => true | _ => false)

/-- An access of its own block's scratchpad by offset (R33, R215). -/
def Instr.scratch (i : Instr) : Bool :=
  match i with
  | .lds _ _ _ _ _ | .sts _ _ _ _ _ | .atoms _ _ _ _ => true
  | _ => false

/-- DISCARD (R234). -/
def Instr.isDiscard (i : Instr) : Bool := match i with | .discard _ _ => true | _ => false

/-- An access that writes. -/
def Instr.writes (i : Instr) : Bool :=
  i.isStore || i.atomOp.isSome || i.isDiscard

/-- An access that reads a word for a register or a monitor (R219, R295). -/
def Instr.isRead (i : Instr) : Bool := i.isLoad || (match i with | .monarm _ _ _ => true | _ => false)

/-- A group event that acts once for the group, whatever lanes are active (R91, R234, R295). -/
def Instr.isGroupAccess (i : Instr) : Bool := i.isDiscard || (match i with | .monarm _ _ _ => true | _ => false)

/-- A barrier instruction that is cleared when it reaches its barrier (R292). -/
def Instr.isBar (i : Instr) : Bool := match i with | .bararr _ | .barinit _ | .bartry _ _ _ => true | _ => false

/-- An access of the group in the sense of R89: of lanes, of a barrier, or made by a home agent for it. -/
def Instr.touches (i : Instr) : Bool := i.isAccess || i.isSeq || i.isBar

/-- An access that reads (R96), and an acquire's own read. -/
def Instr.reads (i : Instr) : Bool := i.isRead || i.atomOp.isSome || i.isSeq || i.acquires

/-- An access that writes, and a release's own write (R96). -/
def Instr.changes (i : Instr) : Bool :=
  i.writes || i.releases || (match i with | .barinit _ => true | _ => false) || (i.isSeq && (match i with | .sqlen _ _ | .sqrlen _ _ | .sqmap _ _ _ | .flcnt _ _ => false | _ => true))

/-- Load sizes of the load forms. -/
def Instr.lsize (i : Instr) : LSize :=
  match i with
  | .ld _ z _ _ _ | .lda _ z _ _ _ _ | .lds _ z _ _ _ | .ldw _ z _ _ => z
  | _ => .w

/-- The streaming hint of a load or store (R221). -/
def Instr.hint (i : Instr) : Bool :=
  match i with
  | .ld h _ _ _ _ | .lda h _ _ _ _ _ | .lds h _ _ _ _ | .ldw h _ _ _ | .st h _ _ _ _ | .stl h _ _ _ _ _ | .sts h _ _ _ _
  | .stw h _ _ _ => h
  | _ => false

end Sys2Proof

namespace Sys2Proof.Machine

/-! ## The core's checks (R26, R215 to R217, R241) -/

/-- Rights bits of R25. -/
def rightR : Nat := 1
/-- W (R25). -/
def rightW : Nat := 2
/-- X (R25). -/
def rightX : Nat := 4
/-- A (R25). -/
def rightA : Nat := 8
/-- S (R25). -/
def rightS : Nat := 16
/-- M (R25). -/
def rightM : Nat := 32
/-- D (R25). -/
def rightD : Nat := 64
/-- P (R25). -/
def rightP : Nat := 128

/-- A capability of data or brick-pool kind with every right of the mask (R24, R25, R218). -/
def Cap.allows (c : Cap) (rights : Nat) : Bool := c.obj != 0 && (c.kind == 1 || c.kind == 3) && (c.rights &&& rights) == rights

/-- A trap of one lane. -/
def laneTrap (cause val valhi : Nat) : Trap := ⟨cause, w32 val, w32 valhi, 0, []⟩

/-- One lane's global access, with the core's checks (R215, R217, R241). -/
def globalAcc (c : Cap) (rights size align lane disp : Nat) : Acc :=
  let st :=
    if !c.allows rights then .failed (laneTrap 0x07 disp 0)
    else if c.len < disp + size then .failed (laneTrap 0x06 disp 0)
    else if (c.base + disp) % align ≠ 0 then .failed (laneTrap 0x05 disp 1)
    else .need
  ⟨lane, disp, c.obj * 2 ^ 40 + (c.base + disp) % 2 ^ 40, 0, 0, size, 0, 0, none, st⟩

/-- One lane's access to its own block's scratchpad (R215). -/
def scratchAcc (blk scr size align lane off : Nat) : Acc :=
  let st :=
    if scr < off + size then .failed (laneTrap 0x06 off 0)
    else if off % align ≠ 0 then .failed (laneTrap 0x05 off 1)
    else .ready
  ⟨lane, off, off, 0, 0, size, 0, 0, some blk, st⟩

/-- One lane's access through the course window (R215, R216). -/
def State.windowAcc (s : State) (blk size align lane w : Nat) : Acc :=
  let l := s.lch (s.blk blk).launch
  let rank := windowRank (s.blk blk).rank w
  let st :=
    if w / 2 ^ 24 ≠ 0 ∨ l.lr.bpc ≤ rank ∨ l.scr < windowOff w + size then .failed (laneTrap 0x06 w 0)
    else if windowOff w % align ≠ 0 then .failed (laneTrap 0x05 w 1)
    else .need
  ⟨lane, w, windowOff w, 0, 0, size, 0, 0, some (s.peer blk rank), st⟩

/-- An access failed. -/
def AccSt.failed? : AccSt → Option Trap
  | .failed t => some t
  | _ => none

/-- A lane of the mask. -/
def inMask (m : Mask) (L : Nat) : Bool := m.getLsbD L

/-! ## Order (R92, R96, R103, R107) -/

/-- Two accesses share a byte. -/
def Acc.meets (a b : Acc) : Bool := a.blk == b.blk && decide (a.adr < b.adr + b.size) && decide (b.adr < a.adr + a.size)

/-- Two operations have accesses that share a byte. -/
def Op.meets (p q : Op) : Bool := p.accs.any fun a => q.accs.any a.meets

/-- An engine command, ordered after the group's earlier accesses when it issues (R107). -/
def Op.isEngine (p : Op) : Bool := match p.instr.cls (Group.empty) with | .eng => true | _ => false

/-- An older operation `q` of number `k` keeps `p` from being performed: an overlap (R92), the marks of order under which `p` issued (R96), an
sc fence (R103), an engine command (R107), clearance (R171), and the order of register space (R118, R222). -/
def Op.blocks (k : Nat) (q p : Op) : Bool :=
  (q.instr.isAccess && p.instr.isAccess && q.meets p) || (q.instr.reads && decide (k < p.acqTo)) ||
    (q.instr.touches && decide (k < p.relTo) && p.instr.changes) || q.instr.fenceSc || (p.isEngine && q.instr.touches) ||
    (p.instr.isLoad && q.stage == .issued) || (q.instr.isAccess && p.accs.any fun a => a.blk.isNone && a.mt == 3)

/-- Every older operation of the group lets operation `o` be performed (log entry 7). -/
def State.mayPerform (s : State) (o : Nat) : Bool :=
  let p := s.op o
  (s.opsOf p.gid).all fun e => !decide (e.1 < o) || !e.2.blocks e.1 p

/-- The word a group stands at, of instruction `i`, could be performed at once: no older operation keeps it from it. -/
def State.actsNow (s : State) (g : Nat) (i : Instr) : Bool :=
  (s.opsOf g).all fun e => !e.2.blocks e.1 ((s.grp g).newOp g i)

/-- An operation that turns out to be no acquire orders nothing: what comes after it keeps the marks of order from before it (R161, R162,
R291). -/
def State.noAcquire (s : State) (o : Nat) : State :=
  let p := s.op o
  let low := fun (n : Nat) => if n = o + 1 then p.acqTo else n
  let x := s.grp p.gid
  let s := s.setGrp p.gid { x with acqTo := low x.acqTo }
  { s with ops := s.ops.map fun e => if e.2.gid = p.gid then (e.1, { e.2 with acqTo := low e.2.acqTo }) else e }

/-! ## Performing -/

/-- A lane's bytes as they stand; a lane that reads a dead page gets zero (R409). -/
def State.accRead (s : State) (a : Acc) : Nat :=
  match a.st, a.blk with
  | .zero, _ => 0
  | _, some b => s.sread b a.adr a.size
  | _, none => s.dread a.mt a.adr a.pa a.size

/-- A lane's bytes are written where its access lands; to the host and to device registers as requests (R118, R222, R452). -/
def State.accWrite (s : State) (a : Acc) (v : Nat) : State :=
  match a.blk with
  | some b => s.swrite b a.adr a.size v
  | none =>
    if a.mt = 1 ∨ a.mt = 3 then s.pcie (.memWrite a.pa ((toBytes a.size v).zipIdx.map fun e => (a.pa + e.2, BitVec.ofNat 8 e.1)))
    else s.dwrite a.mt a.adr a.pa a.size v

/-- A store or near atomic of a core lands in its L1 when the line is held there in E or M: the sector is dirty (R29, R220), and the page of a
line that was held in E is marked at its port before (R408, R412). -/
def State.dirtyLine (s : State) (core : Nat) (a : Acc) : State :=
  let l := lineOf a.adr
  let x := s.line core 0 l
  if a.blk.isNone && x.writeHit then
    let s := if x.st = .E then s.noteWrite x.ctx a.adr else s
    s.setLine core 0 l { x with st := .M, dirty := bitSet x.dirty (a.adr / 128 % 2), valid := bitSet x.valid (a.adr / 128 % 2) }
  else s

/-- Sectors `d` of a line of package `home` leave for it without a copy staying in this package (R221, R441). -/
def State.sendHome (s : State) (core l ctx tag d home : Nat) : State :=
  let s := s.cores.foldl
    (fun s e => (List.range 4).foldl
      (fun s a => let x := s.line e.1 a l; if x.st = .I then s else s.setLine e.1 a l { CLine.none with pending := if x.pending = 0 then 0 else bitSet x.pending 3 }) s) s
  s.push (.wb { slabMsg core 0 l tag ctx (match s.slabIndex home (l / 16) with | some p => portRouter p + 1 | none => 0) with
    dirty := slabDirty l d, evict := ctx })

/-- A store's bytes are written; with the streaming hint they go to the home slice when L1 does not own the line, as the first candidate for
eviction there (R221). -/
def State.storeLane (s : State) (core ctx : Nat) (hint : Bool) (a : Acc) : State :=
  let l := lineOf a.adr
  if hint && a.blk.isNone && a.mt == 0 && !(s.line core 0 l).writeHit then
    (((s.homeWant a.adr a.size true).tearLine l).accWrite a a.data).fillL2 l (a.adr / 128 % 2) true true ctx
  else if hint && a.blk.isNone && a.mt == 2 && !(s.line core 0 l).writeHit then
    (s.accWrite a a.data).sendHome core l ctx 0 (bitSet (s.dirtyOn l) (a.adr / 128 % 2)) (a.pa / 65536 % 4)
  else (s.accWrite a a.data).dirtyLine core a

/-- Sectors that the lanes of one store cover whole are poisoned no longer (R416). -/
def State.coverSectors (s : State) (as : List Acc) : State :=
  (as.map fun a => a.adr / 128).eraseDups.foldl
    (fun s q =>
      if as.any (fun a => a.blk.isSome) then s
      else if (List.range 128).all fun i => as.any fun a => decide (a.adr ≤ 128 * q + i) && decide (128 * q + i < a.adr + a.size)
      then s.cleanSectors (128 * q) 128 else s)
    s

/-- The bytes of a store, each with its address, zero bytes among them; a later lane's byte replaces an earlier one's. -/
def putBytes (m : List Host.Cell) (a : Nat) : List Nat → List Host.Cell
  | [] => m
  | b :: t => putBytes (tins m a (BitVec.ofNat 8 b)) (a + 1) t

/-- The cells of a store to the host that fall in one 128-byte sector leave as one request (R452). -/
def State.hostStore (s : State) (as : List Acc) : State :=
  ((as.map fun a => a.pa / 128).eraseDups).foldl
    (fun s q =>
      s.pcie (.memWrite (128 * q)
        (as.foldl
          (fun m a => if a.pa / 128 = q then putBytes m a.pa (toBytes a.size a.data) else m) [])))
    s

/-- A store's lanes are performed in ascending lane order (R93, R220). -/
def State.performStore (s : State) (core ctx : Nat) (hint : Bool) (as : List Acc) : State :=
  let host := as.filter fun a => a.blk == none && a.mt == 1
  let rest := as.filter fun a => !(a.blk == none && a.mt == 1)
  let s := rest.foldl (fun s a => s.storeLane core ctx hint a) s
  (if host = [] then s else s.hostStore host).coverSectors rest

end Sys2Proof.Machine

namespace Sys2Proof

open Machine

/-- An atomic's new value and returned value (R225). -/
def AtomOp.apply (f : AtomOp) (old x y : Nat) : Nat × Nat :=
  let o : Word := w32 old
  let v : Word := w32 x
  match f with
  | .add => ((o + v).toNat, old)
  | .min => ((if o.toInt ≤ v.toInt then o else v).toNat, old)
  | .max => ((if o.toInt ≤ v.toInt then v else o).toNat, old)
  | .minu => (Nat.min old x, old)
  | .maxu => (Nat.max old x, old)
  | .and => (old &&& x, old)
  | .or => (old ||| x, old)
  | .xor => (old ^^^ x, old)
  | .exch => (x, old)
  | .cas => (if old = x then y else old, old)
  | .fadd => (faddF fp32 old x, old)
  | .xadd => (xcAdd old v, (xcRound old).toNat)
  | .addw => ((old + x) % 2 ^ 64, old)
  | .casw => (if old = x then y else old, old)

end Sys2Proof

namespace Sys2Proof.Machine

/-- One lane's atomic is applied where its access lands (R226): its returned value is kept. -/
def State.performAtom (s : State) (core : Nat) (f : AtomOp) (a : Acc) : State × Acc :=
  let r := f.apply (s.accRead a) a.data a.data2
  ((s.accWrite a r.1).dirtyLine core a, { a with st := .done r.2 })

/-- A lane's access is over: it has its value, or its response was lost after it was applied (0x0F, R420). -/
def Acc.over (a : Acc) : Bool := match a.st with | .done _ => true | .failed t => t.cause == 0x0F | _ => false

/-- A lane's access can be performed, or is over. -/
def Acc.atHand (a : Acc) : Bool := a.st == .ready || a.st == .zero || a.over

/-- A lane's access can still be refused, so it is not cleared (R170): a store whose far check has passed is, and so is a host atomic that has taken its
line's lock (R423); a read is when its data are at hand, since they may fail (R228). -/
def Acc.waits (i : Instr) (a : Acc) : Bool :=
  match a.st with
  | .need => true
  | .sent => !(i.atomOp.isSome && a.mt == 1)
  | .clear => !i.isStore
  | _ => false

end Sys2Proof.Machine

namespace Sys2Proof

open Machine

/-- Word `k` of a loaded value, extended by its size (R217). -/
def LSize.word (z : LSize) (v k : Nat) : Word :=
  match z with
  | .b => BitVec.ofInt 32 (sextBits v 8)
  | .bz => w32 (v % 256)
  | .h => BitVec.ofInt 32 (sextBits v 16)
  | .hz => w32 (v % 65536)
  | _ => w32 (v / 2 ^ (32 * k))

end Sys2Proof

namespace Sys2Proof.Machine

/-- Word `k` of an operation's value for its destination registers. -/
def Op.word (p : Op) (v k : Nat) : Word :=
  match p.instr.atomOp with
  | some _ => w32 (v / 2 ^ (32 * k))
  | none => LSize.word p.instr.lsize v k

/-- The values that lanes have received go to an operation's destination: each lane's own, or the lowest active launch lane's
(R44, R219, R226). -/
def State.writeBack (s : State) (o : Nat) (as : List Acc) : State :=
  let p := s.op o
  let put := fun (g : Group) (a : Acc) =>
    match a.st with
    | .done v =>
      (p.dest.zipIdx).foldl
        (fun g r =>
          match r.1 with
          | .lane n => g.setPhys n a.lane (p.word v r.2)
          | .uni n => if (lanesOf p.mask).head? = some a.lane then g.setUni n (p.word v r.2) else g
          | _ => g)
        g
    | _ => g
  s.setGrp p.gid (as.foldl put (s.grp p.gid))

/-- The lanes of an operation whose lines are ready are performed now, ascending: loads read, stores write, near atomics are
applied. -/
def State.performReady (s : State) (o : Nat) : State :=
  let p := s.op o
  let core := (s.gblk p.gid).core
  let rd := p.accs.filter fun a => a.st == .ready
  match p.instr.atomOp with
  | some f =>
    let (s, as) := p.accs.foldl
      (fun r a => if a.st = .ready then (let (s', a') := r.1.performAtom core f a; (s', r.2 ++ [a'])) else (r.1, r.2 ++ [a])) (s, [])
    s.setOp o { p with accs := as }
  | none =>
    if p.instr.isStore then
      (s.performStore core (s.glch p.gid).ctx p.instr.hint rd).setOp o { p with accs := p.accs.map fun a => if a.st = .ready then { a with st := .done 0 } else a }
    else
      s.setOp o { p with accs := p.accs.map fun a => if a.st = .ready ∨ a.st = .zero then { a with st := .done (s.accRead a) } else a }

/-- An operation is over, and a group parked on it or held by it issues on (R117, R231). -/
def State.completeOp (s : State) (o : Nat) : State :=
  let p := s.op o
  let s := s.endOp o
  match (s.grp p.gid).phase with
  | .parked i k | .held i k => if k = o then s.setGrp p.gid ((s.grp p.gid).after i) else s
  | _ => s

/-! ## Settling: fences and stores that nothing older holds back -/

/-- A lane is unfinished when its group parks (R229): its page is not present, or it had not returned from a page on which another lane's
access was not present, so that lanes of one page park together. An atomic that is applied, and a read of a device register that has been sent, are not
made twice. -/
def unfinished (i : Instr) (as : List Acc) (a : Acc) : Bool :=
  a.st == .page ||
    ((match a.st with
        | .failed _ => false
        | .done _ => i.isRead && a.mt != 3
        | .sent => a.mt != 3
        | _ => true) && a.blk.isNone && as.any fun b => b.st == .page && b.adr / 65536 == a.adr / 65536)

/-- When no access of an operation still waits for its check or its answer, its far checks are reported (R170): those that will park with a page do not
count. -/
def State.reportOp (s : State) (o : Nat) : State :=
  let p := s.op o
  if p.accs.any fun a => a.waits p.instr && !unfinished p.instr p.accs a then s else s.push (.farCheckReport o)

/-- A command is the next of its copy or matrix queue. -/
def State.atHead (s : State) (o : Nat) : Bool :=
  let p := s.op o
  let c := s.core (s.gblk p.gid).core
  c.cq.any (fun e => e.2.head? == some o) || (tget [] c.matq p.gid).head? == some o

/-- The commands of a copy or matrix queue up to and including a command. -/
def State.upTo (s : State) (o : Nat) : List Nat :=
  let p := s.op o
  let c := s.core (s.gblk p.gid).core
  match (tget [] c.matq p.gid :: c.cq.map (·.2)).find? fun q => q.contains o with
  | some q => q.takeWhile (· != o) ++ [o]
  | none => []

/-- The agent of a command holds a line exclusively. -/
def State.holdsLine (s : State) (o l : Nat) : Bool :=
  let p := s.op o
  match p.instr.agent with
  | some k => (s.line (s.gblk p.gid).core k l).writeHit
  | none => false

/-- A command that was issued before `o` holds a line that `o` is to write and does not hold. -/
def State.outranked (s : State) (o : Nat) : Bool :=
  (s.op o).owns.any fun l => !s.holdsLine o l && s.ops.any fun e => decide (e.1 < o) && e.2.owns.contains l && s.holdsLine e.1 l

/-- A command of the copy or matrix engine keeps the lines it owns until it has written them (R108, R435): not while it, or one before it in its queue,
waits for older accesses of its group, for a page, or for lines of a command that was issued before it (log entry 54). -/
def State.keeps (s : State) (o : Nat) : Bool :=
  s.upTo o != [] && (s.upTo o).all fun k =>
    s.mayPerform k && !s.outranked k && (match (s.op k).stage with | .page _ _ => false | _ => true)

/-- Some line of a range is owned by a command, of those below number `rank` when it is given, that keeps it: its recall waits (R108, R435). -/
def State.engineKeeps (s : State) (a n : Nat) (rank : Option Nat) : Bool :=
  s.ops.any fun e =>
    (e.2.owns.any fun l => decide (a < 256 * l + 256) && decide (256 * l < a + n) && s.holdsLine e.1 l) &&
      (match rank with | some r => decide (e.1 < r) | none => true) && s.keeps e.1

/-- A recall by a party that is no engine waits. -/
def State.engineIn (s : State) (a n : Nat) : Bool := s.engineKeeps a n none

/-- The oldest command of a copy or matrix engine, as which it asks for lines. -/
def State.engineRank (s : State) (core agent : Nat) : Option Nat :=
  if agent = 1 ∨ agent = 2 then
    (s.ops.find? fun e => e.2.instr.agent == some agent && (s.gblk e.2.gid).core == core && s.upTo e.1 != []).map (·.1)
  else none

/-- Lines of an operation's accesses that still need their far check. -/
def needLines (as : List Acc) : List Nat :=
  ((as.filter fun a => a.st == .need && a.blk.isNone).map fun a => lineOf a.adr).eraseDups

/-- Lanes that `pick` chooses are checked again at their ports (R231). -/
def State.recheck (s : State) (o : Nat) (pick : Acc → Bool) : State :=
  let p := s.op o
  let as := p.accs.map fun a => if pick a then { a with st := AccSt.need } else a
  (needLines (as.filter fun a => p.accs.any fun b => b.lane == a.lane && pick b)).foldl (fun s l => s.push (.portCheck o l))
    (s.setOp o { p with accs := as, stage := .issued })

/-- DISCARD is performed (R234): each present page of the range loses its trees and copies without write-back, and X is set in its
page entry. What the group issued after it, and was translated before, is translated again (R92). -/
def State.performDiscard (s : State) (o : Nat) : State :=
  let p := s.op o
  let c := (s.glch p.gid).ctx
  let n := p.cap1.obj
  let s := (List.range (p.ps.getD 1 0)).foldl
    (fun s k =>
      let page := p.ps.getD 0 0 + k
      let a := oPmap (s.objRaw c n) + 8 * page
      let e := mread s.mem a 8
      if (s.aliasRegion c n).isSome ∨ fld e 0 1 = 0 then s
      else
        let g := n * 2 ^ 40 + 65536 * page
        let s := ((s.tearRange g 65536).dropL2 g 65536).putEntry c a (bitSet e 3)
        (s.dropPages c n page).touch g 65536)
    s
  let lo := n * 2 ^ 40 + 65536 * p.ps.getD 0 0
  let in_ := fun (a : Acc) =>
    a.blk.isNone && decide (lo ≤ a.adr) && decide (a.adr < lo + 65536 * p.ps.getD 1 0) && (a.st == .ready || a.st == .clear)
  let s := (s.opsOf p.gid).foldl (fun s e => if o < e.1 ∧ e.2.instr.isAccess ∧ e.2.accs.any in_ then s.recheck e.1 in_ else s) s
  s.completeOp o

/-- Slabs of this package's lines in a range that peers hold (R429, R441). -/
def State.exportedIn (s : State) (a n : Nat) : List Nat :=
  (s.fab.tree.filterMap fun e =>
    let k := e.1 % 2 ^ 56
    if e.1 / 2 ^ 56 % 2 = 1 ∧ e.2.pkg ≠ 0 ∧ a < 4096 * k + 4096 ∧ 4096 * k < a + n then some k else none).eraseDups

/-- The root of a line in a range serves a request for its ownership (R435). -/
def State.servedIn (s : State) (a n : Nat) : Bool := s.fab.roots.any fun e => decide (a < 256 * e.1 + 256) && decide (256 * e.1 < a + n) && e.2 != []

/-- A fence whose earlier accesses are done (R103): it is over, or an sc fence waits for its tick (R105). -/
def State.settleFence (s : State) (o : Nat) (p : Op) : State :=
  let older := (s.opsOf p.gid).filter fun e => decide (e.1 < o) && e.2.instr.touches
  match p.instr, p.stage with
  | .fence .sc k, .cleared =>
    if older = [] then
      s.setOp o { p with stage := .tick (match k with | .system => 8 * (s.tick / 8 + 2) | _ => s.tick + 2) }
    else s
  | .fence .sc _, _ => s
  | .fence .acq _, _ => if older.any fun e => e.2.instr.reads then s else s.endOp o
  | .fence _ _, _ => if older = [] then s.endOp o else s
  | _, _ => s

/-! ## Lines of the host (R423) -/

/-- Lines of the host that lanes still to be performed or asked for name. -/
def hostLines (as : List Acc) : List Nat := ((as.filter fun a => a.blk.isNone && a.mt == 1 && a.st == .ready).map fun a => a.pa / 256).eraseDups

/-- The accesses at a host line, in order of arrival: an atomic in progress first (R423). An access that is over, or was discarded, is there no
more. Numbers below 32 are lanes, 32 is a store or a write of an engine, and those beyond are reads of an engine. -/
def State.hostAt (s : State) (line : Nat) : List (Nat × Nat) :=
  (tget [] s.link.locks line).filter fun e =>
    match tfind s.ops e.1 with
    | some p => decide (32 ≤ e.2) || p.accs.any fun a => a.lane == e.2 && (a.st == .need || a.st == .sent || a.st == .clear)
    | none => false

/-- They become `q`. -/
def State.setHostAt (s : State) (line : Nat) (q : List (Nat × Nat)) : State :=
  { s with link := { s.link with locks := tset [] s.link.locks line q } }

/-- It is the turn of an access at a host line: no atomic holds it, and no earlier access waits for it. -/
def State.hostTurn (s : State) (o k line : Nat) : Bool :=
  match s.hostAt line with
  | [] => true
  | e :: _ => e == (o, k)

/-- An access waits for its turn at a host line. -/
def State.queueHost (s : State) (o k line : Nat) : State :=
  let q := s.hostAt line
  if q.contains (o, k) then s else s.setHostAt line (q ++ [(o, k)])

/-- An access has had its turn at a host line, and the next one's comes. -/
def State.hostPass (s : State) (o k line : Nat) : State :=
  match s.hostAt line with
  | e :: t => if e = (o, k) then s.setHostAt line t else s
  | [] => s

/-- Some host line of a frame is at an atomic (R423): its bytes are not written meanwhile. -/
def State.frameLocked (s : State) (pa : Nat) : Bool :=
  s.link.locks.any fun e => e.1 / 256 == pa / 65536 && s.hostAt e.1 != []

/-- The lanes of a store have their turn at every host line they write; if not, the store waits there. -/
def State.storeTurn (s : State) (o : Nat) (as : List Acc) : State × Bool :=
  let ls := hostLines as
  if ls.all (s.hostTurn o 32) then (s, true) else (ls.foldl (fun s l => s.queueHost o 32 l) s, false)

/-- A store to the host has been performed: its lines are the next access's. -/
def State.storePassed (s : State) (o : Nat) (as : List Acc) : State := (hostLines as).foldl (fun s l => s.hostPass o 32 l) s

/-- Loads younger than operation `o` that have issued are discarded (R171). -/
def State.discardYounger (s : State) (g o : Nat) : State :=
  ((s.opsOf g).filter fun e => decide (o < e.1) && e.2.instr.isLoad).foldl (fun s e => s.endOp e.1) s

/-- A precise trap at the word of operation `o`, which leaves its flag (R19, R188). -/
def State.trapOp (s : State) (o : Nat) (t : Trap) : State :=
  let p := s.op o
  let s := (s.discardYounger p.gid o).endOp o
  match (s.grp p.gid).phase with
  | .stopped | .exited => s
  | _ => s.takeTrap p.gid t (p.clause.at p.idx) p.clause false

/-- An operation is over unless its update is held at barrier block `b`: then it is over when the update is applied (R274, R289). -/
def State.overUnlessHeld (s : State) (o b : Nat) (fin : State → State) : State :=
  if s.heldAt b o then s.setOp o { s.op o with stage := .parts 3 } else fin s

/-- Peer retired for a barrier instruction in flight, whose address word follows `k` values (R292). -/
def State.barPeer (s : State) (o : Nat) (p : Op) (k : Nat) : Option State :=
  if s.peerGone (p.ps.getD 0 0) then some (s.trapOp o ⟨0x0C, w32 (p.ps.getD k 0), 0, p.mask, []⟩) else none

/-- A barrier arrival reaches its barrier: `ps` holds the target block, the offset, the bytes declared and the address word (R289, R292). One that declares
bytes is complete when it is applied. -/
def State.settleBar (s : State) (o : Nat) (p : Op) : State :=
  let b := p.ps.getD 0 0
  (s.barPeer o p 3).getD <|
    (s.barApply b (p.ps.getD 1 0) 1 (2 ^ 32 - p.ps.getD 2 0) (if p.ps.getD 2 0 = 0 then none else some o)).overUnlessHeld o b fun s => s.completeOp o

/-- A BARINIT reaches its barrier: `ps` holds the target block, the offset, the counts, the window bit and the address word (R288, R292). -/
def State.settleInit (s : State) (o : Nat) (p : Op) : State :=
  (s.barPeer o p 5).getD <|
    (s.barInit (p.ps.getD 0 0) (p.ps.getD 1 0) (p.ps.getD 2 0) (p.ps.getD 3 0) (p.ps.getD 4 0 == 1)).completeOp o

/-- What BARTRY answers at a barrier for phase n: 2 broken, 1 when the phase is beyond n, else 0 (R291). -/
def Bar.tried (x : Bar) (n : Nat) : Nat := if x.broken then 2 else if x.beyond n then 1 else 0

/-- A BARTRY reaches its barrier: `ps` holds the target block, the offset, the phase and the address word (R291, R292). -/
def State.settleTry (s : State) (o : Nat) (p : Op) (strict : Bool) : State :=
  let b := p.ps.getD 0 0
  let v := (s.bar b (p.ps.getD 1 0)).tried (p.ps.getD 2 0)
  let w := w32 (p.ps.getD 3 0)
  (s.barPeer o p 3).getD <|
  if v = 2 ∧ strict then s.trapOp o ⟨0x0D, w, 0, p.mask, []⟩
  else
    let s := if v = 1 then s else s.noAcquire o
    (s.setGrp p.gid ((s.grp p.gid).putsAll p.dest p.mask p.helpers [w32 v])).completeOp o

/-- A store or near atomic found its line in E or M, and the line has left those states since (R220, R418). -/
def State.lineGone (s : State) (o : Nat) (a : Acc) : Bool :=
  let p := s.op o
  a.st == .ready && a.blk.isNone && (a.mt == 0 || a.mt == 2) && !(p.instr.hint && p.instr.isStore) && !p.instr.isDiscard &&
    !(s.line (s.gblk p.gid).core 0 (lineOf a.adr)).writeHit

/-- Ownership of such lines is asked for again; the port marks their pages as it does for a store that takes a line of its own (R408, R412). -/
def State.reown (s : State) (o : Nat) : State :=
  let p := s.op o
  let core := (s.gblk p.gid).core
  let ctx := (s.glch p.gid).ctx
  let gone := p.accs.filter (s.lineGone o)
  let s := s.setOp o { p with accs := p.accs.map fun a => if s.lineGone o a then { a with st := .clear } else a }
  gone.foldl
    (fun s a =>
      if a.mt = 2 then (s.sendSlab core 0 (lineOf a.adr) a.pa ctx (s.tagOf p.gid) true false).getD s
      else ((s.noteWrite ctx a.adr).sendXREQ core 0 (lineOf a.adr) (s.tagOf p.gid)).noteFill core 0 a.adr a.pa 0 ctx 1 false) s

/-- A store that nothing holds back is performed (R220). -/
def State.settleStore (s : State) (o : Nat) (p : Op) : State :=
  if p.accs.all fun a => a.st == .ready then
    match s.storeTurn o p.accs with
    | (s, true) => ((s.performReady o).completeOp o).storePassed o p.accs
    | (s, false) => s.pushNew (.farCheckReport o)
  else s

/-- One operation is taken as far as it goes by itself: a fence, a store, or near atomics whose lines are ready. -/
def State.settleOp (s : State) (o : Nat) : State :=
  match tfind s.ops o with
  | none => s
  | some p =>
    if p.instr.fenceAcq || p.instr.fenceRel then s.settleFence o p
    else if (p.stage == .cleared || (p.stage == .issued && p.instr.isBar)) && s.mayPerform o then
      if p.accs.any (s.lineGone o) then s.reown o
      else if p.accs.any (fun a => match a.st with | .failed t => t.cause != 0x0F | _ => false) then s.pushNew (.farCheckReport o)
      else if p.instr.isStore then s.settleStore o p
      else if p.instr.atomOp.isSome then
        let s := s.performReady o
        if (s.op o).accs.all Acc.over && !p.accs.all Acc.over then s.push (.atomicReturn o) else s
      else
        match p.instr with
        | .bararr _ => s.settleBar o p
        | .barinit _ => s.settleInit o p
        | .bartry _ _ x => s.settleTry o p x
        | .discard _ _ =>
          if p.accs.any fun a => s.engineIn a.adr a.size || s.exportedIn a.adr a.size != [] || s.servedIn a.adr a.size then s.pushNew (.farCheckReport o) else s.performDiscard o
        | _ => s
    else s

/-- Every operation in flight is settled, oldest first, `n` times over. -/
def State.settle (s : State) : Nat → State
  | 0 => s
  | n + 1 => State.settle (s.ops.foldl (fun s e => s.settleOp e.1) s) n

/-! ## Far checks (R170, R171, R188, R229 to R232) -/

/-- The causes that a lane's access can have, in their order of priority (R241, R378). -/
def causeOrder : List Nat := [0x01, 0x07, 0x11, 0x06, 0x05, 0x0C, 0x08, 0x09, 0x0A, 0x0E, 0x0B, 0x1C, 0x1B]

/-- The trap that the failing lanes of an operation make together with the lanes in `pages` (R188, R232). DESIGN CHOICE: TLANE of those is 0 (log
entry 58). -/
def failTrap (fs : List (Nat × Nat × Trap)) (pages : List Nat) : Trap :=
  let cause := (causeOrder.find? fun c => fs.any fun f => f.2.2.cause == c).getD 0
  let t := match fs.find? fun f => f.2.2.cause == cause with | some f => f.2.2 | none => laneTrap 0 0 0
  { t with
    mask := maskList (fs.map (·.1) ++ pages)
    lanes := fs.foldl (fun m f => tset 0 m f.1 (w32 f.2.1)) [] }

/-- The lanes of an atomic that was applied and whose responses were lost (R420). -/
def lostLanes (as : List Acc) : List Acc := as.filter fun a => match a.st with | .failed t => t.cause == 0x0F | _ => false

/-- A trap with the values of R228 for a global address. -/
def portTrap (cause adr : Nat) (m : Mask) : Trap :=
  ⟨cause, w32 adr, w32 (adr % 2 ^ 40 / 2 ^ 32 + 256 * (adr / 2 ^ 40)), m, []⟩

/-- The deferred trap of lost responses (R191, R228, R420). -/
def lostTrap (as : List Acc) : Trap :=
  match as with
  | [] => laneTrap 0x0F 0 0
  | a :: _ => { portTrap 0x0F a.adr (maskList (as.map (·.lane))) with lanes := as.foldl (fun m a => tset 0 m a.lane (w32 a.disp)) [] }

/-- Lost responses are counted, each at its home, and make one deferred trap (R191, R420, R426). -/
def State.deferLost (s : State) (g : Nat) (as : List Acc) : State :=
  match lostLanes as with
  | [] => s
  | a :: t => ((a :: t).foldl (fun s b => s.count 8 (homeSlice (lineOf b.adr)) 7 1) s).deferTrap g (lostTrap (a :: t))

/-- The lanes that passed are performed, those that are unfinished are left (R188, R229). -/
def State.performPassed (s : State) (o : Nat) (keep : Acc → Bool) : State :=
  let as := (s.op o).accs
  let go := fun (a : Acc) => if keep a then { a with st := .page } else if a.st = .clear then { a with st := .ready } else a
  let s := (s.setOp o { s.op o with accs := as.map go }).performReady o
  (s.writeBack o (s.op o).accs).storePassed o (as.map go)

/-- Every far check of operation `o` has reported (FAR_CHECK_REPORT, R170): the failing lanes trap, lanes on a missing page park
the group, or the access is cleared. The lanes that passed are performed (R188, R229). A helper lane that fails reads zero
(R166). -/
def State.resolveOp (s : State) (o : Nat) : State :=
  let p := s.op o
  let accs := p.accs.map fun a =>
    if inMask p.mask a.lane || p.instr.isGroupAccess then a else match a.st with | .failed _ | .page => { a with st := .done 0 } | _ => a
  let s := s.setOp o { p with accs := accs }
  let fs := accs.filterMap fun a => match a.st with | .failed t => if t.cause = 0x0F then none else some (a.lane, a.disp, t) | _ => none
  let pages := accs.filter (unfinished p.instr accs)
  if accs.any fun a => a.waits p.instr && !unfinished p.instr accs a then s
  else if fs ≠ [] ∨ pages ≠ [] then
    if accs.any fun a => (a.st == .sent || a.st == .clear) && !unfinished p.instr accs a then s
    else if !s.mayPerform o then s.push (.farCheckReport o)
    else if (s.op o).accs.any (s.lineGone o) then s.reown o
    else
      match s.storeTurn o (accs.map fun a => if a.st = .clear then { a with st := .ready } else a) with
      | (s, false) => s.push (.farCheckReport o)
      | (s, true) =>
        let s := s.performPassed o (unfinished p.instr accs)
        if fs ≠ [] then
          let t := failTrap fs (pages.map (·.lane))
          (s.trapOp o (if p.instr.isGroupAccess then { t with mask := p.mask, lanes := [] } else t)).deferLost p.gid accs
        else
          let s := s.discardYounger p.gid o
          let s := s.setOp o { s.op o with accs := pages.map fun a => { a with st := .page }, stage := .issued }
          let x := s.grp p.gid
          let s := s.count 2 (s.gblk p.gid).core 0 1
          match x.phase with
          | .stopped | .exited => s.endOp o
          | _ => ((s.setGrp p.gid { x with clause := p.clause, phase := .parked p.idx o }).deferLost p.gid accs).stopWaiting p.gid
  else
    let s := s.setOp o { s.op o with stage := .cleared }
    if p.instr.isRead then s.push (.loadDataReturn o)
    else if p.instr.atomOp.isSome ∧ accs.all Acc.over then s.push (.atomicReturn o)
    else s.settle 2

end Sys2Proof.Machine
end

