-- ==== Sys2Proof/Machine/Engine.lean ====
section
/-! DEFINITION. How an engine that is no lane reads and writes memory: every piece of a range passes its port, data of host
memory, device registers and peer packages is asked for outside, and a missing page waits for its replay (spec/07 R228, spec/09
R279, spec/14 R405, R406, R413, spec/16 R452; log entries 8 and 9). -/

namespace Sys2Proof

/-- An operation whose reads may be of device registers: a clause fetch, or a walker's reads. -/
def Instr.readsDevices (i : Instr) : Bool := match i with | .nop | .wgo _ | .monclr _ | .launch _ _ _ => true | _ => false

end Sys2Proof

namespace Sys2Proof.Machine

/-- What a read or write of one piece answers. -/
inductive EngRes where
  | val (v : Nat)
  | fail (cause : Nat)
  | missing
  /-- the answer from outside the package is still to come -/
  | wait
  deriving DecidableEq, Repr

/-- What reads or writes of a list of pieces answer: their values, or the index of the first piece that failed. -/
inductive EngAll where
  | vals (l : List Nat)
  | fail (i cause : Nat)
  | missing (i : Nat)
  | wait
  deriving DecidableEq, Repr

/-- The tenant of the object that a global address names (R28). -/
def State.tenantOf (s : State) (c adr : Nat) : Nat := oTenant (s.objRaw c (adr / 2 ^ 40))

/-- A tree entry becomes `x`. -/
def State.setTent (s : State) (router : Nat) (slab : Bool) (key : Nat) (x : TEntry) : State :=
  { s with fab := { s.fab with tree := tset .empty s.fab.tree (treeKey router slab key) x } }

/-! ## The mesh (R427) -/

/-- The neighbour in a direction: 0 N, 1 E, 2 S, 3 W. -/
def nbr (r d : Nat) : Nat := match d with | 0 => r - 32 | 1 => r + 1 | 2 => r + 32 | 3 => r - 1 | _ => r

/-- The opposite direction. -/
def opp (d : Nat) : Nat := if d < 4 then (d + 2) % 4 else 4

/-- Next direction from `r` to `t` by X then Y; 4 when it is there (R431). -/
def toward (r t : Nat) : Nat :=
  if r % 32 < t % 32 then 1 else if t % 32 < r % 32 then 3 else if r / 32 < t / 32 then 2 else if t / 32 < r / 32 then 0 else 4

/-- Next direction from `r` to `t` along the reverse of t's X-then-Y route (R431). -/
def downToward (r t : Nat) : Nat :=
  if r / 32 < t / 32 then 2 else if t / 32 < r / 32 then 0 else if r % 32 < t % 32 then 1 else if t % 32 < r % 32 then 3 else 4

/-- Hops between two routers. -/
def hopsOf (r t : Nat) : Nat := (r % 32 - t % 32) + (t % 32 - r % 32) + (r / 32 - t / 32) + (t / 32 - r / 32)

/-- Lines of a slab. -/
def slabLines (slab : Nat) : List Nat := (List.range 16).map (16 * slab + ·)

/-! ## Copies of a line (R439, R441) -/

namespace State

/-- Cores that list an agent's copy of a line: core and agent. -/
def holdersOf (s : State) (l : Nat) : List (Nat × Nat) :=
  s.cores.flatMap fun e => (List.range 4).filterMap fun a => if (s.line e.1 a l).st = .I then none else some (e.1, a)

/-- Some copy of a line is dirty. -/
def lineDirty (s : State) (l : Nat) : Bool := (s.holdersOf l).any fun w => (s.line w.1 w.2 l).dirty != 0

/-- Every copy of a line but one leaves its cache (R439, R441). -/
def invCopies (s : State) (l : Nat) (spare : Nat × Nat → Bool) : State :=
  let s := ((s.holdersOf l).filter fun w => !spare w).foldl
    (fun s w =>
      let x := s.line w.1 w.2 l
      s.setLine w.1 w.2 l { CLine.none with pending := if x.pending = 0 then 0 else bitSet x.pending 3 })
    s
  s.touch (256 * l) 256

/-- Holders of a line in M go to O and those in E go to S (R441). -/
def shareLine (s : State) (l : Nat) : State :=
  (s.holdersOf l).foldl
    (fun s w =>
      let x := s.line w.1 w.2 l
      match x.st with
      | .M => s.setLine w.1 w.2 l { x with st := .O }
      | .E => s.setLine w.1 w.2 l { x with st := .S }
      | _ => s)
    s

end State

/-! ## Slabs exported to peers (R440, R441) -/

/-- The port whose router is the proxy root of a slab homed elsewhere. -/
def State.proxyPort (s : State) (slab : Nat) : Option Nat := (List.range 12).find? fun p => (s.tent (portRouter p) true slab).pst != 0

/-- No package holds lines of a slab any more: the link agent leaves the trees of its lines (R440, R441). -/
def State.endExport (s : State) (p slab : Nat) : State :=
  (slabLines slab).foldl (fun s l => if (s.line (448 + p) 0 l).st = .I then s else s.dropLine (448 + p) 0 l 0 0) (s.setTent (portRouter p) true slab .empty)

/-- The home slab root's entry becomes `e`; it goes when no package is left (R441). -/
def State.putRoot (s : State) (p slab : Nat) (e : TEntry) : State :=
  if e.pkg = 0 then s.endExport p slab
  else s.setTent (portRouter p) true slab (if e.acks = 0 then { e with st := .stable, own := 0 } else { e with st := .tearing })

/-- A slab root asks packages for a teardown or a downgrade, and waits for their answers; a package without a port that is UP holds
nothing any more (R441, R456). -/
def State.askHolders (s : State) (p slab : Nat) (who : Nat → Bool) (down : Bool) : State :=
  let e := s.tent (portRouter p) true slab
  let m : SlabMsg := ⟨slab, 0, s.link.domPkg, e.ctx, s.tenantOf e.ctx (4096 * slab), false, 0, none, []⟩
  let hs := (List.range 4).filter fun h => fld e.pkg h 1 == 1 && who h
  let (s, e) := hs.foldl
    (fun (r : State × TEntry) h =>
      match r.1.slabPort h slab with
      | some k => (r.1.linkSend k (if down then .slabDowngrade m else .slabTeardown m), { r.2 with acks := bitSet r.2.acks h })
      | none => (r.1, { r.2 with pkg := bitClr r.2.pkg h }))
    (s, { e with acks := 0 })
  s.putRoot p slab e

/-- An access at this package, a write or a read, to a slab that peers hold: the state in which it must wait, none when it may go on
(R441). -/
def State.recall (s : State) (adr : Nat) (write : Bool) : Option State :=
  let slab := adr / 4096
  match s.slabHolder slab with
  | none => none
  | some p =>
    let e := s.tent (portRouter p) true slab
    if e.st = .tearing then some s
    else if write then some (s.askHolders p slab (fun _ => true) false)
    else if e.own = 6 then some (s.askHolders p slab (fun _ => true) true)
    else none

/-- PST of a slab at this package's proxy root toward its home package (R429, R440). -/
def State.slabPst (s : State) (home slab : Nat) : Nat :=
  match s.slabPort home slab with
  | some p => (s.tent (portRouter p) true slab).pst
  | none => 0

/-- Some caching agent of the package owns the line, in M or O (R434, R441). -/
def State.owned (s : State) (l : Nat) : Bool :=
  s.cores.any fun e => (List.range 4).any fun a => (s.line e.1 a l).owner

/-- Dirty sectors of a peer's line are on their way in this package: in a message, or in an entry that collects them. -/
def State.dirtyInMesh (s : State) (l : Nat) : Bool :=
  (s.agenda.any fun e => match e.msg with | some m => m.slab && m.key == l / 16 && fld m.dirty (2 * (l % 16)) 2 != 0 | none => false) ||
    s.fab.tree.any fun e => e.1 % 2 ^ 57 == 2 ^ 56 + l / 16 && fld e.2.dirty (2 * (l % 16)) 2 != 0

/-- A slab message to the home package of a line; none when no port to it is up (R440, R441). -/
def State.askPeer (s : State) (o ctx pa adr : Nat) (excl : Bool) : Option State :=
  match s.slabPort (pa / 65536 % 4) (adr / 4096) with
  | none => none
  | some p =>
    let m : SlabMsg := ⟨adr / 4096, adr / 256 % 16, s.link.domPkg, ctx, s.tenantOf ctx adr, false, o, none, []⟩
    some (s.linkSend p (if excl then .slabExclusive m else .slabRead m))

/-! ## Dead pages of a peer (R409) -/

/-- A slab of the page at a peer's address that this package does not hold exclusively. -/
def State.slabToTake (s : State) (home adr : Nat) : Option Nat :=
  ((List.range 16).map (adr / 65536 * 16 + ·)).find? fun k => s.slabPst home k != 2

/-- The port writes the entry of a dead page of a peer with A and D set and X clear, if it still is the one that was translated (R408, R426). -/
def State.wakeEntry (s : State) (ctx adr : Nat) : State × Bool :=
  let n := adr / 2 ^ 40
  let page := adr % 2 ^ 40 / 65536
  let m := homeSlice (lineOf adr)
  let pmap := oPmap (s.objRaw ctx n)
  let (s, e) := s.portPage m ctx n page pmap
  let s := s.count 8 m 1 1
  if mread s.mem (pmap + 8 * page) 8 ≠ e then (s.dropPage m ctx n page, false)
  else ((s.putEntry ctx (pmap + 8 * page) (bitClr (bitSet (bitSet e 1) 2) 3)).dropPages ctx n page, true)

/-- A dead page of a peer, whose slabs are all exclusive here, gets its first write: every byte of its frame becomes zero, here and at its home
(R409, log entry 53). -/
def State.zeroPeer (s : State) (ctx pa adr : Nat) : State :=
  let first := adr / 65536 * 256
  let s := (List.range 256).foldl
    (fun s i =>
      let l := first + i
      let s := s.invCopies l fun _ => false
      match s.slabPort (pa / 65536 % 4) (l / 16) with
      | some p => s.linkSend p (.slabTeardown ⟨l / 16, l % 16, s.link.domPkg, ctx, s.tenantOf ctx adr, true, 0, none, List.replicate 256 0⟩)
      | none => s) s
  { s with link := { s.link with peerMem := mzero s.link.peerMem (65536 * (adr / 65536)) 65536 } }

/-- Both, when the entry is still the one translated; the flag says so. -/
def State.wakePeer (s : State) (ctx pa adr : Nat) : State × Bool :=
  match s.wakeEntry ctx adr with
  | (s, true) => (s.zeroPeer ctx pa adr, true)
  | (s, false) => (s, false)

/-- A part of operation `o` whose answer comes from outside: it is kept in the operation's accesses, its index being the lane
that the answer names. -/
def State.ask (s : State) (o ctx mt pa adr n : Nat) (excl : Bool) : State × EngRes :=
  let p := s.op o
  let k := p.accs.foldl (fun n a => Nat.max n (a.lane + 1)) 0
  let s' := s.setOp o { p with accs := p.accs ++ [⟨k, 0, adr, pa, mt, n, 0, 0, none, .sent⟩], cls := 7 }
  if mt = 2 then
    match s'.askPeer o ctx pa adr excl with
    | some t => (t, .wait)
    | none => (s, .fail 0x1B)
  else if s.link.hostUp then (s'.pcie (.memRead o k pa n), .wait)
  else (s, .fail 0x1B)

/-- The part of an operation that names `n` bytes at a global address. -/
def Op.part (p : Op) (adr n : Nat) : Option Acc := p.accs.find? fun a => a.adr == adr && a.size == n

/-- What an answered part says. -/
def partRes (a : Acc) : EngRes :=
  match a.st with
  | .done v => .val v
  | .failed t => .fail t.cause
  | _ => .wait

/-- A page for which no report could be made fails the operation's access with page fault (R414): the page is kept in its accesses. -/
def Op.pageFailed (p : Op) (adr : Nat) : Bool := p.accs.any fun a => a.size == 65536 && a.adr / 65536 == adr / 65536

/-- The event that takes an operation up again after a page's replay or an answer from outside. -/
def Op.again (p : Op) (o : Nat) : Event :=
  match p.instr with
  | .cpygs _ _ _ | .cpysg _ _ _ | .cpysw _ _ | .cpygg _ _ _ _ | .cpyx _ _ _ => .copyComplete o
  | .mma _ _ _ _ _ _ | .accz _ | .accld _ _ | .accst _ _ | .accss _ _ | .accxa _ _ _ | .accxr _ _ _ | .acccp _ | .cbld _ _ _
  | .ldsb _ _ _ _ => .matrixCommandComplete o
  | .wset _ _ | .wgo _ | .wstop | .wstat _ | .qpop _ _ => .walkerCommandComplete o
  | .mgmatch _ _ | .mgmerge _ _ | .mgsplit _ | .mgbias _ | .mgpop _ | .mgstat _ _ => .mergeCommandComplete o
  | .pref _ _ => .prefArrival o
  | .nop => .clauseFetch p.gid
  | .monclr _ => .loadDataReturn o
  | .rwri _ _ | .rrd _ _ | .launch _ _ _ => .sequenceAnswer o
  | _ => .farCheckReport o

/-- The physical address and memory type that an access's page names, for an access that passes the checks before it. -/
def State.transOf (s : State) (ctx adr : Nat) (gen : Option Nat) : Option (Nat × Nat) :=
  match s.portCheck ctx adr gen .other with
  | (_, .ok pa mt _ _ _) => some (pa, mt)
  | _ => none

/-- The memory type of such an access. -/
def State.typeOf (s : State) (ctx adr : Nat) (gen : Option Nat) : Option Nat := (s.transOf ctx adr gen).map (·.2)

/-- A write to a dead page of the host, whose frame it must clear first, while an atomic has one of the frame's lines (R409, R423). -/
def State.deadLocked (s : State) (ctx adr : Nat) : Bool :=
  s.deadPage ctx (adr / 2 ^ 40) (adr % 2 ^ 40) && (match s.transOf ctx adr none with | some (pa, 1) => s.frameLocked pa | _ => false)

/-! ## Lines of the copy and matrix engines (R29, R108) -/

/-- The copy or matrix engine of a core takes a line exclusively for a command that writes it, unless it holds it so (R29, R108): none when it
does. -/
def State.takeLine (s : State) (o adr : Nat) : Option State :=
  let p := s.op o
  match p.instr.agent with
  | none => none
  | some k =>
    let core := (s.gblk p.gid).core
    let l := lineOf adr
    let s := if p.owns.contains l then s else s.setOp o { p with owns := p.owns ++ [l] }
    if (s.line core k l).writeHit then none else some (s.sendXREQ core k l (s.tagOf p.gid))

/-- The latency class of an operation rises (R33). -/
def State.raise (s : State) (o k : Nat) : State := s.setOp o { s.op o with cls := Nat.max (s.op o).cls k }

/-- A command's agent joins the tree of a line that the command reads, unless it holds the sector (R29, R340): none when it does. -/
def State.joinLine (s : State) (o ctx adr pa pol : Nat) : Option State :=
  let p := s.op o
  match p.instr.agent with
  | none => none
  | some k =>
    let core := (s.gblk p.gid).core
    let sec := adr / 128 % 2
    if (s.line core k (lineOf adr)).readHit sec then none
    else
      some (((s.raise o (quadClass core (homeSlice (lineOf adr)))).sendRD core k (lineOf adr) sec (s.tagOf p.gid)).noteFill core k adr pa 0 ctx pol false)

/-- A core's copy or matrix engine without a command in flight leaves the trees of its lines, but for those an armed monitor watches (R298,
R437). -/
def State.freeLines (s : State) (core k : Nat) : State :=
  let watched := fun (l : Nat) =>
    k == 1 && (List.range s.groups.length).any fun g =>
      (s.gblk g).core == core &&
        (s.grp g).mons.any fun e => match e.2 with | .armed (.glob _) _ b _ => lineOf b == l | _ => false
  ((s.core core).lines.filter fun e => e.1 % 4 == k && e.2.st != .I && !watched (e.1 / 4)).foldl
    (fun s e => s.dropLine core k (e.1 / 4) e.2.tag e.2.ctx) s

/-- The agent that reads for an operation holds a sector (R29). -/
def State.agentHit (s : State) (o adr : Nat) : Bool :=
  let p := s.op o
  match p.instr.agent with
  | some k => (s.line (s.gblk p.gid).core k (lineOf adr)).readHit (adr / 128 % 2)
  | none => false

/-- An answer without data that a command's agent has had for a line of a peer: its cause, taken once. -/
def State.lineFailed (s : State) (o l : Nat) : Option (State × Nat) :=
  match (s.op o).part (256 * l) 256 with
  | some ⟨k, _, _, _, 2, _, _, _, _, .failed t⟩ =>
    some (s.setOp o { s.op o with accs := (s.op o).accs.filter fun a => a.lane != k || a.size != 256 }, t.cause)
  | _ => none

/-- The agent of an operation asks for a line of a peer, to read it or to own it (R441). -/
def State.askLine (s : State) (o ctx pa adr : Nat) (excl : Bool) : State × EngRes :=
  let p := s.op o
  match s.lineFailed o (lineOf adr) with
  | some (s, c) => (s, .fail c)
  | none =>
    match s.sendSlab (s.gblk p.gid).core (p.instr.agent.getD 0) (lineOf adr) pa ctx (s.tagOf p.gid) excl false with
    | some t => (t.raise o 7, .wait)
    | none => (s, .fail 0x1B)

/-- One read of `n` bytes that lie in one sector (R406, R405, R409, R416); device registers refuse an engine, though neither a
clause fetch nor a walker (R222, R279, R340). -/
def State.engRead (s : State) (o ctx adr n : Nat) (gen : Option Nat) : State × EngRes :=
  match s.portCheck ctx adr gen .read with
  | (s, .fail c) => (s, .fail c)
  | (s, .missing) => (s, if (s.op o).pageFailed adr then .fail 0x0A else .missing)
  | (s, .ok pa mt dead pol _) =>
    if mt = 4 ∨ (mt = 3 ∧ !(s.op o).instr.readsDevices) then (s, .fail 0x07)
    else if dead then (s, .val 0)
    else if mt = 0 then
      if s.poisonedSector adr then (s, .fail 0x0B)
      else
        match s.joinLine o ctx adr pa pol, (if (s.op o).instr.agent.isNone then s.recall adr false else none) with
        | some t, _ => (t, .wait)
        | none, some t => (t.push ((s.op o).again o), .wait)
        | none, none => (s, .val (mread s.mem pa n))
    else
      match (s.op o).part adr n with
      | some a => (s, partRes a)
      | none =>
        if mt = 2 ∧ s.agentHit o adr then (s, .val (s.dread 2 adr pa n))
        else if mt = 2 ∧ (s.op o).instr.agent.isSome then s.askLine o ctx pa adr false
        else if mt = 1 then
          if s.hostTurn o (33 + adr) (pa / 256) then
            match s.ask o ctx mt pa adr n false with
            | (s, r) => (s.hostPass o (33 + adr) (pa / 256), r)
          else ((s.queueHost o (33 + adr) (pa / 256)).push ((s.op o).again o), .wait)
        else s.ask o ctx mt pa adr n false

/-- The engine of a command takes a line of a peer in M (R108, R441). -/
def State.takePeer (s : State) (o ctx pa adr : Nat) : State × EngRes :=
  let p := s.op o
  let l := lineOf adr
  let s := if p.owns.contains l then s else s.setOp o { p with owns := p.owns ++ [l] }
  if p.instr.agent.isNone ∨ s.holdsLine o l then (s, .val 0) else s.askLine o ctx pa adr true

/-- A slab that a write needs is asked for; when the answer came and the slab is gone again, it is asked for once more. -/
def State.ownSlab (s : State) (o ctx pa adr : Nat) : State × EngRes :=
  match (s.op o).part adr 0 with
  | some a =>
    match partRes a with
    | .val _ =>
      (s.setOp o { s.op o with accs := (s.op o).accs.map fun b => if b.lane = a.lane then { b with size := 4096 } else b }).ask o ctx 2 pa adr 0 true
    | r => (s, r)
  | none => s.ask o ctx 2 pa adr 0 true

/-- One piece of a destination is made ready to be written: its port accepts the write, the engine holds its line, and a peer's slab becomes
exclusive (R108, R406, R408, R409, R441). -/
def State.engOwn (s : State) (o ctx adr : Nat) (gen : Option Nat) : State × EngRes :=
  if s.deadLocked ctx adr then (s.push ((s.op o).again o), .wait) else
  match s.portCheck ctx adr gen .write with
  | (s, .fail c) => (s, .fail c)
  | (s, .missing) => (s, if (s.op o).pageFailed adr then .fail 0x0A else .missing)
  | (s, .ok pa mt dead _ _) =>
    if mt = 3 ∨ mt = 4 then (s, .fail 0x07)
    else if mt = 2 then
      let h := pa / 65536 % 4
      if dead then
        match s.slabToTake h adr with
        | some k => s.ownSlab o ctx (pa / 65536 * 65536 + 4096 * (k % 16)) (4096 * k)
        | none =>
          match s.wakePeer ctx pa adr with
          | (s, true) => s.takePeer o ctx pa adr
          | (s, false) => (s.push ((s.op o).again o), .wait)
      else s.takePeer o ctx pa adr
    else if mt = 0 then
      match s.takeLine o adr with
      | some t => (t, .wait)
      | none => (s, .val 0)
    else if s.link.hostUp then (s, .val 0)
    else (s, .fail 0x1B)

/-- A command of the copy or matrix engine takes the lines of device memory that it is to write, and asks for the slabs of a peer's, when it issues
(R29, R108, R441). -/
def State.takeLines (s : State) (o a n : Nat) (gen : Nat) : State :=
  (linesOf a n).foldl
    (fun s l =>
      let ctx := (s.glch (s.op o).gid).ctx
      let adr := Nat.max a (256 * l)
      match s.transOf ctx adr (some gen) with
      | some (_, 0) => (s.takeLine o (256 * l)).getD s
      | some (pa, 2) =>
        if s.deadPage ctx (adr / 2 ^ 40) (adr % 2 ^ 40) then s else (s.takePeer o ctx pa adr).1
      | _ => s)
    s

/-- `n` bytes are written to a piece that `engOwn` made ready: in the line that an engine's agent holds, or at the line's home, whose tree is torn
down first (R30, R108). -/
def State.engPut (s : State) (own : Option (Nat × Nat)) (ctx adr n v : Nat) : State :=
  match s.portCheck ctx adr none .write with
  | (s, .ok pa mt _ pol _) =>
    let atHome := fun (s : State) =>
      if mt = 0 then ((s.homeWant adr n true).tearLine (lineOf adr)).allocL2 adr n (pol == 2) ctx
      else s.sendHome 0 (lineOf adr) ctx 0 (bitSet (s.dirtyOn (lineOf adr)) (adr / 128 % 2)) (pa / 65536 % 4)
    if mt = 1 ∨ mt = 3 then s.pcie (.memWrite pa ((toBytes n v).zipIdx.map fun e => (pa + e.2, BitVec.ofNat 8 e.1)))
    else
      let l := lineOf adr
      match own with
      | some (core, k) =>
        let x := s.line core k l
        if x.writeHit then
          (s.setLine core k l { x with st := .M, mt := mt, pa := pa - adr % 256, ctx := ctx, dirty := bitSet x.dirty (adr / 128 % 2) }).dwrite mt adr pa n v
        else (atHome s).dwrite mt adr pa n v
      | none => (atHome s).dwrite mt adr pa n v
  | (s, _) => s

/-- The bytes of the first `i` pieces. -/
def bytesTo (ps : List (Nat × Nat)) (i : Nat) : Nat := (ps.take i).foldl (fun n p => n + p.2) 0

/-- Pieces of a range, none crossing a sector of 128 bytes: address and length. -/
def pieces (a n : Nat) : List (Nat × Nat) :=
  if n = 0 then []
  else (List.range ((a + n - 1) / 128 - a / 128 + 1)).map fun i =>
    let lo := Nat.max a (128 * (a / 128 + i))
    let hi := Nat.min (a + n) (128 * (a / 128 + i) + 128)
    (lo, hi - lo)

/-- The answer of one more piece joins the answers so far; the first piece that failed decides, and nothing is decided while an
earlier piece waits. -/
def EngAll.join (r : EngAll) (i : Nat) (x : EngRes) : EngAll :=
  match r, x with
  | .vals l, .val v => .vals (l ++ [v])
  | .vals _, .fail c => .fail i c
  | .vals _, .missing => .missing i
  | .vals _, .wait => .wait
  | r, _ => r

/-- No piece has failed yet. -/
def EngAll.open (r : EngAll) : Bool := match r with | .vals _ | .wait => true | _ => false

/-- Every piece is read, up to the first that fails. -/
def State.engReads (s : State) (o ctx : Nat) (gen : Option Nat) (ps : List (Nat × Nat)) : State × EngAll :=
  ps.zipIdx.foldl
    (fun r p => if r.2.open then (let (s, x) := r.1.engRead o ctx p.1.1 p.1.2 gen; (s, r.2.join p.2 x)) else r) (s, .vals [])

/-- Lines of the host among some pieces. -/
def State.hostPieces (s : State) (ctx : Nat) (gen : Option Nat) (ps : List (Nat × Nat)) : List Nat :=
  (ps.filterMap fun p => match s.transOf ctx p.1 gen with | some (pa, 1) => some (pa / 256) | _ => none).eraseDups

/-- Every piece is made ready to be written, up to the first that fails; the write has its turn at every line of the host among them, or waits for it
(R423). -/
def State.engOwns (s : State) (o ctx : Nat) (gen : Option Nat) (ps : List (Nat × Nat)) : State × EngAll :=
  let r := ps.zipIdx.foldl
    (fun r p => if r.2.open then (let (s, x) := r.1.engOwn o ctx p.1.1 gen; (s, r.2.join p.2 x)) else r) (s, .vals [])
  let ls := r.1.hostPieces ctx gen ps
  if r.2 = .wait ∨ ls.all (r.1.hostTurn o 32) then r
  else ((ls.foldl (fun s l => s.queueHost o 32 l) r.1).push ((r.1.op o).again o), .wait)

/-- The bytes of pieces, in order. -/
def pieceBytes (ps : List (Nat × Nat)) (vs : List Nat) : List Nat := (ps.zip vs).flatMap fun e => toBytes e.1.2 e.2

/-- Bytes are written to a range. -/
def State.engPuts (s : State) (own : Option (Nat × Nat)) (ctx a : Nat) (bs : List Nat) : State :=
  ((pieces a bs.length).foldl (fun s p => s.engPut own ctx p.1 p.2 (ofBytes ((bs.drop (p.1 - a)).take p.2))) s).cleanSectors a bs.length

/-! ## Missing pages (R229, R279, R413) -/

/-- A fault report is due for a page (R413): access 0 load, 1 store, 2 atomic, 3 engine read, 4 engine write, 5 walker read. -/
def State.reportPage (s : State) (g adr access : Nat) : State :=
  s.push (.faultReport
    ⟨(s.glch g).ctx, adr / 2 ^ 40, adr % 2 ^ 40 / 65536, access, (s.gblk g).core, (s.grp g).part, homeSlice (lineOf adr)⟩)

/-- The launch of a group asks for replay (R127). -/
def State.replays (s : State) (g : Nat) : Bool := (s.glch g).flag 3

/-- Operation `o` leaves the queues of its core's engines, and the next command of its queue is taken up. -/
def State.unqueue (s : State) (o : Nat) (next : Nat → Event) : State :=
  let core := (s.gblk (s.op o).gid).core
  let c := s.core core
  let heads := (c.cq ++ c.matq).filter fun e => e.2.head? == some o
  let cut := fun (m : SMap (List Nat)) => (m.map fun e => (e.1, e.2.filter (· != o))).filter fun e => e.2 != []
  let s := s.setCore core { c with cq := cut c.cq, matq := cut c.matq, mq := c.mq.filter (· != o) }
  let s := if (s.core core).cq = [] then s.freeLines core 1 else s
  let s := if (s.core core).matq = [] then s.freeLines core 2 else s
  let s := heads.foldl (fun s e => match e.2 with | _ :: n :: _ => s.push (next n) | _ => s) s
  match c.mq with
  | h :: n :: _ => if h = o then s.push (next n) else s
  | _ => s

/-- An engine command fails: it completes without the rest of its effect, and the group takes a deferred trap (R191, R279). -/
def State.engFail (s : State) (o : Nat) (t : Trap) (next : Nat → Event) : State :=
  let p := s.op o
  let s := s.unqueue o next
  (s.completeOp o).deferTrap p.gid t

/-- A page that is not present fails an engine command of a launch without REPLAY like any other far check (R229, R279, R323). -/
def settled (r : State × EngAll) (g : Nat) : State × EngAll :=
  match r.2 with
  | .missing i => if r.1.replays g then r else (r.1, .fail i 0x0A)
  | _ => r

/-- A piece of an engine command met a page that is not present: the command waits for its replay, or fails with page fault
(R279, R413). -/
def State.engPage (s : State) (o adr access : Nat) (next : Nat → Event) : State :=
  let p := s.op o
  if s.replays p.gid then
    (s.setOp o { p with stage := .page (adr / 2 ^ 40) (adr % 2 ^ 40 / 65536) }).reportPage p.gid adr access
  else s.engFail o (portTrap 0x0A adr p.mask) next

end Sys2Proof.Machine
end

