-- ==== Sys2Proof/Machine/Lane.lean ====
section
/-! DEFINITION. The lane instructions: integer, bit, move, FP32, packed, conversion, exchange, vote, reduction, indexing,
hashing and permutation (spec/08). -/

namespace Sys2Proof.Machine

/-! ## Shared operations (R242 to R245) -/

/-- A lane instruction has issued: its destinations stay pending until its fixed latency ends (R20, R243). -/
def State.laneEnd (s : State) (n : Nat) (g' : Group) (rs : List PReg) : State :=
  (s.setGrp n { (g'.addPend (rs.filter PReg.interlocked) g'.nextTok).next with nextTok := g'.nextTok + 1 }).push
    (.fixedLatencyComplete n g'.nextTok)

/-- `k` values to consecutive destination registers, all computed from the group as it stood (R242). -/
def Group.dsts (g : Group) (d : RF) (k : Nat) (v : Nat → Nat → Word) : Group :=
  (List.range k).foldl (fun x j => x.dst d j (v j)) g

/-- A lane instruction that writes `k` registers from `d`: value `v g j L` to register j in lane L. -/
def laneWrite (i : Instr) (s : State) (d : RF) (k : Nat) (v : Group → Nat → Nat → Word) :
    Host.Outcome State Fault Refusal :=
  issueWord i s fun n g => s.laneEnd n (g.dsts d k (v g)) (g.destRegs d k)

/-- A lane instruction of one source. -/
def lane1 (i : Instr) (s : State) (d a : RF) (f : Word → Word) : Host.Outcome State Fault Refusal :=
  laneWrite i s d 1 fun g _ L => f (g.src a 0 L)

/-- A lane instruction of two sources. -/
def lane2 (i : Instr) (s : State) (d a b : RF) (f : Word → Word → Word) : Host.Outcome State Fault Refusal :=
  laneWrite i s d 1 fun g _ L => f (g.src a 0 L) (g.src b 0 L)

/-- A lane instruction that also reads its destination: `f a b d`. -/
def lane3 (i : Instr) (s : State) (d a b : RF) (f : Word → Word → Word → Word) : Host.Outcome State Fault Refusal :=
  laneWrite i s d 1 fun g _ L => f (g.src a 0 L) (g.src b 0 L) (g.src d 0 L)

/-- A lane instruction that writes a lane predicate in the active lanes (R244). -/
def lanePred (i : Instr) (s : State) (p : Fin 8) (t : Group → Nat → Bool) : Host.Outcome State Fault Refusal :=
  issueWord i s fun n g => s.laneEnd n (g.setPred p.val g.act (maskOf (t g))) [.pred p.val]

/-- Register pair k, k + 1 of a field in a lane as a 64-bit value (R253). -/
def Group.pair (g : Group) (f : RF) (L : Nat) : Nat := (g.src f 0 L).toNat + 2 ^ 32 * (g.src f 1 L).toNat

/-- A lane instruction that writes a register pair (R253). -/
def laneWide (i : Instr) (s : State) (d : RF) (v : Group → Nat → Nat) : Host.Outcome State Fault Refusal :=
  laneWrite i s d 2 fun g j L => w32 (v g L / 2 ^ (32 * j))

/-! ## Integer instructions (R246 to R253) -/

/-- A signed value clamped to −2^31 … 2^31 − 1 (R246). -/
def clamp32 (x : Int) : Word := BitVec.ofInt 32 (max (-(2 ^ 31)) (min (2 ^ 31 - 1) x))

/-- IADD (R246). -/
def execIadd (d a b : RF) (s : State) : Host.Outcome State Fault Refusal :=
  lane2 (.iadd d a b) s d a b fun x y => x + y

/-- ISUB (R246). -/
def execIsub (d a b : RF) (s : State) : Host.Outcome State Fault Refusal :=
  lane2 (.isub d a b) s d a b fun x y => x - y

/-- IMIN (R246). -/
def execImin (d a b : RF) (s : State) : Host.Outcome State Fault Refusal :=
  lane2 (.imin d a b) s d a b fun x y => if x.toInt ≤ y.toInt then x else y

/-- IMAX (R246). -/
def execImax (d a b : RF) (s : State) : Host.Outcome State Fault Refusal :=
  lane2 (.imax d a b) s d a b fun x y => if x.toInt ≤ y.toInt then y else x

/-- IMINU (R246). -/
def execIminu (d a b : RF) (s : State) : Host.Outcome State Fault Refusal :=
  lane2 (.iminu d a b) s d a b fun x y => if x.toNat ≤ y.toNat then x else y

/-- IMAXU (R246). -/
def execImaxu (d a b : RF) (s : State) : Host.Outcome State Fault Refusal :=
  lane2 (.imaxu d a b) s d a b fun x y => if x.toNat ≤ y.toNat then y else x

/-- IABSD (R246). -/
def execIabsd (d a b : RF) (s : State) : Host.Outcome State Fault Refusal :=
  lane2 (.iabsd d a b) s d a b fun x y => w32 (x.toInt - y.toInt).natAbs

/-- IADDS (R246). -/
def execIadds (d a b : RF) (s : State) : Host.Outcome State Fault Refusal :=
  lane2 (.iadds d a b) s d a b fun x y => clamp32 (x.toInt + y.toInt)

/-- ISUBS (R246). -/
def execIsubs (d a b : RF) (s : State) : Host.Outcome State Fault Refusal :=
  lane2 (.isubs d a b) s d a b fun x y => clamp32 (x.toInt - y.toInt)

/-- IMUL (R247). -/
def execImul (d a b : RF) (s : State) : Host.Outcome State Fault Refusal :=
  lane2 (.imul d a b) s d a b fun x y => x * y

/-- IMULH (R247). -/
def execImulh (d a b : RF) (s : State) : Host.Outcome State Fault Refusal :=
  lane2 (.imulh d a b) s d a b fun x y => BitVec.ofInt 32 (x.toInt * y.toInt / 2 ^ 32)

/-- IMULHU (R247). -/
def execImulhu (d a b : RF) (s : State) : Host.Outcome State Fault Refusal :=
  lane2 (.imulhu d a b) s d a b fun x y => w32 (x.toNat * y.toNat / 2 ^ 32)

/-- IMAD (R247). -/
def execImad (d a b : RF) (s : State) : Host.Outcome State Fault Refusal :=
  lane3 (.imad d a b) s d a b fun x y z => x * y + z

/-- AND (R248). -/
def execAnd (d a b : RF) (s : State) : Host.Outcome State Fault Refusal :=
  lane2 (.and d a b) s d a b fun x y => x &&& y

/-- OR (R248). -/
def execOr (d a b : RF) (s : State) : Host.Outcome State Fault Refusal :=
  lane2 (.or d a b) s d a b fun x y => x ||| y

/-- XOR (R248). -/
def execXor (d a b : RF) (s : State) : Host.Outcome State Fault Refusal :=
  lane2 (.xor d a b) s d a b fun x y => x ^^^ y

/-- ANDN (R248). -/
def execAndn (d a b : RF) (s : State) : Host.Outcome State Fault Refusal :=
  lane2 (.andn d a b) s d a b fun x y => x &&& ~~~y

/-- ORN (R248). -/
def execOrn (d a b : RF) (s : State) : Host.Outcome State Fault Refusal :=
  lane2 (.orn d a b) s d a b fun x y => x ||| ~~~y

/-- XNOR (R248). -/
def execXnor (d a b : RF) (s : State) : Host.Outcome State Fault Refusal :=
  lane2 (.xnor d a b) s d a b fun x y => ~~~(x ^^^ y)

/-- Shift left by a count; 0 from 32 on (R248). -/
def shl32 (x : Word) (n : Nat) : Word := if 32 ≤ n then 0 else x <<< n

/-- Shift right with zero fill; 0 from 32 on (R248). -/
def shr32 (x : Word) (n : Nat) : Word := if 32 ≤ n then 0 else x >>> n

/-- Shift right with sign fill; every bit the sign from 32 on (R248). -/
def sar32 (x : Word) (n : Nat) : Word := x.sshiftRight (min n 31)

/-- SHL (R248). -/
def execShl (d a b : RF) (s : State) : Host.Outcome State Fault Refusal :=
  lane2 (.shl d a b) s d a b fun x y => shl32 x y.toNat

/-- SHR (R248). -/
def execShr (d a b : RF) (s : State) : Host.Outcome State Fault Refusal :=
  lane2 (.shr d a b) s d a b fun x y => shr32 x y.toNat

/-- SAR (R248). -/
def execSar (d a b : RF) (s : State) : Host.Outcome State Fault Refusal :=
  lane2 (.sar d a b) s d a b fun x y => sar32 x y.toNat

/-- ROL (R248). -/
def execRol (d a b : RF) (s : State) : Host.Outcome State Fault Refusal :=
  lane2 (.rol d a b) s d a b fun x y => x.rotateLeft (y.toNat % 32)

/-- ROR (R248). -/
def execRor (d a b : RF) (s : State) : Host.Outcome State Fault Refusal :=
  lane2 (.ror d a b) s d a b fun x y => x.rotateRight (y.toNat % 32)

/-- Number of one bits among the low `n` bits. -/
def popcount (x : Word) : Nat → Nat
  | 0 => 0
  | n + 1 => (x.getLsbD n).toNat + popcount x n

/-- Leading zero bits of the low `n` bits. -/
def leadingZeros (x : Word) : Nat → Nat
  | 0 => 0
  | n + 1 => if x.getLsbD n then 0 else 1 + leadingZeros x n

/-- Bit i of the result is bit 31 − i of the word (R248). -/
def bitReverse (x : Word) : Word := maskOf fun i => x.getLsbD (31 - i)

/-- Byte `i` of a number. -/
def byteOf (x i : Nat) : Nat := x / 2 ^ (8 * i) % 256

/-- POPC (R248). -/
def execPopc (d a : RF) (s : State) : Host.Outcome State Fault Refusal :=
  lane1 (.popc d a) s d a fun x => w32 (popcount x 32)

/-- CLZ (R248). -/
def execClz (d a : RF) (s : State) : Host.Outcome State Fault Refusal :=
  lane1 (.clz d a) s d a fun x => w32 (leadingZeros x 32)

/-- CTZ (R248). -/
def execCtz (d a : RF) (s : State) : Host.Outcome State Fault Refusal :=
  lane1 (.ctz d a) s d a fun x => w32 (leadingZeros (bitReverse x) 32)

/-- BREV (R248). -/
def execBrev (d a : RF) (s : State) : Host.Outcome State Fault Refusal :=
  lane1 (.brev d a) s d a bitReverse

/-- BSWAP (R248). -/
def execBswap (d a : RF) (s : State) : Host.Outcome State Fault Refusal :=
  lane1 (.bswap d a) s d a fun x => w32 (ofBytes (toBytes 4 x.toNat).reverse)

/-- Position of a bit field: b[4:0] (R249). -/
def fieldPos (b : Word) : Nat := b.toNat % 32

/-- Length of a bit field: min(b[13:8], 32 − pos) (R249). -/
def fieldLen (b : Word) : Nat := min (b.toNat / 256 % 64) (32 - fieldPos b)

/-- BFE (R249). -/
def execBfe (d a b : RF) (s : State) : Host.Outcome State Fault Refusal :=
  lane2 (.bfe d a b) s d a b fun x y => if fieldLen y = 0 then 0 else BitVec.ofInt 32 (sextBits (x.toNat / 2 ^ fieldPos y) (fieldLen y))

/-- BFEU (R249). -/
def execBfeu (d a b : RF) (s : State) : Host.Outcome State Fault Refusal :=
  lane2 (.bfeu d a b) s d a b fun x y => w32 (x.toNat / 2 ^ fieldPos y % 2 ^ fieldLen y)

/-- BFI (R249). -/
def execBfi (d a b : RF) (s : State) : Host.Outcome State Fault Refusal :=
  lane3 (.bfi d a b) s d a b fun x y z =>
    let m : Word := w32 ((2 ^ fieldLen y - 1) * 2 ^ fieldPos y)
    (z &&& ~~~m) ||| ((x <<< fieldPos y) &&& m)

/-- ICMP (R250). -/
def execIcmp (c : ICond) (p : Fin 8) (a b : RF) (s : State) : Host.Outcome State Fault Refusal :=
  lanePred (.icmp c p a b) s p fun g L => c.holds (g.src a 0 L) (g.src b 0 L)

/-- ICMPI (R250). -/
def execIcmpi (p : Fin 8) (a : RF) (c : ICond) (i : BitVec 7) (s : State) : Host.Outcome State Fault Refusal :=
  lanePred (.icmpi p a c i) s p fun g L => c.holds (g.src a 0 L) (i.signExtend 32)

/-- SEL (R251). -/
def execSel (p : Fin 8) (d a b : RF) (s : State) : Host.Outcome State Fault Refusal :=
  laneWrite (.sel p d a b) s d 1 fun g _ L => if (g.pred p.val).getLsbD L then g.src a 0 L else g.src b 0 L

/-- MOV (R251). -/
def execMov (d a : RF) (s : State) : Host.Outcome State Fault Refusal :=
  lane1 (.mov d a) s d a id

/-- PMOV (R251). -/
def execPmov (d : RF) (p : Fin 8) (s : State) : Host.Outcome State Fault Refusal :=
  laneWrite (.pmov d p) s d 1 fun g _ L => if (g.pred p.val).getLsbD L then 1 else 0

/-- MOVP (R251). -/
def execMovp (p : Fin 8) (a : RF) (s : State) : Host.Outcome State Fault Refusal :=
  lanePred (.movp p a) s p fun g L => g.src a 0 L != 0

/-- ADDI (R252). -/
def execAddi (d a : RF) (i : BitVec 11) (s : State) : Host.Outcome State Fault Refusal :=
  lane1 (.addi d a i) s d a fun x => x + i.signExtend 32

/-- ANDI (R252). -/
def execAndi (d a : RF) (i : BitVec 11) (s : State) : Host.Outcome State Fault Refusal :=
  lane1 (.andi d a i) s d a fun x => x &&& i.setWidth 32

/-- ORI (R252). -/
def execOri (d a : RF) (i : BitVec 11) (s : State) : Host.Outcome State Fault Refusal :=
  lane1 (.ori d a i) s d a fun x => x ||| i.setWidth 32

/-- XORI (R252). -/
def execXori (d a : RF) (i : BitVec 11) (s : State) : Host.Outcome State Fault Refusal :=
  lane1 (.xori d a i) s d a fun x => x ^^^ i.setWidth 32

/-- MULI (R252). -/
def execMuli (d a : RF) (i : BitVec 11) (s : State) : Host.Outcome State Fault Refusal :=
  lane1 (.muli d a i) s d a fun x => x * i.signExtend 32

/-- SHLI (R252). -/
def execShli (d a : RF) (n : Fin 32) (s : State) : Host.Outcome State Fault Refusal :=
  lane1 (.shli d a n) s d a fun x => shl32 x n.val

/-- SHRI (R252). -/
def execShri (d a : RF) (n : Fin 32) (s : State) : Host.Outcome State Fault Refusal :=
  lane1 (.shri d a n) s d a fun x => shr32 x n.val

/-- SARI (R252). -/
def execSari (d a : RF) (n : Fin 32) (s : State) : Host.Outcome State Fault Refusal :=
  lane1 (.sari d a n) s d a fun x => sar32 x n.val

/-- MOVI (R252). -/
def execMovi (d : RF) (i : BitVec 18) (s : State) : Host.Outcome State Fault Refusal :=
  laneWrite (.movi d i) s d 1 fun _ _ _ => i.signExtend 32

/-- MOVHI (R252). -/
def execMovhi (d : RF) (i : BitVec 18) (s : State) : Host.Outcome State Fault Refusal :=
  laneWrite (.movhi d i) s d 1 fun g _ L => w32 (i.toNat * 2 ^ 14 + (g.src d 0 L).toNat % 2 ^ 14)

/-- ADDW (R253). -/
def execAddw (d a b : RF) (s : State) : Host.Outcome State Fault Refusal :=
  laneWide (.addw d a b) s d fun g L => (g.pair a L + g.pair b L) % 2 ^ 64

/-- SUBW (R253). -/
def execSubw (d a b : RF) (s : State) : Host.Outcome State Fault Refusal :=
  laneWide (.subw d a b) s d fun g L => (g.pair a L + 2 ^ 64 - g.pair b L) % 2 ^ 64

/-- MULW (R253). -/
def execMulw (d a b : RF) (s : State) : Host.Outcome State Fault Refusal :=
  laneWide (.mulw d a b) s d fun g L => ((g.src a 0 L).toInt * (g.src b 0 L).toInt % 2 ^ 64).toNat

/-- MULWU (R253). -/
def execMulwu (d a b : RF) (s : State) : Host.Outcome State Fault Refusal :=
  laneWide (.mulwu d a b) s d fun g L => (g.src a 0 L).toNat * (g.src b 0 L).toNat

/-- SHLW (R253). -/
def execShlw (d a b : RF) (s : State) : Host.Outcome State Fault Refusal :=
  laneWide (.shlw d a b) s d fun g L => if 64 ≤ (g.src b 0 L).toNat then 0 else g.pair a L * 2 ^ (g.src b 0 L).toNat % 2 ^ 64

/-- SHRW (R253). -/
def execShrw (d a b : RF) (s : State) : Host.Outcome State Fault Refusal :=
  laneWide (.shrw d a b) s d fun g L => if 64 ≤ (g.src b 0 L).toNat then 0 else g.pair a L / 2 ^ (g.src b 0 L).toNat

/-! ## FP32 instructions (R254 to R257) -/

/-- FADD (R254). -/
def execFadd (d a b : RF) (s : State) : Host.Outcome State Fault Refusal :=
  lane2 (.fadd d a b) s d a b fun x y => w32 (faddF fp32 x.toNat y.toNat)

/-- FSUB (R254). -/
def execFsub (d a b : RF) (s : State) : Host.Outcome State Fault Refusal :=
  lane2 (.fsub d a b) s d a b fun x y => word32 ((val32 x).add (val32 y).negate)

/-- FMUL (R254). -/
def execFmul (d a b : RF) (s : State) : Host.Outcome State Fault Refusal :=
  lane2 (.fmul d a b) s d a b fun x y => w32 (fmulF fp32 x.toNat y.toNat)

/-- FFMA (R254). -/
def execFfma (d a b : RF) (s : State) : Host.Outcome State Fault Refusal :=
  lane3 (.ffma d a b) s d a b fun x y z => w32 (ffmaF fp32 x.toNat y.toNat z.toNat)

/-- FFMS (R254). -/
def execFfms (d a b : RF) (s : State) : Host.Outcome State Fault Refusal :=
  lane3 (.ffms d a b) s d a b fun x y z => word32 (((val32 x).mul (val32 y)).add (val32 z).negate)

/-- FMIN (R254). -/
def execFmin (d a b : RF) (s : State) : Host.Outcome State Fault Refusal :=
  lane2 (.fmin d a b) s d a b fun x y => w32 (fminmaxF fp32 false x.toNat y.toNat)

/-- FMAX (R254). -/
def execFmax (d a b : RF) (s : State) : Host.Outcome State Fault Refusal :=
  lane2 (.fmax d a b) s d a b fun x y => w32 (fminmaxF fp32 true x.toNat y.toNat)

/-- FDIV (R254). -/
def execFdiv (d a b : RF) (s : State) : Host.Outcome State Fault Refusal :=
  lane2 (.fdiv d a b) s d a b fun x y => w32 ((val32 x).div32 (val32 y))

/-- A word whose NaNs become the canonical NaN before a sign operation (R254). -/
def unlessNan (x y : Word) : Word := if fp32.isNan x.toNat then 0x7FC00000 else y

/-- FABS (R254). -/
def execFabs (d a : RF) (s : State) : Host.Outcome State Fault Refusal :=
  lane1 (.fabs d a) s d a fun x => unlessNan x (x &&& 0x7FFFFFFF)

/-- FNEG (R254). -/
def execFneg (d a : RF) (s : State) : Host.Outcome State Fault Refusal :=
  lane1 (.fneg d a) s d a fun x => unlessNan x (x ^^^ 0x80000000)

/-- FCPYS (R254). -/
def execFcpys (d a b : RF) (s : State) : Host.Outcome State Fault Refusal :=
  lane2 (.fcpys d a b) s d a b fun x y => unlessNan x ((x &&& 0x7FFFFFFF) ||| (y &&& 0x80000000))

/-- FCMP (R255). -/
def execFcmp (c : FCond) (p : Fin 8) (a b : RF) (s : State) : Host.Outcome State Fault Refusal :=
  lanePred (.fcmp c p a b) s p fun g L =>
    c.holds (fcompareF fp32 (g.src a 0 L).toNat (g.src b 0 L).toNat)

/-- FRCP (R79, R256). -/
def execFrcp (d a : RF) (s : State) : Host.Outcome State Fault Refusal :=
  lane1 (.frcp d a) s d a Sys2Proof.Machine.frcp

/-- FRSQ (R79, R256). -/
def execFrsq (d a : RF) (s : State) : Host.Outcome State Fault Refusal :=
  lane1 (.frsq d a) s d a Sys2Proof.Machine.frsq

/-- FSQRT (R79, R256). -/
def execFsqrt (d a : RF) (s : State) : Host.Outcome State Fault Refusal :=
  lane1 (.fsqrt d a) s d a Sys2Proof.Machine.fsqrt

/-- FEXP2 (R79, R256). -/
def execFexp2 (d a : RF) (s : State) : Host.Outcome State Fault Refusal :=
  lane1 (.fexp2 d a) s d a Sys2Proof.Machine.fexp2

/-- FLOG2 (R79, R256). -/
def execFlog2 (d a : RF) (s : State) : Host.Outcome State Fault Refusal :=
  lane1 (.flog2 d a) s d a Sys2Proof.Machine.flog2

/-- FSINPI (R79, R256). -/
def execFsinpi (d a : RF) (s : State) : Host.Outcome State Fault Refusal :=
  lane1 (.fsinpi d a) s d a Sys2Proof.Machine.fsinpi

/-- FCOSPI (R79, R256). -/
def execFcospi (d a : RF) (s : State) : Host.Outcome State Fault Refusal :=
  lane1 (.fcospi d a) s d a Sys2Proof.Machine.fcospi

/-- FTANH (R79, R256). -/
def execFtanh (d a : RF) (s : State) : Host.Outcome State Fault Refusal :=
  lane1 (.ftanh d a) s d a Sys2Proof.Machine.ftanh

/-- FRNE (R257). -/
def execFrne (d a : RF) (s : State) : Host.Outcome State Fault Refusal :=
  lane1 (.frne d a) s d a (frnd .rne)

/-- FRTZ (R257). -/
def execFrtz (d a : RF) (s : State) : Host.Outcome State Fault Refusal :=
  lane1 (.frtz d a) s d a (frnd .rtz)

/-- FFLR (R257). -/
def execFflr (d a : RF) (s : State) : Host.Outcome State Fault Refusal :=
  lane1 (.fflr d a) s d a (frnd .rdn)

/-- FCEIL (R257). -/
def execFceil (d a : RF) (s : State) : Host.Outcome State Fault Refusal :=
  lane1 (.fceil d a) s d a (frnd .rup)

/-! ## Packed 16-bit instructions (R258) -/

/-- A packed instruction in the format AF, BF16 or FP16; any other AF is format invalid (R258). `f` gives each element from
those of a, b and d. -/
def lanePacked (i : Instr) (s : State) (d a b : RF) (f : FltFmt → Nat → Nat → Nat → Nat) :
    Host.Outcome State Fault Refusal :=
  issueWord i s fun n g =>
    if fmtAF g.fmt < 2 then
      let F := if fmtAF g.fmt = 0 then bf16 else fp16
      let e := fun (r : RF) (L k : Nat) => (g.src r 0 L).toNat / 65536 ^ k % 65536
      s.laneEnd n
        (g.dsts d 1 fun _ L =>
          w32 (f F (e a L 0) (e b L 0) (e d L 0) + 65536 * f F (e a L 1) (e b L 1) (e d L 1)))
        (g.destRegs d 1)
    else s.trapHere n (g.wide 0x17 g.fmt 0)

/-- HADD2 (R258). -/
def execHadd2 (d a b : RF) (s : State) : Host.Outcome State Fault Refusal :=
  lanePacked (.hadd2 d a b) s d a b fun F x y _ => faddF F x y

/-- HMUL2 (R258). -/
def execHmul2 (d a b : RF) (s : State) : Host.Outcome State Fault Refusal :=
  lanePacked (.hmul2 d a b) s d a b fun F x y _ => fmulF F x y

/-- HFMA2 (R258). -/
def execHfma2 (d a b : RF) (s : State) : Host.Outcome State Fault Refusal :=
  lanePacked (.hfma2 d a b) s d a b ffmaF

/-- HMIN2 (R258). -/
def execHmin2 (d a b : RF) (s : State) : Host.Outcome State Fault Refusal :=
  lanePacked (.hmin2 d a b) s d a b fun F x y _ => fminmaxF F false x y

/-- HMAX2 (R258). -/
def execHmax2 (d a b : RF) (s : State) : Host.Outcome State Fault Refusal :=
  lanePacked (.hmax2 d a b) s d a b fun F x y _ => fminmaxF F true x y

/-! ## Conversions (R259 to R263) -/

/-- A conversion that uses the format register: format invalid unless `ok` accepts it (R259). -/
def laneConvert (i : Instr) (s : State) (d : RF) (ok : Word → Bool) (v : Block → Group → Nat → Nat) :
    Host.Outcome State Fault Refusal :=
  issueWord i s fun n g =>
    if ok g.fmt then s.laneEnd n (g.dsts d 1 fun _ L => w32 (v (s.gblk n) g L)) (g.destRegs d 1)
    else s.trapHere n (g.wide 0x17 g.fmt 0)

/-- Element `k` of a register (R60). -/
def elem (code x k : Nat) : Nat := x / 2 ^ (elemBits code * k) % 2 ^ elemBits code

/-- The BF16 entries of a codebook slot (R64). -/
def Block.book (b : Block) (slot e : Nat) : Nat := tget 0 b.books (16 * slot + e)

/-- CVTFI (R260). -/
def execCvtfi (d a : RF) (m : RMode) (s : State) : Host.Outcome State Fault Refusal :=
  lane1 (.cvtfi d a m) s d a fun x => BitVec.ofInt 32 ((val32 x).toInt m (-(2 ^ 31)) (2 ^ 31 - 1))

/-- CVTFU (R260). -/
def execCvtfu (d a : RF) (m : RMode) (s : State) : Host.Outcome State Fault Refusal :=
  lane1 (.cvtfu d a m) s d a fun x => BitVec.ofInt 32 ((val32 x).toInt m 0 (2 ^ 32 - 1))

/-- CVTIF (R259). -/
def execCvtif (d a : RF) (s : State) : Host.Outcome State Fault Refusal :=
  laneWrite (.cvtif d a) s d 1 fun g _ L =>
    w32 ((Val.ofInt (g.src a 0 L).toInt 0).round fp32 (fmtRND g.fmt) false)

/-- CVTUF (R259). -/
def execCvtuf (d a : RF) (s : State) : Host.Outcome State Fault Refusal :=
  laneWrite (.cvtuf d a) s d 1 fun g _ L =>
    w32 ((Val.fin false (g.src a 0 L).toNat 0).round fp32 (fmtRND g.fmt) false)

/-- Two elements of a narrow format side by side, element 0 lowest (R261). -/
def packTwo (code e0 e1 : Nat) : Nat := e0 + 2 ^ elemBits code * e1

/-- CVTFN (R261). -/
def execCvtfn (d a b : RF) (s : State) : Host.Outcome State Fault Refusal :=
  laneConvert (.cvtfn d a b) s d (fun f => fmtAF f ≤ 3 || fmtAF f == 5 || fmtAF f == 6) fun _ g L =>
    let e := fun r => toElem (fmtAF g.fmt) (val32 (g.src r 0 L)) (fmtRND g.fmt) (fmtSAT g.fmt)
    packTwo (fmtAF g.fmt) (e a) (e b)

/-- CVTFNT (R78, R261). -/
def execCvtfnt (d a b : RF) (s : State) : Host.Outcome State Fault Refusal :=
  laneConvert (.cvtfnt d a b) s d (fun f => fmtAF f ≤ 3) fun _ g L =>
    let e := fun r => toElem (fmtAF g.fmt) (val32 (g.src r 0 L)) .rtz (fmtSAT g.fmt)
    packTwo (fmtAF g.fmt) (e a) (e b)

/-- CVTNF (R259). -/
def execCvtnf (d a b : RF) (s : State) : Host.Outcome State Fault Refusal :=
  laneConvert (.cvtnf d a b) s d (fun f => fmtAF f ≤ 6) fun k g L =>
    let c := fmtAF g.fmt
    let i := (g.src b 0 L).toNat % (32 / elemBits c)
    (elemVal c (k.book (fmtCSA g.fmt)) (elem c (g.src a 0 L).toNat i)).round fp32 .rne false

/-- CVTNFH (R262). -/
def execCvtnfh (d a b : RF) (s : State) : Host.Outcome State Fault Refusal :=
  laneConvert (.cvtnfh d a b) s d (fun f => fmtAF f ≤ 6 && decide (fmtBF f ≤ 1)) fun k g L =>
    let c := fmtAF g.fmt
    let F := if fmtBF g.fmt = 0 then bf16 else fp16
    let i := (g.src b 0 L).toNat % (32 / elemBits c / 2)
    let e := fun j => (elemVal c (k.book (fmtCSA g.fmt)) (elem c (g.src a 0 L).toNat (2 * i + j))).round F (fmtRND g.fmt)
      (fmtSAT g.fmt)
    e 0 + 65536 * e 1

/-- CVTFC (R263). -/
def execCvtfc (d a : RF) (s : State) : Host.Outcome State Fault Refusal :=
  laneWrite (.cvtfc d a) s d 1 fun g _ L => w32 (toE8m0 (val32 (g.src a 0 L)) (fmtSAT g.fmt))

/-- CVTCF (R259). -/
def execCvtcf (d a b : RF) (s : State) : Host.Outcome State Fault Refusal :=
  lane2 (.cvtcf d a b) s d a b fun x y => word32 (e8m0 (byteOf x.toNat (y.toNat % 4)))

/-! ## Exchange across lanes (R264 to R268) -/

/-- An exchange: each active lane takes the source lane's present value, active or not (R264). -/
def laneExchange (i : Instr) (s : State) (d a : RF) (srcLane : Group → Nat → Nat) : Host.Outcome State Fault Refusal :=
  laneWrite i s d 1 fun g _ L => g.src a 0 (srcLane g L)

/-- QSWH (R265). -/
def execQswh (d a : RF) (s : State) : Host.Outcome State Fault Refusal :=
  laneExchange (.qswh d a) s d a fun _ L => 4 * (L / 4) + (L % 4 ^^^ 1)

/-- QSWV (R265). -/
def execQswv (d a : RF) (s : State) : Host.Outcome State Fault Refusal :=
  laneExchange (.qswv d a) s d a fun _ L => 4 * (L / 4) + (L % 4 ^^^ 2)

/-- QSWD (R265). -/
def execQswd (d a : RF) (s : State) : Host.Outcome State Fault Refusal :=
  laneExchange (.qswd d a) s d a fun _ L => 4 * (L / 4) + (L % 4 ^^^ 3)

/-- QBC (R265). -/
def execQbc (d a : RF) (n : Fin 4) (s : State) : Host.Outcome State Fault Refusal :=
  laneExchange (.qbc d a n) s d a fun _ L => 4 * (L / 4) + n.val

/-- SHFLI (R266). -/
def execShfli (d a b : RF) (s : State) : Host.Outcome State Fault Refusal :=
  laneExchange (.shfli d a b) s d a fun g L => (g.src b 0 L).toNat % 32

/-- SHFLU (R266). -/
def execShflu (d a b : RF) (s : State) : Host.Outcome State Fault Refusal :=
  laneExchange (.shflu d a b) s d a fun g L => if (g.src b 0 L).toNat ≤ L then L - (g.src b 0 L).toNat else L

/-- SHFLD (R266). -/
def execShfld (d a b : RF) (s : State) : Host.Outcome State Fault Refusal :=
  laneExchange (.shfld d a b) s d a fun g L => if L + (g.src b 0 L).toNat ≤ 31 then L + (g.src b 0 L).toNat else L

/-- SHFLX (R266). -/
def execShflx (d a b : RF) (s : State) : Host.Outcome State Fault Refusal :=
  laneExchange (.shflx d a b) s d a fun g L => L ^^^ (g.src b 0 L).toNat % 32

/-- The present lanes for which a lane predicate, optionally inverted, holds (R267). -/
def Group.votes (g : Group) (n : Bool) (p : Nat) : Mask := g.launchAct &&& (if n then ~~~g.pred p else g.pred p)

/-- VANY (R267). -/
def execVany (q : Fin 8) (n : Bool) (p : Fin 8) (s : State) : Host.Outcome State Fault Refusal :=
  issueWord (.vany q n p) s fun k g =>
    s.laneEnd k (g.setUpred q.val (g.votes n p.val != 0)) [.upred q.val]

/-- VALL (R267). -/
def execVall (q : Fin 8) (n : Bool) (p : Fin 8) (s : State) : Host.Outcome State Fault Refusal :=
  issueWord (.vall q n p) s fun k g =>
    s.laneEnd k (g.setUpred q.val (g.votes n p.val == g.launchAct)) [.upred q.val]

/-- VBAL (R267). -/
def execVbal (d : RF) (n : Bool) (p : Fin 8) (s : State) : Host.Outcome State Fault Refusal :=
  issueWord (.vbal d n p) s fun k g =>
    s.laneEnd k (g.dst d 0 fun _ => g.votes n p.val) (g.destRegs d 1)

/-- A reduction over the present lanes, written to every active lane or to the uniform register (R268). -/
def laneReduce (i : Instr) (s : State) (d a : RF) (f : List Word → Word) : Host.Outcome State Fault Refusal :=
  laneWrite i s d 1 fun g _ _ => f ((lanesOf g.launchAct).map (g.src a 0))

/-- RDADD (R268). -/
def execRdadd (d a : RF) (s : State) : Host.Outcome State Fault Refusal :=
  laneReduce (.rdadd d a) s d a fun l => l.foldl (· + ·) 0

/-- RDMIN (R268). -/
def execRdmin (d a : RF) (s : State) : Host.Outcome State Fault Refusal :=
  laneReduce (.rdmin d a) s d a fun l => l.foldl (fun x y => if x.toInt ≤ y.toInt then x else y) 0x7FFFFFFF

/-- RDMAX (R268). -/
def execRdmax (d a : RF) (s : State) : Host.Outcome State Fault Refusal :=
  laneReduce (.rdmax d a) s d a fun l => l.foldl (fun x y => if x.toInt ≤ y.toInt then y else x) 0x80000000

/-- RDAND (R268). -/
def execRdand (d a : RF) (s : State) : Host.Outcome State Fault Refusal :=
  laneReduce (.rdand d a) s d a fun l => l.foldl (· &&& ·) 0xFFFFFFFF

/-- RDOR (R268). -/
def execRdor (d a : RF) (s : State) : Host.Outcome State Fault Refusal :=
  laneReduce (.rdor d a) s d a fun l => l.foldl (· ||| ·) 0

/-- RDXOR (R268). -/
def execRdxor (d a : RF) (s : State) : Host.Outcome State Fault Refusal :=
  laneReduce (.rdxor d a) s d a fun l => l.foldl (· ^^^ ·) 0

/-- RDFADD (R84, R268). -/
def execRdfadd (d a : RF) (s : State) : Host.Outcome State Fault Refusal :=
  laneWrite (.rdfadd d a) s d 1 fun g _ _ =>
    w32 (treeSum ((List.range 32).map fun L => if g.launchAct.getLsbD L then some (g.src a 0 L).toNat else none))

/-! ## Register indexing (R269, R270) -/

/-- The physical register that lane L of a MOVX names, none when the index fails the test of R269. -/
def Group.movx (g : Group) (a b : RF) (L : Nat) : Option Nat :=
  let r : Int := ((g.wb + b.val : Nat) : Int) + (g.src a 0 L).toInt
  if (g.src a 0 L).toInt < 0 ∨ (g.alloc : Int) ≤ r then none else some r.toNat

/-- The registers that the active lanes' indices name (R270). -/
def Group.movxRegs (g : Group) (a b : RF) : List PReg := ((lanesOf g.act).filterMap (g.movx a b)).map .lane

/-- The trap of a MOVX: instruction-wide when an active launch lane's index fails (R269). -/
def Group.movxTrap (g : Group) (a b : RF) : Option Trap :=
  match (lanesOf g.launchAct).find? fun L => (g.movx a b L).isNone with
  | none => none
  | some L =>
    some ⟨0x04, g.src a 0 L, w32 (g.wb + b.val), g.launchAct,
      (lanesOf g.launchAct).foldl (fun t k => tset 0 t k (g.src a 0 k)) []⟩

/-- MOVXR (R269). -/
def execMovxr (d a b : RF) (s : State) : Host.Outcome State Fault Refusal :=
  issueWord (.movxr d a b) s fun n g =>
    match g.movxTrap a b with
    | some t => s.trapHere n t
    | none =>
      s.laneEnd n (g.dsts d 1 fun _ L => match g.movx a b L with | some r => g.phys r L | none => 0) (g.destRegs d 1)

/-- MOVXW (R269, R270). -/
def execMovxw (d a b : RF) (s : State) : Host.Outcome State Fault Refusal :=
  issueWord (.movxw d a b) s fun n g =>
    match g.movxTrap a b with
    | some t => s.trapHere n t
    | none =>
      s.laneEnd n
        ((lanesOf g.act).foldl
          (fun x L => match g.movx a b L with | some r => x.setPhys r L (g.src d 0 L) | none => x) g)
        (g.movxRegs a b)

/-! ## Hashing and byte permutation (R271, R272) -/

/-- hmix (R271). -/
def hmix (a b : Word) : Word :=
  let x := (a ^^^ b.rotateLeft 16) * 0x9B4F2C35
  let x := x ^^^ (x >>> 15)
  let x := (x + b) * 0x6D2AE58B
  x ^^^ (x >>> 13)

/-- HMIX (R271). -/
def execHmix (d a b : RF) (s : State) : Host.Outcome State Fault Refusal :=
  lane2 (.hmix d a b) s d a b Sys2Proof.Machine.hmix

/-- prmt (R272): `z` is the selector. -/
def prmt (x y z : Word) : Word :=
  w32 (ofBytes ((List.range 4).map fun i =>
    let n := z.toNat / 16 ^ i % 16
    let k := byteOf (x.toNat + 2 ^ 32 * y.toNat) (n % 8)
    if n < 8 then k else if k < 128 then 0 else 255))

/-- PRMT (R272). -/
def execPrmt (d a b : RF) (s : State) : Host.Outcome State Fault Refusal :=
  lane3 (.prmt d a b) s d a b Sys2Proof.Machine.prmt

/-- FIXED_LATENCY_COMPLETE (R243): the registers a lane instruction wrote are no longer pending. -/
def execFixedLatencyComplete (g tok : Nat) (s : State) : Host.Outcome State Fault Refusal :=
  .next (s.setGrp g ((s.grp g).clearPend tok))

end Sys2Proof.Machine
end

