-- ==== Sys2Proof/Machine/Fetch.lean ====
section
/-! DEFINITION. Fetching and accepting clauses, deferred traps, and the active set of a partition (spec/02 R37 to R39, spec/06
R168 to R178, R191). -/

namespace Sys2Proof.Machine

/-! ## Clause fetch (R37) -/

/-- What a fetch of words answers. -/
inductive FetchRes where
  | words (ws : List Nat)
  | trap (t : Trap)
  | missing (adr : Nat)
  | wait
  deriving DecidableEq, Repr

/-- Words of the code object at consecutive offsets: X and bounds first, then the far checks (R37, steps 1 and 2). `o` is the
operation that holds answers from outside. -/
def State.fetchWords (s : State) (g o pc n : Nat) : State × FetchRes :=
  let x := s.grp g
  let l := s.glch g
  let c := l.codeCap
  let m := x.launchAct
  if c.rights &&& rightX = 0 then (s, .trap ⟨0x07, w32 pc, 0, m, []⟩)
  else if c.len < pc + 4 * n then (s, .trap ⟨0x06, w32 (Nat.max pc (c.len / 4 * 4)), 0, m, []⟩)
  else
    let a := c.obj * 2 ^ 40 + c.base + pc
    let ps := pieces a (4 * n)
    match s.engReads o l.ctx (some c.gen) ps with
    | (s, .vals vs) =>
      let bs := pieceBytes ps vs
      (s, .words ((List.range n).map fun k => ofBytes ((bs.drop (4 * k)).take 4)))
    | (s, .fail i cause) => (s, .trap (portTrap cause (ps.getD i (a, 0)).1 m))
    | (s, .missing i) => (s, .missing (ps.getD i (a, 0)).1)
    | (s, .wait) => (s, .wait)

/-- A header word is legal (R38). -/
def headerLegal (h : Nat) : Bool := fld h 0 7 == 0 && !(12 ≤ fld h 16 4 && fld h 16 4 ≤ 14) && !(12 ≤ fld h 12 4 && fld h 12 4 ≤ 14)

/-- A word of a control transfer by its major opcode (R37, step 4). -/
def isTransfer (w : Nat) : Bool :=
  let m := fld w 25 7
  (1 ≤ m && m ≤ 7) || (11 ≤ m && m ≤ 14) || m == 19

/-- The first word before the last that is a control transfer: its index, the header being 0. -/
def misplaced : Nat → List Nat → Option (Nat × Nat)
  | _, [] => none
  | _, [_] => none
  | i, w :: t => if isTransfer w then some (i, w) else misplaced (i + 1) t

/-- The operation that holds the answers a group's fetch waits for from outside. -/
def State.fetchOp (s : State) (g : Nat) : Option Nat := ((s.opsOf g).find? fun e => e.2.instr == .nop).map (·.1)

/-- An operation of that kind is made when the group has none. -/
def State.withFetchOp (s : State) (g : Nat) : State × Nat :=
  match s.fetchOp g with
  | some o => (s, o)
  | none =>
    let p := { (s.grp g).newOp g .nop with flag := 15, stage := .parts 0, cls := 7 }
    ({ s with ops := tins s.ops s.nextOp p, nextOp := s.nextOp + 1 }, s.nextOp)

/-- A trap of a fetch: TPC is the header's offset, and no clause is remembered. -/
def State.fetchTrap (s : State) (g pc : Nat) (t : Trap) : State := s.takeTrap g t pc .none false

/-- The fetched words become the group's clause when header and placement are legal (R37, steps 3 and 4). -/
def State.fetched (s : State) (g pc h : Nat) (ws : List Nat) : State :=
  let x := s.grp g
  if !headerLegal h then s.fetchTrap g pc (x.wide 0x02 (w32 h) 0)
  else
    match misplaced 1 ws with
    | some (i, w) => s.fetchTrap g pc (x.wide 0x02 (w32 w) (w32 i))
    | none => s.setGrp g { x with clause := ⟨pc, fld h 20 12, fld h 16 4, fld h 12 4, ws⟩, phase := .fetched }

/-- One fetch of the clause at an offset. -/
def State.fetchClause (s : State) (g pc : Nat) : State :=
  let (s, o) := s.withFetchOp g
  let park := fun (s : State) (a : Nat) =>
    if s.replays g then
      ((s.delOp o).setGrp g { s.grp g with phase := .parkedFetch pc (a % 2 ^ 40 / 65536) }).reportPage g a 0
    else (s.delOp o).fetchTrap g pc (portTrap 0x0A a (s.grp g).launchAct)
  match s.fetchWords g o pc 1 with
  | (s, .trap t) => (s.delOp o).fetchTrap g pc t
  | (s, .missing a) => park s a
  | (s, .wait) => s
  | (s, .words hs) =>
    let h := hs.getD 0 0
    match s.fetchWords g o pc (fld h 7 5 + 2) with
    | (s, .trap t) => (s.delOp o).fetchTrap g pc t
    | (s, .missing a) => park s a
    | (s, .wait) => s
    | (s, .words ws) => (s.delOp o).fetched g pc h (ws.drop 1)

/-- CLAUSE_FETCH (R37, R39); a group of a stopped launch stops at this boundary (R158). -/
def execClauseFetch (g : Nat) (s : State) : Host.Outcome State Fault Refusal :=
  match (s.grp g).phase with
  | .fetch pc =>
    if (s.glch g).status = 1 then .next (s.stopGroup g) else .next (s.fetchClause g pc)
  | _ => .next s

/-- CLAUSE_ACCEPT (R18): the first word of a fetched clause, or the word a TRET resumes at, issues once the WAIT mask is
met. -/
def execClauseAccept (g : Nat) (s : State) : Host.Outcome State Fault Refusal :=
  let x := s.grp g
  if !x.waitMet x.clause.wait then .next s
  else
    match x.phase with
    | .fetched =>
      if (s.glch g).status = 1 then .next (s.stopGroup g) else .next (s.setGrp g { x with phase := .issue 0 })
    | .resume i => .next (s.setGrp g { x with phase := .issue i })
    | _ => .next s

/-! ## Deferred traps (R191) -/

/-- A group takes a waiting deferred trap at its next issue: not in handler mode, and not at the word that a TRET chose lanes
for. -/
def State.deferredDue (s : State) (g : Nat) : Bool :=
  let x := s.grp g
  x.atIssue && !x.deferred.isEmpty && !x.trap.handler && x.lanes.only.isNone && !s.uncleared g

/-- DEFERRED_TRAP (R191): the earliest deferred fault is taken at the word that would issue next. -/
def execDeferredTrap (g : Nat) (s : State) : Host.Outcome State Fault Refusal :=
  let x := s.grp g
  match s.deferredDue g, x.deferred with
  | true, t :: ts => .next ((s.setGrp g { x with deferred := ts }).takeTrap g t x.pc x.clause true)
  | _, _ => .next s

/-! ## The sets of a partition (R172 to R174) -/

/-- Groups resident in the partition of group `g`. -/
def State.mates (s : State) (g : Nat) : List Nat :=
  (List.range s.groups.length).filter fun k =>
    s.resident k && (s.gblk k).core == (s.gblk g).core && (s.grp k).part == (s.grp g).part &&
      (match (s.grp k).phase with | .exited | .stopped => false | _ => true)

/-- Groups of the active set of a group's partition, those a swap is moving out included (R172, R174). -/
def State.activeOf (s : State) (g : Nat) : List Nat := (s.mates g).filter fun k => (s.grp k).sched.active

/-- Places of the active set that are taken: a group that a swap brings to a free place, or to one whose group has ended meanwhile, has its place
from the swap's start (R172, R174). -/
def State.placesTaken (s : State) (g : Nat) : Nat :=
  (s.activeOf g).length + s.agenda.countP fun e =>
    match e with
    | .swapDone k out => (s.mates g).contains k && (match out with | some j => !(s.activeOf g).contains j | none => true)
    | _ => false

/-- The copy command queue that a word needs is full (R273). -/
def State.copyFull (s : State) (g : Nat) (i : Instr) : Bool :=
  match i with
  | .cpygs q _ _ | .cpysg q _ _ | .cpysw q _ | .cpygg q _ _ _ | .cpyx q _ _ => decide (16 ≤ (tget [] (s.core (s.gblk g).core).cq q.val).length)
  | _ => false

/-- The walker commands of one group act in issue order, and a QPOP meets what those before it did: the next waits for one in flight (R337). -/
def State.walkerFree (s : State) (g : Nat) (i : Instr) : Bool :=
  match i with
  | .wset _ _ | .wgo _ | .wstop | .wstat _ | .qpop _ _ =>
    !(s.opsOf g).any fun e => match e.2.instr, e.2.stage with
      | .wgo _, .parts _ => false
      | .wset _ _, _ | .wgo _, _ | .wstop, _ | .wstat _, _ => true
      | _, _ => false
  | _ => true

/-- BARWAIT, which nothing follows until it completes, meets its barrier once the group's older operations allow it (R96, R103); a MONARM in
flight comes before what follows on its monitor (R295 to R298). -/
def State.waitsFree (s : State) (g : Nat) (i : Instr) : Bool :=
  let arming := fun (k : Fin 4) => (s.opsOf g).any fun e => match e.2.instr with | .monarm j _ _ => j == k | _ => false
  match i with
  | .barwait _ _ => s.actsNow g i
  | .monarm k _ _ | .monwait _ k | .monclr k => !arming k
  | _ => true

/-- A word other than a load waits to issue while an operation that may last for ever, an LWAIT or an operation waiting at its sequence's instance, or an
sc fence, comes before its access (R96, R103): so nothing behind one is in flight at a swap (R116, R151; log entry 48). -/
def State.aheadFree (s : State) (g : Nat) (i : Instr) : Bool :=
  i.isLoad || (s.opsOf g).all fun e =>
    !((e.2.stage == .seqWait || e.2.instr.fenceSc || (match e.2.instr with | .lwait _ _ => true | _ => false)) && e.2.blocks e.1 ((s.grp g).newOp g i))

/-- The next word of a group. -/
def Group.nextInstr (x : Group) : Instr := match decodeWord x.word.toNat with | .ok i => i | .error _ => .nop

/-- The registers that MOVXR and MOVXW reach by index (R269). -/
def Group.indexed (x : Group) (i : Instr) : List PReg :=
  match i with
  | .movxr _ a b | .movxw _ a b => x.movxRegs a b
  | _ => []

/-- They are not pending (R20). -/
def Group.movxFree (x : Group) (i : Instr) : Bool := !x.pending (x.indexed i)

/-- A group's next word can issue (R169). -/
def State.ready (s : State) (g : Nat) : Bool :=
  let x := s.grp g
  s.resident g && !x.sched.swapping && x.sched.sv.isNone &&
    (match x.phase with
      | .issue _ => s.deferredDue g || (s.mayIssue g x.nextInstr (s.copyFull g x.nextInstr) && x.movxFree x.nextInstr &&
        s.walkerFree g x.nextInstr && s.waitsFree g x.nextInstr && s.aheadFree g x.nextInstr)
      | _ => false)

/-- A pending group can use an active place: its clause can be accepted, or its word can issue (R172, R174). -/
def State.wantsPlace (s : State) (g : Nat) : Bool :=
  let x := s.grp g
  s.resident g && !x.sched.swapping && x.sched.sv.isNone &&
    (match x.phase with
      | .fetched | .resume _ => x.waitMet x.clause.wait
      | _ => s.ready g)

/-- Of some groups the oldest (R172). -/
def State.oldest (s : State) (gs : List Nat) : Option Nat :=
  gs.foldl
    (fun b k => match b with | none => some k | some j => if (s.grp k).sched.age < (s.grp j).sched.age then some k else some j)
    none

/-- The oldest ready pending group of a partition. -/
def State.entering (s : State) (g : Nat) : Option Nat :=
  s.oldest ((s.mates g).filter fun k => !(s.grp k).sched.active && s.wantsPlace k)

/-- GROUP_AGED (R173): an active group that waited 256 issues of its partition while ready is aged (log entry 4). -/
def execGroupAged (g : Nat) (s : State) : Host.Outcome State Fault Refusal :=
  let x := s.grp g
  if x.sched.active ∧ 256 ≤ x.sched.waited ∧ s.ready g then .next (s.setGrp g { x with sched := { x.sched with aged := true } })
  else .next s

/-- A swap starts (R174): neither group issues until it is done, and SWAPS counts it. -/
def State.startSwap (s : State) (inn : Nat) (out : Option Nat) : State :=
  let mark := fun (s : State) (k : Nat) => s.setGrp k { s.grp k with sched := { (s.grp k).sched with swapping := true } }
  let s := mark s inn
  let s := match out with | some k => mark s k | none => s
  (s.count 1 (s.partOf inn) 2 1).push (.swapDone inn out)

/-- PENDING_AGE_SWAP (R174): a pending group that has waited 256 issues of its partition takes the place of the group longest in
the active set. -/
def execPendingAgeSwap (g : Nat) (s : State) : Host.Outcome State Fault Refusal :=
  let x := s.grp g
  let act := (s.activeOf g).filter fun k => !(s.grp k).sched.swapping
  let out := act.foldl
    (fun b k =>
      match b with
      | none => some k
      | some j =>
        let a := (s.grp k).sched
        let c := (s.grp j).sched
        if a.entered < c.entered ∨ (a.entered = c.entered ∧ a.age < c.age) then some k else some j)
    none
  if !x.sched.active ∧ 256 ≤ x.sched.waited ∧ s.wantsPlace g ∧ (out.isSome ∨ s.placesTaken g < 8) then .next (s.startSwap g out)
  else .next s

/-- Queue q of a group. -/
def WalkSt.queue (w : WalkSt) (q : Nat) : List QEntry := tget [] w.queues q

/-- The operation that stands for the reads of entry `id` of a group. -/
def State.entryOp (s : State) (g id : Nat) : Option (Nat × Op) :=
  (s.opsOf g).find? fun e => e.2.stage == .parts id && (match e.2.instr with | .wgo _ => true | _ => false)

/-- The latency class of a QPOP (R343): 7 while its entry waits for a replay, that of the slowest read outstanding, 1 once it is complete. DESIGN
CHOICE: 4 while its entry is still to be generated (log entry 65). -/
def State.popClass (s : State) (g q : Nat) : Nat :=
  match ((s.grp g).walk.queue q).head? with
  | some e => if !e.pages.isEmpty then 7 else if e.inFlight then (match s.entryOp g e.id with | some (_, p) => p.cls | none => 4) else 1
  | none => 4

/-- The latency class an operation holds when a test is made (R33, R174). -/
def State.opClass (s : State) (p : Op) : Nat := match p.instr with | .qpop q _ => s.popClass p.gid q.val | _ => p.cls

/-- Some flag that a group's WAIT names has, as its oldest outstanding operation, one of memory class and latency class 4 or more (R174). -/
def State.longWait (s : State) (g : Nat) : Bool :=
  let x := s.grp g
  (List.range 12).any fun f => fld x.clause.wait f 1 == 1 &&
    (match (s.opsOf g).find? fun e => e.2.flag == f with
      | some e => e.2.instr.cls x == .mem && decide (4 ≤ s.opClass e.2)
      | none => false)

/-- An active group may leave its place (R174): a long wait, a scheduler-visible wait, a parked or held group, or a voluntary
swap. -/
def State.maySwapOut (s : State) (g : Nat) : Bool :=
  let x := s.grp g
  x.sched.active && !x.sched.swapping &&
    (x.sched.leaving || x.sched.sv.isSome ||
      (match x.phase with
        | .fetched | .resume _ => !x.waitMet x.clause.wait && s.longWait g
        | .waiting _ _ | .parked _ _ | .parkedFetch _ _ | .held _ _ => true
        | .issue _ => (s.opsOf g).any fun e => e.2.stage == .issued && decide (4 ≤ s.opClass e.2) && !x.nextInstr.isLoad
        | _ => false))

/-- Some pending group of a partition has waited 256 issues (R174). -/
def State.pendingAged (s : State) (g : Nat) : Bool :=
  (s.mates g).any fun k => !(s.grp k).sched.active && decide (256 ≤ (s.grp k).sched.waited) && s.wantsPlace k

/-- SWAP (R174): the oldest ready pending group takes a free place, or the place of a group that may leave; a pending group's age is served
first. -/
def execSwap (inn : Nat) (out : Option Nat) (s : State) : Host.Outcome State Fault Refusal :=
  let ok := s.entering inn == some inn && !s.pendingAged inn &&
    (match out with
      | some k => s.maySwapOut k && (s.mates inn).contains k
      | none => decide (s.placesTaken inn < 8))
  if ok then .next (s.startSwap inn out) else .next s

/-- SWAP_DONE (R174): the group that left is pending, the other active. -/
def execSwapDone (inn : Nat) (out : Option Nat) (s : State) : Host.Outcome State Fault Refusal :=
  let s :=
    match out with
    | some k =>
      let x := s.grp k
      s.setGrp k { x with sched := { x.sched with active := false, swapping := false, leaving := false, waited := 0, aged := false } }
    | none => s
  let x := s.grp inn
  match x.phase with
  | .exited | .stopped => .next s
  | _ =>
    .next (s.setGrp inn { x with
      sched := { x.sched with active := true, swapping := false, entered := s.turn, waited := 0, aged := false } })

/-! ## Scheduler-visible waits (R177) -/

/-- An object that a group waits on has had its event (R177): but not for a barrier still in its phase whose block is there, an
armed monitor or a flag that is not clear. -/
def State.waitOver (s : State) (g : Nat) (w : WaitOn) : Bool :=
  match w with
  | .barrier b off n => (s.bar b off).beyond n || (s.bar b off).broken || s.peerGone b
  | .monitor i => match tget .idle (s.grp g).mons i with | .fired _ | .failed _ => true | _ => false
  | .flag f => (s.grp g).flagOf f == 0
  | .sequence _ _ | .counter _ _ => true

/-- The sequence that a waiting operation records (R177): the handle of its handle word, or of the queue it launches on. -/
def State.waitsAt (s : State) (p : Op) : Option WaitOn :=
  let c := (s.glch p.gid).ctx
  let w := p.ps.getD 0 0
  match p.instr with
  | .lwait _ _ => some (.counter c (fld w 24 7))
  | .launch _ _ _ => some (.sequence c (tget Queue.empty s.le.queues (1024 * c + w)).seq)
  | .sqtake _ _ | .sqres _ _ | .sqapp _ _ _ => some (.sequence c (fld w 0 20))
  | _ => none

/-- The object a stalled group waits on (R177): a waiting SQTAKE, SQRES, SQAPP, LAUNCH or LWAIT behind its WAIT or behind a pending
register of its next word. -/
def State.stallObject (s : State) (g : Nat) : Option WaitOn :=
  let x := s.grp g
  match (s.opsOf g).find? fun e =>
      e.2.stage == .seqWait && (s.waitsAt e.2).isSome &&
        (match x.phase with
          | .fetched | .resume _ => e.2.flag != 15 && fld x.clause.wait e.2.flag 1 == 1
          | .issue _ =>
            e.2.dest.any fun r => (x.nextInstr.touched x.fmt x.wb ++ x.indexed x.nextInstr).contains r
          | .held _ k | .parked _ k => k == e.1
          | _ => false) with
  | none => none
  | some e => s.waitsAt e.2

/-- WAIT_EVENT_WAKE (R177): the group tests its wait again by issuing its word; a stalled group stays descheduled while it still stalls on
the object it recorded. -/
def execWaitEventWake (g : Nat) (s : State) : Host.Outcome State Fault Refusal :=
  let x := s.grp g
  match x.phase with
  | .waiting i w =>
    if s.waitOver g w then .next (s.setGrp g { x with phase := .issue i }) else .next s
  | _ =>
    if x.sched.sv.isSome ∧ s.stallObject g = x.sched.sv then .next s
    else .next (s.setGrp g { x with sched := { x.sched with sv := none } })

end Sys2Proof.Machine
end

