-- ==== Sys2Proof/Machine/LoadStore.lean ====
section
/-! DEFINITION. The load/store engine's instructions and events: loads, stores, atomics, FENCE, capability instructions, DISCARD and
PREF (spec/04 R103 to R105, spec/06 R209 to R213, spec/07 R215 to R241). -/

namespace Sys2Proof.Machine

/-! ## Issue of a lane access -/

/-- The predictor's counter of a line in a core (R419). -/
def predKey (l : Nat) : Nat := (l % 256) ^^^ (l / 256 % 256)

/-- An atomic may be performed in L1 (R418): none that is always far, and none that the predictor sends to the home (R419). -/
def State.nearHit (s : State) (core ctx : Nat) (f : AtomOp) (a : Acc) : Bool :=
  f != .xadd && !oAfar (s.objRaw ctx (a.adr / 2 ^ 40)) && decide (tget 0 (s.core core).pred (predKey (lineOf a.adr)) < 2)

/-- An access of a line held in L1 with the state it needs is cleared at the core (R170, R236): a load takes its data there, a store needs
E or M (R220), and so does an atomic that is performed near. A line answers for the context that translated it (log entry 9), and not for what
is poisoned: that is found at the port (R416, R417). -/
def State.hitL1 (s : State) (core ctx : Nat) (i : Instr) (a : Acc) : Acc :=
  let x := s.line core 0 (lineOf a.adr)
  let hit :=
    if i.isLoad then x.readHit (a.adr / 128 % 2)
    else x.writeHit && (i.isStore || (match i.atomOp with | some f => x.mt == 0 && s.nearHit core ctx f a | none => false))
  let bad := s.poisonedPage ctx (a.adr / 2 ^ 40) (a.adr % 2 ^ 40 / 65536) || (!i.isStore && s.poisonedSector a.adr)
  if a.st = .need ∧ a.blk = none ∧ x.ctx = ctx ∧ hit ∧ !bad then { a with st := .ready, pa := x.pa + a.adr % 256, mt := x.mt } else a

/-- Far checks are made at the ports of the lines; a window access is checked at its target (R26, R228). -/
def State.sendChecks (s : State) (o : Nat) (as : List Acc) : State :=
  let s := (needLines as).foldl (fun s l => s.push (.portCheck o l)) s
  if needLines as = [] then s.push (.farCheckReport o) else s

/-- Latency class of an access when it leaves the core (R33). -/
def State.accClass (s : State) (g : Nat) (own : Bool) (a : Acc) : Nat :=
  match a.blk with
  | some b => if own then 0 else s.windowClass (s.grp g).blk b
  | none => if a.st = .ready then 1 else quadClass (s.gblk g).core (homeSlice (lineOf a.adr))

/-- A helper lane's access that fails reads zero (R166). -/
def helperZero (m : Mask) (a : Acc) : Acc :=
  if inMask m a.lane then a else match a.st with | .failed _ => { a with st := .done 0 } | _ => a

/-- Two lanes of a scratchpad access meet in one of its 64 banks, and are not two reads of one word (R223). -/
def bankConflict (reads : Bool) (as : List Acc) : Bool :=
  let words := fun (a : Acc) => (List.range ((a.size + 3) / 4)).map (a.adr / 4 + ·)
  as.any fun a => as.any fun b => a.blk.isSome && b.blk.isSome && decide (a.lane < b.lane) &&
    (words a).any fun v => (words b).any fun w => v % 64 == w % 64 && (v != w || !reads)

/-- Such a meeting costs cycles (R240; log entry 18). -/
def State.countBanks (s : State) (g : Nat) (i : Instr) (as : List Acc) : State :=
  if bankConflict i.isLoad as then s.count 2 (s.gblk g).core 5 1 else s

/-- An access instruction issues with the accesses of its lanes (R219, R220, R226): when every lane fails at the core it traps at
issue, before it marks its flag (R19), unless an older access is still to be cleared (R188); otherwise it is in flight, cleared at once when
no lane needs a far check. -/
def State.issueAccess (s : State) (g : Nat) (x : Group) (i : Instr) (dest : List PReg) (c : Cap) (as : List Acc) : State :=
  if as = [] then s.setGrp g x.next
  else
    let as := as.map fun a => s.hitL1 (s.gblk g).core (s.glch g).ctx i (helperZero x.launchAct a)
    let fs := as.filterMap fun a => a.st.failed?.map fun t => (a.lane, a.disp, t)
    if fs.length = as.length ∧ !s.uncleared g then s.trapHere g (failTrap fs [])
    else
      let o := s.nextOp
      let p := { x.newOp g i with
        accs := as, dest := dest, cap1 := c, cls := as.foldl (fun m a => Nat.max m (s.accClass g i.scratch a)) 0
        stage := if fs = [] ∧ as.all (fun a => a.st != .need) then .cleared else .issued }
      let s := (s.countBanks g i as).issueOp g p
      let s := as.foldl
        (fun s a => if a.st = .ready ∧ a.blk = none then s.useLine (s.gblk g).core 0 (lineOf a.adr) else s) s
      if p.stage = .cleared then
        if i.isLoad then s.push (.loadDataReturn o) else s.settle 2
      else s.sendChecks o as

/-- Displacement or offset of a lane (R215). -/
def Group.disp (x : Group) (a : RF) (L : Nat) : Nat := (x.src a 0 L).toNat

/-- Scratchpad offset of a lane: a(L) + s(b) modulo 2^32 (R215). -/
def Group.soff (x : Group) (a b : RF) (L : Nat) : Nat := (x.src a 0 L + x.usrc b).toNat

/-- The low bytes of a lane's data registers as one number (R220). -/
def Group.dataOf (x : Group) (d : RF) (regs bytes L : Nat) : Nat :=
  ((List.range regs).foldl (fun v k => v + (x.src d k L).toNat * 2 ^ (32 * k)) 0) % 2 ^ (8 * bytes)

/-- Accesses of the lanes of a mask. -/
def accsOf (m : Mask) (f : Nat → Acc) : List Acc := (lanesOf m).map f

/-- A load (R219). -/
def loadOp (i : Instr) (s : State) (z : LSize) (d : RF) (c : Cap) (acc : Nat → Group → Nat → Acc) :
    Host.Outcome State Fault Refusal :=
  issueWord i s fun n g => s.issueAccess n g i (g.destRegs d z.regs) c (accsOf g.act (acc n g))

/-- A store (R220). -/
def storeOp (i : Instr) (s : State) (z : SSize) (d : RF) (c : Cap) (acc : Nat → Group → Nat → Acc) :
    Host.Outcome State Fault Refusal :=
  issueWord i s fun n g =>
    s.issueAccess n g i [] c
      (accsOf g.launchAct fun L => { acc n g L with data := g.dataOf d z.regs z.bytes L })

/-- The capability a group's register holds. -/
def State.capOf (s : State) (c : Fin 16) : Cap := (s.grp s.cur).cap c.val

/-- LD (R218, R219). -/
def execLd (h : Bool) (z : LSize) (d a : RF) (c : Fin 16) (s : State) : Host.Outcome State Fault Refusal :=
  loadOp (.ld h z d a c) s z d (s.capOf c) fun _ g L => globalAcc (g.cap c.val) rightR z.bytes z.bytes L (g.disp a L)

/-- LDA (R218, R219): an acquire at its scope (R96). -/
def execLda (h : Bool) (z : LSize) (d a : RF) (k : Scope) (c : Fin 16) (s : State) : Host.Outcome State Fault Refusal :=
  loadOp (.lda h z d a k c) s z d (s.capOf c) fun _ g L => globalAcc (g.cap c.val) rightR z.bytes z.bytes L (g.disp a L)

/-- LDS (R218, R219); a word marked uncorrectable is tested when the load may be performed (R396). -/
def execLds (h : Bool) (z : LSize) (d a b : RF) (s : State) : Host.Outcome State Fault Refusal :=
  loadOp (.lds h z d a b) s z d .null fun n g L =>
    let x := scratchAcc g.blk (s.glch n).scr z.bytes z.bytes L (g.soff a b L)
    if x.st = .ready ∧ (s.blk g.blk).markedAt x.adr z.bytes then { x with st := .need } else x

/-- LDW (R218, R219). -/
def execLdw (h : Bool) (z : LSize) (d a : RF) (s : State) : Host.Outcome State Fault Refusal :=
  loadOp (.ldw h z d a) s z d .null fun _ g L => s.windowAcc g.blk z.bytes z.bytes L (g.disp a L)

/-- ST (R218, R220). -/
def execSt (h : Bool) (z : SSize) (d a : RF) (c : Fin 16) (s : State) : Host.Outcome State Fault Refusal :=
  storeOp (.st h z d a c) s z d (s.capOf c) fun _ g L => globalAcc (g.cap c.val) rightW z.bytes z.bytes L (g.disp a L)

/-- STL (R218, R220): a release at its scope (R96). -/
def execStl (h : Bool) (z : SSize) (d a : RF) (k : Scope) (c : Fin 16) (s : State) : Host.Outcome State Fault Refusal :=
  storeOp (.stl h z d a k c) s z d (s.capOf c) fun _ g L => globalAcc (g.cap c.val) rightW z.bytes z.bytes L (g.disp a L)

/-- STS (R218, R220). -/
def execSts (h : Bool) (z : SSize) (d a b : RF) (s : State) : Host.Outcome State Fault Refusal :=
  storeOp (.sts h z d a b) s z d .null fun n g L => scratchAcc g.blk (s.glch n).scr z.bytes z.bytes L (g.soff a b L)

/-- STW (R218, R220). -/
def execStw (h : Bool) (z : SSize) (d a : RF) (s : State) : Host.Outcome State Fault Refusal :=
  storeOp (.stw h z d a) s z d .null fun _ g L => s.windowAcc g.blk z.bytes z.bytes L (g.disp a L)

/-- An atomic (R226): the operand of a compare is its first half, the new value its second (R225). -/
def atomicOp (i : Instr) (f : AtomOp) (s : State) (d : RF) (c : Cap) (acc : Nat → Group → Nat → Acc) :
    Host.Outcome State Fault Refusal :=
  issueWord i s fun n g =>
    s.issueAccess n g i (g.destRegs d f.results) c
      (accsOf g.launchAct fun L =>
        let v := g.dataOf d f.regs (4 * f.regs) L
        let w := 8 * f.bytes
        match f with
        | .cas | .casw => { acc n g L with data := v % 2 ^ w, data2 := v / 2 ^ w }
        | _ => { acc n g L with data := v })

/-- A global access of an atomic: R, W and A (R25, R224). -/
def atomAcc (f : AtomOp) (c : Cap) (L disp : Nat) : Acc := globalAcc c (rightR + rightW + rightA) f.bytes f.bytes L disp

/-- ATOM (R224, R226). -/
def execAtom (f : AtomOp) (d a : RF) (c : Fin 16) (s : State) : Host.Outcome State Fault Refusal :=
  atomicOp (.atom f d a c) f s d (s.capOf c) fun _ g L => atomAcc f (g.cap c.val) L (g.disp a L)

/-- ATOMA (R224, R226): acquiring. -/
def execAtoma (f : AtomOp) (d a : RF) (k : Scope) (c : Fin 16) (s : State) : Host.Outcome State Fault Refusal :=
  atomicOp (.atoma f d a k c) f s d (s.capOf c) fun _ g L => atomAcc f (g.cap c.val) L (g.disp a L)

/-- ATOML (R224, R226): releasing. -/
def execAtoml (f : AtomOp) (d a : RF) (k : Scope) (c : Fin 16) (s : State) : Host.Outcome State Fault Refusal :=
  atomicOp (.atoml f d a k c) f s d (s.capOf c) fun _ g L => atomAcc f (g.cap c.val) L (g.disp a L)

/-- ATOMR (R224, R226): acquiring and releasing. -/
def execAtomr (f : AtomOp) (d a : RF) (k : Scope) (c : Fin 16) (s : State) : Host.Outcome State Fault Refusal :=
  atomicOp (.atomr f d a k c) f s d (s.capOf c) fun _ g L => atomAcc f (g.cap c.val) L (g.disp a L)

/-- ATOMS (R227). -/
def execAtoms (f : AtomSOp) (d a b : RF) (s : State) : Host.Outcome State Fault Refusal :=
  atomicOp (.atoms f d a b) f.op s d .null fun n g L =>
    let x := scratchAcc g.blk (s.glch n).scr f.op.bytes f.op.bytes L (g.soff a b L)
    if x.st = .ready ∧ (s.blk g.blk).markedAt x.adr f.op.bytes then { x with st := .need } else x

/-- FENCE (R103): an operation of the group without a flag. -/
def execFence (r : Order) (k : Scope) (s : State) : Host.Outcome State Fault Refusal :=
  issueWord (.fence r k) s fun n g => (s.issueOp n (g.newOp n (.fence r k))).settle 1

/-- Place of an sc fence in the sc order (R105): tick, core, partition, then order of issue. The package number is the same for every fence of
this package. -/
def State.scKey (s : State) (e : Nat × Op) : List Nat :=
  match e.2.stage with
  | .tick n => [n, (s.gblk e.2.gid).core, (s.grp e.2.gid).part, e.1]
  | _ => []

/-- One list of numbers comes before another, its first difference being smaller. -/
def before : List Nat → List Nat → Bool
  | x :: s, y :: t => decide (x < y) || (x == y && before s t)
  | _, _ => false

/-- An sc fence that waits for a tick comes before fence `e` in the sc order (R105). -/
def State.scEarlier (s : State) (e : Nat × Op) : Bool :=
  s.ops.any fun f => f.2.instr.fenceSc && before (s.scKey f) (s.scKey e)

/-- FENCE_SC_COMPLETE (R105): an sc fence completes at the second tick after its drain, when no fence before it in the sc order is left. -/
def execFenceScComplete (op : Nat) (s : State) : Host.Outcome State Fault Refusal :=
  match tfind s.ops op with
  | some p =>
    match p.stage with
    | .tick n =>
      if n ≤ s.tick then
        if s.scEarlier (op, p) then .next (s.push (.fenceScComplete op)) else .next ((s.endOp op).settle 1)
      else .next s
    | _ => .next s
  | none => .next s

/-! ## Far checks and returns -/

/-- A scratchpad or window access reads a word marked uncorrectable (R396). -/
def State.readsMarked (s : State) (i : Instr) (a : Acc) : Bool :=
  match a.blk with
  | some b => (i.isRead || i.atomOp.isSome) && (s.blk b).markedAt a.adr a.size
  | none => false

/-- A DISCARD that nothing older holds back recalls the slabs of its range from peers (R234, R441). -/
def State.recallRange (s : State) (p : Op) : State :=
  if p.instr.isDiscard then p.accs.foldl (fun s a => (s.exportedIn a.adr a.size).foldl (fun s k => (s.recall (4096 * k) true).getD s) s) s else s

/-- FAR_CHECK_REPORT (R170, R188, R229): a window access to a released block fails (R216), and so does a read of a marked word once no older
access holds it back (R396). -/
def execFarCheckReport (op : Nat) (s : State) : Host.Outcome State Fault Refusal :=
  match tfind s.ops op with
  | none => .next s
  | some p =>
    let at_ := fun (a : Acc) =>
      match a.st, a.blk with
      | .need, some b =>
        if s.peerGone b then { a with st := .failed (laneTrap 0x0C a.disp 0) }
        else if s.readsMarked p.instr a then { a with st := .failed (laneTrap 0x0B a.disp 0) }
        else { a with st := .ready }
      | _, _ => a
    let failed := fun (a : Acc) => match a.st with | .failed t => t.cause != 0x0F | _ => false
    if p.stage = .cleared ∧ p.accs.any failed then .next (if p.accs.any (fun a => a.st == .sent || a.st == .clear) then s else s.resolveOp op)
    else if p.stage = .cleared ∧ p.instr.atomOp.isSome ∧ p.accs.all Acc.over then .next (s.push (.atomicReturn op))
    else if p.stage ≠ .issued then .next ((s.recallRange p).settle 1)
    else if p.accs.any (fun a => a.st == .need && s.readsMarked p.instr a) && !s.mayPerform op then .next (s.push (.farCheckReport op))
    else .next ((s.setOp op { p with accs := p.accs.map at_ }).resolveOp op)

/-- A waiting answer is tried again later. -/
def State.later (s : State) (e : Event) : State := s.push e

/-- Monitor `i` of a group becomes `m`. -/
def Group.setMon (g : Group) (i : Nat) (m : Monitor) : Group := { g with mons := tset .idle g.mons i m }

/-- A group that waits on its monitor `i` is woken (R177). -/
def State.wakeMon (s : State) (g i : Nat) : State :=
  match (s.grp g).phase with
  | .waiting _ (.monitor k) => if k = i then s.push (.waitEventWake g) else s
  | _ => s

/-- A monitor fires with a value (R296): it is counted, and a group that waits on it is woken (R177). -/
def State.fireMon (s : State) (g i v : Nat) : State :=
  let s := (s.setGrp g ((s.grp g).setMon i (.fired v))).count 3 (s.gblk g).core 5 1
  s.wakeMon g i

/-- A monitor's address: global, or 2^64 × window address + 2^32 × block + offset of a scratchpad word. -/
def monAdr (f : MemForm) (a : Acc) : Nat :=
  match a.blk with
  | some b => (match f with | .window => a.disp * 2 ^ 64 | _ => 0) + b * 2 ^ 32 + a.adr
  | none => a.adr

/-- A monitor's read failed after it was armed (R296): it records the cause and values, and a waiter is woken. -/
def State.failMon (s : State) (g i : Nat) (t : Trap) : State := (s.setGrp g ((s.grp g).setMon i (.failed t))).wakeMon g i

/-- The read that an armed monitor makes of its global word (R296), as operation `o`: it meets the checks of R228, and takes the line as the
copy engine's reads do. -/
def State.monRead (s : State) (o : Nat) (i : Fin 4) : State :=
  let g := (s.op o).gid
  match tget .idle (s.grp g).mons i.val with
  | .armed (.glob _) c m cmp =>
    match s.engRead o (s.glch g).ctx m 4 (some c.gen) with
    | (s, .wait) => s
    | (s, .missing) => (s.endOp o).reportPage g m 0
    | (s, .fail cause) => (s.endOp o).failMon g i.val (portTrap cause m 0)
    | (s, .val v) => let s := s.endOp o; if v = cmp then s else s.fireMon g i.val v
  | _ => s.endOp o

/-- The operation of a monitor's read in flight. -/
def State.monOp (s : State) (g : Nat) (i : Fin 4) : Option Nat :=
  ((s.opsOf g).find? fun e => match e.2.instr with | .monclr j => j == i | _ => false).map (·.1)

/-- The read of MONARM is done (R295): the monitor is armed, and it fires when the word differs from the compare value. -/
def State.monitorRead (s : State) (o : Nat) : State :=
  let p := s.op o
  match p.instr, p.accs with
  | .monarm i _ f, a :: _ =>
    if !a.atHand then s
    else if !s.mayPerform o then s.later (.loadDataReturn o)
    else
      let v := match a.st with | .done v => v | _ => s.accRead a
      let cmp := p.ps.getD 1 0
      let s := (s.setGrp p.gid ((s.grp p.gid).setMon i.val (.armed f p.cap1 (monAdr f a) cmp))).completeOp o
      (if v = cmp then s else s.fireMon p.gid i.val v).settle 1
  | _, _ => s

/-- A lane whose page was dead when it was translated, and is dead no longer, is translated again. -/
def State.woken (s : State) (p : Op) (a : Acc) : Bool :=
  a.st == .zero && !s.deadPage (s.glch p.gid).ctx (a.adr / 2 ^ 40) (a.adr % 2 ^ 40)

/-- LOAD_DATA_RETURN (R219): every lane's value is read and the destination and flag are updated, once every older access of the
group allows it; a read of TICK gives its low word (R194). -/
def execLoadDataReturn (op : Nat) (s : State) : Host.Outcome State Fault Refusal :=
  match tfind s.ops op with
  | none => .next s
  | some p =>
    match p.instr with
    | .monclr i => .next (s.monRead op i)
    | .srd _ _ =>
      .next ((s.setGrp p.gid ((s.grp p.gid).putsAll p.dest p.mask p.helpers [w32 s.tick])).completeOp op)
    | _ =>
      if p.instr.isRead ∧ !p.instr.isLoad then
        if p.accs.any (s.woken p) then .next (s.recheck op (s.woken p)) else .next (s.monitorRead op)
      else if p.stage = .cleared ∧ p.instr.isLoad then
        if !s.mayPerform op then .next (s.later (.loadDataReturn op))
        else if p.accs.any (s.woken p) then .next (s.recheck op (s.woken p))
        else if p.accs.all Acc.atHand then
          let s := s.performReady op
          .next (((s.writeBack op (s.op op).accs).completeOp op).settle 2)
        else .next s
      else .next s

/-- An atomic whose lanes are all over completes; lanes whose response was lost keep their destination and make a deferred trap. -/
def State.finishAtomic (s : State) (op : Nat) : State :=
  let p := s.op op
  (((s.writeBack op p.accs).completeOp op).deferLost p.gid p.accs).settle 2

/-- ATOMIC_RETURN (R226). -/
def execAtomicReturn (op : Nat) (s : State) : Host.Outcome State Fault Refusal :=
  match tfind s.ops op with
  | none => .next s
  | some p =>
    if p.instr.atomOp.isSome ∧ p.stage = .cleared ∧ p.accs.all Acc.over then .next (s.finishAtomic op) else .next s

/-- ATOMIC_RESULT_LOST (R420, R191): the responses of an applied atomic's lanes at a distant unit are lost. -/
def execAtomicResultLost (op : Nat) (s : State) : Host.Outcome State Fault Refusal :=
  match tfind s.ops op with
  | none => .next s
  | some p =>
    if p.instr.atomOp.isSome ∧ p.stage = .cleared ∧ p.accs.all Acc.over then
      let lose := fun (a : Acc) => if a.blk = none then { a with st := .failed (laneTrap 0x0F a.disp 0) } else a
      .next ((s.setOp op { p with accs := p.accs.map lose }).finishAtomic op)
    else .next s

/-! ## Capabilities (R209 to R213) -/

/-- A capability as its 128-bit value (R23). -/
def Cap.bits (c : Cap) : Nat :=
  c.obj % 2 ^ 24 + 2 ^ 24 * (c.base % 2 ^ 40) + 2 ^ 64 * (c.len % 2 ^ 40) + 2 ^ 104 * (c.rights % 256) + 2 ^ 112 * (c.kind % 16)
    + 2 ^ 116 * (c.gen % 4096)

/-- The capability that CAPLD makes from a valid entry (R210). -/
def capFrom (h : Nat) (o : ObjRaw) : Cap := ⟨h, 0, oSize o, oRights o, oKind o, oGen o⟩

/-- The capability a handle gives in a context; none when the object is absent or withheld (R210, R348, R468). -/
def State.capLoad (s : State) (ctx h : Nat) : Option Cap :=
  if h = 0 then some .null
  else
    let o := s.objRaw ctx h
    if objValid (s.ctx ctx) o ∧ ¬ s.withheld h then some (capFrom h o) else none

/-- CAPLD (R210): a handle of 0 gives a null capability at once. -/
def execCapld (e : Fin 16) (a : RF) (s : State) : Host.Outcome State Fault Refusal :=
  issueWord (.capld e a) s fun n g =>
    let h := (g.usrc a).toNat
    if h / 2 ^ 24 ≠ 0 then s.trapHere n (g.wide 0x01 g.word 0)
    else if h = 0 then s.setGrp n (g.setCap e.val .null).next
    else
      let o := { g.newOp n (.capld e a) with dest := [.cap e.val], ps := [h], stage := .issued, cls := 4 }
      (s.issueOp n o).push (.capldEntryReturn s.nextOp)

/-- CAPLD_ENTRY_RETURN (R210). -/
def execCapldEntryReturn (op : Nat) (s : State) : Host.Outcome State Fault Refusal :=
  match tfind s.ops op with
  | none => .next s
  | some p =>
    match p.instr with
    | .capld e _ =>
      let h := p.ps.getD 0 0
      match s.capLoad (s.glch p.gid).ctx h with
      | some c => .next ((s.setGrp p.gid ((s.grp p.gid).setCap e.val c)).completeOp op)
      | none => .next (s.trapOp op ⟨0x09, w32 h, 0, p.mask, []⟩)
    | _ => .next s

/-- A 40-bit value of two registers (R211). -/
def wide40 (lo hi : Nat) : Nat := hi % 256 * 2 ^ 32 + lo

/-- CAPNAR (R211). -/
def execCapnar (e : Fin 16) (a : RF) (c : Fin 16) (s : State) : Host.Outcome State Fault Refusal :=
  issueWord (.capnar e a c) s fun n g =>
    let p := g.params a 4
    let x := g.cap c.val
    let off := wide40 (p.getD 0 0) (p.getD 1 0)
    let len := wide40 (p.getD 2 0) (p.getD 3 0)
    if p.getD 1 0 / 256 ≠ 0 ∨ p.getD 3 0 / 256 ≠ 0 then s.trapHere n (g.wide 0x01 g.word 0)
    else if x.obj = 0 ∨ x.kind < 1 ∨ 3 < x.kind then s.trapHere n (g.wide 0x07 0 0)
    else if x.len < off + len then s.trapHere n (g.wide 0x06 (w32 off) (w32 (off / 2 ^ 32)))
    else s.setGrp n (g.setCap e.val { x with base := x.base + off, len := len }).next

/-- CAPRR (R212). -/
def execCaprr (e : Fin 16) (a : RF) (c : Fin 16) (s : State) : Host.Outcome State Fault Refusal :=
  issueWord (.caprr e a c) s fun n g =>
    let r := (g.usrc a).toNat
    let x := g.cap c.val
    if r / 256 ≠ 0 then s.trapHere n (g.wide 0x01 g.word 0)
    else s.setGrp n (g.setCap e.val { x with rights := x.rights &&& r }).next

/-- CAPRD (R213): a lane run in every active lane, a uniform run always. -/
def execCaprd (d : RF) (c : Fin 16) (s : State) : Host.Outcome State Fault Refusal :=
  groupWord (.caprd d c) s fun g =>
    let v := (g.cap c.val).bits
    g.putsAll (g.destRegs d 4) g.launchAct g.helperAct ((List.range 4).map fun k => w32 (v / 2 ^ (32 * k)))

/-! ## DISCARD and PREF (R234, R235) -/

/-- A capability of data or brick-pool kind with a right. -/
def Cap.has (c : Cap) (r : Nat) : Bool := c.allows r

/-- DISCARD (R234): its object is checked at the port of the range's first line. -/
def execDiscard (a : RF) (c : Fin 16) (s : State) : Host.Outcome State Fault Refusal :=
  issueWord (.discard a c) s fun n g =>
    let p := g.params a 2
    let page := p.getD 0 0
    let k := p.getD 1 0
    let x := g.cap c.val
    if page / 2 ^ 24 ≠ 0 ∨ k = 0 ∨ 2 ^ 24 < k then s.trapHere n (g.wide 0x01 g.word 0)
    else if !x.has rightD then s.trapOpen n 0x07
    else if page * 65536 < x.base ∨ x.base + x.len < (page + k) * 65536 then s.trapHere n (g.wide 0x06 (w32 page) 0)
    else
      let adr := x.obj * 2 ^ 40 + page * 65536
      let acc : Acc := ⟨0, 0, adr, 0, 0, k * 65536, 0, 0, none, .need⟩
      let o := { g.newOp n (.discard a c) with
        ps := p, cap1 := x, accs := [acc], stage := .issued, cls := quadClass (s.gblk n).core (homeSlice (lineOf adr)) }
      (s.issueOp n o).push (.portCheck s.nextOp (lineOf adr))

/-- PREF (R235): an operation without a flag. -/
def execPref (a : RF) (c : Fin 16) (s : State) : Host.Outcome State Fault Refusal :=
  issueWord (.pref a c) s fun n g =>
    let p := g.params a 3
    let b := p.getD 2 0
    let x := g.cap c.val
    if !x.has rightR then s.trapHere n (g.wide 0x07 (w32 (p.getD 0 0)) 0)
    else if x.len < p.getD 0 0 + p.getD 1 0 then s.trapHere n (g.wide 0x06 (w32 (p.getD 0 0)) 0)
    else if b % 32 ≠ 0 then s.trapHere n (g.wide 0x05 (w32 b) 1)
    else if (s.glch n).scr < b + 32 then s.trapHere n (g.wide 0x06 (w32 b) 0)
    else (s.issueOp n { g.newOp n (.pref a c) with ps := p, cap1 := x, cls := 6 }).push (.prefArrival s.nextOp)

/-- What a prefetch finds for one line: skipped (0), left as it is (1), to be filled (2) or as a first candidate for eviction (3), or an answer of a
peer still to come. -/
def State.prefLine (s : State) (op l : Nat) : State × Option Nat :=
  let p := s.op op
  let ctx := (s.glch p.gid).ctx
  match s.portCheck ctx (256 * l) (some p.cap1.gen) .read with
  | (s, .ok pa mt dead pol _) =>
    let fill := if pol = 3 then 1 else if pol = 2 then 3 else 2
    if mt = 0 then (s, some (if !dead && (s.poisonedSector (256 * l) || s.poisonedSector (256 * l + 128)) then 0 else fill))
    else if mt = 2 then
      if dead then (s, some fill)
      else
        match p.part (256 * l) 256 with
        | some a => (s, match partRes a with | .val _ => some fill | .wait => none | _ => some 0)
        | none =>
          match s.ask op ctx 2 pa (256 * l) 256 false with
          | (s, .wait) => (s, none)
          | (s, _) => (s, some 0)
    else (s, some 0)
  | (s, _) => (s, some 0)

/-- A prefetch brings a sector into L2; one that is there stays as it is (R235). -/
def State.prefFill (s : State) (l k : Nat) (stream : Bool) (by_ : Nat) : State := if s.inL2 l k then s else s.fillL2 l k stream false by_

/-- PREF_ARRIVAL (R235): present lines are filled into L2 as their home policy says (R402) and the others skipped and counted; then one arrival
without bytes. -/
def execPrefArrival (op : Nat) (s : State) : Host.Outcome State Fault Refusal :=
  match tfind s.ops op with
  | none => .next s
  | some p =>
    match p.instr with
    | .pref _ _ =>
      let ls := linesOf (p.cap1.obj * 2 ^ 40 + p.cap1.base + p.ps.getD 0 0) (p.ps.getD 1 0)
      let (s, rs) := ls.foldl (fun r l => let (s, x) := r.1.prefLine op l; (s, r.2 ++ [(l, x)])) (s, [])
      if rs.any fun r => r.2.isNone then .next s
      else
        let x := s.grp p.gid
        let s := rs.foldl
          (fun s r => if r.2 = some 2 ∨ r.2 = some 3 then (s.prefFill r.1 0 (r.2 == some 3) (s.glch p.gid).ctx).prefFill r.1 1 (r.2 == some 3) (s.glch p.gid).ctx else s) s
        let s := s.count 2 (s.blk x.blk).core 4 (rs.filter fun r => r.2 == some 0).length
        .next ((s.barApply x.blk (p.ps.getD 2 0) 1 0 none).completeOp op)
    | _ => .next s

/-- Bytes of pool that a launch's block uses (R138). -/
def Launch.pool (l : Launch) : Nat := l.lr.gpb * l.alloc * 128 + l.scr + l.accRows * 128

/-- Pool bytes of a core that placed blocks claim (R139, R237). -/
def State.poolUsed (s : State) (core : Nat) : Nat :=
  s.blocks.foldl
    (fun n b =>
      if b.core ≠ core ∨ (s.crs b.course).st = .saved then n
      else
        match b.st with
        | .allocating | .live => n + (s.lch b.launch).pool
        | .retired => n + (s.lch b.launch).scr
        | _ => n)
    0

/-- Units of 16 KiB of a core's pool that no placed block claims (R237). -/
def State.lendable (s : State) (core : Nat) : Nat := (4194304 - s.poolUsed core) / 16384

/-- The line that a request in flight in the trees names. -/
def Event.treeLine (e : Event) : Option Nat :=
  match e with
  | .rd m | .xreq m | .srdSteeredRead m | .inv m | .tkeep m | .snoop m | .grant m | .data m => if m.slab then none else some m.key
  | _ => none

/-- An access of a core that found its line in L1 is not performed yet, or a request of some agent for the line is in flight (R238, R239). -/
def State.lineBusy (s : State) (core l : Nat) : Bool :=
  (s.ops.any fun e => (s.gblk e.2.gid).core == core && e.2.accs.any fun a =>
    (a.st == .ready || a.st == .clear) && a.blk.isNone && a.mt != 1 && a.mt != 3 && lineOf a.adr == l) ||
    (s.agenda.any fun e => e.treeLine == some l) || (s.fab.held.any fun h => !h.2.2.slab && h.2.2.key == l) || (tget [] s.fab.roots l) != []

/-- RECLAIM_COMPLETE (R238, R239): L1 gives up the ways the claimed units lent, dropping what no longer fits once no access to a line that goes and
no request for it is in flight, and each block whose start waited for the reclaim may be allocated. DESIGN CHOICE: its messages carry phase tag 0 (log entry 63). -/
def execReclaimComplete (core : Nat) (s : State) : Host.Outcome State Fault Refusal :=
  let c := s.core core
  match c.reclaim with
  | [] => .next s
  | bs =>
    let keep := Nat.min c.lent (s.lendable core)
    let gone := c.lines.filter fun e =>
      e.1 % 4 == 0 && e.2.st != .I &&
        decide (16 + keep ≤ (c.lines.filter fun f => f.1 % 4 == 0 && f.2.st != .I && f.1 / 4 % 64 == e.1 / 4 % 64 && decide (e.2.use < f.2.use)).length)
    if gone.any fun e => fld e.2.pending 0 3 != 0 || s.lineBusy core (e.1 / 4) then .next (s.later (.reclaimComplete core)) else
    let bytes := gone.foldl (fun n e => n + 128 * (fld e.2.dirty 0 1 + fld e.2.dirty 1 1)) 0
    let s := gone.foldl (fun s e => s.dropLine core 0 (e.1 / 4) 0 e.2.ctx) s
    let s := s.setCore core { s.core core with lent := keep, reclaim := [] }
    let s := (s.count 2 core 2 1).count 2 core 3 bytes
    .next (bs.foldl (fun s b => s.push (.poolAllocationComplete b)) s)

end Sys2Proof.Machine
end

