-- ==== Sys2Proof/Machine/Copy.lean ====
section
/-! DEFINITION. The copy engine: copies, barrier instructions and monitors (spec/09 R273 to R301). -/

namespace Sys2Proof.Machine

/-! ## Copies (R275 to R281) -/

/-- One side of a copy: global through a capability, or a block's scratchpad. -/
inductive Side where
  | glob (c : Cap) (disp : Nat)
  | scr (blk off : Nat)
  deriving DecidableEq, Repr

/-- Cause and value of a copy's trap at issue, or the target of its barrier. -/
abbrev CopyCheck := Except (Nat × Nat × Nat) (Option (Nat × Nat))

/-- Two ranges of `n` bytes name a common byte (R277). -/
def Side.overlaps (x y : Side) (n : Nat) : Bool :=
  match x, y with
  | .glob c d, .glob e f => c.obj == e.obj && decide (c.base + d < e.base + f + n) && decide (e.base + f < c.base + d + n)
  | .scr b d, .scr e f => b == e && decide (d < f + n) && decide (f < d + n)
  | _, _ => false

/-- The barrier of a counted command: none for 0xFFFF_FFFF (R276, R285). -/
def State.copyBar (s : State) (g w : Nat) : CopyCheck :=
  if w = 0xFFFFFFFF then .ok none
  else match s.barAddr g w with
    | .ok x => .ok (some x)
    | .error e => .error e

/-- A refused barrier address word, when its cause is `k`: the priority of a trap is by its cause (R301). -/
def CopyCheck.bad (c : CopyCheck) (k : Nat) : Option (Nat × Nat × Nat) :=
  match c with
  | .error e => if e.1 = k then some e else none
  | .ok _ => none

/-- The copy forms (R275). -/
inductive CopyFn where | gs | sg | sw | gg
  deriving DecidableEq, Repr

/-- The window address of CPYSW names a block and offset that hold `n` bytes (R216). -/
def State.windowFits (s : State) (g w n : Nat) : Bool :=
  decide (windowRank (s.gblk g).rank w < (s.glch g).lr.bpc) && decide (windowOff w + n ≤ (s.glch g).scr)

/-- The sides of a copy: source and destination (R275, R276). -/
def State.copySides (s : State) (g : Nat) (fn : CopyFn) (p0 p1 : Nat) (c e : Cap) : Side × Side :=
  let b := (s.grp g).blk
  match fn with
  | .gs => (.glob c p0, .scr b p1)
  | .sg => (.scr b p0, .glob e p1)
  | .sw => (.scr b p0, .scr (s.peer b (windowRank (s.blk b).rank p1)) (windowOff p1))
  | .gg => (.glob c p0, .glob e p1)

/-- Core checks of a copy at issue, in the order of R277 and R301. -/
def State.copyCheck (s : State) (g : Nat) (fn : CopyFn) (p : List Nat) (c e : Cap) : CopyCheck :=
  let p0 := p.getD 0 0
  let p1 := p.getD 1 0
  let n := p.getD 2 0
  let scr := (s.glch g).scr
  let (src, dst) := s.copySides g fn p0 p1 c e
  let srcG : Bool := match src with | .glob _ _ => true | _ => false
  let dstG : Bool := match dst with | .glob _ _ => true | _ => false
  let bar := s.copyBar g (p.getD 3 0)
  if 2 ^ 24 < n ∨ (fn = .sw ∧ p1 / 2 ^ 24 ≠ 0) then .error (0x01, (s.grp g).word.toNat, 0)
  else if let some x := bar.bad 0x01 then .error x
  else if srcG ∧ !c.allows (rightR + rightM) then .error (0x07, p0, 0)
  else if dstG ∧ !e.allows rightW then .error (0x07, p1, 0)
  else if (srcG ∧ c.len < p0 + n) ∨ (!srcG ∧ scr < p0 + n) then .error (0x06, p0, 0)
  else if (dstG ∧ e.len < p1 + n) ∨ (fn = .gs ∧ scr < p1 + n) ∨ (fn = .sw ∧ !s.windowFits g p1 n) then .error (0x06, p1, 0)
  else if src.overlaps dst n then .error (0x06, p1, 0)
  else if let some x := bar.bad 0x06 then .error x
  else if p0 % 16 ≠ 0 then .error (0x05, p0, 1)
  else if p1 % 16 ≠ 0 then .error (0x05, p1, 1)
  else if n % 16 ≠ 0 then .error (0x05, n, 1)
  else bar

/-- A trap of an engine command at its issue: instruction-wide (R301). -/
def State.cmdTrap (s : State) (g : Nat) (e : Nat × Nat × Nat) : State :=
  s.trapHere g ((s.grp g).wide e.1 (w32 e.2.1) (w32 e.2.2))

/-- Global address of a capability's byte. -/
def Cap.adr (c : Cap) (disp : Nat) : Nat := c.obj * 2 ^ 40 + (c.base + disp) % 2 ^ 40

/-- A command enters copy queue `q`; the oldest command of a queue is taken up (R273, R274). `ps` gains the barrier's target block
and offset, or the number of blocks for none. -/
def State.enqueueCopy (s : State) (g q : Nat) (p : Op) (bar : Option (Nat × Nat)) : State :=
  let o := s.nextOp
  let b := match bar with | some x => [x.1, x.2] | none => []
  let core := (s.gblk g).core
  let s := s.issueOp g { p with ps := p.ps ++ b }
  let c := s.core core
  let l := tget [] c.cq q
  let s := s.setCore core { c with cq := tset [] c.cq q (l ++ [o]) }
  if l = [] then s.push (.copyComplete o) else s

/-- A copy issues (R275 to R277). -/
def copyIssue (i : Instr) (fn : CopyFn) (q : Nat) (a : RF) (c e : Option (Fin 16)) (s : State) :
    Host.Outcome State Fault Refusal :=
  issueWord i s fun n g =>
    let p := g.params a 4
    let cc := match c with | some k => g.cap k.val | none => .null
    let ce := match e with | some k => g.cap k.val | none => .null
    match s.copyCheck n fn p cc ce with
    | .error t => s.cmdTrap n t
    | .ok bar =>
      let o := s.nextOp
      let dst := (s.copySides n fn (p.getD 0 0) (p.getD 1 0) cc ce).2
      let cls := match fn, dst with | .sw, .scr b _ => s.windowClass g.blk b | _, _ => 0
      let s := s.enqueueCopy n q { g.newOp n i with ps := p, cap1 := cc, cap2 := ce, cls := cls } bar
      match dst with
      | .glob c d => s.takeLines o (c.adr d) (p.getD 2 0) c.gen
      | .scr _ _ => s

/-- CPYGS (R275, R277). -/
def execCpygs (q : Fin 8) (a : RF) (c : Fin 16) (s : State) : Host.Outcome State Fault Refusal :=
  copyIssue (.cpygs q a c) .gs q.val a (some c) none s

/-- CPYSG (R275, R277). -/
def execCpysg (q : Fin 8) (e : Fin 16) (a : RF) (s : State) : Host.Outcome State Fault Refusal :=
  copyIssue (.cpysg q e a) .sg q.val a none (some e) s

/-- CPYSW (R275, R277). -/
def execCpysw (q : Fin 8) (a : RF) (s : State) : Host.Outcome State Fault Refusal :=
  copyIssue (.cpysw q a) .sw q.val a none none s

/-- CPYGG (R275, R277). -/
def execCpygg (q : Fin 8) (e : Fin 16) (a : RF) (c : Fin 16) (s : State) : Host.Outcome State Fault Refusal :=
  copyIssue (.cpygg q e a c) .gg q.val a (some c) (some e) s

/-- Limits of a CPYX parameter block (R280). -/
def cpyxLegal (p : List Nat) : Bool :=
  let n := p.getD 1 0
  let row := p.getD 2 0
  let w := p.getD 4 0
  let k := fld w 24 4
  let stride := fld w 0 24
  decide (1 ≤ n) && decide (n ≤ 4096) && decide (k ≤ 3) && decide (16 ≤ row) && decide (row ≤ 4096) && row % (16 * 2 ^ k) == 0 &&
    stride % 16 == 0 && decide (row ≤ stride) && fld w 28 4 == 0

/-- Checks of CPYX at issue, in the order of R281 and R301; the value 2^32 stands for one that the spec does not state. -/
def State.cpyxCheck (s : State) (g : Nat) (p : List Nat) (c : Cap) : CopyCheck :=
  let l := p.getD 0 0
  let n := p.getD 1 0
  let d := p.getD 3 0
  let scr := (s.glch g).scr
  let bar := s.copyBar g (p.getD 5 0)
  if !cpyxLegal p then .error (0x01, (s.grp g).word.toNat, 0)
  else if let some x := bar.bad 0x01 then .error x
  else if !c.allows (rightR + rightM) then .error (0x07, 2 ^ 32, 0)
  else if scr < d + (n - 1) * fld (p.getD 4 0) 0 24 + p.getD 2 0 then .error (0x06, d, 0)
  else if scr < l + 4 * n then .error (0x06, l, 0)
  else if let some x := bar.bad 0x06 then .error x
  else if l % 4 ≠ 0 then .error (0x05, l, 1)
  else if d % 16 ≠ 0 then .error (0x05, d, 1)
  else bar

/-- CPYX (R280, R281). -/
def execCpyx (q : Fin 8) (a : RF) (c : Fin 16) (s : State) : Host.Outcome State Fault Refusal :=
  issueWord (.cpyx q a c) s fun n g =>
    let p := g.params a 6
    match s.cpyxCheck n p (g.cap c.val) with
    | .error t => if t.2.1 = 2 ^ 32 then s.trapOpen n t.1 else s.cmdTrap n t
    | .ok bar => s.enqueueCopy n q.val { g.newOp n (.cpyx q a c) with ps := p, cap1 := g.cap c.val } bar

/-- What a side of a copy answers: its bytes, or the whole units of 16 bytes before the first piece that failed, with its cause and address. -/
inductive SideRes where
  | bytes (l : List Nat)
  | fail (done cause adr : Nat)
  | missing (adr : Nat)
  | wait

/-- The answer of a side's pieces (R277, R279). -/
def EngAll.side (r : EngAll) (ps : List (Nat × Nat)) : SideRes :=
  match r with
  | .vals vs => .bytes (pieceBytes ps vs)
  | .fail i c => .fail (bytesTo ps i / 16 * 16) c (ps.getD i (0, 0)).1
  | .missing i => .missing (ps.getD i (0, 0)).1
  | .wait => .wait

/-- The source of a copy is read (R277). -/
def State.readSide (s : State) (o ctx n : Nat) (x : Side) : State × SideRes :=
  match x with
  | .scr b off => (s, .bytes (mbytes (s.blk b).scr off n))
  | .glob c d =>
    let ps := pieces (c.adr d) n
    let (s, r) := settled (s.engReads o ctx (some c.gen) ps) (s.op o).gid
    (s, r.side ps)

/-- The destination's pieces are made ready (R108, R279). -/
def State.ownSide (s : State) (o ctx n : Nat) (x : Side) : State × SideRes :=
  match x with
  | .scr _ _ => (s, .bytes [])
  | .glob c d =>
    let ps := pieces (c.adr d) n
    let (s, r) := settled (s.engOwns o ctx (some c.gen) ps) (s.op o).gid
    (s, r.side ps)

/-- The first bytes of a copy are written, and counted in CPYBYTES (R300). -/
def State.writeSide (s : State) (core ctx : Nat) (x : Side) (bs : List Nat) : State :=
  let s := s.count 3 core 0 bs.length
  match x with
  | .scr b off => s.swrite b off bs.length (ofBytes bs)
  | .glob c d => s.engPuts (some (core, 1)) ctx (c.adr d) bs

/-- The barrier that a copy counts on, its target block and offset following the `k` registers of its block. -/
def Op.bar (p : Op) (k : Nat) : Option (Nat × Nat) := match p.ps.drop k with | [b, off] => some (b, off) | _ => none

/-- A copy completes (R274): its decrement is applied, at once or when its barrier's phase has completed, and its queue's next command is taken up. A barrier whose block has been
released fails at its target (R285). -/
def State.copyDone (s : State) (o k bytes : Nat) : State :=
  let p := s.op o
  match p.bar k with
  | some (b, off) =>
    if s.peerGone b ∧ !(s.bar b off).broken then
      s.engFail o ⟨0x0C, w32 (p.ps.getD (k - 1) 0), 0, p.mask, []⟩ .copyComplete
    else (s.barApply b off 0 bytes (some o)).overUnlessHeld o b fun s => (s.unqueue o .copyComplete).completeOp o
  | none => (s.unqueue o .copyComplete).completeOp o

/-- A copy that failed after some bytes: what lies before the failure is written, and the group takes a deferred trap (R279). -/
def State.copyFail (s : State) (o core ctx : Nat) (dst : Side) (bs : List Nat) (t : Trap) : State :=
  (s.writeSide core ctx dst bs).engFail o t .copyComplete

/-- A copy is performed (R277 to R279). -/
def State.runCopy (s : State) (o : Nat) (fn : CopyFn) : State :=
  let p := s.op o
  let g := p.gid
  let ctx := (s.glch g).ctx
  let core := (s.gblk g).core
  let n := p.ps.getD 2 0
  let (src, dst) := s.copySides g fn (p.ps.getD 0 0) (p.ps.getD 1 0) p.cap1 p.cap2
  let gone : Bool := match dst with | .scr b _ => fn == .sw && s.peerGone b | _ => false
  if gone then s.engFail o ⟨0x0C, w32 (p.ps.getD 1 0), 0, p.mask, []⟩ .copyComplete
  else
    match s.readSide o ctx n src with
    | (s, .wait) => s
    | (s, .missing a) => s.engPage o a 3 .copyComplete
    | (s, .fail k c a) =>
      let bs := match (s.readSide o ctx k src).2 with | .bytes bs => bs | _ => []
      match s.ownSide o ctx k dst with
      | (s, .bytes _) => s.copyFail o core ctx dst bs (portTrap c a p.mask)
      | (s, .fail j d b) => s.copyFail o core ctx dst (bs.take j) (portTrap d b p.mask)
      | (s, .missing b) => s.engPage o b 4 .copyComplete
      | (s, .wait) => s
    | (s, .bytes bs) =>
      match s.ownSide o ctx n dst with
      | (s, .wait) => s
      | (s, .missing a) => s.engPage o a 4 .copyComplete
      | (s, .fail k c a) => s.copyFail o core ctx dst (bs.take k) (portTrap c a p.mask)
      | (s, .bytes _) => (s.writeSide core ctx dst bs).copyDone o 4 n

/-- Where unit `u` of row `i` of a CPYX lands (R281). -/
def cpyxAt (p : List Nat) (i u : Nat) : Nat :=
  let w := p.getD 4 0
  p.getD 3 0 + i * fld w 0 24 + 16 * (u ^^^ (i % 2 ^ fld w 24 4))

/-- The rows of a CPYX are written, as many units as values are given (R281). -/
def State.cpyxWrite (s : State) (o : Nat) (units : List (Nat × Nat × Nat)) : State :=
  let p := s.op o
  let b := (s.grp p.gid).blk
  let s := s.count 3 (s.blk b).core 0 (16 * units.length)
  units.foldl (fun s e => s.swrite b (cpyxAt p.ps e.1 e.2.1) 16 e.2.2) s

/-- CPYX is performed (R281). -/
def State.runCpyx (s : State) (o : Nat) : State :=
  let p := s.op o
  let b := (s.grp p.gid).blk
  let ctx := (s.glch p.gid).ctx
  let n := p.ps.getD 1 0
  let row := p.ps.getD 2 0
  let idx := (List.range n).map fun i => s.sread b (p.ps.getD 0 0 + 4 * i) 4
  let bad := idx.zipIdx.find? fun e => e.1 != 0xFFFFFFFF && (e.1 % 16 != 0 || decide (p.cap1.len < e.1 + row))
  match bad with
  | some e => s.engFail o ⟨0x14, w32 e.2, w32 e.1, p.mask, []⟩ .copyComplete
  | none =>
    let units := idx.zipIdx.flatMap fun e => (List.range (row / 16)).map fun u => (e.2, u, e.1)
    let reads := units.filter fun e => e.2.2 != 0xFFFFFFFF
    let ps := reads.flatMap fun e => pieces (p.cap1.adr (e.2.2 + 16 * e.2.1)) 16
    let sixteens := fun (bs : List Nat) => (List.range (bs.length / 16)).map fun k => ofBytes ((bs.drop (16 * k)).take 16)
    let fill := fun (vs : List Nat) =>
      (units.foldl
        (fun (r : List (Nat × Nat × Nat) × List Nat × Bool) e =>
          if r.2.2 then r
          else if e.2.2 = 0xFFFFFFFF then (r.1 ++ [(e.1, e.2.1, 0)], r.2.1, false)
          else match r.2.1 with
            | v :: t => (r.1 ++ [(e.1, e.2.1, v)], t, false)
            | [] => (r.1, [], true))
        ([], vs, false)).1
    let (s, r) := settled (s.engReads o ctx (some p.cap1.gen) ps) p.gid
    match r with
    | .wait => s
    | .missing i => s.engPage o (ps.getD i (0, 0)).1 3 .copyComplete
    | .fail i c =>
      let vs := match (s.engReads o ctx (some p.cap1.gen) (ps.take i)).2 with | .vals vs => vs | _ => []
      (s.cpyxWrite o (fill (sixteens (pieceBytes ps vs)))).engFail o (portTrap c (ps.getD i (0, 0)).1 p.mask) .copyComplete
    | .vals vs => (s.cpyxWrite o (fill (sixteens (pieceBytes ps vs)))).copyDone o 6 (n * row)

/-- Command `o` is the oldest of a copy queue. -/
def State.copyHead (s : State) (o : Nat) : Bool := (s.core (s.gblk (s.op o).gid).core).cq.any fun e => e.2.head? == some o

/-- COPY_COMPLETE (R274): the oldest command of a queue is performed once the group's earlier accesses are done (R107). -/
def execCopyComplete (op : Nat) (s : State) : Host.Outcome State Fault Refusal :=
  match tfind s.ops op with
  | none => .next s
  | some p =>
    if !s.copyHead op ∨ p.stage = .parts 3 then .next s
    else if !s.mayPerform op then .next (s.later (.copyComplete op))
    else
      match p.instr with
      | .cpygs _ _ _ => .next (s.runCopy op .gs)
      | .cpysg _ _ _ => .next (s.runCopy op .sg)
      | .cpysw _ _ => .next (s.runCopy op .sw)
      | .cpygg _ _ _ _ => .next (s.runCopy op .gg)
      | .cpyx _ _ _ => .next (s.runCpyx op)
      | _ => .next s

/-! ## Barriers (R288 to R292) -/

/-- A barrier target that R292 refuses with peer retired: released, or on a failed die. -/
def State.barGone (s : State) (t : Nat × Nat) : Bool := s.peerGone t.1

/-- A barrier instruction: its own limits, then bar_addr, then the far check, then its effect at the barrier (R288 to R292). -/
def barOp (i : Instr) (a : RF) (k : Nat) (legal : List Nat → Bool) (gone : State → Nat → Nat × Nat → List Nat → State)
    (s : State) (act : Nat → Group → List Nat → Nat × Nat → State) : Host.Outcome State Fault Refusal :=
  issueWord i s fun n g =>
    let p := g.params a k
    if !legal p then s.trapHere n (g.wide 0x01 g.word 0)
    else
      match s.barAddr n (p.getD 0 0) with
      | .error e => s.cmdTrap n e
      | .ok t => if s.barGone t then gone s n t p else act n g p t

/-- Peer retired at a barrier instruction (R292). -/
def State.barRetired (s : State) (n : Nat) (p : List Nat) : State := s.cmdTrap n (0x0C, p.getD 0 0, 0)

/-- The window bit of a barrier address word (R285). -/
def winBit (p : List Nat) : Bool := fld (p.getD 0 0) 31 1 == 1

/-- Latency class of a barrier operation (R299). -/
def State.barClass (s : State) (g : Group) (p : List Nat) (t : Nat × Nat) : Nat := if winBit p then s.windowClass g.blk t.1 else 0

/-- BARINIT (R288): it acts at its barrier once the group's older operations allow it (R96, R103). -/
def execBarinit (a : RF) (s : State) : Host.Outcome State Fault Refusal :=
  barOp (.barinit a) a 3
    (fun p => decide (1 ≤ p.getD 1 0) && decide (p.getD 1 0 < 2 ^ 31) && decide (p.getD 2 0 < 2 ^ 31))
    (fun s n _ p => s.barRetired n p) s fun n g p t =>
      if s.actsNow n (.barinit a) then (s.setGrp n g.next).barInit t.1 t.2 (p.getD 1 0) (p.getD 2 0) (winBit p)
      else
        s.issueOp n { g.newOp n (.barinit a) with
          ps := [t.1, t.2, p.getD 1 0, p.getD 2 0, if winBit p then 1 else 0, p.getD 0 0], cls := s.barClass g p t, stage := .issued }

/-- BARARR (R289): the arrival is applied once the group's earlier accesses are performed (R96). -/
def execBararr (a : RF) (s : State) : Host.Outcome State Fault Refusal :=
  barOp (.bararr a) a 2 (fun p => decide (p.getD 1 0 < 2 ^ 31)) (fun s n _ p => s.barRetired n p) s fun n g p t =>
    let o := { g.newOp n (.bararr a) with ps := [t.1, t.2, p.getD 1 0, p.getD 0 0], cls := s.barClass g p t, stage := .issued }
    let s := if winBit p then s.barCourse t.1 t.2 else s
    (s.issueOp n o).settle 1

/-- BARWAIT (R290): a target on a failed die counts as broken (R293); it is an acquire of the phase it sees complete. -/
def execBarwait (q : Fin 8) (a : RF) (s : State) : Host.Outcome State Fault Refusal :=
  barOp (.barwait q a) a 2 (fun _ => true)
    (fun s n t p =>
      if (s.blk t.1).st = .lost then s.setGrp n ((s.grp n).setUpred q.val true).next else s.barRetired n p)
    s fun n g p t =>
      let b := s.bar t.1 t.2
      if b.broken then s.setGrp n (g.setUpred q.val true).next
      else if b.beyond (p.getD 1 0) then s.setGrp n { (g.setUpred q.val false).next with acqTo := s.nextOp }
      else s.enterWait n (.barrier t.1 t.2 (p.getD 1 0))

/-- BARTRY (R291, R292): its result is pending until the barrier has answered, which is at once when the group's older operations allow it
(R96, R103). It is cleared by the answer. -/
def execBartry (d a : RF) (x : Bool) (s : State) : Host.Outcome State Fault Refusal :=
  barOp (.bartry d a x) a 2 (fun _ => true) (fun s n _ p => s.barRetired n p) s fun n g p t =>
    if s.actsNow n (.bartry d a x) then
      let v := (s.bar t.1 t.2).tried (p.getD 1 0)
      if v = 2 ∧ x then s.cmdTrap n (0x0D, p.getD 0 0, 0)
      else s.setGrp n { (g.udst d 0 (w32 v)).next with acqTo := if v = 1 then s.nextOp else g.acqTo }
    else
      s.issueOp n { g.newOp n (.bartry d a x) with
        ps := [t.1, t.2, p.getD 1 0, p.getD 0 0], dest := g.destRegs d 1, cls := s.barClass g p t, stage := .issued }

/-- The half of a course that a block lies in (R142). -/
def State.halfOf (s : State) (b : Nat) : Nat := (s.blk b).rank / 4

/-- SEAM_COMPLETION_MESSAGE (R287): the other half's waiters complete with q = 0, as acquires, and that half acknowledges. -/
def execSeamCompletionMessage (blk off : Nat) (s : State) : Host.Outcome State Fault Refusal :=
  if (s.bar blk off).h0 ∧ !(s.bar blk off).broken then
    let ws := (s.waitersOn blk off).filter fun g => s.halfOf (s.grp g).blk != s.halfOf blk
    let free := fun (s : State) (g : Nat) =>
      let x := s.grp g
      match x.nextInstr with
      | .barwait q _ => s.setGrp g { (x.setUpred q.val false).next with acqTo := s.nextOp }
      | _ => s
    .next ((ws.foldl free s).push (.seamCompletionAck blk off))
  else .next s

/-- Commands whose held updates are done with are over (R274, R289, R293). -/
def State.endHeld (s : State) (os : List Nat) : State :=
  os.foldl
    (fun s o => match tfind s.ops o with
      | some p => (if p.instr.agent = some 1 then s.unqueue o .copyComplete else s).completeOp o
      | none => s) s

/-- Held updates of a barrier are applied, or ignored when it is broken, and the commands that waited for them are over (R274, R287, R289, R293). -/
def State.freeHeld (s : State) (b off : Nat) : State :=
  let os := ((s.blk b).held.filter fun h => h.off == off).filterMap HeldBar.op
  let s := s.barRelease b off
  s.endHeld (os.filter fun o => !s.heldAt b o)

/-- SEAM_COMPLETION_ACK (R287): H1 is set, the phase completes, and held updates are applied to the new phase; a broken barrier ignores it
(R293). -/
def execSeamCompletionAck (blk off : Nat) (s : State) : Host.Outcome State Fault Refusal :=
  let x := s.bar blk off
  if x.h0 ∧ !x.broken then .next (((s.setBar blk off { x with stat := bitSet x.stat 9 }).barComplete blk off).freeHeld blk off)
  else .next s

/-! ## Monitors (R294 to R298) -/

/-- Monitors of a group armed, fired or failed, with those that a MONARM in flight is arming (R294, R295). -/
def State.monsOf (s : State) (g : Nat) : Nat :=
  let mons := (s.grp g).mons
  mons.length + (s.opsOf g).countP fun e => match e.2.instr with | .monarm i _ _ => (tfind mons i.val).isNone | _ => false

/-- Entries in use of a core's monitor table (R294). -/
def State.monsOn (s : State) (core : Nat) : Nat :=
  (List.range s.groups.length).foldl (fun n g => if s.resident g ∧ (s.gblk g).core = core then n + s.monsOf g else n) 0

/-- The access of a monitor's word: the core checks of a load of a word in its form (R295); a word marked uncorrectable is tested when the read
may be performed (R396). -/
def State.monAcc (s : State) (n : Nat) (g : Group) (f : MemForm) (w : Nat) : Acc :=
  match f with
  | .glob c => globalAcc (g.cap c.val) rightR 4 4 0 w
  | .scratch =>
    let x := scratchAcc g.blk (s.glch n).scr 4 4 0 w
    if x.st = .ready ∧ (s.blk g.blk).markedAt x.adr 4 then { x with st := .need } else x
  | .window => s.windowAcc g.blk 4 4 0 w

/-- MONARM (R295). -/
def execMonarm (i : Fin 4) (a : RF) (f : MemForm) (s : State) : Host.Outcome State Fault Refusal :=
  issueWord (.monarm i a f) s fun n g =>
    let p := g.params a 2
    let acc := s.monAcc n g f (p.getD 0 0)
    match acc.st with
    | .failed t => s.trapHere n { t with mask := g.launchAct }
    | _ =>
      if tget .idle g.mons i.val = .idle ∧ 64 ≤ s.monsOn (s.gblk n).core then s.trapOpen n 0x1D
      else
        let c := match f with | .glob k => g.cap k.val | _ => .null
        let o := s.nextOp
        let s := s.issueOp n { g.newOp n (.monarm i a f) with ps := p, cap1 := c, accs := [acc], stage := .issued, cls := s.accClass n (f == .scratch) acc }
        if acc.st = .ready then s.monitorRead o else s.sendChecks o [acc]

/-- MONITOR_REREAD (R296): a monitor of a course that is out of its cores reads its word at resume (R294); a global word that is being read is
read again after it. -/
def execMonitorReread (g i : Nat) (s : State) : Host.Outcome State Fault Refusal :=
  let k : Fin 4 := ⟨i % 4, Nat.mod_lt i (by decide)⟩
  if !s.resident g then .next s
  else match tget .idle (s.grp g).mons i with
  | .armed (.glob _) _ _ _ =>
    if (s.monOp g k).isSome then .next (s.later (.monitorReread g i))
    else
      let p := { (s.grp g).newOp g (.monclr k) with flag := 15, stage := .parts 0 }
      .next (({ s with ops := tins s.ops s.nextOp p, nextOp := s.nextOp + 1 } : State).monRead s.nextOp k)
  | .armed f _ m cmp =>
    let b := m / 2 ^ 32 % 2 ^ 32
    let adr := match f with | .window => m / 2 ^ 64 | _ => m % 2 ^ 32
    if s.peerGone b then .next (s.failMon g i ⟨0x0C, w32 adr, 0, 0, []⟩)
    else if (s.blk b).markedAt (m % 2 ^ 32) 4 then .next (s.failMon g i ⟨0x0B, w32 adr, 0, 0, []⟩)
    else
      let v := s.sread b (m % 2 ^ 32) 4
      if v = cmp then .next s else .next (s.fireMon g i v)
  | _ => .next s

/-- A monitor is disarmed: when it was the last of its core on a global line, the copy engine leaves the line (R298, R437). -/
def State.disarm (s : State) (g i : Nat) : State :=
  let core := (s.gblk g).core
  let m := tget .idle (s.grp g).mons i
  let s := s.setGrp g ((s.grp g).setMon i .idle)
  match m with
  | .armed (.glob _) _ a _ =>
    let others := (List.range s.groups.length).any fun k =>
      (s.gblk k).core == core &&
        (s.grp k).mons.any fun e => match e.2 with | .armed (.glob _) _ b _ => lineOf b == lineOf a | _ => false
    if others ∨ (s.line core 1 (lineOf a)).st = .I then s else s.dropLine core 1 (lineOf a) (s.tagOf g) (s.glch g).ctx
  | _ => s

/-- MONWAIT (R297). -/
def execMonwait (d : RF) (i : Fin 4) (s : State) : Host.Outcome State Fault Refusal :=
  issueWord (.monwait d i) s fun n g =>
    match tget .idle g.mons i.val with
    | .idle => s.setGrp n g.next
    | .armed _ _ _ _ => s.enterWait n (.monitor i.val)
    | .failed t => (s.disarm n i.val).trapHere n { t with mask := g.launchAct }
    | .fired v =>
      let s := s.disarm n i.val
      s.setGrp n ((s.grp n).udst d 0 (w32 v)).next

/-- MONCLR (R298). -/
def execMonclr (i : Fin 4) (s : State) : Host.Outcome State Fault Refusal :=
  issueWord (.monclr i) s fun n _ =>
    let s := s.disarm n i.val
    s.setGrp n (s.grp n).next

end Sys2Proof.Machine
end

