-- ==== Sys2Proof/Machine/Matrix.lean ====
section
/-! DEFINITION. The matrix engine: MMA, the accumulator forms, codebooks and scaled operand loads (spec/10 R302 to R327). -/

namespace Sys2Proof.Machine

/-! ## Accumulator region (R302, R303) -/

/-- Cell of 4 bytes `n` of an accumulator row. -/
def Block.cell4 (b : Block) (row n : Nat) : Nat := mread b.acc (128 * row + 4 * n) 4

/-- Exact cell `c` of a region (R303). -/
def Block.xc (b : Block) (c : Nat) : Nat := mread b.acc (64 * c) 64

/-- Bytes written to an accumulator region. -/
def State.accPut (s : State) (b a : Nat) (bs : List Nat) : State :=
  let x := s.blk b
  s.setBlk b { x with acc := mstore x.acc a bs }

/-! ## Issue -/

/-- A matrix command issues: the commands of one group are performed in issue order (R312). -/
def State.enqueueMat (s : State) (g : Nat) (p : Op) : State :=
  let o := s.nextOp
  let core := (s.gblk g).core
  let s := s.issueOp g p
  let c := s.core core
  let l := tget [] c.matq g
  let s := s.setCore core { c with matq := tset [] c.matq g (l ++ [o]) }
  if l = [] then s.push (.matrixCommandComplete o) else s

/-- Shape of an MMA (R304): chunks, and the element width. None for a pair or a setting that is not allowed. -/
def mmaShape (f : Word) (t : Bool) : Option (Nat × Nat) :=
  let a := fmtAF f
  let b := fmtBF f
  let c := fmtSCL f
  if 2 ≤ c then none
  else
    let r :=
      if a ≤ 1 ∧ b ≤ 1 then some (1, 16, false)
      else if 2 ≤ a ∧ a ≤ 3 ∧ 2 ≤ b ∧ b ≤ 3 then some (2, 8, true)
      else if a = 4 ∧ b = 4 then some (4, 4, true)
      else if a = 5 ∧ b = 5 then some (2, 8, false)
      else if a = 6 ∧ b = 6 then some (4, 4, false)
      else none
    match r with
    | some (ch, w, sc) => if c = 1 ∧ (!sc ∨ !t) then none else some (ch, w)
    | none => none

/-- Bytes of a row of B (R308). -/
def bRowBytes (f : Word) (w : Nat) : Nat := 4 * w + (if fmtSCL f = 1 then 1 else 0)

/-- Offset of logical byte `o` of row `i` in chunk `j` (R308), from the three layout registers. -/
def bOff (lw : List Nat) (i j o : Nat) : Nat :=
  let w0 := lw.getD 0 0
  let w1 := lw.getD 1 0
  let w2 := lw.getD 2 0
  windowOff w0 + 16 * (fld w1 0 16 * (i % 16) + fld w2 0 16 * (i / 16) + fld w1 16 16 * j) +
    16 * ((o / 16) ^^^ (i % 2 ^ fld w0 24 4)) + o % 16

/-- The first byte of B beyond a scratchpad, in the order chunk, row, byte (R308). -/
def bBeyond (lw : List Nat) (ch n scr : Nat) : Option Nat :=
  ((List.range ch).flatMap fun j => (List.range 32).flatMap fun i => (List.range n).map fun o => bOff lw i j o).find?
    fun x => decide (scr < x + 1)

/-- Checks of MMA on its parameters, causes 3 to 7 of R311: cause, TVAL, TVALHI. -/
def State.mmaCheck (s : State) (g : Nat) (x : Group) (t : Bool) (row0 : Nat) (lw : List Nat) : Option (Nat × Nat × Nat) :=
  let w0 := lw.getD 0 0
  let base := fld w0 0 24
  let l := s.glch g
  if 4 ≤ fld w0 24 4 ∨ fld w0 28 4 ≠ 0 ∨ fld (lw.getD 2 0) 16 16 ≠ 0 then some (0x01, x.word.toNat, 0)
  else
    match mmaShape x.fmt t with
    | none => some (0x17, x.fmt.toNat, 0)
    | some (ch, w) =>
      if l.accRows < row0 + 32 then some (0x18, row0, 0)
      else if l.lr.bpc ≤ windowRank (s.gblk g).rank base then some (0x06, base, 0)
      else
        match bBeyond lw ch (bRowBytes x.fmt w) l.scr with
        | some v => some (0x06, v, 0)
        | none => if base % 16 ≠ 0 then some (0x05, base, 1) else none

/-- The 17 × 32 values of A as an MMA reads them from the registers (R305, R306): every scale byte is 0x7F when SCL = 0 or the
field is sz. -/
def Group.aVals (x : Group) (a : RF) : SMap Word :=
  (List.range 17).foldl
    (fun m r =>
      (List.range 32).foldl
        (fun m L =>
          tset 0 m (32 * r + L)
            (if r < 16 then x.src a r L else if fmtSCL x.fmt = 1 ∧ a.val < 96 then x.src a 16 L else 0x7F7F7F7F)) m)
    []

/-- MMA (R306, R310, R311). -/
def execMma (r z t : Bool) (d a b : RF) (s : State) : Host.Outcome State Fault Refusal :=
  issueWord (.mma r z t d a b) s fun n g =>
    let row0 := (g.usrc d).toNat
    let lw := g.params b 3
    match s.mmaCheck n g t row0 lw with
    | some e => s.cmdTrap n e
    | none =>
      let av := g.latch.getD (g.aVals a)
      let o := { g.newOp n (.mma r z t d a b) with ps := row0 :: lw, vals := av }
      let s := if g.latch.isSome then s.count 4 (s.gblk n).core 1 1 else s
      (s.setGrp n { g with latch := if r then some av else none }).enqueueMat n o

/-! ## MMA (R308 to R310) -/

/-- Bytes of B as read: chunk, row and byte index of the target block's scratchpad. -/
def State.bByte (s : State) (tgt : Nat) (lw : List Nat) (i j o : Nat) : Nat := s.sread tgt (bOff lw i j o) 1

/-- Element `x` of a row of B, `w` bits wide (R60, R308). -/
def State.bElem (s : State) (tgt : Nat) (lw : List Nat) (w i j x : Nat) : Nat :=
  match w with
  | 16 => s.bByte tgt lw i j (2 * x) + 256 * s.bByte tgt lw i j (2 * x + 1)
  | 8 => s.bByte tgt lw i j x
  | _ => s.bByte tgt lw i j (x / 2) / 16 ^ (x % 2) % 16

/-- Element `k` of lane L's A, `w` bits wide (R60, R305). -/
def aElem (av : SMap Word) (w k L : Nat) : Nat :=
  (tget 0 av (32 * (k * w / 32) + L)).toNat / 2 ^ (k * w % 32) % 2 ^ w

/-- B(k, n) and the scale of column n in chunk k / 32 (R308, R310). -/
def State.bAt (s : State) (tgt : Nat) (lw : List Nat) (t : Bool) (w k n : Nat) : Nat :=
  if t then s.bElem tgt lw w n (k / 32) (k % 32) else s.bElem tgt lw w (k % 32) (k / 32) n

/-- The exact terms of one result cell, k ascending (R310). -/
def State.mmaTerms (s : State) (p : Op) (tgt : Nat) (t : Bool) (ch w L n : Nat) : List Val :=
  let f := p.fmt
  let lw := p.ps.drop 1
  let b := s.gblk p.gid
  let book := fun c => b.book c
  (List.range (32 * ch)).map fun k =>
    let j := k / 32
    let x := (elemVal (fmtAF f) (book (fmtCSA f)) (aElem p.vals w k L)).mul
      (elemVal (fmtBF f) (book (fmtCSB f)) (s.bAt tgt lw t w k n))
    if fmtSCL f = 1 then
      (x.mul (e8m0 ((tget 0 p.vals (32 * 16 + L)).toNat / 2 ^ (8 * j)))).mul (e8m0 (s.bByte tgt lw n j (4 * w)))
    else x

/-- An exact value that is an integer. -/
def Val.int : Val → Int
  | .fin neg m e => Val.scaled neg m e 0
  | _ => 0

/-- The new value of one cell (R310). -/
def State.mmaCell (s : State) (p : Op) (tgt : Nat) (z t : Bool) (ch w L n : Nat) : Nat :=
  let ts := s.mmaTerms p tgt t ch w L n
  let old := if z then 0 else (s.gblk p.gid).cell4 (p.ps.getD 0 0 + L) n
  if fmtAF p.fmt = 5 ∨ fmtAF p.fmt = 6 then (BitVec.ofInt 32 (ts.foldl (fun t v => t + v.int) (old : Int))).toNat
  else chunkSum ts old

/-- The 128 bytes of one result row. -/
def State.mmaRow (s : State) (p : Op) (tgt : Nat) (z t : Bool) (ch w L : Nat) : List Nat :=
  (List.range 32).flatMap fun n => toBytes 4 (s.mmaCell p tgt z t ch w L n)

/-- The product table that an MMA of C4 by C4 uses: the slots and their contents (R309). -/
def Block.table (b : Block) (f : Word) : List Nat :=
  [fmtCSA f, fmtCSB f] ++ (List.range 16).map (b.book (fmtCSA f)) ++ (List.range 16).map (b.book (fmtCSB f))

/-- A product table is built when it differs from the held one (R309). -/
def State.useTable (s : State) (p : Op) : State :=
  if fmtAF p.fmt ≠ 4 then s
  else
    let core := (s.gblk p.gid).core
    let c := s.core core
    let part := (s.grp p.gid).part
    let t := (s.gblk p.gid).table p.fmt
    if tget [] c.ptab part = t then s
    else (s.setCore core { c with ptab := tset [] c.ptab part t }).count 4 core 2 1

/-- A matrix command completes and its group's next one is taken up. -/
def State.matDone (s : State) (o : Nat) : State := (s.unqueue o .matrixCommandComplete).completeOp o

/-- A matrix command fails: it completes, and its group takes a deferred trap (R311, R323). -/
def State.matFail (s : State) (o : Nat) (t : Trap) : State := s.engFail o t .matrixCommandComplete

/-- MMA is performed: every byte of B is read before any cell is written (R310, R314). -/
def State.runMma (s : State) (o : Nat) (z t : Bool) : State :=
  let p := s.op o
  let b := (s.grp p.gid).blk
  let base := fld (p.ps.getD 1 0) 0 24
  let tgt := s.peer b (windowRank (s.blk b).rank base)
  if p.mask = 0 then (s.count 4 (s.blk b).core 0 1).matDone o
  else if s.peerGone tgt then s.matFail o ⟨0x0C, w32 base, 0, p.mask, []⟩
  else
    match mmaShape p.fmt t with
    | none => s.matDone o
    | some (ch, w) =>
      let s := s.useTable p
      let rows := (lanesOf p.mask).map fun L => (p.ps.getD 0 0 + L, s.mmaRow p tgt z t ch w L)
      let s := rows.foldl (fun s r => s.accPut b (128 * r.1) r.2) s
      (s.count 4 (s.blk b).core 0 1).matDone o

/-! ## Accumulator forms (R319 to R325) -/

/-- ACCZ (R321, R326). -/
def execAccz (a : RF) (s : State) : Host.Outcome State Fault Refusal :=
  issueWord (.accz a) s fun n g =>
    let p := g.params a 2
    let k := p.getD 1 0
    if k = 0 ∨ 16384 < k then s.cmdTrap n (0x01, g.word.toNat, 0)
    else if (s.glch n).accRows < p.getD 0 0 + k then s.cmdTrap n (0x18, p.getD 0 0, 0)
    else s.enqueueMat n { g.newOp n (.accz a) with ps := p }

/-- ACCCP (R321, R326). DESIGN CHOICE: of two row ranges beyond the region, TVAL names the source's (log entry 64). -/
def execAcccp (a : RF) (s : State) : Host.Outcome State Fault Refusal :=
  issueWord (.acccp a) s fun n g =>
    let p := g.params a 3
    let k := p.getD 2 0
    let rows := (s.glch n).accRows
    if k = 0 ∨ 16384 < k then s.cmdTrap n (0x01, g.word.toNat, 0)
    else if rows < p.getD 0 0 + k then s.cmdTrap n (0x18, p.getD 0 0, 0)
    else if rows < p.getD 1 0 + k then s.cmdTrap n (0x18, p.getD 1 0, 0)
    else s.enqueueMat n { g.newOp n (.acccp a) with ps := p }

/-- The forms that move rows between the region and memory (R320). -/
inductive RowFn where | ld | st | ss
  deriving DecidableEq, Repr

/-- Bytes of a memory row (R320, R322). -/
def rowBytes (fn : RowFn) (f : Word) : Nat :=
  match fn with
  | .ss => 4 * elemBits (fmtAF f) + (if fmtSCL f = 1 then 1 else 0)
  | _ => 128

/-- The formats ACCSS writes (R322). -/
def accssLegal (f : Word) : Bool :=
  let a := fmtAF f
  let c := fmtSCL f
  (a ≤ 3 || a == 5 || a == 6) && (c == 0 || (c == 1 && (a == 2 || a == 3)))

/-- Checks of ACCLD, ACCST and ACCSS at issue (R320, R322, R326). DESIGN CHOICE: a misaligned displacement is named before a misaligned stride, and
an ACCSS with an illegal FMT has no stride to check (log entry 64). -/
def State.rowCheck (s : State) (g : Nat) (x : Group) (fn : RowFn) (m : MemForm) (p : List Nat) : Option (Nat × Nat × Nat) :=
  let first := p.getD 0 0
  let k := p.getD 1 0
  let a := p.getD 2 0
  let st := p.getD 3 0
  let rb := rowBytes fn x.fmt
  let l := s.glch g
  let al := match fn with | .ss => if elemBits (fmtAF x.fmt) = 16 then 2 else 1 | _ => 16
  let ext := (k - 1) * st + rb
  let win := match m with | .window => true | _ => false
  if k = 0 ∨ 16384 < k ∨ (win = true ∧ a / 2 ^ 24 ≠ 0) then some (0x01, x.word.toNat, 0)
  else if (fn ≠ .ss ∨ accssLegal x.fmt) ∧ st < rb then some (0x01, x.word.toNat, 0)
  else if fn = .ss ∧ !accssLegal x.fmt then some (0x17, x.fmt.toNat, 0)
  else if l.accRows < first + k then some (0x18, first, 0)
  else
    let place :=
      match m with
      | .glob c =>
        let cap := x.cap c.val
        if !cap.allows (if fn = .ld then rightR + rightM else rightW) then some (0x07, a, 0)
        else if cap.len < a + ext then some (0x06, a, 0) else none
      | .scratch => if l.scr < a + ext then some (0x06, a, 0) else none
      | .window =>
        if l.lr.bpc ≤ windowRank (s.gblk g).rank a ∨ l.scr < windowOff a + ext then some (0x06, a, 0) else none
    match place with
    | some e => some e
    | none => if a % al ≠ 0 then some (0x05, a, 1) else if st % al ≠ 0 then some (0x05, st, 1) else none

/-- ACCLD, ACCST or ACCSS issues. -/
def rowIssue (i : Instr) (fn : RowFn) (a : RF) (m : MemForm) (s : State) : Host.Outcome State Fault Refusal :=
  issueWord i s fun n g =>
    let p := g.params a 4
    match s.rowCheck n g fn m p with
    | some e => s.cmdTrap n e
    | none =>
      let c := match m with | .glob c => g.cap c.val | _ => .null
      let o := s.nextOp
      let q := { g.newOp n i with ps := p, cap1 := c }
      let s := s.enqueueMat n q
      match m, fn with
      | .glob _, .st | .glob _, .ss =>
        (List.range (p.getD 1 0)).foldl (fun s r => s.takeLines o (c.adr (p.getD 2 0 + r * p.getD 3 0)) (rowBytes fn g.fmt) c.gen) s
      | _, _ => s

/-- ACCLD (R319, R320). -/
def execAccld (a : RF) (f : MemForm) (s : State) : Host.Outcome State Fault Refusal := rowIssue (.accld a f) .ld a f s

/-- ACCST (R319, R320). -/
def execAccst (a : RF) (f : MemForm) (s : State) : Host.Outcome State Fault Refusal := rowIssue (.accst a f) .st a f s

/-- ACCSS (R319, R322). -/
def execAccss (a : RF) (f : MemForm) (s : State) : Host.Outcome State Fault Refusal := rowIssue (.accss a f) .ss a f s

/-- The trap of a cell index beyond the region (R324): instruction-wide, with each lane's index in TLANE. DESIGN CHOICE: of a lane's two cells the
d field's index is named first, and is TLANE of a lane that passes (log entry 64). -/
def cellTrap (g : Group) (limit : Nat) (idx : Nat → List Nat) : Option Trap :=
  match (lanesOf g.launchAct).find? fun L => (idx L).any fun c => decide (limit ≤ c) with
  | none => none
  | some L =>
    let bad := fun L => ((idx L).find? fun c => decide (limit ≤ c)).getD ((idx L).getD 0 0)
    some ⟨0x18, w32 (bad L), 0, g.launchAct, (lanesOf g.launchAct).foldl (fun m L => tset 0 m L (w32 (bad L))) []⟩

/-- Lane values of register fields kept with an operation: field k in lane L at 32 × k + L. -/
def Group.keep (g : Group) (fs : List RF) : SMap Word :=
  fs.zipIdx.foldl (fun m f => (lanesOf g.act).foldl (fun m L => tset 0 m (32 * f.2 + L) (g.src f.1 0 L)) m) []

/-- ACCXA (R324). -/
def execAccxa (d a : RF) (m : Bool) (s : State) : Host.Outcome State Fault Refusal :=
  issueWord (.accxa d a m) s fun n g =>
    let lim := 2 * (s.glch n).accRows
    match cellTrap g lim fun L => if m then [(g.src d 0 L).toNat, (g.src a 0 L).toNat] else [(g.src d 0 L).toNat] with
    | some t => s.trapHere n t
    | none => s.enqueueMat n { g.newOp n (.accxa d a m) with vals := g.keep [d, a] }

/-- ACCXR (R325). -/
def execAccxr (d a : RF) (m : Bool) (s : State) : Host.Outcome State Fault Refusal :=
  issueWord (.accxr d a m) s fun n g =>
    match cellTrap g (2 * (s.glch n).accRows) fun L => [(g.src a 0 L).toNat] with
    | some t => s.trapHere n t
    | none => s.enqueueMat n { g.newOp n (.accxr d a m) with vals := g.keep [a], dest := g.destRegs d 1 }

/-- ACCXA is performed lane by lane, ascending (R324). DESIGN CHOICE: XCOVF counts an update that sets a clear OVF (log entry 64). -/
def State.runAccxa (s : State) (o : Nat) (m : Bool) : State :=
  let p := s.op o
  let b := (s.grp p.gid).blk
  let core := (s.blk b).core
  ((lanesOf p.mask).foldl
    (fun s L =>
      let c := (tget 0 p.vals L).toNat
      let x := tget 0 p.vals (32 + L)
      let old := (s.blk b).xc c
      let v := if m then xcCombine old ((s.blk b).xc x.toNat) else xcAdd old x
      let s := (s.accPut b (64 * c) (toBytes 64 v)).count 4 core 4 1
      if xcBit v 499 && !xcBit old 499 then s.count 4 core 5 1 else s)
    s).matDone o

/-- ACCXR is performed lane by lane, ascending (R325). -/
def State.runAccxr (s : State) (o : Nat) (m : Bool) : State :=
  let p := s.op o
  let b := (s.grp p.gid).blk
  let (s, vs) := (lanesOf (p.mask ||| p.helpers)).foldl
    (fun (r : State × SMap Word) L =>
      let c := (tget 0 p.vals L).toNat
      let v := if 64 * c < (r.1.glch p.gid).accRows * 128 then xcRound ((r.1.blk b).xc c) else 0
      let s := if m && inMask p.mask L then r.1.accPut b (64 * c) (List.replicate 64 0) else r.1
      (s, tset 0 r.2 L v))
    (s, [])
  (s.setGrp p.gid ((s.grp p.gid).puts p.dest p.mask p.helpers fun _ L => tget 0 vs L)).matDone o

/-- ACCZ is performed (R321). -/
def State.runAccz (s : State) (o : Nat) : State :=
  let p := s.op o
  let b := (s.grp p.gid).blk
  let x := s.blk b
  (s.setBlk b { x with acc := mzero x.acc (128 * p.ps.getD 0 0) (128 * p.ps.getD 1 0) }).matDone o

/-- ACCCP is performed (R321): every source row is read before any row is written. -/
def State.runAcccp (s : State) (o : Nat) : State :=
  let p := s.op o
  let b := (s.grp p.gid).blk
  let k := p.ps.getD 2 0
  let bs := mbytes (s.blk b).acc (128 * p.ps.getD 0 0) (128 * k)
  ((s.accPut b (128 * p.ps.getD 1 0) bs).count 4 (s.blk b).core 3 k).matDone o

/-! ## ACCSS rows (R322) -/

/-- Elements of one width packed into bytes (R60). -/
def packElems (w : Nat) (xs : List Nat) : List Nat :=
  toBytes (xs.length * w / 8) (xs.zipIdx.foldl (fun v e => v + e.1 * 2 ^ (w * e.2)) 0)

/-- An exact value divided by a power of two. -/
def Val.shift (v : Val) (k : Int) : Val :=
  match v with
  | .fin neg m e => .fin neg m (e - k)
  | v => v

/-- The largest finite magnitude of a list, as an integer multiple of 2^−149 (FP32 values). -/
def largest (vs : List Val) : Nat :=
  vs.foldl (fun m v => match v with | .fin _ k e => Nat.max m (Val.scaled false k e (-149)).toNat | _ => m) 0

/-- The E8M0 byte of R263 for the exact quotient of m × 2^−149 by k × 2^e. -/
def scaleOver (m k : Nat) (e : Int) (sat : Bool) : Nat :=
  if m = 0 then 0
  else
    let n := m * 2 ^ (-149 - e).toNat
    let d := k * 2 ^ (e + 149).toNat
    let x := lg2 n d
    let up := decide (d * 2 ^ x.toNat < n * 2 ^ (-x).toNat)
    toE8m0 (.fin false 1 (if up then x + 1 else x)) sat

/-- The scale byte of m / largest_finite(AF): the E8M0 byte of R263 for an exact quotient. -/
def scaleByte (m : Nat) (F : FltFmt) (sat : Bool) : Nat :=
  match F.decode F.maxFin with
  | .fin _ k e => scaleOver m k e sat
  | _ => 0xFF

/-- The bytes of one converted row (R322). -/
def accssRow (f : Word) (xs : List Nat) : List Nat :=
  let af := fmtAF f
  let w := elemBits af
  let vs := xs.map fp32.decode
  if fmtSCL f = 1 then
    match fltOf af with
    | some F =>
      let e := scaleByte (largest vs) F (fmtSAT f)
      let ys := vs.map fun v =>
        if e = 0xFF then F.nan else toElem af (v.shift ((e : Int) - 127)) (fmtRND f) (fmtSAT f)
      packElems w ys ++ [e]
    | none => []
  else packElems w (vs.map fun v => toElem af v (fmtRND f) (fmtSAT f))

/-! ## Rows to and from memory (R320, R323) -/

/-- Where memory row `i` begins: displacement for the global form, offset in its block otherwise. -/
def rowAt (m : MemForm) (p : List Nat) (i : Nat) : Nat :=
  (match m with | .window => windowOff (p.getD 2 0) | _ => p.getD 2 0) + i * p.getD 3 0

/-- The bytes that ACCST and ACCSS write for row `i`. -/
def State.rowOut (s : State) (p : Op) (fn : RowFn) (i : Nat) : List Nat :=
  let b := s.gblk p.gid
  let row := p.ps.getD 0 0 + i
  match fn with
  | .ss => accssRow p.fmt ((List.range 32).map fun n => b.cell4 row n)
  | _ => mbytes b.acc (128 * row) 128

/-- The block of a scratchpad or window form. -/
def State.rowBlk (s : State) (p : Op) (m : MemForm) : Nat :=
  let b := (s.grp p.gid).blk
  match m with
  | .window => s.peer b (windowRank (s.blk b).rank (p.ps.getD 2 0))
  | _ => b

/-- Pieces of every memory row of the global form, in order. -/
def rowPieces (p : Op) (m : MemForm) (rb : Nat) : List (Nat × Nat) :=
  (List.range (p.ps.getD 1 0)).flatMap fun i => pieces (p.cap1.adr (rowAt m p.ps i)) rb

/-- Bytes stored piece by piece. -/
def State.putPieces (s : State) (own : Option (Nat × Nat)) (ctx : Nat) : List (Nat × Nat) → List Nat → State
  | [], _ => s
  | (a, n) :: t, bs => State.putPieces (s.engPut own ctx a n (ofBytes (bs.take n))) own ctx t (bs.drop n)

/-- Rows finished when the first `i` pieces are done. -/
def rowsDone (rb : Nat) (ps : List (Nat × Nat)) (i : Nat) : Nat := ((ps.take i).foldl (fun n p => n + p.2) 0) / rb

/-- ACCLD, ACCST or ACCSS is performed (R320, R323). -/
def State.runRows (s : State) (o : Nat) (fn : RowFn) (m : MemForm) : State :=
  let p := s.op o
  let b := (s.grp p.gid).blk
  let core := (s.blk b).core
  let ctx := (s.glch p.gid).ctx
  let rb := rowBytes fn p.fmt
  let k := p.ps.getD 1 0
  let first := p.ps.getD 0 0
  match m with
  | .glob _ =>
    let ps := rowPieces p m rb
    match fn with
    | .ld =>
      match settled (s.engReads o ctx (some p.cap1.gen) ps) p.gid with
      | (s, .wait) => s
      | (s, .missing i) => s.engPage o (ps.getD i (0, 0)).1 3 .matrixCommandComplete
      | (s, .fail i c) =>
        let vs := match (s.engReads o ctx (some p.cap1.gen) (ps.take i)).2 with | .vals vs => vs | _ => []
        ((s.accPut b (128 * first) (pieceBytes ps vs)).count 4 core 3 (rowsDone rb ps i)).matFail o
          (portTrap c (ps.getD i (0, 0)).1 p.mask)
      | (s, .vals vs) => ((s.accPut b (128 * first) (pieceBytes ps vs)).count 4 core 3 k).matDone o
    | _ =>
      let out := (List.range k).flatMap (s.rowOut p fn)
      match settled (s.engOwns o ctx (some p.cap1.gen) ps) p.gid with
      | (s, .wait) => s
      | (s, .missing i) => s.engPage o (ps.getD i (0, 0)).1 4 .matrixCommandComplete
      | (s, .fail i c) =>
        ((s.putPieces (some (core, 2)) ctx (ps.take i) out).count 4 core 3 (rowsDone rb ps i)).matFail o (portTrap c (ps.getD i (0, 0)).1 p.mask)
      | (s, .vals _) => ((s.putPieces (some (core, 2)) ctx ps out).count 4 core 3 k).matDone o
  | _ =>
    let t := s.rowBlk p m
    if s.peerGone t then s.matFail o ⟨0x0C, w32 (p.ps.getD 2 0), 0, p.mask, []⟩
    else
      let s :=
        match fn with
        | .ld =>
          s.accPut b (128 * first) ((List.range k).flatMap fun i => mbytes (s.blk t).scr (rowAt m p.ps i) 128)
        | _ => (List.range k).foldl (fun s i => s.swrite t (rowAt m p.ps i) rb (ofBytes (s.rowOut p fn i))) s
      (s.count 4 core 3 k).matDone o

/-! ## CBLD and LDSB (R317, R318) -/

/-- CBLD (R317). -/
def execCbld (n : Fin 8) (a : RF) (c : Fin 16) (s : State) : Host.Outcome State Fault Refusal :=
  issueWord (.cbld n a c) s fun k g =>
    let d := (g.usrc a).toNat
    let x := g.cap c.val
    if !x.allows (rightR + rightM) then s.cmdTrap k (0x07, d, 0)
    else if x.len < d + 32 then s.cmdTrap k (0x06, d, 0)
    else if d % 32 ≠ 0 then s.cmdTrap k (0x05, d, 1)
    else s.enqueueMat k { g.newOp k (.cbld n a c) with ps := [d], cap1 := x }

/-- CBLD is performed: the slot changes whole (R309, R317, R323). -/
def State.runCbld (s : State) (o slot : Nat) : State :=
  let p := s.op o
  let b := (s.grp p.gid).blk
  let ps := pieces (p.cap1.adr (p.ps.getD 0 0)) 32
  match settled (s.engReads o (s.glch p.gid).ctx (some p.cap1.gen) ps) p.gid with
  | (s, .wait) => s
  | (s, .missing i) => s.engPage o (ps.getD i (0, 0)).1 3 .matrixCommandComplete
  | (s, .fail i c) => s.matFail o (portTrap c (ps.getD i (0, 0)).1 p.mask)
  | (s, .vals vs) =>
    let bs := pieceBytes ps vs
    let x := s.blk b
    let books := (List.range 16).foldl
      (fun m i => tset 0 m (16 * slot + i) (bs.getD (2 * i) 0 + 256 * bs.getD (2 * i + 1) 0)) x.books
    (s.setBlk b { x with books := books }).matDone o

/-- Blocks per run, registers per block, bytes per block of LDSB (R318). -/
def ldsbShape (f : Word) : Nat × Nat × Nat := if fmtAF f = 4 then (4, 4, 17) else (2, 8, 33)

/-- Formats that LDSB loads (R318). -/
def ldsbLegal (f : Word) : Bool := 2 ≤ fmtAF f && fmtAF f ≤ 4 && fmtSCL f == 1

/-- LDSB (R318, R326). -/
def execLdsb (n : Fin 16) (d a : RF) (c : Fin 16) (s : State) : Host.Outcome State Fault Refusal :=
  issueWord (.ldsb n d a c) s fun k g =>
    let x := g.cap c.val
    let (_, _, bs) := ldsbShape g.fmt
    let bytes := (n.val + 1) * bs
    let disp := fun L => (g.src a 0 L).toNat
    let lanes := lanesOf g.launchAct
    let tl := lanes.foldl (fun m L => tset 0 m L (g.src a 0 L)) []
    if !ldsbLegal g.fmt then s.cmdTrap k (0x17, g.fmt.toNat, 0)
    else
      match lanes.find? fun L => !x.allows (rightR + rightM) || decide (x.len < disp L + bytes) with
      | some L =>
        s.trapHere k ⟨if x.allows (rightR + rightM) then 0x06 else 0x07, w32 (disp L), 0, g.launchAct, tl⟩
      | none =>
        s.enqueueMat k { g.newOp k (.ldsb n d a c) with
          vals := g.keep [a], cap1 := x
          dest := if d.val = 127 then [] else (ldsbOffs g.fmt n.val).map fun r => .lane (g.wb + d.val + r) }

/-- What one lane's LDSB read gives. -/
def State.ldsbLane (s : State) (o L bytes : Nat) : State × EngAll × List (Nat × Nat) :=
  let p := s.op o
  let ps := pieces (p.cap1.adr (tget 0 p.vals L).toNat) bytes
  if p.cap1.len < (tget 0 p.vals L).toNat + bytes then (s, .fail 0 0x06, ps)
  else
    let (s, r) := settled (s.engReads o (s.glch p.gid).ctx (some p.cap1.gen) ps) p.gid
    (s, r, ps)

/-- The word that register `r` of an LDSB's run list receives from a lane's bytes (R318). -/
def ldsbWord (f : Word) (nb r : Nat) (bs : List Nat) : Word :=
  let (t, rr, sz) := ldsbShape f
  let run := r / 17
  let q := r % 17
  if q = 16 then
    w32 (ofBytes ((List.range 4).map fun j => if j < t ∧ run * t + j < nb then bs.getD ((run * t + j) * sz + (sz - 1)) 0 else 0))
  else w32 (ofBytes ((bs.drop ((run * t + q / rr) * sz + 4 * (q % rr))).take 4))

/-- LDSB is performed (R318, R323): lanes whose reads failed keep their registers and are named in the deferred trap. -/
def State.runLdsb (s : State) (o nb : Nat) : State :=
  let p := s.op o
  let (_, _, sz) := ldsbShape p.fmt
  let (s, rs) := (lanesOf (p.mask ||| p.helpers)).foldl
    (fun (r : State × List (Nat × EngAll × List (Nat × Nat))) L =>
      let (s, x) := r.1.ldsbLane o L (nb * sz)
      (s, r.2 ++ [(L, x)]))
    (s, [])
  let mine := rs.filter fun r => inMask p.mask r.1
  match mine.find? fun r => match r.2.1 with | .missing _ => true | _ => false with
  | some (_, .missing i, ps) => s.engPage o (ps.getD i (0, 0)).1 3 .matrixCommandComplete
  | _ =>
    if rs.any fun r => r.2.1 == .wait then s
    else
      let offs := ldsbOffs p.fmt (nb - 1)
      let put := fun (g : Group) (L : Nat) (w : Nat → Word) =>
        (p.dest.zip offs).foldl (fun g e => match e.1 with | .lane n => g.setPhys n L (w e.2) | _ => g) g
      let g := rs.foldl
        (fun g r =>
          match r.2.1 with
          | .vals vs => put g r.1 fun q => ldsbWord p.fmt nb q (pieceBytes r.2.2 vs)
          | _ => if inMask p.mask r.1 then g else put g r.1 fun _ => 0)
        (s.grp p.gid)
      let fs := mine.filterMap fun r =>
        match r.2.1 with
        | .fail i c => some (r.1, (tget 0 p.vals r.1).toNat, portTrap c (r.2.2.getD i (0, 0)).1 0)
        | _ => none
      let s := s.setGrp p.gid g
      if fs = [] then s.matDone o else s.matFail o (failTrap fs [])

/-! ## MATRIX_COMMAND_COMPLETE -/

/-- Command `o` is the oldest of its group's matrix commands. -/
def State.matHead (s : State) (o : Nat) : Bool :=
  let g := (s.op o).gid
  (tget [] (s.core (s.gblk g).core).matq g).head? == some o

/-- MATRIX_COMMAND_COMPLETE (R310, R312): the oldest command of a group is performed. -/
def execMatrixCommandComplete (op : Nat) (s : State) : Host.Outcome State Fault Refusal :=
  match tfind s.ops op with
  | none => .next s
  | some p =>
    if !s.matHead op then .next s
    else if !s.mayPerform op then .next (s.later (.matrixCommandComplete op))
    else
      match p.instr with
      | .mma _ z t _ _ _ => .next (s.runMma op z t)
      | .accz _ => .next (s.runAccz op)
      | .acccp _ => .next (s.runAcccp op)
      | .accld _ f => .next (s.runRows op .ld f)
      | .accst _ f => .next (s.runRows op .st f)
      | .accss _ f => .next (s.runRows op .ss f)
      | .accxa _ _ m => .next (s.runAccxa op m)
      | .accxr _ _ m => .next (s.runAccxr op m)
      | .cbld n _ _ => .next (s.runCbld op n.val)
      | .ldsb n _ _ _ => .next (s.runLdsb op (n.val + 1))
      | _ => .next s

end Sys2Proof.Machine
end

