-- ==== Sys2Proof/Machine/Bricks.lean ====
section
/-! DEFINITION. Sequences, bricks, brick maps and free lists as their engines keep them in memory, and what every appender does
with them (spec/12 R348 to R371, R377). -/

namespace Sys2Proof.Machine

/-! ## Records in memory -/

/-- A sequence descriptor (R350). -/
structure SeqD where
  st : Nat
  lq : Nat
  rsz : Nat
  spb : Nat
  scm : Nat
  hr : Nat
  fl : Nat
  pool : Nat
  efmt : Nat
  mapd : Nat
  rlen : Nat
  ovf : Nat
  gcnt : Nat
  sealc : Nat
  clen : Nat
  wlo : Nat
  cur : Nat
  wlen : Nat
  root : Nat
  gaps : Nat
  deriving DecidableEq, Repr

/-- A descriptor from its 64 bytes (R350). -/
def SeqD.ofBits (x : Nat) : SeqD where
  st := fld x 0 2
  lq := fld x 2 1
  rsz := fld x 8 8
  spb := fld x 16 4
  scm := fld x 20 2
  hr := fld x 22 2
  fl := fld x 24 6
  pool := fld x 32 24
  efmt := fld x 56 4
  mapd := fld x 60 4
  rlen := fld x 64 40
  ovf := fld x 104 8
  gcnt := fld x 112 5
  sealc := fld x 120 8
  clen := fld x 128 40
  wlo := fld x 192 40
  cur := fld x 256 40
  wlen := fld x 320 32
  root := fld x 352 32
  gaps := fld x 384 128

/-- The 64 bytes of a descriptor (R350). -/
def SeqD.bits (q : SeqD) : Nat :=
  q.st + 2 ^ 2 * q.lq + 2 ^ 8 * q.rsz + 2 ^ 16 * q.spb + 2 ^ 20 * q.scm + 2 ^ 22 * q.hr + 2 ^ 24 * q.fl + 2 ^ 32 * q.pool +
    2 ^ 56 * q.efmt + 2 ^ 60 * q.mapd + 2 ^ 64 * q.rlen + 2 ^ 104 * q.ovf + 2 ^ 112 * q.gcnt + 2 ^ 120 * q.sealc +
    2 ^ 128 * q.clen + 2 ^ 192 * q.wlo + 2 ^ 256 * q.cur + 2 ^ 320 * q.wlen + 2 ^ 352 * q.root + 2 ^ 384 * q.gaps

/-- Bytes of a record (R350). -/
def SeqD.recSize (q : SeqD) : Nat := 16 * (q.rsz + 1)

/-- S: slots of a brick (R350). -/
def SeqD.slots (q : SeqD) : Nat := 2 ^ q.spb

/-- A free-list entry (R351). -/
structure FreeL where
  pool : Nat
  bszl : Nat
  head : Nat
  hv : Nat
  count : Nat
  deriving DecidableEq, Repr

/-- A free-list entry from its 32 bytes (R351). -/
def FreeL.ofBits (x : Nat) : FreeL := ⟨fld x 0 24, fld x 32 5, fld x 64 40, fld x 127 1, fld x 128 32⟩

/-- The 32 bytes of a free-list entry (R351). -/
def FreeL.bits (f : FreeL) : Nat := f.pool + 2 ^ 32 * f.bszl + 2 ^ 64 * f.head + 2 ^ 127 * f.hv + 2 ^ 128 * f.count

/-- A brick header (R352). -/
structure Brick where
  scale : Nat
  sealed : Nat
  scv : Nat
  fill : Nat
  ref : Nat
  link : Nat
  lv : Nat
  cmap : Nat
  deriving DecidableEq, Repr

/-- A brick header from its 64 bytes (R352). -/
def Brick.ofBits (x : Nat) : Brick :=
  ⟨fld x 0 8, fld x 8 1, fld x 9 1, fld x 16 16, fld x 32 16, fld x 64 40, fld x 127 1, fld x 256 256⟩

/-- The 64 bytes of a brick header (R352). -/
def Brick.bits (b : Brick) : Nat :=
  b.scale + 2 ^ 8 * b.sealed + 2 ^ 9 * b.scv + 2 ^ 16 * b.fill + 2 ^ 32 * b.ref + 2 ^ 64 * b.link + 2 ^ 127 * b.lv + 2 ^ 256 * b.cmap

/-- A header that says nothing. -/
def Brick.zero : Brick := ⟨0, 0, 0, 0, 0, 0, 0, 0⟩

namespace State

/-- Bytes of an object are written by an engine at the home (R30): every line's tree is torn down first. -/
def hwrite (s : State) (ctx obj off n v : Nat) : State := s.owrite ctx obj off n v

/-- NSEQ: the handle limit of a context (R349). -/
def nseq (s : State) (c : Nat) : Nat :=
  if (s.ctx c).seq then Nat.min ((oSize (s.objRaw c (s.ctx c).seqArea) - 0x1000) / 64) (2 ^ 20) else 0

/-- Descriptor of a handle (R348). -/
def seqGet (s : State) (c h : Nat) : SeqD := SeqD.ofBits (s.oread c (s.ctx c).seqArea (0x1000 + 64 * h) 64)

/-- The sequence that an interrupt binding names, when it is enabled (R451). -/
def irqSeq (s : State) (n : Nat) : Option (Nat × Nat) :=
  let b := tget 0 s.link.irqb n
  if fld b 32 1 = 1 ∧ fld b 33 31 = 0 then some (fld b 20 12, fld b 0 20) else none

/-- The committed length of a sequence has advanced: the vectors bound to it are due at the next package tick (R451). -/
def irqNote (s : State) (c h : Nat) : State :=
  let ns := (s.link.irqb.map (·.1)).filter fun n => s.irqSeq n == some (c, h) && !s.link.irqDue.contains n
  { s with link := { s.link with irqDue := s.link.irqDue ++ ns } }

/-- The descriptor of a handle becomes `q`. -/
def seqPut (s : State) (c h : Nat) (q : SeqD) : State :=
  let old := s.seqGet c h
  let s := if (if old.st = 0 then 0 else old.clen) < q.clen then s.irqNote c h else s
  s.hwrite c (s.ctx c).seqArea (0x1000 + 64 * h) 64 q.bits

end State

/-- Where the entry of a list lies in the sequence area; list 64 is the map pool (R348). -/
def flAt (f : Nat) : Nat := if f = 64 then 0x800 else 32 * f

namespace State

/-- Entry of free list `f`. -/
def flGet (s : State) (c f : Nat) : FreeL := FreeL.ofBits (s.oread c (s.ctx c).seqArea (flAt f) 32)

/-- The entry of free list `f` becomes `x`. -/
def flPut (s : State) (c f : Nat) (x : FreeL) : State := s.hwrite c (s.ctx c).seqArea (flAt f) 32 x.bits

/-- Header of a brick (R352). -/
def brGet (s : State) (c pool b : Nat) : Brick := Brick.ofBits (s.oread c pool b 64)

/-- The header of a brick becomes `x`. -/
def brPut (s : State) (c pool b : Nat) (x : Brick) : State := s.hwrite c pool b 64 x.bits

/-- A brick is taken from the head of a list that is not empty (R372). -/
def flTake (s : State) (c f : Nat) : State × Nat :=
  let x := s.flGet c f
  let b := s.brGet c x.pool x.head
  ((s.flPut c f { x with head := b.link, hv := b.lv, count := x.count - 1 }).brPut c x.pool x.head { b with link := 0, lv := 0 }, x.head)

/-- What waits at a sequence looks again: an operation, or the completion of a launch, which waits under 2^60 + its number. -/
def lookAgain (s : State) (o : Nat) : State := s.push (if 2 ^ 60 ≤ o then .launchComplete (o - 2 ^ 60) else .sequenceAnswer o)

/-- Operations of a context that wait at their sequences look again. -/
def seqAgain (s : State) (c : Nat) : State := (s.seqWait.filter fun e => e.1 == c).foldl (fun s e => s.lookAgain e.2.2) s

/-- The first `n` bricks of a list, from its head. -/
def flHeads (s : State) (c f : Nat) : Nat → List Nat
  | 0 => []
  | n + 1 => let (t, b) := s.flTake c f; b :: flHeads t c f n

/-- A brick becomes the head of a list (R372). -/
def flGive (s : State) (c f b : Nat) : State :=
  let x := s.flGet c f
  let s := s.brPut c x.pool b { Brick.zero with link := x.head, lv := x.hv }
  (s.flPut c f { x with head := b, hv := 1, count := x.count + 1 }).seqAgain c

/-! ## The brick map (R354, R355) -/

/-- Entry `i` of a map node. -/
def nodeEntry (s : State) (c n i : Nat) : Nat := s.oread c (s.ctx c).mapPool (n + 8 * i) 8

/-- Entry `i` of a map node becomes `e`. -/
def setEntry (s : State) (c n i e : Nat) : State := s.hwrite c (s.ctx c).mapPool (n + 8 * i) 8 e

end State

/-- A map entry is valid (R354). -/
def entryValid (e : Nat) : Bool := fld e 63 1 == 1

namespace State

/-- The node of level `t` that leads to ordinal `k`, from node `n` of a level. -/
def nodeFrom (s : State) (c n k t : Nat) : Nat → Option Nat
  | 0 => none
  | j + 1 =>
    if j + 1 = t then some n
    else
      let e := s.nodeEntry c n (k / 32 ^ j % 32)
      if entryValid e then nodeFrom s c (fld e 0 40) k t j else none

/-- The node of level `t` of a sequence's map that leads to ordinal `k`. -/
def mapNode (s : State) (c : Nat) (q : SeqD) (k t : Nat) : Option Nat :=
  if q.mapd = 0 ∨ 32 ^ q.mapd ≤ k then none else s.nodeFrom c (256 * q.root) k t q.mapd

end State

/-- A brick that a sequence holds: its ordinal, its pool offset and the slots before it that hold no position (R354). -/
structure Held where
  k : Nat
  brk : Nat
  gb : Nat
  deriving DecidableEq, Repr

/-- P(k): the first position of a brick (R355). -/
def Held.first (x : Held) (q : SeqD) : Nat := x.k * q.slots - x.gb

namespace State

/-- Bricks below a node of a level whose first ordinal is `base` × 32^level. -/
def mapList (s : State) (c n base : Nat) : Nat → List Held
  | 0 => []
  | j + 1 =>
    (List.range 32).flatMap fun i =>
      let e := s.nodeEntry c n i
      if !entryValid e then []
      else if j = 0 then [⟨base * 32 + i, fld e 0 40, fld e 40 22⟩]
      else mapList s c (fld e 0 40) (base * 32 + i) j

/-- The bricks a sequence holds, ascending (R354). -/
def held (s : State) (c : Nat) (q : SeqD) : List Held := if q.mapd = 0 then [] else s.mapList c (256 * q.root) 0 q.mapd

/-- Header of a held brick. -/
def brickOf (s : State) (c : Nat) (q : SeqD) (x : Held) : Brick := s.brGet c q.pool x.brk

/-- A new map node: its 32 entries are invalid. -/
def newNode (s : State) (c : Nat) : State × Nat :=
  let (s, n) := s.flTake c 64
  (s.hwrite c (s.ctx c).mapPool n 256 0, n)

end State

/-- Least depth whose root covers ordinal `k` (R354). -/
def depthOf (k : Nat) : Nat := ((List.range 8).find? fun d => decide (k < 32 ^ (d + 1))).getD 7 + 1

namespace State

/-- The map grows to a depth: each new root has the old one as its entry 0 (R354). -/
def growMap (s : State) (c : Nat) (q : SeqD) : Nat → State × SeqD
  | 0 => (s, q)
  | n + 1 =>
    let (s, m) := s.newNode c
    growMap (s.setEntry c m 0 (2 ^ 63 + 256 * q.root)) c { q with root := m / 256, mapd := q.mapd + 1 } n

/-- The leaf node of ordinal `k` below node `n` of a level, with the nodes that are missing made. -/
def descend (s : State) (c n k : Nat) : Nat → State × Nat
  | 0 | 1 => (s, n)
  | j + 2 =>
    let i := k / 32 ^ (j + 1) % 32
    let e := s.nodeEntry c n i
    if entryValid e then descend s c (fld e 0 40) k (j + 1)
    else
      let (s, m) := s.newNode c
      descend (s.setEntry c n i (2 ^ 63 + m)) c m k (j + 1)

/-- A brick enters a sequence's map at its ordinal (R354). -/
def mapEnter (s : State) (c : Nat) (q : SeqD) (x : Held) : State × SeqD :=
  let (s, q) :=
    if q.mapd = 0 then
      let (s, m) := s.newNode c
      (s, { q with root := m / 256, mapd := depthOf x.k })
    else s.growMap c q (depthOf x.k - q.mapd)
  let (s, n) := s.descend c (256 * q.root) x.k q.mapd
  (s.setEntry c n (x.k % 32) (2 ^ 63 + 2 ^ 40 * (x.gb % 2 ^ 22) + x.brk), q)

/-- Map nodes that entering these ordinals takes (R354). -/
def mapNeed (s : State) (c : Nat) (q : SeqD) (ks : List Nat) : Nat :=
  if ks = [] then 0
  else
    let d := ks.foldl (fun m k => Nat.max m (depthOf k)) q.mapd
    let roots := if q.mapd = 0 then [] else (List.range (d - q.mapd)).map fun i => (q.mapd + 1 + i, 0)
    let paths := ks.flatMap fun k => (List.range d).map fun j => (j + 1, k / 32 ^ (j + 1))
    ((roots ++ paths).eraseDups.filter fun e => !(decide (e.1 ≤ q.mapd) && (s.mapNode c q (e.2 * 32 ^ e.1) e.1).isSome)).length

/-- No entry of a node is valid. -/
def nodeEmpty (s : State) (c n : Nat) : Bool := (List.range 32).all fun i => !entryValid (s.nodeEntry c n i)

/-- Entry of ordinal `k` below a node becomes invalid, and nodes left without a valid entry return to the map pool; whether the
node itself is left so. -/
def dropFrom (s : State) (c n k : Nat) : Nat → State × Bool
  | 0 => (s, false)
  | j + 1 =>
    let i := k / 32 ^ j % 32
    let e := s.nodeEntry c n i
    if !entryValid e then (s, s.nodeEmpty c n)
    else if j = 0 then
      let s := s.setEntry c n i (bitClr e 63)
      (s, s.nodeEmpty c n)
    else
      match dropFrom s c (fld e 0 40) k j with
      | (s, true) =>
        let s := (s.setEntry c n i (bitClr e 63)).flGive c 64 (fld e 0 40)
        (s, s.nodeEmpty c n)
      | (s, false) => (s, false)

/-- A brick leaves a sequence's map (R354, R369). -/
def mapDrop (s : State) (c : Nat) (q : SeqD) (k : Nat) : State × SeqD :=
  match s.dropFrom c (256 * q.root) k q.mapd with
  | (s, true) => (s.flGive c 64 (256 * q.root), { q with root := 0, mapd := 0 })
  | (s, false) => (s, q)

/-- Every node below and at a node returns to the map pool. -/
def freeNodes (s : State) (c n : Nat) : Nat → State
  | 0 => s
  | j + 1 =>
    let s := (List.range 32).foldl
      (fun s i =>
        let e := s.nodeEntry c n i
        if entryValid e ∧ j ≠ 0 then freeNodes s c (fld e 0 40) j else s)
      s
    s.flGive c 64 n

end State

/-! ## Instances (R349) -/

/-- Memory-side die whose instance serves a handle (R349). -/
def seqDie (h : Nat) : Nat := xorFold h 4 5

/-! ## Placing records (R358) -/

/-- maxf(EFMT) as m × 2^e (R358). -/
def maxf (efmt : Nat) : Nat := if efmt = 2 then 448 else if efmt = 3 then 57344 else 1

/-- A magnitude bound is above the range of a scale (R358): x as FP32. -/
def aboveScale (efmt scale x : Nat) : Bool :=
  match fp32.decode x with
  | .fin false m e => decide (0 < Val.scaled false m e (-149)) && decide ((maxf efmt * 2 ^ (scale + 22) : Int) < Val.scaled false m e (-149))
  | .inf false => true
  | _ => false

/-- SCALE that set_scale gives (R358). -/
def scaleFor (q : SeqD) (x : Nat) : Nat :=
  let m := match fp32.decode x with
    | .fin _ m e => (Val.scaled false m e (-149)).toNat
    | _ => (2 ^ 24 - 1) * 2 ^ 253
  Nat.min (scaleOver m (maxf q.efmt) 0 true + q.hr) 254

/-- A placed record: its position, brick, slot, scale, whether it is stored saturated, and the ordinals attached for it. -/
structure Placed where
  pos : Nat
  brk : Nat
  slot : Nat
  scale : Nat
  sat : Nat
  new : List Nat
  deriving DecidableEq, Repr

/-- What placing one record comes to (R358): the brick it goes to and its header before the record, the brick attached for it, whether the brick before
is sealed early, whether it is stored saturated, and the descriptor but for its map. -/
structure Plan where
  at_ : Held
  hdr : Brick
  new : Option Held
  seals : Bool
  sat : Nat
  seq : SeqD
  deriving DecidableEq, Repr

/-- Where a brick attached to a sequence stands in its map (R358): `t` is the brick of highest ordinal. -/
def SeqD.attachAt (q : SeqD) (t : Option (Held × Brick)) (b : Nat) : Held :=
  match t with
  | none =>
    let k := (q.rlen + q.slots - 1) / q.slots
    ⟨k, b, k * q.slots - q.rlen⟩
  | some (y, z) => ⟨y.k + 1, b, y.gb + q.slots - z.fill⟩

/-- place(Q, x) (R358), worked out: `b` is the brick at the free list's head. -/
def SeqD.plan (q : SeqD) (t : Option (Held × Brick)) (x b : Nat) : Plan :=
  let fresh : Bool := match t with | none => true | some (_, z) => z.sealed == 1 || decide (q.slots ≤ z.fill)
  let z0 : Brick := { Brick.zero with ref := 1 }
  let scaled := fun (z : Brick) => if q.scm = 1 then { z with scale := scaleFor q x, scv := 1 } else z
  let q' := { q with rlen := q.rlen + 1 }
  match t, fresh with
  | some (y, z), false =>
    if q.scm = 1 ∧ z.scv = 1 ∧ aboveScale q.efmt z.scale x then
      if q.gcnt < 16 ∧ y.gb + q.slots - z.fill < 2 ^ 22 then
        let n := q.attachAt t b
        ⟨n, scaled z0, some n, true, 0,
          { q' with gaps := q.gaps + 2 ^ (8 * q.gcnt) * ((q.slots - z.fill) % 256), gcnt := q.gcnt + 1, sealc := Nat.min (q.sealc + 1) 255 }⟩
      else ⟨y, z, none, false, 1, { q' with ovf := Nat.min (q.ovf + 1) 255 }⟩
    else ⟨y, if z.scv = 0 then scaled z else z, none, false, 0, q'⟩
  | _, _ =>
    let n := q.attachAt t b
    ⟨n, scaled z0, some n, false, 0, q'⟩

/-- The record that a plan places (R358). -/
def Plan.placed (p : Plan) (q : SeqD) : Placed :=
  ⟨q.rlen, p.at_.brk, p.hdr.fill, if q.scm = 1 then p.hdr.scale else 0, p.sat, p.new.toList.map (·.k)⟩

/-- The brick's header after the record. -/
def Plan.after (p : Plan) : Brick := { p.hdr with fill := p.hdr.fill + 1 }

/-- Records placed one at a time, worked out: `bs` are the bricks of the free list, 0 where it holds none (R358). -/
def SeqD.plans (q : SeqD) (t : Option (Held × Brick)) (bs : List Nat) : List Nat → List Placed
  | [] => []
  | x :: xs =>
    let p := q.plan t x (bs.headD 0)
    p.placed q :: SeqD.plans p.seq (some (p.at_, p.after)) (if p.new.isSome then bs.tail else bs) xs

/-- Of records to be placed those whose bricks are among the first `n` that are attached. -/
def Placed.within : Nat → List Placed → List Placed
  | _, [] => []
  | n, p :: t => if p.new.length ≤ n then p :: Placed.within (n - p.new.length) t else []

namespace State

/-- The brick of highest ordinal that a sequence holds, with its header. -/
def lastBrick (s : State) (c : Nat) (q : SeqD) : Option (Held × Brick) := (s.held c q).getLast?.map fun y => (y, s.brickOf c q y)

/-- What a reservation would place (R359, R360). -/
def plans (s : State) (c : Nat) (q : SeqD) (xs : List Nat) : List Placed :=
  q.plans (s.lastBrick c q) (s.flHeads c q.fl (Nat.min xs.length (s.flGet c q.fl).count)) xs

/-- place(Q, x) (R358). -/
def place (s : State) (c h : Nat) (q : SeqD) (x : Nat) : State × SeqD × Placed :=
  let t := s.lastBrick c q
  let p := q.plan t x (s.flGet c q.fl).head
  let s := match t, p.seals with
    | some (y, z), true => s.brPut c q.pool y.brk { z with sealed := 1 }
    | _, _ => s
  let (s, q') := match p.new with
    | some n => (s.flTake c q.fl).1.mapEnter c p.seq n
    | none => (s, p.seq)
  let s := if p.sat = 1 then (s.logErr 1 (seqDie h) 2 1 0 c none h).count 6 (seqDie h) 5 1 else s
  (s.brPut c q.pool p.at_.brk p.after, q', p.placed q)

/-- Records are placed one at a time (R358). -/
def places (s : State) (c h : Nat) (q : SeqD) (xs : List Nat) : State × SeqD × List Placed :=
  xs.foldl
    (fun r x =>
      let (s, q, p) := r.1.place c h r.2.1 x
      (s, q, r.2.2 ++ [p]))
    (s, q, [])

end State

/-- What a reservation answers. -/
inductive SeqRes where
  | got (ps : List Placed)
  | sealed
  | wait
  /-- the free list (64: the map pool) holds fewer bricks than this -/
  | empty (f need : Nat)
  deriving DecidableEq, Repr

/-- A reservation of one record for each bound (R359 to R361): worked out first, and made only when the free list, the map pool and
the commit window allow it. -/
def State.reserveAll (s : State) (c h : Nat) (xs : List Nat) : State × SeqRes :=
  let q := s.seqGet c h
  if q.st = 2 then (s, .sealed)
  else
    let new := (s.plans c q xs).flatMap (·.new)
    if (s.flGet c q.fl).count < new.length then (s, .empty q.fl new.length)
    else if (s.flGet c 64).count < s.mapNeed c q new then (s, .empty 64 (s.mapNeed c q new))
    else if 256 < q.rlen + xs.length - q.clen then (s, .wait)
    else
      let (t, q', ps) := s.places c h q xs
      (t.seqPut c h q', .got ps)

/-- SQRES's number of positions: up to `n` in the brick that the next record goes to (R359). -/
def State.resCount (s : State) (c h n x : Nat) : Nat :=
  let q := s.seqGet c h
  match s.plans c q [x] with
  | p :: _ => Nat.min n (q.slots - p.slot)
  | [] => 0

/-- Offset in the brick pool of a slot (R352). -/
def SeqD.slotAt (q : SeqD) (brk slot : Nat) : Nat := brk + 64 + slot * q.recSize

/-! ## Committing and windows (R362, R369) -/

namespace State

/-- The brick that holds a position: the last whose first position is not above it (R355). -/
def brickAt (s : State) (c : Nat) (q : SeqD) (p : Nat) : Option Held := ((s.held c q).filter fun x => decide (x.first q ≤ p)).getLast?

/-- The position is committed in its brick's CMAP. -/
def committed (s : State) (c : Nat) (q : SeqD) (p : Nat) : Bool :=
  match s.brickAt c q p with
  | some x => fld (s.brickOf c q x).cmap (p - x.first q) 1 == 1
  | none => false

/-- CLEN follows the committed positions, at most `n` of them (R362). -/
def advanceClen (s : State) (c : Nat) (q : SeqD) : Nat → SeqD
  | 0 => q
  | n + 1 => if q.clen < q.rlen ∧ s.committed c q q.clen then advanceClen s c { q with clen := q.clen + 1 } n else q

/-- brick_release(b) (R368): its last holder returns it to the free list. -/
def brickRelease (s : State) (c h : Nat) (q : SeqD) (b : Nat) : State :=
  let z := s.brGet c q.pool b
  let s := s.brPut c q.pool b { z with ref := z.ref - 1 }
  if z.ref ≤ 1 then (s.flGive c q.fl b).count 6 (seqDie h) 4 1 else s

/-- advance_window(Q) (R369). -/
def advanceWindow (s : State) (c h : Nat) (q : SeqD) : State × SeqD :=
  let q := if q.wlen ≠ 0xFFFFFFFF ∧ q.wlen < q.clen then { q with wlo := Nat.max q.wlo (q.clen - q.wlen) } else q
  let (s, q) := (s.held c q).foldl
    (fun (r : State × SeqD) x =>
      if x.first r.2 + (r.1.brickOf c r.2 x).fill ≤ r.2.wlo then
        let (s, q) := r.1.mapDrop c r.2 x.k
        (s.brickRelease c h q x.brk, q)
      else r)
    (s, q)
  (s, { q with cur := Nat.max q.cur q.wlo })

/-- A commit on a launch queue's sequence gives its queue work (R134): unmapped it begins to wait for a slot, mapped its records may be
accepted. -/
def queueWork (s : State) (c h : Nat) : State :=
  let mine := fun (e : Nat × Queue) => e.1 / 1024 == c && e.2.seq == h && e.2.st != .off
  let f := fun (e : Nat × Queue) =>
    if mine e then
      match e.2.st with
      | .ie => (e.1, { e.2 with st := .iw, since := s.tick, bound := false, mostW := 0, leastS := 0 })
      | .me => (e.1, { e.2 with st := .mw })
      | _ => e
    else e
  let s : State := { s with le := { s.le with queues := s.le.queues.map f } }
  (s.le.queues.filter fun e => mine e && e.2.st == .mw).foldl (fun s e => s.push (.recordAccept c (e.1 % 1024))) s

/-- Positions p to p + m − 1 are committed (R362), and operations that waited look again. -/
def commitAt (s : State) (c h p m : Nat) : State :=
  let q := s.seqGet c h
  let s := (List.range m).foldl
    (fun s i =>
      match s.brickAt c q (p + i) with
      | some x => let z := s.brickOf c q x; s.brPut c q.pool x.brk { z with cmap := bitSet z.cmap (p + i - x.first q) }
      | none => s)
    s
  let q := s.advanceClen c q 257
  let (s, q) := s.advanceWindow c h q
  let s := (s.seqPut c h q).seqAgain c
  if q.lq = 1 then s.queueWork c h else s

/-- Bytes are stored to an object, in pieces of 16 that lie in one page. -/
def hstore (s : State) (ctx obj off : Nat) (bs : List Nat) : State :=
  (List.range ((bs.length + 15) / 16)).foldl
    (fun s i =>
      let b := (bs.drop (16 * i)).take 16
      s.hwrite ctx obj (off + 16 * i) b.length (ofBytes b))
    s

/-- A reservation: of a group's operation, or for the record of a launch that completes. -/
def isReservation (s : State) (o : Nat) : Bool :=
  decide (2 ^ 60 ≤ o) || match (s.op o).instr with | .sqres _ _ | .sqapp _ _ _ | .launch _ _ _ => true | _ => false

/-- An earlier reservation waits on the same sequence (R361). -/
def behind (s : State) (c h o : Nat) : Bool :=
  (s.seqWait.takeWhile fun e => e.2.2 != o).any fun e => e.1 == c && e.2.1 == h && s.isReservation e.2.2

/-- A record is appended at its sequence by `o`: a reservation of one position, its fill and its commit (R377), two operations applied (R379), behind the
reservations that wait there (R361). -/
def appendRec (s : State) (c h o : Nat) (bs : List Nat) : State × SeqRes :=
  if s.behind c h o then (s, .wait)
  else match s.reserveAll c h [0] with
  | (s, .got ps) =>
    let p := ps.headD ⟨0, 0, 0, 0, 0, []⟩
    let q := s.seqGet c h
    ((((s.hstore c q.pool (q.slotAt p.brk p.slot) bs).commitAt c h p.pos 1)).count 6 (seqDie h) 0 2, .got ps)
  | r => r

/-- A handle names an open or sealed sequence of a context (R356). -/
def seqValid (s : State) (c h : Nat) : Bool := h != 0 && decide (h < s.nseq c) && (s.seqGet c h).st != 0

/-! ## Creating and releasing (R365, R368) -/

end State

/-- Values of SQNEW's configuration word and window that R365 allows. -/
def newLegal (w wlen : Nat) : Bool :=
  fld w 23 1 == 0 && fld w 28 4 == 0 && decide (fld w 8 4 ≤ 8) && decide (fld w 12 2 ≤ 1) && wlen != 0 &&
    (if fld w 12 2 = 1 then 2 ≤ fld w 24 4 && fld w 24 4 ≤ 4 else fld w 24 4 == 0)

/-- What creating a sequence answers: a status, or a trap's cause and value. -/
inductive NewRes where
  | status (n : Nat)
  | trap (cause val : Nat)
  deriving DecidableEq, Repr

/-- An empty sequence of a configuration (R365): `obj` is the pool that the capability names, if one was used. -/
def State.seqNew (s : State) (c h w wlen : Nat) (obj : Option Nat) : State × NewRes :=
  if h = 0 ∨ s.nseq c ≤ h then (s, .status 2)
  else if (s.seqGet c h).st ≠ 0 then (s, .status 1)
  else
    let f := s.flGet c (fld w 16 6)
    let q : SeqD := { SeqD.ofBits 0 with
      st := 1, lq := fld w 22 1, rsz := fld w 0 8, spb := fld w 8 4, scm := fld w 12 2, hr := fld w 14 2, fl := fld w 16 6
      pool := f.pool, efmt := fld w 24 4, wlen := wlen }
    if f.pool = 0 then (s, .trap 0x09 (fld w 16 6))
    else if obj.any fun o => o != f.pool then (s, .trap 0x07 h)
    else if 2 ^ f.bszl < 64 + q.slots * q.recSize then (s, .trap 0x06 w)
    else (s.seqPut c h q, .status 0)

/-- Every brick and map node of a sequence is released and its descriptor is zero; operations that waited on the handle end with
object absent (R368). -/
def State.seqRelease (s : State) (c h : Nat) : State :=
  let q := s.seqGet c h
  let s := (s.held c q).foldl (fun s x => s.brickRelease c h q x.brk) s
  let s := if q.mapd = 0 then s else s.freeNodes c (256 * q.root) q.mapd
  let s := s.hwrite c (s.ctx c).seqArea (0x1000 + 64 * h) 64 0
  let ws := s.seqWait.filter fun e => e.1 == c && e.2.1 == h
  ws.foldl
    (fun s e =>
      let p := s.op e.2.2
      if 2 ^ 60 ≤ e.2.2 then s.lookAgain e.2.2 else
      ((s.completeOp e.2.2).deferTrap p.gid ⟨0x09, w32 (p.ps.getD 0 0), 0, p.mask, []⟩).push (.waitEventWake p.gid))
    { s with seqWait := s.seqWait.filter fun e => !ws.contains e }

end Sys2Proof.Machine
end

