-- ==== Sys2Proof/Machine/Sequence.lean ====
section
/-! DEFINITION. The sequence and free-list instructions (spec/12 R356 to R379). -/

namespace Sys2Proof.Machine

/-! ## Issue (R356, R378) -/

/-- A sequence or free-list instruction leaves its core: `legal` says what its parameter block may hold, `priv` whether it needs a
privileged context, `die` where it is served; `mk` adds what it reads and its destinations. -/
def seqIssue (i : Instr) (a : RF) (n : Nat) (legal : List Nat → Bool) (priv : List Nat → Bool) (die : Nat → Nat) (s : State)
    (mk : Group → Op → Op) : Host.Outcome State Fault Refusal :=
  issueWord i s fun k g =>
    let p := g.params a n
    let w := p.getD 0 0
    let c := g.cap (fld w 24 4)
    if fld w 28 4 ≠ 0 ∨ !legal p then s.trapHere k (g.wide 0x01 g.word 0)
    else if priv p ∧ !(s.ctx (s.glch k).ctx).priv then s.trapHere k (g.wide 0x03 g.word 0)
    else if c.kind ≠ 3 ∨ c.rights &&& rightS = 0 then s.trapHere k (g.wide 0x07 (w32 (fld w 24 4)) 0)
    else
      let o := { g.newOp k i with
        ps := p, cap1 := c, stage := .issued, cls := quadClass (s.gblk k).core (die w) }
      (s.issueOp k (mk g o)).push (.sequenceAnswer s.nextOp)

/-- Bits [23:20] of a handle word are zero. -/
def handleLegal (p : List Nat) : Bool := fld (p.getD 0 0) 20 4 == 0

/-- Bits [23:6] of a list word are zero. -/
def listLegal (p : List Nat) : Bool := fld (p.getD 0 0) 6 18 == 0

/-- Die of a handle word's handle. -/
def wordDie (w : Nat) : Nat := seqDie (fld w 0 20)

/-- A handle instruction with a legal block. -/
def handleIssue (i : Instr) (a : RF) (n : Nat) (legal : List Nat → Bool) (s : State) (mk : Group → Op → Op) :
    Host.Outcome State Fault Refusal :=
  seqIssue i a n (fun p => handleLegal p && legal p) (fun _ => false) wordDie s mk

/-- SQRES (R359). -/
def execSqres (d a : RF) (s : State) : Host.Outcome State Fault Refusal :=
  handleIssue (.sqres d a) a 3 (fun p => 1 ≤ p.getD 1 0 && p.getD 1 0 ≤ 256) s fun g o => { o with dest := g.destRegs d 4 }

/-- SQCOM (R362). -/
def execSqcom (a : RF) (s : State) : Host.Outcome State Fault Refusal :=
  handleIssue (.sqcom a) a 4 (fun p => p.getD 2 0 / 256 == 0 && 1 ≤ p.getD 3 0 && p.getD 3 0 ≤ 256) s fun _ o => o

/-- SQAPP (R360): its bounds are read in every lane. -/
def execSqapp (d a b : RF) (s : State) : Host.Outcome State Fault Refusal :=
  handleIssue (.sqapp d a b) a 2 (fun p => 1 ≤ p.getD 1 0 && p.getD 1 0 ≤ 32) s fun g o =>
    { o with
      dest := g.destRegs d 2 ++ g.destRegs b 2
      vals := (List.range 32).foldl (fun m L => tset 0 m L (g.src d 1 L)) [] }

/-- SQLEN (R363). -/
def execSqlen (d a : RF) (s : State) : Host.Outcome State Fault Refusal :=
  handleIssue (.sqlen d a) a 1 (fun _ => true) s fun g o => { o with dest := g.destRegs d 2 }

/-- SQRLEN (R363). -/
def execSqrlen (d a : RF) (s : State) : Host.Outcome State Fault Refusal :=
  handleIssue (.sqrlen d a) a 1 (fun _ => true) s fun g o => { o with dest := g.destRegs d 2 }

/-- SQWLO (R363). -/
def execSqwlo (d a : RF) (s : State) : Host.Outcome State Fault Refusal :=
  handleIssue (.sqwlo d a) a 1 (fun _ => true) s fun g o => { o with dest := g.destRegs d 2 }

/-- SQMAP (R364): per lane. -/
def execSqmap (d a b : RF) (s : State) : Host.Outcome State Fault Refusal :=
  handleIssue (.sqmap d a b) a 3 (fun p => p.getD 2 0 / 256 == 0) s fun g o =>
    { o with
      dest := g.destRegs d 1
      vals := (lanesOf g.act).foldl (fun m L => tset 0 m L (g.src b 0 L)) [] }

/-- SQFORK (R366). -/
def execSqfork (d a : RF) (s : State) : Host.Outcome State Fault Refusal :=
  handleIssue (.sqfork d a) a 4 (fun p => p.getD 2 0 / 256 == 0 && p.getD 3 0 / 2 ^ 20 == 0) s fun g o =>
    { o with dest := g.destRegs d 1 }

/-- SQNEW (R365). -/
def execSqnew (d a : RF) (s : State) : Host.Outcome State Fault Refusal :=
  seqIssue (.sqnew d a) a 3 (fun p => handleLegal p && newLegal (p.getD 1 0) (p.getD 2 0)) (fun p => fld (p.getD 1 0) 22 1 == 1)
    wordDie s fun g o => { o with dest := g.destRegs d 1 }

/-- SQREL (R368). -/
def execSqrel (a : RF) (s : State) : Host.Outcome State Fault Refusal :=
  handleIssue (.sqrel a) a 1 (fun _ => true) s fun _ o => o

/-- SQWIN (R369). -/
def execSqwin (a : RF) (s : State) : Host.Outcome State Fault Refusal :=
  handleIssue (.sqwin a) a 2 (fun p => p.getD 1 0 != 0) s fun _ o => o

/-- SQTAKE (R370). -/
def execSqtake (d a : RF) (s : State) : Host.Outcome State Fault Refusal :=
  handleIssue (.sqtake d a) a 2 (fun p => 1 ≤ p.getD 1 0 && p.getD 1 0 ≤ 256) s fun g o => { o with dest := g.destRegs d 2 }

/-- SQSEAL (R371). -/
def execSqseal (a : RF) (s : State) : Host.Outcome State Fault Refusal :=
  handleIssue (.sqseal a) a 1 (fun _ => true) s fun _ o => o

/-- A free-list instruction. -/
def listIssue (i : Instr) (a : RF) (n : Nat) (s : State) (mk : Group → Op → Op) : Host.Outcome State Fault Refusal :=
  seqIssue i a n listLegal (fun _ => false) (fun w => fld w 0 6 % 16) s mk

/-- FLPOP (R372). -/
def execFlpop (d a : RF) (s : State) : Host.Outcome State Fault Refusal :=
  listIssue (.flpop d a) a 1 s fun g o => { o with dest := g.destRegs d 1 }

/-- FLPUSH (R372). -/
def execFlpush (a : RF) (s : State) : Host.Outcome State Fault Refusal := listIssue (.flpush a) a 2 s fun _ o => o

/-- FLCNT (R372). -/
def execFlcnt (d a : RF) (s : State) : Host.Outcome State Fault Refusal :=
  listIssue (.flcnt d a) a 1 s fun g o => { o with dest := g.destRegs d 1 }

/-! ## At the instance (R357, R378) -/

namespace State

/-- An operation waits at its sequence (R361, R370): it is cleared. -/
def seqPark (s : State) (c h o : Nat) : State :=
  let p := s.op o
  if p.stage = .seqWait then s
  else
    ({ s.setOp o { p with stage := .seqWait } with seqWait := s.seqWait ++ [(c, h, o)] }).count 6 (seqDie h) 1 1

/-- An operation leaves its sequence. -/
def seqLeave (s : State) (o : Nat) : State := { s with seqWait := s.seqWait.filter fun e => e.2.2 != o }

/-- An operation at its sequence or list is over; a group that waits for it in view of the scheduler is woken (R177). -/
def seqEnd (s : State) (o : Nat) : State :=
  let g := (s.op o).gid
  let s := ((s.seqLeave o).completeOp o).settle 2
  if (s.grp g).sched.sv.isSome then s.push (.waitEventWake g) else s

/-- Die of the instance that serves an operation (R349). -/
def servedOn (s : State) (o : Nat) : Nat :=
  let w := (s.op o).ps.getD 0 0
  match (s.op o).instr with
  | .flpop _ _ | .flpush _ | .flcnt _ _ => fld w 0 6 % 16
  | _ => wordDie w

/-- An operation has been applied: it is counted, and it is over. -/
def seqOver (s : State) (o : Nat) : State := (s.count 6 (s.servedOn o) 0 1).seqEnd o

/-- The answer goes to the destinations (R357). -/
def seqDone (s : State) (o : Nat) (vs : List Word) : State :=
  let p := s.op o
  (s.setGrp p.gid ((s.grp p.gid).putsAll p.dest p.mask p.helpers vs)).seqOver o

/-- A refused operation: a precise trap, or a deferred one when it has already been cleared (R368). -/
def seqTrap (s : State) (o cause : Nat) (v hi : Word) : State :=
  let p := s.op o
  let t : Trap := ⟨cause, v, hi, p.mask, []⟩
  if p.stage = .seqWait then (s.seqEnd o).deferTrap p.gid t else s.trapOp o t

/-- The first poisoned one of some global addresses (R416). -/
def firstPoisoned (s : State) (as : List Nat) : Option Nat := as.find? s.poisonedSector

/-- Sectors of the map nodes that lead to an ordinal. -/
def pathSectors (s : State) (c : Nat) (q : SeqD) (k : Nat) : List Nat :=
  ((List.range q.mapd).filterMap fun j => s.mapNode c q k (j + 1)).flatMap fun n =>
    [(s.ctx c).mapPool * 2 ^ 40 + n, (s.ctx c).mapPool * 2 ^ 40 + n + 128]

/-- Sectors of the headers and map paths of some bricks. -/
def brickSectors (s : State) (c : Nat) (q : SeqD) (xs : List Held) : List Nat :=
  xs.flatMap fun x => (q.pool * 2 ^ 40 + x.brk) :: s.pathSectors c q x.k

/-- The descriptor of a handle, and the entry of a list, in the sequence area. -/
def areaAt (s : State) (c off : Nat) : Nat := (s.ctx c).seqArea * 2 ^ 40 + off

/-- Headers of the first `n` bricks of a list, which are taken from it. -/
def popped (s : State) (c f n : Nat) : List Nat :=
  let pool := if f = 64 then (s.ctx c).mapPool else (s.flGet c f).pool
  (s.flHeads c f n).map (pool * 2 ^ 40 + ·)

/-- What reads sectors answers only when none of them is poisoned: the last of the causes of R378. -/
def sound (s : State) (o : Nat) (as : List Nat) (t : State) : State :=
  match s.firstPoisoned as with
  | some a => s.seqTrap o 0x0B (w32 a) (w32 (a / 2 ^ 32 % 256))
  | none => t

/-- Sectors that an operation on a sequence reads. -/
def seqSectors (s : State) (c h : Nat) (q : SeqD) (p : Op) : List Nat :=
  let hs := s.held c q
  s.areaAt c (0x1000 + 64 * h) ::
    (match p.instr with
      | .sqres _ _ | .sqapp _ _ _ => s.brickSectors c q hs.getLast?.toList
      | .sqcom _ | .sqwin _ | .sqfork _ _ | .sqrel _ => s.brickSectors c q hs
      | .sqmap _ _ _ => hs.flatMap fun x => s.pathSectors c q x.k
      | _ => [])

end State

/-- Displacement of a slot through a capability (R355). -/
def slotDisp (q : SeqD) (c : Cap) (brk slot : Nat) : Int := (q.slotAt brk slot : Int) - c.base

/-- A slot lies outside a capability (R359, R364). -/
def slotOut (q : SeqD) (c : Cap) (d : Int) : Bool := decide (d < 0) || decide ((c.len : Int) < d + q.recSize)

/-- A displacement as a register value. -/
def dispWord (d : Int) : Word := BitVec.ofInt 32 d

namespace State

/-- SQRES and SQAPP at the instance (R359, R360): `xs` are the bounds, `answer` the destinations' values for the placed records,
`none` for a sealed sequence. A slot outside the capability comes before an empty list (R378): of the slots in bricks the list has. -/
def runReserve (s : State) (o c h : Nat) (xs : List Nat) (answer : State → SeqD → Option (List Placed) → State) : State :=
  let p := s.op o
  let q := s.seqGet c h
  let base := s.seqSectors c h q p
  let out := fun (ps : List Placed) => ps.find? fun x => slotOut q p.cap1 (slotDisp q p.cap1 x.brk x.slot)
  let ps := s.plans c q xs
  let bad := fun (x : Placed) => s.seqTrap o 0x06 (dispWord (slotDisp q p.cap1 x.brk x.slot)) 0
  let park := fun (_ : Unit) =>
    if p.stage = .seqWait then s else match out ps with | some x => bad x | none => s.sound o base (s.seqPark c h o)
  match s.reserveAll c h xs with
  | (_, .sealed) => s.sound o base (answer s q none)
  | (_, .empty f need) =>
    if p.stage = .seqWait then s
    else match out (if f = 64 then ps else Placed.within (s.flGet c q.fl).count ps) with
      | some x => bad x
      | none => s.seqTrap o 0x10 (w32 f) (w32 need)
  | (_, .wait) => park ()
  | (t, .got ps) =>
    if s.behind c h o then park ()
    else
      match out ps with
      | some x => bad x
      | none =>
        let new := ps.flatMap (·.new)
        s.sound o (base ++ s.popped c q.fl new.length ++ s.popped c 64 (s.mapNeed c q new)) ((answer t q (some ps)).seqAgain c)

/-- SQRES (R359). -/
def runSqres (s : State) (o c h : Nat) : State :=
  let p := s.op o
  let x := p.ps.getD 2 0
  s.runReserve o c h (List.replicate (s.resCount c h (p.ps.getD 1 0) x) x) fun s q r =>
    match r with
    | some (f :: t) =>
      s.seqDone o [w32 f.pos, w32 (f.pos / 2 ^ 32 + 256 * f.scale + 65536 * f.sat), w32 (t.length + 1),
        dispWord (slotDisp q p.cap1 f.brk f.slot)]
    | _ => s.seqDone o [0xFFFFFFFF, 0, 0, 0xFFFFFFFF]

/-- SQAPP (R360). -/
def runSqapp (s : State) (o c h : Nat) : State :=
  let p := s.op o
  let n := p.ps.getD 1 0
  s.runReserve o c h ((List.range n).map fun L => (tget 0 p.vals L).toNat) fun s q r =>
    let ps := r.getD []
    let v := fun L k =>
      match ps[L]? with
      | some x => if k = 0 then dispWord (slotDisp q p.cap1 x.brk x.slot) else w32 (x.scale + 256 * x.sat)
      | none => if k = 0 then 0xFFFFFFFF else 0
    let at_ := match ps with | x :: _ => [w32 x.pos, w32 (x.pos / 2 ^ 32)] | [] => [0xFFFFFFFF, 0xFFFFFFFF]
    let k := match p.instr with | .sqapp d _ _ => if d.val = 127 then 0 else 2 | _ => 2
    let g := (s.grp p.gid).puts (p.dest.take k) p.mask p.helpers fun k L => v L k
    (s.setGrp p.gid (g.putsAll (p.dest.drop k) p.mask p.helpers at_)).seqOver o

/-- SQCOM (R362). -/
def runSqcom (s : State) (o c h : Nat) : State :=
  let p := s.op o
  let at_ := wide40 (p.ps.getD 1 0) (p.ps.getD 2 0)
  let m := p.ps.getD 3 0
  let last := at_ + m - 1
  if (s.seqGet c h).rlen < at_ + m then s.seqTrap o 0x11 (w32 last) (w32 (0x100 + last / 2 ^ 32 % 256))
  else s.sound o (s.seqSectors c h (s.seqGet c h) p) ((s.commitAt c h at_ m).seqDone o [])

/-- What SQMAP gives one position (R364): a displacement or the masked value, or the value of TLANE and the trap. -/
def mapOne (s : State) (c : Nat) (q : SeqD) (cap : Cap) (p : Nat) : Except (Nat × Trap) Word :=
  if q.clen ≤ p then .error (p, ⟨0x11, w32 p, w32 (p / 2 ^ 32), 0, []⟩)
  else if p < q.wlo then .ok 0xFFFFFFFF
  else
    match s.brickAt c q p with
    | some x =>
      let d := slotDisp q cap x.brk (p - x.first q)
      if slotOut q cap d then .error ((dispWord d).toNat, ⟨0x06, dispWord d, 0, 0, []⟩) else .ok (dispWord d)
    | none => .error (0, ⟨0x06, 0, 0, 0, []⟩)

/-- SQMAP (R364): the lanes that did not fail have their values before the others trap. -/
def runSqmap (s : State) (o c h : Nat) : State :=
  let p := s.op o
  let q := s.seqGet c h
  let base := wide40 (p.ps.getD 1 0) (p.ps.getD 2 0)
  let rs := (lanesOf (p.mask ||| p.helpers)).map fun L => (L, s.mapOne c q p.cap1 ((base + (tget 0 p.vals L).toNat) % 2 ^ 40))
  let fs := rs.filterMap fun r =>
    match r.2 with
    | .error (t, f) => if inMask p.mask r.1 then some (r.1, t, f) else none
    | .ok _ => none
  let val := fun L => match rs.find? fun r => r.1 == L with | some (_, .ok v) => v | _ => 0
  let ok := p.mask &&& ~~~maskList (fs.map (·.1))
  let t := s.setGrp p.gid ((s.grp p.gid).puts p.dest ok p.helpers fun _ L => val L)
  if fs = [] then s.sound o (s.seqSectors c h q p) (t.seqOver o) else t.trapOp o (failTrap fs [])

/-- Bytes of slots are copied within a pool, in pieces of 16. -/
def hcopy (s : State) (c pool dst src n : Nat) : State :=
  (List.range (n / 16)).foldl (fun s i => s.hwrite c pool (dst + 16 * i) 16 (s.oread c pool (src + 16 * i) 16)) s

/-- The bricks a fork at `L` shares, each with its header, and its cut brick: none for an empty range (R366). -/
def forkParts (s : State) (c : Nat) (q : SeqD) (L : Nat) : List (Held × Brick) × Option (Held × Brick) :=
  let hs := ((s.held c q).map fun x => (x, s.brickOf c q x)).filter fun e =>
    decide (q.wlo < L) && decide (q.wlo < e.1.first q + e.2.fill) && decide (e.1.first q < L) && e.2.fill != 0
  let sh := hs.filter fun e => (e.2.sealed == 1 || decide (q.slots ≤ e.2.fill)) && decide (e.1.first q + e.2.fill ≤ L)
  (sh, hs.find? fun e => decide (e.1.first q < L) && decide (L ≤ e.1.first q + e.2.fill) && !sh.contains e)

/-- SQFORK's new sequence (R366). -/
def fork (s : State) (c h n L : Nat) (sh : List (Held × Brick)) (cut : Option (Held × Brick)) : State :=
  let q := s.seqGet c h
  let s := sh.foldl (fun s e => s.brPut c q.pool e.1.brk { e.2 with ref := e.2.ref + 1 }) s
  let gs := (sh.filter fun e => e.2.sealed == 1).map fun e => q.slots - e.2.fill
  let x : SeqD := { q with
    st := 1, lq := 0, mapd := 0, root := 0, rlen := L, clen := L, wlo := Nat.min q.wlo L, cur := Nat.min q.cur L, ovf := 0
    gcnt := gs.length, sealc := gs.length, gaps := ofBytes gs }
  let (s, x) := sh.foldl (fun (r : State × SeqD) e => r.1.mapEnter c r.2 e.1) (s, x)
  match cut with
  | none => (s.seqPut c n x).count 6 (seqDie h) 2 1
  | some (y, z) =>
    let (s, b) := s.flTake c q.fl
    let m := L - y.first q
    let s := s.brPut c q.pool b { Brick.zero with scale := z.scale, scv := z.scv, fill := m, ref := 1, cmap := fld z.cmap 0 m }
    let s := s.hcopy c q.pool (b + 64) (y.brk + 64) (m * q.recSize)
    let (s, x) := s.mapEnter c x { y with brk := b }
    ((s.seqPut c n x).count 6 (seqDie h) 2 1).count 6 (seqDie h) 3 1

/-- SQFORK (R366). -/
def runSqfork (s : State) (o c h : Nat) : State :=
  let p := s.op o
  let q := s.seqGet c h
  let L := wide40 (p.ps.getD 1 0) (p.ps.getD 2 0)
  let n := p.ps.getD 3 0
  let (sh, cut) := s.forkParts c q L
  let need := s.mapNeed c { q with mapd := 0 } ((sh ++ cut.toList).map fun e => e.1.k)
  let base := s.seqSectors c h q p
  if q.lq = 1 then s.seqTrap o 0x07 (w32 (p.ps.getD 0 0)) 0
  else if q.clen < L then s.seqTrap o 0x11 (w32 L) (w32 (L / 2 ^ 32))
  else if n = 0 ∨ s.nseq c ≤ n then s.sound o base (s.seqDone o [2])
  else if n = h ∨ (s.seqGet c n).st ≠ 0 then s.sound o (s.areaAt c (0x1000 + 64 * n) :: base) (s.seqDone o [1])
  else
    match sh.find? fun e => e.2.ref == 65535 with
    | some e => s.seqTrap o 0x12 (w32 e.1.brk) (w32 (e.1.brk / 2 ^ 32))
    | none =>
      if cut.isSome ∧ (s.flGet c q.fl).count = 0 then s.seqTrap o 0x10 (w32 q.fl) 1
      else if (s.flGet c 64).count < need then s.seqTrap o 0x10 64 (w32 need)
      else
        s.sound o (s.areaAt c (0x1000 + 64 * n) :: base ++ s.popped c q.fl cut.toList.length ++ s.popped c 64 need)
          ((s.fork c h n L sh cut).seqDone o [0])

/-- SQTAKE (R370). -/
def runSqtake (s : State) (o c h : Nat) : State :=
  let p := s.op o
  let q := s.seqGet c h
  if q.lq = 1 then s.seqTrap o 0x07 (w32 (p.ps.getD 0 0)) 0
  else if q.cur < q.clen ∨ (q.st = 2 ∧ q.cur = q.rlen) then
    let m := Nat.min (p.ps.getD 1 0) (q.clen - q.cur)
    s.sound o (s.seqSectors c h q p) ((s.seqPut c h { q with cur := q.cur + m }).seqDone o [w32 q.cur, w32 (q.cur / 2 ^ 32 + 256 * m)])
  else if p.stage = .seqWait then s
  else s.sound o (s.seqSectors c h q p) (s.seqPark c h o)

/-- A length as a pair of words (R363). -/
def lengthWords (n : Nat) : List Word := [w32 n, w32 (n / 2 ^ 32)]

/-- An operation on a valid sequence is applied (R357). -/
def runHandle (s : State) (o c h : Nat) : State :=
  let p := s.op o
  let q := s.seqGet c h
  let base := s.seqSectors c h q p
  match p.instr with
  | .sqres _ _ => s.runSqres o c h
  | .sqapp _ _ _ => s.runSqapp o c h
  | .sqcom _ => s.runSqcom o c h
  | .sqlen _ _ => s.sound o base (s.seqDone o (lengthWords q.clen))
  | .sqrlen _ _ => s.sound o base (s.seqDone o (lengthWords q.rlen))
  | .sqwlo _ _ => s.sound o base (s.seqDone o (lengthWords q.wlo))
  | .sqmap _ _ _ => s.runSqmap o c h
  | .sqfork _ _ => s.runSqfork o c h
  | .sqrel _ =>
    if q.lq = 1 then s.seqTrap o 0x07 (w32 (p.ps.getD 0 0)) 0 else s.sound o base ((s.seqRelease c h).seqDone o [])
  | .sqwin _ =>
    let (t, q) := s.advanceWindow c h { q with wlen := p.ps.getD 1 0 }
    s.sound o base (((t.seqPut c h q).seqAgain c).seqDone o [])
  | .sqtake _ _ => s.runSqtake o c h
  | .sqseal _ => s.sound o base (((s.seqPut c h { q with st := 2 }).seqAgain c).seqDone o [])
  | _ => s

/-- SQNEW (R365). -/
def runSqnew (s : State) (o c h : Nat) : State :=
  let p := s.op o
  match s.seqNew c h (p.ps.getD 1 0) (p.ps.getD 2 0) (some p.cap1.obj) with
  | (t, .status n) =>
    s.sound o (if n = 2 then [] else s.areaAt c (0x1000 + 64 * h) :: if n = 0 then [s.areaAt c (flAt (fld (p.ps.getD 1 0) 16 6))] else [])
      (t.seqDone o [w32 n])
  | (t, .trap cause v) => t.seqTrap o cause (w32 (if cause = 0x07 then p.ps.getD 0 0 else v)) 0

/-- A free-list instruction is applied (R372). -/
def runList (s : State) (o c f : Nat) : State :=
  let p := s.op o
  let x := s.flGet c f
  let b := p.cap1.base + p.ps.getD 1 0
  let d : Int := (x.head : Int) - p.cap1.base
  let base := [s.areaAt c (flAt f)]
  if x.pool = 0 then s.seqTrap o 0x09 (w32 f) 0
  else if x.pool ≠ p.cap1.obj then s.seqTrap o 0x07 (w32 (p.ps.getD 0 0)) 0
  else
    match p.instr with
    | .flpop _ _ =>
      if x.count = 0 then s.sound o base (s.seqDone o [0xFFFFFFFF])
      else if d < 0 ∨ (p.cap1.len : Int) < d + 2 ^ x.bszl then s.seqTrap o 0x06 (dispWord d) 0
      else s.sound o (base ++ s.popped c f 1) ((s.flTake c f).1.seqDone o [dispWord d])
    | .flpush _ =>
      if p.cap1.len < p.ps.getD 1 0 + 2 ^ x.bszl then s.seqTrap o 0x06 (w32 (p.ps.getD 1 0)) 0
      else if b % 2 ^ x.bszl ≠ 0 then s.seqTrap o 0x05 (w32 (p.ps.getD 1 0)) 1
      else s.sound o base ((s.flGive c f b).seqDone o [])
    | _ => s.sound o base (s.seqDone o [w32 x.count])

/-- What the home reads for an operation passes its port: A is set in the pages read (R406, R408). -/
def noteReads (s : State) (c : Nat) (as : List Nat) : State := as.foldl (fun s a => s.noteRead c a) s

/-- A sequence or free-list operation reaches its instance, or looks again after a wait: it is applied once the group's older operations allow
it (R96, R103, R356, R357). -/
def runSeq (s : State) (o : Nat) : State :=
  let p := s.op o
  let c := (s.glch p.gid).ctx
  let w := p.ps.getD 0 0
  let h := fld w 0 20
  let q := s.seqGet c h
  if !s.mayPerform o then s.later (.sequenceAnswer o)
  else
    match p.instr with
    | .flpop _ _ | .flpush _ | .flcnt _ _ => (s.noteReads c [s.areaAt c (flAt (fld w 0 6))]).runList o c (fld w 0 6)
    | .sqnew _ _ => (s.noteReads c [s.areaAt c (0x1000 + 64 * h)]).runSqnew o c h
    | _ =>
      if !s.seqValid c h then s.seqTrap o 0x09 (w32 w) 0
      else if q.pool ≠ p.cap1.obj then s.seqTrap o 0x07 (w32 w) 0
      else (s.noteReads c (s.seqSectors c h q p)).runHandle o c h

end State

end Sys2Proof.Machine
end

