-- ==== Sys2Proof/Machine/Merge.lean ====
section
/-! DEFINITION. The merge engine (spec/13 R380 to R399). -/

namespace Sys2Proof.Machine

/-! ## Token matrices and regions (R382, R394) -/

/-- A token matrix (R382). -/
structure Toks where
  off : Nat
  stride : Nat
  dim : Nat
  deriving DecidableEq, Repr

/-- A token matrix from T0 and T1; none when a value is outside its limits (R382). -/
def toks (t0 t1 : Nat) : Option Toks :=
  let x : Toks := ⟨fld t0 0 21, fld t1 0 16, fld t1 16 9⟩
  if fld t0 21 11 = 0 ∧ fld t1 25 7 = 0 ∧ x.dim % 32 = 0 ∧ 32 ≤ x.dim ∧ x.dim ≤ 256 ∧ x.stride % 16 = 0 ∧ 2 * x.dim ≤ x.stride
  then some x else none

/-- Bytes of `n` rows from the first to the last (R382). -/
def Toks.extent (x : Toks) (n : Nat) : Nat := (n - 1) * x.stride + 2 * x.dim

/-- A region of scratchpad: offset, length and the multiple its offset must be. -/
structure Reg where
  off : Nat
  len : Nat
  align : Nat
  deriving DecidableEq, Repr

/-- Two regions share a byte. -/
def Reg.meets (x y : Reg) : Bool := decide (x.off < y.off + y.len) && decide (y.off < x.off + x.len)

/-- The first written region that meets an earlier-named one. -/
def firstMeet (before : List Reg) : List Reg → Option Reg
  | [] => none
  | w :: t => if before.any w.meets then some w else firstMeet (before ++ [w]) t

/-- The checks of R397 on a command's regions, in their order. -/
def regTrap (scr : Nat) (reads writes : List Reg) : Option (Nat × Nat × Nat) :=
  let rs := reads ++ writes
  match rs.find? fun r => decide (scr < r.off + r.len) with
  | some r => some (0x06, r.off, 0)
  | none =>
    match firstMeet reads writes with
    | some r => some (0x06, r.off, 0)
    | none =>
      match rs.find? fun r => r.off % r.align != 0 with
      | some r => some (0x05, r.off, 1)
      | none => none

/-- A merge command with a legal block joins its core's engine, which takes up the oldest (R380, R381). -/
def State.enqueueMerge (s : State) (k : Nat) (p : Op) : State :=
  let o := s.nextOp
  let core := (s.gblk k).core
  let s := s.issueOp k p
  let c := s.core core
  let s := s.setCore core { c with mq := c.mq ++ [o] }
  if c.mq = [] then s.push (.mergeCommandComplete o) else s

/-- A merge command issues: `plan` gives its regions when the parameter block is legal (R380, R397). -/
def mergeIssue (i : Instr) (a : RF) (n : Nat) (dest : Group → List PReg) (plan : List Nat → Option (List Reg × List Reg))
    (s : State) : Host.Outcome State Fault Refusal :=
  issueWord i s fun k g =>
    let p := g.params a n
    match plan p with
    | none => s.trapHere k (g.wide 0x01 g.word 0)
    | some (rs, ws) =>
      match regTrap (s.glch k).scr rs ws with
      | some t => s.cmdTrap k t
      | none => s.enqueueMerge k { g.newOp k i with ps := p, dest := dest g }

/-- N and P of a parameter word; none outside their limits (R384, R386). -/
def countsOf (w : Nat) : Option (Nat × Nat) :=
  let n := fld w 0 13
  let p := fld w 16 13
  if fld w 13 3 = 0 ∧ fld w 29 3 = 0 ∧ n % 2 = 0 ∧ 2 ≤ n ∧ n ≤ 4096 ∧ p ≤ n then some (n, p) else none

/-- Regions of MGMATCH (R384, R394). -/
def matchPlan (p : List Nat) : Option (List Reg × List Reg) :=
  match toks (p.getD 0 0) (p.getD 1 0), countsOf (p.getD 2 0) with
  | some x, some (n, _) =>
    if p.getD 3 0 ≤ 2048 then some ([⟨x.off, x.extent n, 16⟩], [⟨p.getD 4 0, 4 * n, 8⟩]) else none
  | _, _ => none

/-- Regions of MGMERGE (R386, R394). -/
def mergePlan (p : List Nat) : Option (List Reg × List Reg) :=
  match countsOf (p.getD 0 0), toks (p.getD 2 0) (p.getD 3 0), toks (p.getD 4 0) (p.getD 5 0) with
  | some (n, _), some k, some v =>
    let ks := fld (p.getD 9 0) 0 16
    let vs := fld (p.getD 9 0) 16 16
    if ks % 16 ≠ 0 ∨ vs % 16 ≠ 0 ∨ ks < 2 * k.dim ∨ vs < 2 * v.dim then none
    else
      let sizes := if p.getD 6 0 = 0xFFFFFFFF then [] else [(⟨p.getD 6 0, 2 * n, 2⟩ : Reg)]
      some ([⟨k.off, k.extent n, 16⟩, ⟨v.off, v.extent n, 16⟩, ⟨p.getD 1 0, 4 * n, 8⟩] ++ sizes,
        [⟨p.getD 7 0, (n - 1) * ks + 2 * k.dim, 16⟩, ⟨p.getD 8 0, (n - 1) * vs + 2 * v.dim, 16⟩, ⟨p.getD 10 0, 2 * n, 2⟩,
          ⟨p.getD 12 0, 16 + 2 * n, 16⟩, ⟨p.getD 11 0, 256, 16⟩])
  | _, _, _ => none

/-- Regions of MGSPLIT; the header is checked but is neither of its named regions (R390, R394, R397). -/
def splitPlan (p : List Nat) : Option (List Reg × List Reg) :=
  let n := p.getD 1 0
  match toks (p.getD 2 0) (p.getD 3 0) with
  | some x =>
    let st := p.getD 5 0
    if n = 0 ∨ 4096 < n ∨ 65536 ≤ st ∨ st % 16 ≠ 0 ∨ st < 2 * x.dim then none
    else some ([⟨x.off, x.extent n, 16⟩], [⟨p.getD 4 0, (n - 1) * st + 2 * x.dim, 16⟩])
  | none => none

/-- Regions of MGBIAS (R392, R394). -/
def biasPlan (p : List Nat) : Option (List Reg × List Reg) :=
  let n := p.getD 1 0
  if n = 0 ∨ 4096 < n then none else some ([⟨p.getD 0 0, 2 * n, 2⟩], [⟨p.getD 2 0, 4 * n, 4⟩])

/-- MGMATCH (R384). -/
def execMgmatch (d a : RF) (s : State) : Host.Outcome State Fault Refusal :=
  mergeIssue (.mgmatch d a) a 5 (fun g => g.destRegs d 1) matchPlan s

/-- MGMERGE (R386). -/
def execMgmerge (d a : RF) (s : State) : Host.Outcome State Fault Refusal :=
  mergeIssue (.mgmerge d a) a 13 (fun g => g.destRegs d 1) mergePlan s

/-- A command that names only a map stack, whose header at SB lies beyond the scratchpad or is not a multiple of 16: R391 and R393 give capability
bounds for both (log entry 20). -/
def headerTrap (scr sb : Nat) : Option (Nat × Nat × Nat) :=
  if scr < sb + 256 ∨ sb % 16 ≠ 0 then some (0x06, sb, 0) else none

/-- MGSPLIT (R390): its header at SB is checked with its regions. -/
def execMgsplit (a : RF) (s : State) : Host.Outcome State Fault Refusal :=
  issueWord (.mgsplit a) s fun k g =>
    let p := g.params a 6
    let scr := (s.glch k).scr
    let sb := p.getD 0 0
    match splitPlan p with
    | none => s.trapHere k (g.wide 0x01 g.word 0)
    | some (rs, ws) =>
      let t :=
        if scr < sb + 256 then some (0x06, sb, 0)
        else
          match regTrap scr rs ws with
          | some (0x06, v, h) => some (0x06, v, h)
          | r => if sb % 16 ≠ 0 then some (0x05, sb, 1) else r
      match t with
      | some t => s.cmdTrap k t
      | none => s.enqueueMerge k { g.newOp k (.mgsplit a) with ps := p }

/-- MGBIAS (R392). -/
def execMgbias (a : RF) (s : State) : Host.Outcome State Fault Refusal := mergeIssue (.mgbias a) a 3 (fun _ => []) biasPlan s

/-- A command that names only a map stack (R391, R393). -/
def stackIssue (i : Instr) (a : RF) (dest : Group → List PReg) (s : State) : Host.Outcome State Fault Refusal :=
  issueWord i s fun k g =>
    let p := g.params a 1
    match headerTrap (s.glch k).scr (p.getD 0 0) with
    | some t => s.cmdTrap k t
    | none => s.enqueueMerge k { g.newOp k i with ps := p, dest := dest g }

/-- MGPOP (R391). -/
def execMgpop (a : RF) (s : State) : Host.Outcome State Fault Refusal := stackIssue (.mgpop a) a (fun _ => []) s

/-- MGSTAT (R393). -/
def execMgstat (d a : RF) (s : State) : Host.Outcome State Fault Refusal :=
  stackIssue (.mgstat d a) a (fun g => g.destRegs d 1) s

/-! ## Reading tokens -/

namespace State

/-- Element `k` of row `n` of a token matrix, as BF16 bits. -/
def tok (s : State) (b : Nat) (x : Toks) (n k : Nat) : Nat := s.sread b (x.off + n * x.stride + 2 * k) 2

/-- The exact values of a row. -/
def tokRow (s : State) (b : Nat) (x : Toks) (n : Nat) : List Val := (List.range x.dim).map fun k => bf16.decode (s.tok b x n k)

/-- The first marked word of some regions of a block (R396). -/
def markIn (s : State) (b : Nat) (rs : List Reg) : Option Nat :=
  rs.findSome? fun r =>
    (List.range (r.len / 4 + 2)).findSome? fun i =>
      let w := r.off / 4 * 4 + 4 * i
      if (s.blk b).marked.contains w ∧ w < r.off + r.len then some w else none

/-- The bytes of the rows of a token matrix. -/
def rowRegs (x : Toks) (n : Nat) : List Reg := (List.range n).map fun i => ⟨x.off + i * x.stride, 2 * x.dim, 1⟩

end State

/-- Sum of products by R81 with C = +0 (R83). -/
def mgDot (x y : List Val) : Nat := chunkSum (List.zipWith Val.mul x y) 0

/-- mg_sim (R383), as FP32 bits. -/
def mgSim (x y : List Val) : Nat :=
  (fp32.decode (mgDot x y)).div32 (val32 (fsqrt (w32 (fmulF fp32 (mgDot x x) (mgDot y y)))))

/-- Similarity `a` ranks above `b` (R383). -/
def simAbove (a b : Nat) : Bool :=
  if fp32.isNan a then false else if fp32.isNan b then true else fcompareF fp32 a b == some .gt

/-- Of some candidates with their similarities, the first of highest rank. -/
def simBest (l : List (Nat × Nat)) : Option (Nat × Nat) :=
  l.foldl (fun b c => match b with | none => some c | some x => if simAbove c.2 x.2 then some c else some x) none

/-- An A index placed by its similarity: before the first that ranks below it. -/
def simInsert (c : Nat × Nat) : List (Nat × Nat) → List (Nat × Nat)
  | [] => [c]
  | x :: t => if simAbove c.2 x.2 then c :: x :: t else x :: simInsert c t

/-! ## The commands (R384 to R393) -/

namespace State

/-- A merge command completes: it is counted, and the next one begins (R381, R399). -/
def mergeDone (s : State) (o : Nat) : State :=
  let core := (s.gblk (s.op o).gid).core
  ((s.unqueue o .mergeCommandComplete).completeOp o).count 7 core 0 1

/-- A merge command completes with its result. -/
def mergeAnswer (s : State) (o v : Nat) : State :=
  let p := s.op o
  (s.setGrp p.gid ((s.grp p.gid).putsAll p.dest p.mask p.helpers [w32 v])).mergeDone o

/-- A merge command ends with a deferred trap (R397). -/
def mergeFail (s : State) (o cause v hi : Nat) : State :=
  let core := (s.gblk (s.op o).gid).core
  (s.engFail o ⟨cause, w32 v, w32 hi, (s.op o).mask, []⟩ .mergeCommandComplete).count 7 core 0 1

/-- MGMATCH is performed (R384, R385). -/
def runMatch (s : State) (o : Nat) : State :=
  let p := s.op o
  let b := (s.grp p.gid).blk
  match toks (p.ps.getD 0 0) (p.ps.getD 1 0), countsOf (p.ps.getD 2 0) with
  | some x, some (n, pr) =>
    match s.markIn b (rowRegs x n) with
    | some w => s.mergeFail o 0x0B w 0
    | none =>
      let hf := n / 2
      let C := (List.range hf).filter fun j => decide (pr ≤ 2 * j + 1)
      let best := (List.range hf).map fun i =>
        if 2 * i < pr then none
        else simBest (C.map fun j => (j, mgSim (s.tokRow b x (2 * i)) (s.tokRow b x (2 * j + 1))))
      let L := (best.zipIdx).foldl (fun l e => match e.1 with | some (_, v) => simInsert (e.2, v) l | none => l) []
      let sel := (L.take (p.ps.getD 3 0)).map (·.1)
      let tab := p.ps.getD 4 0
      let s := (best.zipIdx).foldl
        (fun s e =>
          let v := match e.1 with
            | some (j, sim) => j + (if sel.contains e.2 then 2 ^ 16 else 0) + 2 ^ 32 * sim
            | none => 0xFFFF
          s.swrite b (tab + 8 * e.2) 8 v)
        s
      s.mergeAnswer o sel.length
  | _, _ => s.mergeDone o

end State

/-- Element of mg_avg (R387): sizes with element values, and the sum of the sizes. -/
def mgAvg (ts : List (Nat × Val)) (sigma : Nat) : Nat :=
  let T := ts.map fun e => (Val.fin false e.1 0).mul e.2
  let y :=
    match T with
    | [] => fp32.nan
    | t :: r =>
      match r.foldl Val.add t with
      | .nan => fp32.nan
      | .inf neg => fp32.signed neg 0x7F800000
      | v => (fp32.decode (v.round fp32 .rne false)).div32 (.fin false sigma 0)
  (fp32.decode y).round bf16 .rne false

namespace State

/-- DEPTH of the stack at SB (R388). -/
def depthAt (s : State) (b sb : Nat) : Nat := s.sread b sb 4 % 16

/-- The header at SB is lost (R388, R396). -/
def headerLost (s : State) (b sb : Nat) : Bool := decide (8 < s.depthAt b sb) || (s.blk b).markedAt sb 8

/-- Size of position q (R386). -/
def sizeAt (s : State) (b off q : Nat) : Nat := if off = 0xFFFFFFFF then 1 else s.sread b (off + 2 * q) 2

/-- One merged row is written (R386, R387). -/
def putRow (s : State) (b : Nat) (t : State) (x : Toks) (sizes out : Nat) (g : List Nat) (sigma : Nat) : State :=
  (List.range x.dim).foldl
    (fun s k =>
      s.swrite b (out + 2 * k) 2 (mgAvg (g.map fun q => (t.sizeAt b sizes q, bf16.decode (t.tok b x q k))) sigma))
    s

/-- MGMERGE's writes (R386): every input is read from the state `t` before the command. -/
def doMerge (t : State) (o b n pr : Nat) (k v : Toks) : State :=
  let p := (t.op o).ps
  let core := (t.blk b).core
  let hf := n / 2
  let tab := p.getD 1 0
  let sb := p.getD 11 0
  let depth := t.depthAt b sb
  let gen := t.sread b (sb + 4) 4
  let bidx := fun i => t.sread b (tab + 8 * i) 2
  let hon := fun i =>
    fld (t.sread b (tab + 8 * i) 4) 16 1 == 1 && decide (pr ≤ 2 * i) && decide (bidx i < hf) && decide (pr ≤ 2 * bidx i + 1)
  let sv := fun q => if q % 2 = 0 ∧ hon (q / 2) then 2 * bidx (q / 2) + 1 else q
  let U := (List.range n).filter fun u => sv u == u
  let m := U.length
  let s := U.zipIdx.foldl
    (fun s e =>
      let g := (List.range n).filter fun q => sv q == e.1
      let sigma := g.foldl (fun a q => a + t.sizeAt b (p.getD 6 0) q) 0
      let s := s.putRow b t k (p.getD 6 0) (p.getD 7 0 + e.2 * fld (p.getD 9 0) 0 16) g sigma
      let s := s.putRow b t v (p.getD 6 0) (p.getD 8 0 + e.2 * fld (p.getD 9 0) 16 16) g sigma
      let s := s.swrite b (p.getD 10 0 + 2 * e.2) 2 (Nat.min sigma 65535)
      if 65535 < sigma then
        (s.setBlk b { s.blk b with ssat := Nat.min ((s.blk b).ssat + 1) 255 }).count 7 core 2 1
      else s)
    t
  let body := p.getD 12 0
  let s := s.swrite b body 16 (gen + 2 ^ 32 * (n + 2 ^ 16 * m))
  let s := (List.range n).foldl (fun s q => s.swrite b (body + 16 + 2 * q) 2 (U.idxOf (sv q))) s
  let s := s.swrite b (sb + 0x10 + 16 * depth) 16 (body + 2 ^ 32 * (n + 2 ^ 16 * m) + 2 ^ 64 * gen)
  let s := (s.swrite b sb 4 (depth + 1)).swrite b (sb + 4) 4 ((gen + 1) % 2 ^ 32)
  (s.count 7 core 1 ((List.range hf).filter hon).length).mergeAnswer o m

/-- MGMERGE is performed (R386). -/
def runMerge (s : State) (o : Nat) : State :=
  let p := s.op o
  let b := (s.grp p.gid).blk
  let sb := p.ps.getD 11 0
  match countsOf (p.ps.getD 0 0), toks (p.ps.getD 2 0) (p.ps.getD 3 0), toks (p.ps.getD 4 0) (p.ps.getD 5 0) with
  | some (n, pr), some k, some v =>
    if s.headerLost b sb then s.mergeFail o 0x13 sb 2
    else if s.depthAt b sb = 8 then (s.count 7 (s.blk b).core 3 1).mergeAnswer o 0xFFFFFFFF
    else
      let sizes := if p.ps.getD 6 0 = 0xFFFFFFFF then [] else [(⟨p.ps.getD 6 0, 2 * n, 2⟩ : Reg)]
      match s.markIn b (rowRegs k n ++ rowRegs v n ++ [⟨p.ps.getD 1 0, 4 * n, 8⟩] ++ sizes) with
      | some w => s.mergeFail o 0x0B w 0
      | none => s.doMerge o b n pr k v
  | _, _, _ => s.mergeDone o

/-- Entry `k` of the stack at SB cannot be used (R390, R396): it is marked or LOST, or its body is beyond the scratchpad, marked or
does not agree with it. -/
def mapLost (s : State) (b sb k : Nat) : Bool :=
  let at_ := sb + 0x10 + 16 * k
  let off := s.sread b at_ 4
  let nm := s.sread b (at_ + 4) 4
  let n := fld nm 0 13
  let m := fld nm 16 13
  (s.blk b).markedAt at_ 16 || fld (s.sread b (at_ + 12) 4) 0 1 == 1 || off % 16 != 0 ||
    decide ((s.lch (s.blk b).launch).scr < off + 16 + 2 * n) || (s.blk b).markedAt off (16 + 2 * n) ||
    s.sread b off 4 != s.sread b (at_ + 8) 4 || fld (s.sread b (off + 4) 4) 0 13 != n || fld (s.sread b (off + 4) 4) 16 13 != m ||
    (List.range n).any fun q => decide (m ≤ s.sread b (off + 16 + 2 * q) 2)

/-- MGSPLIT is performed (R390). -/
def runSplit (s : State) (o : Nat) : State :=
  let p := s.op o
  let b := (s.grp p.gid).blk
  let sb := p.ps.getD 0 0
  let n := p.ps.getD 1 0
  let d := s.depthAt b sb
  match toks (p.ps.getD 2 0) (p.ps.getD 3 0) with
  | none => s.mergeDone o
  | some x =>
    if s.headerLost b sb then s.mergeFail o 0x13 sb 2
    else if d = 0 then s.mergeFail o 0x13 sb 0
    else
      let at_ := sb + 0x10 + 16 * (d - 1)
      if s.mapLost b sb (d - 1) then
        let was := fld (s.sread b (at_ + 12) 4) 0 1 == 1 && !(s.blk b).markedAt (at_ + 12) 4
        let s := if was then s else (s.swrite b (at_ + 12) 4 1).count 7 (s.blk b).core 4 1
        s.mergeFail o 0x13 sb 1
      else if n ≠ fld (s.sread b (at_ + 4) 4) 0 13 then s.mergeFail o 0x13 n 3
      else
        let off := s.sread b at_ 4
        let idx := (List.range n).map fun q => s.sread b (off + 16 + 2 * q) 2
        match s.markIn b (idx.map fun i => (⟨x.off + i * x.stride, 2 * x.dim, 1⟩ : Reg)) with
        | some w => s.mergeFail o 0x0B w 0
        | none =>
          let rows := idx.map fun i => s.sread b (x.off + i * x.stride) (2 * x.dim)
          (rows.zipIdx.foldl (fun s r => s.swrite b (p.ps.getD 4 0 + r.2 * p.ps.getD 5 0) (2 * x.dim) r.1) s).mergeDone o

/-- MGBIAS is performed (R392). -/
def runBias (s : State) (o : Nat) : State :=
  let p := s.op o
  let b := (s.grp p.gid).blk
  let at_ := p.ps.getD 0 0
  let n := p.ps.getD 1 0
  match s.markIn b [⟨at_, 2 * n, 2⟩] with
  | some w => s.mergeFail o 0x0B w 0
  | none =>
    let vs := (List.range n).map fun i =>
      (flog2 (w32 ((Val.fin false (s.sread b (at_ + 2 * i) 2) 0).round fp32 .rne false))).toNat
    (vs.zipIdx.foldl (fun s e => s.swrite b (p.ps.getD 2 0 + 4 * e.2) 4 e.1) s).mergeDone o

/-- MGPOP is performed (R391). -/
def runPop (s : State) (o : Nat) : State :=
  let p := s.op o
  let b := (s.grp p.gid).blk
  let sb := p.ps.getD 0 0
  if s.headerLost b sb then s.mergeFail o 0x13 sb 2
  else if s.depthAt b sb = 0 then s.mergeFail o 0x13 sb 0
  else (s.swrite b sb 4 (s.depthAt b sb - 1)).mergeDone o

/-- MGSTAT is performed (R393). -/
def runStat (s : State) (o : Nat) : State :=
  let p := s.op o
  let b := (s.grp p.gid).blk
  let sb := p.ps.getD 0 0
  let d := s.depthAt b sb
  let st :=
    if s.headerLost b sb then 32 else d + (if d ≠ 0 ∧ s.mapLost b sb (d - 1) then 16 else 0)
  s.mergeAnswer o (st + 256 * (s.blk b).ssat)

end State

/-- MERGE_COMMAND_COMPLETE (R381): the oldest command of the engine is performed. -/
def execMergeCommandComplete (op : Nat) (s : State) : Host.Outcome State Fault Refusal :=
  match tfind s.ops op with
  | none => .next s
  | some p =>
    if (s.core (s.gblk p.gid).core).mq.head? ≠ some op then .next s
    else if !s.mayPerform op then .next (s.later (.mergeCommandComplete op))
    else
      match p.instr with
      | .mgmatch _ _ => .next (s.runMatch op)
      | .mgmerge _ _ => .next (s.runMerge op)
      | .mgsplit _ => .next (s.runSplit op)
      | .mgbias _ => .next (s.runBias op)
      | .mgpop _ => .next (s.runPop op)
      | .mgstat _ _ => .next (s.runStat op)
      | _ => .next s

end Sys2Proof.Machine
end

