-- ==== Sys2Proof/Machine/Slab.lean ====
section
/-! DEFINITION. The mesh's geometry, and slabs of lines homed on another package: requests and answers at proxy roots and slab roots, and
atomics on a peer's memory (spec/14 R424, spec/15 R427, R431, R440, R441, spec/16 R456). -/

namespace Sys2Proof.Machine

/-! ## The local side of a slab (R440, R441) -/

/-- What a requester sees of a refusal (R457, R460). -/
def statusCause (r : RmaStatus) : Nat :=
  match r with
  | .done => 0
  | .absent => 0x09
  | .tenant => 0x1C
  | .rights => 0x07
  | .poisoned => 0x0B
  | .appendFailed | .lost => 0x1B

/-- A walker's read or a monitor's is in flight. -/
def Op.rereads (p : Op) : Bool := match p.instr, p.stage with | .wgo _, .parts _ | .monclr _, _ => true | _, _ => false

namespace State

/-- Every entry of a slab's tree goes. -/
def dropSlabTree (s : State) (slab : Nat) : State :=
  { s with fab := { s.fab with tree := s.fab.tree.filter fun e => e.1 % 2 ^ 57 != 2 ^ 56 + slab } }

/-- Accesses that a slab's answer made ready, and that are not performed yet, are checked afresh when the slab is taken away. -/
def unready (s : State) (slab : Nat) (pick : Instr → Bool) : State :=
  let hit := fun (a : Acc) => a.st == .ready && a.blk.isNone && a.mt == 2 && a.adr / 4096 == slab
  s.ops.foldl
    (fun (s : State) (e : Nat × Op) =>
      if pick e.2.instr && e.2.accs.any hit then
        let s := s.setOp e.1 { e.2 with accs := e.2.accs.map fun a => if hit a then { a with st := .need } else a }
        (needLines ((e.2.accs.filter hit).map fun a => { a with st := .need })).foldl (fun s l => s.push (.portCheck e.1 l)) s
      else s)
    s

/-- The 256 bytes of a peer's line. -/
def peerBytes (s : State) (l : Nat) : List Nat := mbytes s.link.peerMem (256 * l) 256

/-- Lines of a slab are returned to its home, one message for each, and then an empty one ends the answer. -/
def returnLines (s : State) (port : Nat) (m : SlabMsg) (ls : List Nat) (wrap : SlabMsg → LinkMsg) : State :=
  let m := { m with reply := true, pkg := s.link.domPkg, refused := none }
  (ls.foldl (fun s l => s.linkSend port (wrap { m with line := l % 16, data := s.peerBytes l })) s).linkSend port (wrap { m with data := [] })

/-- Messages that routers hold for a slab are handled afresh. -/
def releaseSlab (s : State) (slab : Nat) : State :=
  (s.fab.held.filter fun e => e.2.2.key == slab && e.2.2.slab).foldl (fun s e => s.push (.heldMessageRelease e.1 slab true)) s

/-- An agent's data of a slab's line is on its way. -/
def dataComes (s : State) (core a l : Nat) : Bool :=
  s.agenda.any fun e => match e with | .data m => m.slab && m.core == core && m.agent == a && 16 * m.key + (m.sector - 1) == l | _ => false

/-- Reads of a slab's lines in flight end in state I, and are made again (R438); a read that a SNOOP asked a holder for in vain is sent again. -/
def endReads (s : State) (slab : Nat) : State :=
  s.cores.foldl
    (fun s e => e.2.lines.foldl
      (fun (s : State) (x : Nat × CLine) =>
        let l := x.1 / 4
        if l / 16 ≠ slab ∨ x.2.mt ≠ 2 ∨ fld x.2.pending 0 2 = 0 then s
        else if fld x.2.pending 10 1 = 0 ∨ s.dataComes e.1 (x.1 % 4) l then s.setLine e.1 (x.1 % 4) l { s.line e.1 (x.1 % 4) l with pending := bitSet (s.line e.1 (x.1 % 4) l).pending 3 }
        else
          let y := s.line e.1 (x.1 % 4) l
          let root := match s.slabIndex (y.pa / 65536 % 4) slab with | some p => portRouter p + 1 | none => 0
          (s.setLine e.1 (x.1 % 4) l { y with pending := bitClr y.pending 10 }).push (.rd (slabMsg e.1 (x.1 % 4) l y.tag y.ctx root)))
      s)
    s

/-- Every line of a slab leaves this package's caches, with its tree and bytes (R441); monitors of its words read them again (R296). -/
def clearSlab (s : State) (slab : Nat) : State :=
  let s := ((s.unready slab fun _ => true).dropSlabTree slab).endReads slab
  let s := (slabLines slab).foldl (fun s l => s.invCopies l fun _ => false) s
  (({ s with link := { s.link with peerMem := mzero s.link.peerMem (4096 * slab) 4096 } } : State).touch (4096 * slab) 4096).releaseSlab slab

/-- The proxy root is tearing down copies of a line of a slab for a new owner, that owner's GRANT is on its way, or dirty sectors are on theirs: a request
of the home waits (R435, R437). -/
def slabMoving (s : State) (slab : Nat) : Bool :=
  (match s.proxyPort slab with | some p => (s.tent (portRouter p) true slab).st == .tearing | none => false) ||
    (s.agenda.any fun e => match e with | .grant m | .wb m => m.slab && m.key == slab | _ => false) || (slabLines slab).any s.dirtyInMesh

/-- A slab leaves this package at its home's request, or as an eviction at its proxy root: dirty lines go home (R441). -/
def giveSlab (s : State) (port : Nat) (m : SlabMsg) : State :=
  (s.returnLines port m ((slabLines m.slab).filter s.lineDirty) .slabTeardown).clearSlab m.slab

/-- A slab exclusive here is downgraded: M becomes O, E becomes S, and the line asked for, where it is held, and the dirty ones return (R441). -/
def lowerSlab (s : State) (port : Nat) (m : SlabMsg) : State :=
  let s := s.unready m.slab fun i => !i.isRead
  let s := s.returnLines port m ((slabLines m.slab).filter fun l => s.lineDirty l || (l == 16 * m.slab + m.line && s.holdersOf l != [])) .slabDowngrade
  let s := (slabLines m.slab).foldl shareLine s
  let r := portRouter port
  let e := s.tent r true m.slab
  s.setTent r true m.slab (if e.pst = 0 then e else { e with pst := 1 })

/-- The tag under which an agent's request for a line leaves its package; `own` for one that fetches a line for its new owner. -/
def agentTag (core agent : Nat) (own : Bool) : Nat := 2 ^ 60 + (if own then 2 ^ 40 else 0) + 8 * core + agent

/-- The 256 bytes of a line come here, unless newer ones are here. -/
def storeLine (s : State) (l : Nat) (data : List Nat) : State :=
  if s.lineDirty l || s.dirtyInMesh l then s else { s with link := { s.link with peerMem := mstore s.link.peerMem (256 * l) (data.take 256) } }

/-- The proxy root of a slab has its answer (R441). -/
def notePst (s : State) (port slab : Nat) (ctx : Nat) (excl : Bool) : State :=
  let e := s.tent (portRouter port) true slab
  s.setTent (portRouter port) true slab
    { e with st := if e.st = .invalid ∨ e.st = .joining then .stable else e.st, par := 4, pst := if excl then 2 else Nat.max e.pst 1, ctx := ctx }

/-- What an agent's request for a line ends with when it is refused, or its link fails (R441, R456): the accesses that wait for the line fail, and a
command of an engine learns the cause. -/
def failLine (s : State) (core agent l cause : Nat) : State :=
  let x := s.line core agent l
  let s := s.setLine core agent l { x with pending := 0 }
  let mine := fun (a : Acc) => a.st == .clear && a.blk.isNone && a.mt == 2 && lineOf a.adr == l
  s.ops.foldl
    (fun (s : State) (e : Nat × Op) =>
      let p := e.2
      if (s.gblk p.gid).core ≠ core then s
      else if p.accs.any mine ∧ (agent = 0 ∨ !p.instr.isLoad) then
        (s.setOp e.1 { p with accs := p.accs.map fun a => if mine a then { a with st := .failed (portTrap cause a.adr p.mask) } else a }).reportOp e.1
      else if !p.instr.isAccess ∧ p.instr.agent = some agent ∧
          (s.atHead e.1 ∨ p.rereads) then
        let k := p.accs.foldl (fun n a => Nat.max n (a.lane + 1)) 0
        let s := s.setOp e.1 { p with accs := p.accs ++ [⟨k, 0, 256 * l, 0, 2, 256, 0, 0, none, .failed (portTrap cause (256 * l) p.mask)⟩] }
        match p.instr, p.stage with
        | .wgo _, .parts id => s.push (.walkerReadReturn p.gid id)
        | _, _ => s.push (p.again e.1)
      else s)
    s

/-- The answer to a request that an operation itself sent, for an agent that keeps no line: its bytes come here, and the accesses that waited are
ready (R221, R441). -/
def lineAnswer (s : State) (port : Nat) (m : SlabMsg) (excl : Bool) : State :=
  let l := 16 * m.slab + m.line
  let o := m.tag
  match tfind s.ops o with
  | none => s
  | some p =>
    let hit := fun (a : Acc) => a.st == .sent && a.blk.isNone && a.mt == 2 && lineOf a.adr == l
    let wakes := fun (a : Acc) => p.instr.isAccess && a.st == .need && a.blk.isNone && a.mt == 2 && a.adr / 65536 == m.slab / 16
    match m.refused with
    | some r =>
      let s := s.setOp o { p with
        accs := p.accs.map fun a => if hit a || wakes a then { a with st := .failed (portTrap (statusCause r) a.adr p.mask) } else a }
      if p.instr.isAccess then s.reportOp o else s.push (p.again o)
    | none =>
      let s := (s.storeLine l m.data).notePst port m.slab m.ctx excl
      let got := fun (a : Acc) => { a with st := if p.instr.isAccess then .ready else .done (mread s.link.peerMem a.adr a.size) }
      let s := s.setOp o { p with accs := p.accs.map fun a => if hit a then got a else a }
      if p.instr.isAccess then (needLines ((s.op o).accs.filter wakes)).foldl (fun s l => s.push (.portCheck o l)) (s.reportOp o)
      else s.push (p.again o)

/-! ## The home side of a slab (R440, R441, R456) -/

/-- A peer's request at the port of its line's home here, under the object entry of this package (R406, R456): the physical address and whether its
page is dead, or why it is refused. -/
def peerCheck (s : State) (ctx tenant adr : Nat) (k : PKind) : State × Except RmaStatus (Nat × Bool) :=
  let c := s.ctx ctx
  let o := s.objRaw ctx (adr / 2 ^ 40)
  if !c.reg ∨ !objValid c o ∨ s.withheld (adr / 2 ^ 40) then (s, .error .absent)
  else if oTenant o ≠ tenant then (s, .error .tenant)
  else
    match s.portCheck ctx adr none k with
    | (s, .ok pa 0 dead _ _) => (s, .ok (pa, dead))
    | (s, .fail 0x0B) => (s, .error .poisoned)
    | (s, _) => (s, .error .absent)

/-- A request waits at its slab root. -/
def waitAtRoot (s : State) (port : Nat) (m : LinkMsg) : State := { s with link := { s.link with waiting := s.link.waiting ++ [(port, m)] } }

/-- A slab is being torn down or downgraded at peers. -/
def slabBusy (s : State) (slab : Nat) : Bool :=
  match s.slabHolder slab with
  | some p => (s.tent (portRouter p) true slab).st == .tearing
  | none => false

/-- The link agent of a slab root takes what a peer asks for (R440, R441): a line in S, or its slab's lines as owner; none when it has it. -/
def linkTake (s : State) (root : Nat) (m : SlabMsg) (excl : Bool) (pa : Nat) : Option State :=
  let c := 448 + root
  let base := pa - 256 * m.line
  if excl then
    match (slabLines m.slab).filter fun l => !(s.line c 0 l).writeHit with
    | [] => none
    | ls => some (ls.foldl (fun s l => (s.sendXREQ c 0 l 0).noteFill c 0 (256 * l) (base + 256 * (l % 16)) 0 m.ctx 1 false) s)
  else
    let l := 16 * m.slab + m.line
    match (List.range 2).filter fun k => !(s.line c 0 l).readHit k with
    | [] => none
    | ks => some (ks.foldl (fun s k => (s.sendRD c 0 l k 0).noteFill c 0 (256 * l) pa 0 m.ctx 1 false) s)

/-- A line read, or an exclusive slab, is given to a peer (R441). -/
def grantSlab (s : State) (root port : Nat) (m : SlabMsg) (excl : Bool) (pa : Nat) (dead : Bool) : State :=
  let r := portRouter root
  let e := s.tent r true m.slab
  let s := s.setTent r true m.slab
    (if excl then { e with st := .stable, par := 4, pkg := 2 ^ m.pkg, own := 6, ctx := m.ctx }
      else { e with st := .stable, par := 4, pkg := bitSet e.pkg m.pkg, ctx := m.ctx })
  let r := { m with reply := true, data := if dead then List.replicate 256 0 else mbytes s.mem pa 256 }
  s.linkSend port (if excl then .slabExclusive r else .slabRead r)

/-- A peer's request for a line or a slab at its root (R441): other holders are torn down, or an exclusive one downgraded, and the link agent takes the
lines, first. -/
def serveSlab (s : State) (port : Nat) (m : SlabMsg) (excl : Bool) : State :=
  let wrap := fun m => if excl then LinkMsg.slabExclusive m else .slabRead m
  let adr := 4096 * m.slab + 256 * m.line
  match s.peerCheck m.ctx m.tenant adr (if excl then .write else .read) with
  | (s, .error r) => s.linkSend port (wrap { m with reply := true, refused := some r })
  | (s, .ok (pa, dead)) =>
    let root := (s.slabHolder m.slab).getD port
    let e := s.tent (portRouter root) true m.slab
    let others : Bool := (List.range 4).any fun h => h != m.pkg && fld e.pkg h 1 == 1
    if s.poisonedSector adr || s.poisonedSector (adr + 128) then s.linkSend port (wrap { m with reply := true, refused := some .poisoned })
    else if s.slabBusy m.slab then s.waitAtRoot port (wrap m)
    else if others ∧ (excl ∨ e.own = 6) then (s.askHolders root m.slab (· != m.pkg) (!excl)).waitAtRoot port (wrap m)
    else match s.linkTake root m excl pa with
      | some t => t.waitAtRoot port (wrap m)
      | none => s.grantSlab root port m excl pa dead

/-- A peer's atomic is applied, and its old value returned (R420, R424). -/
def applyPeer (s : State) (port : Nat) (m : PeerAtomic) (f : AtomOp) (pa : Nat) : State :=
  let r := f.apply (mread s.mem pa f.bytes) m.x m.y
  let s := (((s.tearLine (lineOf m.adr)).allocL2 m.adr f.bytes (s.streams m.ctx (lineOf m.adr)) m.ctx).dwrite 0 m.adr pa f.bytes r.1).count 8 (homeSlice (lineOf m.adr)) 6 1
  s.linkSend port (.atomic { m with reply := true, value := r.2 })

/-- A peer's atomic is performed at its home slice here (R418, R424). -/
def serveAtomic (s : State) (port : Nat) (m : PeerAtomic) : State :=
  match s.peerCheck m.ctx m.tenant m.adr .write, atomOpOf m.fn with
  | (s, .error r), _ => s.linkSend port (.atomic { m with reply := true, refused := some r })
  | (s, .ok _), none => s.linkSend port (.atomic { m with reply := true, refused := some .absent })
  | (s, .ok (pa, _)), some f =>
    if s.poisonedSector m.adr then s.linkSend port (.atomic { m with reply := true, refused := some .poisoned })
    else if s.engineIn m.adr f.bytes ∨ tget [] s.fab.roots (lineOf m.adr) ≠ [] then s.waitAtRoot port (.atomic m)
    else match s.recall m.adr true with
    | some t => t.waitAtRoot port (.atomic m)
    | none => s.applyPeer port m f pa

/-- Requests that waited at a slab root are taken up again. -/
def serveWaiting (s : State) (slab : Nat) : State :=
  let mine := fun (e : Nat × LinkMsg) =>
    match e.2 with
    | .slabRead m | .slabExclusive m => m.slab == slab
    | .atomic m => m.adr / 4096 == slab
    | _ => false
  (s.link.waiting.filter mine).foldl
    (fun s e =>
      match e.2 with
      | .slabRead m => s.serveSlab e.1 m false
      | .slabExclusive m => s.serveSlab e.1 m true
      | .atomic m => s.serveAtomic e.1 m
      | _ => s)
    { s with link := { s.link with waiting := s.link.waiting.filter fun e => !mine e } }

/-- Atomics of peers that waited for an engine, or for a request that their line's root serves, are taken up again. -/
def serveAtomics (s : State) : State :=
  ((s.link.waiting.filterMap fun e => match e.2 with | .atomic m => some (m.adr / 4096) | _ => none).eraseDups).foldl serveWaiting s

/-- A peer's answer to a teardown or a downgrade, or lines that it returns of itself: dirty bytes are written home, and the last
message ends the peer's part (R441). A peer that returns a slab of itself (tag 1) when it has been asked for it still answers. -/
def rootAnswer (s : State) (m : SlabMsg) (down : Bool) : State :=
  match s.slabHolder m.slab with
  | none => s
  | some p =>
    let r := portRouter p
    let e := s.tent r true m.slab
    let adr := 4096 * m.slab + 256 * m.line
    if m.data ≠ [] then
      let s := s.noteWrite e.ctx adr
      match s.xlate e.ctx (adr / 2 ^ 40) (adr % 2 ^ 40) with
      | some a =>
        if s.deadPage e.ctx (adr / 2 ^ 40) (adr % 2 ^ 40) then s
        else
          let s := (s.allocL2 adr 256 (s.streams e.ctx (lineOf adr)) e.ctx).dwrite 0 adr a 256 (ofBytes m.data)
          if m.refused = some .poisoned then s.poisonBack (lineOf adr) 3 e.ctx e.ctx else s
      | none => s
    else if m.tag = 1 ∧ fld e.acks m.pkg 1 = 1 then s
    else
      let e := { e with acks := bitClr e.acks m.pkg, pkg := if down then e.pkg else bitClr e.pkg m.pkg }
      let s := s.putRoot p m.slab e
      if e.acks = 0 then s.serveWaiting m.slab else s

/-- The answer to an atomic of this package on a peer's memory (R424). -/
def atomicAnswer (s : State) (m : PeerAtomic) : State :=
  match tfind s.ops m.tag with
  | none => s
  | some p =>
    let f := fun (a : Acc) =>
      if a.lane = m.lane ∧ a.st = .sent ∧ a.mt = 2 then
        match m.refused with
        | some r => { a with st := AccSt.failed (portTrap (statusCause r) a.adr p.mask) }
        | none => { a with st := .done m.value }
      else a
    (s.setOp m.tag { p with accs := p.accs.map f }).reportOp m.tag

end State

end Sys2Proof.Machine
end

