-- ==== Sys2Proof/Machine/Walker.lean ====
section
/-! DEFINITION. The loop-nest walker and its operand queues (spec/11 R328 to R345). -/

namespace Sys2Proof.Machine

/-! ## Descriptors (R330 to R334) -/

/-- Word of a descriptor at a byte offset. -/
def dWord (d : List Nat) (off : Nat) : Nat := d.getD (off / 4) 0

/-- NLEV (R330). -/
def dNlev (d : List Nat) : Nat := fld (dWord d 0) 0 2
/-- ORDER (R330). -/
def dOrder (d : List Nat) : Bool := fld (dWord d 0) 2 1 == 1
/-- TAGQ (R330). -/
def dTagq (d : List Nat) : Nat := fld (dWord d 0) 5 2
/-- TAGEN (R330). -/
def dTagen (d : List Nat) : Bool := fld (dWord d 0) 7 1 == 1
/-- Bit q of STRM (R330). -/
def dStrm (d : List Nat) (q : Nat) : Bool := fld (dWord d 0) (8 + q) 1 == 1
/-- Iterations of level l (R330). -/
def dCnt (d : List Nat) (l : Nat) : Nat := fld (dWord d (4 + 4 * (l / 2))) (16 * (l % 2)) 16 + 1
/-- KIND of level l (R332). -/
def dKind (d : List Nat) (l : Nat) : Nat := fld (dWord d 0x0C) (2 * l) 2
/-- Word k of stream q's record (R330). -/
def dStream (d : List Nat) (q k : Nat) : Nat := dWord d (0x10 + 28 * q + 4 * k)
/-- Enabled streams, ascending. -/
def dStreams (d : List Nat) : List Nat := (List.range 4).filter (dStrm d)

/-- The first offending word of an enabled stream (R334, condition 6). DESIGN CHOICE: of several streams or fields that offend, the lowest stream
and then its lowest field is reported (log entry 65). -/
def dStreamBad (d : List Nat) (q : Nat) : Option Nat :=
  let at_ := 0x10 + 28 * q
  if dStream d q 0 / 16 ≠ 0 then some at_
  else ((List.range (3 + dNlev d)).find? fun k => dStream d q (k + 1) % 4 != 0).map fun k => at_ + 4 * (k + 1)

/-- The first condition of R334 that fails: the offset of the word it reports. -/
def dBad (d : List Nat) : Option Nat :=
  let w0 := dWord d 0
  let n := dNlev d
  if fld w0 3 2 ≠ 0 ∨ fld w0 12 20 ≠ 0 ∨ fld w0 8 4 = 0 then some 0
  else if dTagen d ∧ dStrm d (dTagq d) then some 0
  else if n < 1 ∧ dCnt d 1 ≠ 1 then some 4
  else if (n < 2 ∧ dCnt d 2 ≠ 1) ∨ (n < 3 ∧ dCnt d 3 ≠ 1) then some 8
  else if (List.range 4).any (fun l => dKind d l == 3 || (decide (n < l) && dKind d l != 0)) ∨ dWord d 0x0C / 256 ≠ 0 then some 0x0C
  else if dOrder d ∧ dKind d n = 1 then some 0x0C
  else (dStreams d).findSome? (dStreamBad d)

/-- Iterations of the levels within a tile. -/
def dInner (d : List Nat) : Nat := (List.range (dNlev d)).foldl (fun n l => n * dCnt d l) 1

/-- Index of level l at inner iteration `k` of a tile: level 0 is fastest, the outermost level is the tile (R331). -/
def dIndex (d : List Nat) (tile k l : Nat) : Nat :=
  if l = dNlev d then tile
  else if dNlev d < l then 0
  else k / ((List.range l).foldl (fun n j => n * dCnt d j) 1) % dCnt d l

/-- walk_disp (R331). -/
def walkDisp (d : List Nat) (q L tile k : Nat) : Nat :=
  let st := fun l => if dNlev d < l then 0 else dIndex d tile k l * dStream d q (3 + l)
  (dStream d q 1 + L * dStream d q 2 + st 0 + st 1 + st 2 + st 3) % 2 ^ 32

/-! ## Walks and queues -/

/-- Queue q becomes `l`. -/
def WalkSt.setQueue (w : WalkSt) (q : Nat) (l : List QEntry) : WalkSt := { w with queues := tset [] w.queues q l }

/-- The walker state of group `g` becomes `w`. -/
def State.setWalk (s : State) (g : Nat) (w : WalkSt) : State := s.setGrp g { s.grp g with walk := w }

/-- Entries whose reads are in flight, of every queue. -/
def WalkSt.flying (w : WalkSt) : List QEntry := w.queues.flatMap fun e => e.2.filter (·.inFlight)

/-- The entries that have entered queue q: complete or failed, with none before them in walk order still in flight (R340). -/
def WalkSt.entered (w : WalkSt) (q : Nat) : List QEntry := (w.queue q).filter fun e => w.flying.all fun f => decide (e.id < f.id)

/-- Entries that have entered the four queues. -/
def WalkSt.pushed (w : WalkSt) : Nat := (List.range 4).foldl (fun n q => n + (w.entered q).length) 0

/-- A walk has generated every entry. -/
def Walk.spent (w : Walk) : Bool := w.tiles.isEmpty && w.tile.isNone

/-- A walk still has to generate an entry for queue q (R342). -/
def Walk.feeds (w : Walk) (q : Nat) : Bool :=
  !w.stopped &&
    ((dStrm w.desc q && (!w.tiles.isEmpty || (w.tile.isSome && (decide (w.inner + 1 < dInner w.desc) || decide (w.stream ≤ q))))) ||
      (dTagen w.desc && dTagq w.desc == q && (!w.tiles.isEmpty || (w.tile.isSome && w.tagDue))))

/-- A listed walk will push into queue q: entries in flight are still to be pushed (R340, R343). -/
def WalkSt.willPush (w : WalkSt) (q : Nat) : Bool :=
  decide ((w.entered q).length < (w.queue q).length) || (!(w.walks.any (·.stopped)) && w.walks.any fun x => x.feeds q)

/-- The queue that the next entry of a walk goes to: a walk between tiles begins the next with its tag or its first stream. -/
def Walk.nextQueue (w : Walk) : Nat :=
  if w.tile.isNone then (if dTagen w.desc then dTagq w.desc else (dStreams w.desc).headD 0) else if w.tagDue then dTagq w.desc else w.stream

/-- The running walk is passed over only because the queue of its next entry is full (R343). -/
def WalkSt.blocked (w : WalkSt) : Bool :=
  match w.walks with
  | x :: _ => !x.stopped && !x.spent && w.flying.isEmpty && decide (8 ≤ (w.queue x.nextQueue).length)
  | [] => false

/-- The running walk leaves the list when it has pushed every entry, and the chained walk begins (R339). -/
def State.endWalk (s : State) (g : Nat) : State :=
  let w := (s.grp g).walk
  match w.walks with
  | x :: t =>
    if x.spent && w.flying.isEmpty && !x.stopped then
      let s := s.setWalk g { w with walks := t }
      if t = [] then s else s.push (.walkerEntryGenerate g)
    else s
  | [] => s

/-! ## Tile choice (R335) -/

/-- Candidates of the next choice: the 8 lowest-numbered tiles not yet visited. -/
def Walk.window (w : Walk) : List (Nat × Nat) := w.tiles.take 8

/-- Rank that a candidate answered, 2 for none. -/
def Walk.rank (w : Walk) (t : Nat) : Nat := ((w.ranks.find? fun r => r.1 == t).map (·.2)).getD 2

/-- The tile chosen from the window (R335). -/
def Walk.choice (w : Walk) : Option Nat :=
  let c := w.window
  if !dOrder w.desc then c.head?.map (·.1)
  else
    match c.find? fun t => decide (8 ≤ t.2) with
    | some t => some t.1
    | none =>
      c.foldl (fun b t => match b with | none => some t.1 | some x => if w.rank t.1 < w.rank x then some t.1 else some x) none

/-- The walk begins a tile: the other candidates have waited one choice more. -/
def Walk.begin (w : Walk) : Walk :=
  match w.choice with
  | none => w
  | some t =>
    let n := w.window.length
    { w with
      tiles := ((w.tiles.take n).filterMap fun e => if e.1 = t then none else some (e.1, e.2 + 1)) ++ w.tiles.drop n
      tile := some t, tagDue := dTagen w.desc, inner := 0, stream := (dStreams w.desc).headD 0, ranks := [], probed := false }

/-- The line that a candidate's probe names: the first read of its lowest lane (R335). -/
def Walk.probeAdr (w : Walk) (tile : Nat) : Option Nat :=
  match (lanesOf w.lanes).head?, (dStreams w.desc).head? with
  | some L, some q =>
    some ((tget .null w.caps q).adr (walkDisp w.desc q L tile 0))
  | _, _ => none

/-- The rank of a line for a core (R335). -/
def State.probeRank (s : State) (core : Nat) (a : Option Nat) : Nat :=
  match a with
  | none => 2
  | some a =>
    if (s.line core 0 (lineOf a)).st ≠ .I then 0 else if s.inL2 (lineOf a) 0 || s.inL2 (lineOf a) 1 then 1 else 2

/-- The running walk of a group becomes `x`. -/
def State.setRunning (s : State) (g : Nat) (x : Walk) : State :=
  let w := (s.grp g).walk
  s.setWalk g { w with walks := x :: w.walks.tail }

/-! ## Generation (R329, R331, R336, R340) -/

/-- Position after one stream entry (R331). -/
def Walk.advance (w : Walk) : Walk :=
  match (dStreams w.desc).find? fun q => decide (w.stream < q) with
  | some q => { w with stream := q }
  | none =>
    let first := (dStreams w.desc).headD 0
    if w.inner + 1 < dInner w.desc then { w with stream := first, inner := w.inner + 1 }
    else { w with stream := first, inner := 0, tile := none }

/-- A QPOP that waits at queue q looks again. -/
def State.wakePop (s : State) (g : Nat) : State :=
  (s.opsOf g).foldl (fun s e => match e.2.instr with | .qpop _ _ => s.push (.walkerCommandComplete e.1) | _ => s) s

/-- Queues change by entries that enter them, which WENTRY counts (R347). -/
def State.pushWalk (s : State) (g : Nat) (w : WalkSt) : State :=
  let n := w.pushed - (s.grp g).walk.pushed
  (s.setWalk g w).count 5 (s.partOf g) 0 n

/-- The core's check of a walker read at a displacement, made when the address is formed (R340): its cause when it fails. -/
def walkCore (c : Cap) (disp : Nat) : Option Nat :=
  if c.len < disp + 4 then some 0x06 else if (c.base + disp) % 4 ≠ 0 then some 0x05 else none

/-- One entry of the running walk is generated: a tag, or the displacements of a stream entry whose reads are then in flight; a lane that fails
the core's checks stops the walk there (R340, R341). -/
def State.pushEntry (s : State) (g : Nat) (x : Walk) (tile : Nat) : State :=
  let w := (s.grp g).walk
  let q := x.nextQueue
  let id := w.nextId
  if x.tagDue then
    let e : QEntry := ⟨(List.range 32).foldl (fun m L => tset 0 m L (w32 tile)) [], none, false, [], id⟩
    ((s.pushWalk g { w.setQueue q (w.queue q ++ [e]) with nextId := id + 1 }).setRunning g { x with tagDue := false }).wakePop g
  else
    let ws := (lanesOf x.lanes).foldl (fun m L => tset 0 m L (w32 (walkDisp x.desc q L tile x.inner))) []
    let e : QEntry := ⟨ws, none, true, [], id⟩
    let c := tget .null x.caps q
    let bad := (lanesOf (x.lanes &&& ~~~x.helpers)).any fun L => (walkCore c (tget 0 ws L).toNat).isSome
    let s := (s.setWalk g { w.setQueue q (w.queue q ++ [e]) with nextId := id + 1 }).setRunning g { x.advance with stopped := x.stopped || bad }
    let p := { (s.grp g).newOp g (.wgo false) with
      flag := 15, stage := .parts id, ps := [q, x.start], cap1 := c, cls := 1, vals := ws
      mask := x.lanes &&& ~~~x.helpers, helpers := x.lanes &&& x.helpers }
    let s := { s with ops := tins s.ops s.nextOp p, nextOp := s.nextOp + 1 }
    s.push (.walkerReadReturn g id)

/-- A walk takes its next tile without probes (R335). -/
def Walk.unprobed (w : Walk) : Bool := !dOrder w.desc || w.lanes == 0

/-- The running walk of a group can generate: its tile is chosen, or can be without probes, the queue it feeds next has room, and it waits for no
page (R329). -/
def State.generates (s : State) (g : Nat) : Bool :=
  let w := (s.grp g).walk
  s.resident g && !w.flying.any (fun e => !e.pages.isEmpty) &&
    (match w.walks with
      | x :: _ => !x.stopped && (x.tile.isSome || (!x.tiles.isEmpty && x.unprobed)) && decide ((w.queue x.nextQueue).length < 8)
      | [] => false)

/-- The group whose walk generates next in a group's partition: the walker serves them in rotation (R329). -/
def State.walkTurn (s : State) (g : Nat) : Nat :=
  let last := tget 0 (s.core (s.gblk g).core).walkLast (s.grp g).part
  let gs := (List.range s.groups.length).filter fun k =>
    (s.gblk k).core == (s.gblk g).core && (s.grp k).part == (s.grp g).part && s.generates k
  ((gs.filter fun k => decide (last < k)).head?.or gs.head?).getD g

/-- A walk has generated an entry, and the next of its partition is served (R329). -/
def State.walkServed (s : State) (g : Nat) : State :=
  let k := (s.gblk g).core
  s.setCore k { s.core k with walkLast := tset 0 (s.core k).walkLast (s.grp g).part g }

/-- Probes for the candidates of the next choice are sent, with a time limit (R335). -/
def State.sendProbes (s : State) (g : Nat) (x : Walk) : State :=
  let s := (s.setRunning g { x with probed := true, ranks := [] }).count 5 (s.partOf g) 1 x.window.length
  (x.window.foldl
    (fun s t => s.push (.residencyProbeAnswer g t.1 (s.probeRank (s.gblk g).core (x.probeAdr t.1)))) s).push (.probeTimeout g)

/-- The walk of group `g` that is served generates its next entry, the first of a tile when it stands between two. -/
def State.generate (s : State) (g : Nat) : State :=
  match (s.grp g).walk.walks with
  | [] => s
  | y :: _ =>
    let y := if y.tile.isNone then y.begin else y
    (s.walkServed g).pushEntry g y (y.tile.getD 0)

/-- WALKER_ENTRY_GENERATE (R329): the running walk of a group that has answers of probes to wait for sends them, or the walk of its partition whose
turn it is generates one entry. -/
def execWalkerEntryGenerate (g : Nat) (s : State) : Host.Outcome State Fault Refusal :=
  match (s.grp g).walk.walks with
  | [] => .next s
  | x :: _ =>
    if !s.resident g ∨ x.stopped ∨ (s.grp g).walk.flying.any (fun e => !e.pages.isEmpty) then .next s
    else
      if x.spent then .next (s.endWalk g)
      else if 8 ≤ ((s.grp g).walk.queue x.nextQueue).length then .next (s.count 5 (s.partOf g) 3 1)
      else if x.tile.isNone && !x.unprobed then .next (if x.probed then s else s.sendProbes g x)
      else .next ((s.generate (s.walkTurn g)).push (.walkerEntryGenerate g))

/-- The choice is made with the answers there are; a tile taken out of ascending order is counted (R347). -/
def State.chooseTile (s : State) (g : Nat) (x : Walk) : State :=
  let s := if x.choice = x.tiles.head?.map (·.1) then s else s.count 5 (s.partOf g) 2 1
  (s.setRunning g x.begin).push (.walkerEntryGenerate g)

/-- RESIDENCY_PROBE_ANSWER (R335): when every candidate has answered, the choice is made. -/
def execResidencyProbeAnswer (g tile rank : Nat) (s : State) : Host.Outcome State Fault Refusal :=
  match (s.grp g).walk.walks with
  | x :: _ =>
    if x.probed ∧ x.tile = none ∧ x.window.any (fun t => t.1 == tile) ∧ !x.ranks.any (fun r => r.1 == tile) then
      let x := { x with ranks := x.ranks ++ [(tile, Nat.min rank 2)] }
      let s := s.setRunning g x
      if x.window.all fun t => x.ranks.any fun r => r.1 == t.1 then .next (s.chooseTile g x) else .next s
    else .next s
  | [] => .next s

/-- PROBE_TIMEOUT (R335): candidates that have not answered take rank 2. -/
def execProbeTimeout (g : Nat) (s : State) : Host.Outcome State Fault Refusal :=
  match (s.grp g).walk.walks with
  | x :: _ => if x.probed ∧ x.tile = none then .next (s.chooseTile g x) else .next s
  | [] => .next s

/-! ## Reads (R340, R341) -/

/-- The word that L1 holds for a group's context at a global address: such a read is cleared at the core (R170, R340). -/
def State.l1Word (s : State) (g adr : Nat) : Option Nat :=
  let x := s.line (s.gblk g).core 0 (lineOf adr)
  let ctx := (s.glch g).ctx
  if x.readHit (adr / 128 % 2) ∧ x.ctx = ctx ∧ !s.poisonedPage ctx (adr / 2 ^ 40) (adr % 2 ^ 40 / 65536) ∧ !s.poisonedSector adr then
    some (s.dread x.mt adr (x.pa + adr % 256) 4)
  else none

/-- What the read of one lane gives: the core's checks first, then a hit in L1, then the port (R170, R340). -/
def State.walkRead (s : State) (o : Nat) (p : Op) (disp : Nat) : State × EngRes :=
  match walkCore p.cap1 disp, s.l1Word p.gid (p.cap1.adr disp) with
  | some c, _ => (s, .fail c)
  | none, some v => (s, .val v)
  | none, none => s.engRead o (s.glch p.gid).ctx (p.cap1.adr disp) 4 (some p.cap1.gen)

/-- The reads of an entry's lanes, each made until it has returned (R340). In the values of operation `o`, key L is the displacement of lane L, 32 + L
its returned word, and 64 + L is 1 once that has returned. -/
def State.laneReads (s : State) (o : Nat) : State × List (Nat × EngRes) :=
  let p := s.op o
  (lanesOf (p.mask ||| p.helpers)).foldl
    (fun (r : State × List (Nat × EngRes)) L =>
      let q := r.1.op o
      if tget 0 q.vals (64 + L) = 1 then (r.1, r.2 ++ [(L, .val (tget 0 q.vals (32 + L)).toNat)])
      else
        match r.1.walkRead o q (tget 0 q.vals L).toNat with
        | (s, .val v) =>
          (s.setOp o { s.op o with vals := tset 0 (tset 0 (s.op o).vals (64 + L) 1) (32 + L) (w32 v) }, r.2 ++ [(L, .val v)])
        | (s, x) => (s, r.2 ++ [(L, x)]))
    (s, [])

/-- The trap of a lane's failed read, with the values of R228 or of the core's checks (R241). -/
def walkTrap (c : Cap) (disp cause : Nat) : Trap :=
  if cause = 0x06 then laneTrap 0x06 disp 0 else if cause = 0x05 then laneTrap 0x05 disp 1 else portTrap cause (c.adr disp) 0

/-- Entry `id` of queue q becomes `e`. -/
def WalkSt.setEntry (w : WalkSt) (q id : Nat) (e : QEntry) : WalkSt :=
  w.setQueue q ((w.queue q).map fun x => if x.id = id then e else x)

/-- An entry's reads are over: it enters its queue complete, or failed, and then the walk stops (R340, R341, R347). -/
def State.entryDone (s : State) (g id o : Nat) (p : Op) (e : QEntry) : State :=
  let s := (s.pushWalk g ((s.grp g).walk.setEntry (p.ps.getD 0 0) id e)).delOp o
  let s :=
    if e.fail.isNone then s
    else
      let s := s.count 5 (s.partOf g) 4 1
      match (s.grp g).walk.walks with
      | x :: _ => s.setRunning g { x with stopped := true }
      | [] => s
  ((s.endWalk g).wakePop g).push (.walkerEntryGenerate g)

/-- The reads of one entry return (R340, R341): the pages that are missing are reported, and the entry waits for them. DESIGN CHOICE: an entry
with a lane that waits for a replay and a lane that fails waits for the replay, and is marked failed afterwards (log entry 65). -/
def State.entryReturn (s : State) (g id o : Nat) (p : Op) (e : QEntry) : State :=
  let q := p.ps.getD 0 0
  let (s, rs) := s.laneReads o
  let w := (s.grp g).walk
  let adrs := rs.filterMap fun r => if r.2 == .missing && inMask p.mask r.1 then some (p.cap1.adr (tget 0 e.words r.1).toNat) else none
  let pages := (adrs.map fun a => (a / 2 ^ 40, a % 2 ^ 40 / 65536)).eraseDups
  if pages ≠ [] ∧ s.replays g then
    pages.foldl (fun s k => s.reportPage g (k.1 * 2 ^ 40 + k.2 * 65536) 5) ((s.raise o 7).setWalk g (w.setEntry q id { e with pages := pages }))
  else if rs.any fun r => r.2 == .wait then s
  else
    let fs := rs.filterMap fun r =>
      if !inMask p.mask r.1 then none
      else
        let d := (tget 0 e.words r.1).toNat
        match r.2 with
        | .fail c => some (r.1, d, walkTrap p.cap1 d c)
        | .missing => some (r.1, d, walkTrap p.cap1 d 0x0A)
        | _ => none
    let vals := rs.foldl (fun m r => match r.2 with | .val v => tset 0 m r.1 (w32 v) | _ => m) []
    s.entryDone g id o p ⟨vals, if fs = [] then none else some (failTrap fs []), false, [], id⟩

/-- The reads of a walk come after the group's accesses before its WGO (R340). -/
def State.walkMay (s : State) (o : Nat) : Bool :=
  let p := s.op o
  (s.opsOf p.gid).all fun e => !(decide (e.1 < p.ps.getD 1 0) && e.2.instr.touches)

/-- WSTOP commands of a group look again. -/
def State.wakeStop (s : State) (g : Nat) : State :=
  (s.opsOf g).foldl (fun s e => match e.2.instr with | .wstop => s.push (.walkerCommandComplete e.1) | _ => s) s

/-- The reads of an entry that a WSTOP has discarded go on until the last has returned; a page that is not present gives an answer too
(R342). -/
def State.discardedReturn (s : State) (g o : Nat) : State :=
  if !s.walkMay o then (s.endOp o).wakeStop g
  else
    match s.laneReads o with
    | (s, rs) => if rs.any fun r => r.2 == .wait then s else (s.endOp o).wakeStop g

/-- WALKER_READ_RETURN (R340); a read whose entry a WSTOP has discarded ends when it has returned (R342). -/
def execWalkerReadReturn (g ent : Nat) (s : State) : Host.Outcome State Fault Refusal :=
  match s.entryOp g ent with
  | none => .next s
  | some (o, p) =>
    if !s.resident g then .next s
    else
      match ((s.grp g).walk.queue (p.ps.getD 0 0)).find? fun e => e.id == ent with
      | some e =>
        if !e.inFlight || !e.pages.isEmpty then .next s
        else if s.walkMay o then .next (s.entryReturn g ent o p e) else .next (s.push (.walkerReadReturn g ent))
      | none => .next (s.discardedReturn g o)

/-! ## Commands (R337 to R343) -/

/-- A walker command is in flight: its effect is due when it is first of its group's walker commands. -/
def State.enqueueWalk (s : State) (g : Nat) (p : Op) : State := (s.issueOp g p).push (.walkerCommandComplete s.nextOp)

/-- WSET (R338). -/
def execWset (n : Bool) (a : RF) (s : State) : Host.Outcome State Fault Refusal :=
  issueWord (.wset n a) s fun k g =>
    let off := (g.usrc a).toNat
    if (s.glch k).scr < off + 128 then s.cmdTrap k (0x06, off, 0)
    else if off % 16 ≠ 0 then s.cmdTrap k (0x05, off, 1)
    else s.enqueueWalk k { g.newOp k (.wset n a) with ps := [off] }

/-- The first enabled stream whose capability cannot be read (R339). -/
def Group.badStream (g : Group) (d : List Nat) : Option Nat :=
  (dStreams d).find? fun q => !(g.cap (dStream d q 0 % 16)).allows rightR

/-- WGO (R339): the walk is listed once the group's earlier accesses are performed (R340). -/
def execWgo (n : Bool) (s : State) : Host.Outcome State Fault Refusal :=
  issueWord (.wgo n) s fun k g =>
    let d := tget [] g.walk.slots n.toNat
    if d = [] then s.cmdTrap k (0x15, n.toNat, 0)
    else if 2 ≤ g.walk.walks.length then s.cmdTrap k (0x15, 2, 0)
    else
      match g.badStream d with
      | some q => s.cmdTrap k (0x07, q, 0)
      | none =>
        let caps := (dStreams d).foldl (fun m q => tset .null m q (g.cap (dStream d q 0 % 16))) []
        let tiles := (List.range (dCnt d (dNlev d))).map fun t => (t, 0)
        let w : Walk := ⟨d, caps, g.act, g.helperAct, tiles, none, false, 0, 0, [], false, false, s.nextOp⟩
        let x := { g with walk := { g.walk with walks := g.walk.walks ++ [w] } }
        let first := g.walk.walks.isEmpty
        let s := (s.setGrp k x).enqueueWalk k { g.newOp k (.wgo n) with ps := [] }
        if first then s.push (.walkerEntryGenerate k) else s

/-- WSTOP (R342). -/
def execWstop (s : State) : Host.Outcome State Fault Refusal :=
  issueWord .wstop s fun k g => s.enqueueWalk k (g.newOp k .wstop)

/-- WSTAT (R342). -/
def execWstat (d : RF) (s : State) : Host.Outcome State Fault Refusal :=
  issueWord (.wstat d) s fun k g => s.enqueueWalk k { g.newOp k (.wstat d) with dest := g.destRegs d 1 }

/-- QPOP (R343): both underflow tests are made at issue. -/
def execQpop (q : Fin 4) (d : RF) (s : State) : Host.Outcome State Fault Refusal :=
  issueWord (.qpop q d) s fun k g =>
    let empty := (g.walk.entered q.val).isEmpty
    if empty && !g.walk.willPush q.val then (s.count 5 (s.partOf k) 5 1).cmdTrap k (0x16, q.val, 0)
    else if empty && g.walk.blocked then (s.count 5 (s.partOf k) 5 1).cmdTrap k (0x16, q.val, 1)
    else
      s.enqueueWalk k { g.newOp k (.qpop q d) with ps := [q.val], dest := g.destRegs d 1, stage := .issued, cls := s.popClass k q.val }

/-- The WSTAT word (R342). -/
def WalkSt.status (w : WalkSt) : Nat :=
  let st := match w.walks with
    | [] => 0
    | x :: _ => if x.stopped then 2 else if w.flying.any (fun e => !e.pages.isEmpty) then 3 else 1
  let bit := fun (b : Bool) (k : Nat) => if b then 2 ^ k else 0
  st + bit (decide (2 ≤ w.walks.length)) 2 +
    (List.range 4).foldl
      (fun n q =>
        n + bit (!(w.entered q).isEmpty) (4 + q) + bit (w.willPush q) (8 + q) + bit (decide (8 ≤ (w.entered q).length)) (12 + q))
      0

/-- WSET is performed: the descriptor is read once and validated (R334, R338). DESIGN CHOICE: words of it that R396 restored marked are read as they
stand (log entry 65). -/
def State.runWset (s : State) (o : Nat) (n : Bool) : State :=
  let p := s.op o
  let b := (s.grp p.gid).blk
  let d := (List.range 32).map fun k => s.sread b (p.ps.getD 0 0 + 4 * k) 4
  match dBad d with
  | some off => (s.completeOp o).deferTrap p.gid ⟨0x15, w32 off, w32 n.toNat, p.mask, []⟩
  | none =>
    let w := (s.grp p.gid).walk
    (s.setWalk p.gid { w with slots := tset [] w.slots n.toNat d }).completeOp o

/-- Operations that stand for reads of a group's walks. -/
def State.walkOps (s : State) (g : Nat) : List (Nat × Op) :=
  (s.opsOf g).filter fun e => match e.2.instr, e.2.stage with | .wgo _, .parts _ => true | _, _ => false

/-- WSTOP is performed (R342): every walk and entry goes, and it completes when the reads in flight have returned; those of a group that a swap has
taken from its core are gone already (R345). -/
def State.runWstop (s : State) (o : Nat) : State :=
  let g := (s.op o).gid
  let w := (s.grp g).walk
  let s := if s.resident g then s else (s.walkOps g).foldl (fun s e => s.delOp e.1) s
  let s := (s.walkOps g).foldl (fun s e => s.push (e.2.again e.1)) (s.setWalk g { w with walks := [], queues := [] })
  if s.walkOps g = [] then s.completeOp o else s.setOp o { s.op o with stage := .parts 0 }

/-- QPOP is performed when the head entry is complete or failed (R343). -/
def State.runQpop (s : State) (o q : Nat) : State :=
  let p := s.op o
  let g := p.gid
  let w := (s.grp g).walk
  match w.queue q with
  | [] => s
  | e :: t =>
    if (w.entered q).head? ≠ some e then s.raise o (s.popClass g q)
    else
      match e.fail with
      | some f => s.trapOp o f
      | none =>
        let s := s.setWalk g (w.setQueue q t)
        let s := s.setGrp g ((s.grp g).puts p.dest p.mask p.helpers fun _ L => tget 0 e.words L)
        (s.completeOp o).push (.walkerEntryGenerate g)

/-- WALKER_COMMAND_COMPLETE (R337, R338, R339, R342, R343). -/
def execWalkerCommandComplete (op : Nat) (s : State) : Host.Outcome State Fault Refusal :=
  match tfind s.ops op with
  | none => .next s
  | some p =>
    match p.instr, p.stage with
    | .wgo _, .parts id => .next (s.push (.walkerReadReturn p.gid id))
    | .wset n _, _ => if s.mayPerform op then .next (s.runWset op n) else .next (s.later (.walkerCommandComplete op))
    | .wgo _, _ => .next (s.completeOp op)
    | .wstop, .parts _ => .next (if s.walkOps p.gid = [] then s.completeOp op else s)
    | .wstop, _ => .next (s.runWstop op)
    | .wstat d, _ =>
      .next ((s.setGrp p.gid ((s.grp p.gid).udst d 0 (w32 (s.grp p.gid).walk.status))).completeOp op)
    | .qpop q _, _ => .next (s.runQpop op q.val)
    | _, _ => .next s

end Sys2Proof.Machine
end

