-- ==== Sys2Proof/Machine/MemSide.lean ====
section
/-! DEFINITION. The memory-side engine: TCINV, far checks at the ports, fault reports and replays, ECC errors, far atomics and host
atomics (spec/06 R207, spec/07 R228 to R233, spec/14 R400 to R426). -/

namespace Sys2Proof.Machine

/-! ## TCINV (R207, R410) -/

/-- TCINV (R207): in the priority that R207 lists, reserved bits of its block come before the privilege check (log entry 59). -/
def execTcinv (a : RF) (s : State) : Host.Outcome State Fault Refusal :=
  issueChecked
    (fun g =>
      let p := g.params a 3
      if p.getD 0 0 / 4096 ≠ 0 ∨ p.getD 1 0 / 2 ^ 24 ≠ 0 then some 0x01
      else if (s.ctx (s.glch s.cur).ctx).priv then none else some 0x03)
    (.tcinv a) s fun n g =>
      let o := s.nextOp
      let s := s.issueOp n { g.newOp n (.tcinv a) with ps := g.params a 3, stage := .parts 16, cls := 5 }
      let s := s.setGrp n { s.grp n with phase := .held g.idx o }
      (List.range 16).foldl (fun s m => s.push (.sliceTcinv o m)) s

/-- A line of the pages that a TCINV names (R207): object and page, 0xFFFF_FFFF for every page. -/
def named (p : List Nat) (l : Nat) : Bool :=
  l / 2 ^ 32 == p.getD 1 0 && (p.getD 2 0 == 0xFFFFFFFF || l % 2 ^ 32 / 256 == p.getD 2 0)

/-- Cached translations that a TCINV names leave a port (R410, step 5). -/
def State.dropNamed (s : State) (m : Nat) (p : List Nat) : State :=
  let x := s.slice m
  let all := p.getD 2 0 == 0xFFFFFFFF
  s.setSlice m { x with
    objs := if all then x.objs.filter fun e => !(e.1 == p.getD 0 0 && e.2.1 == p.getD 1 0) else x.objs
    pages := x.pages.filter fun e => !(e.1 == p.getD 0 0 && e.2.1 == p.getD 1 0 && (all || e.2.2.1 == p.getD 2 0)) }

/-- Accesses of the group that a TCINV waits for (R207). -/
def State.earlierThan (s : State) (o : Nat) : Bool := (s.opsOf (s.op o).gid).any fun e => decide (e.1 < o) && e.2.instr.touches

/-- SLICE_TCINV (R207, R410, steps 1 and 2): once the group's earlier accesses are acknowledged, the named translations are used
no more. -/
def execSliceTcinv (op slice : Nat) (s : State) : Host.Outcome State Fault Refusal :=
  match tfind s.ops op with
  | none => .next s
  | some p =>
    if s.earlierThan op then .next (s.later (.sliceTcinv op slice))
    else
      let s := s.dropNamed slice p.ps
      let x := s.slice slice
      .next ((s.setSlice slice { x with tcinv := x.tcinv ++ [op] }).push (.sliceTcinvDrained op slice))

/-- An access translated and not yet performed names a page of a TCINV at a slice. -/
def State.translating (s : State) (o slice : Nat) (p : List Nat) : Bool :=
  s.ops.any fun e =>
    e.1 != o && e.2.accs.any fun a =>
      (a.st == .clear || a.st == .ready) && a.blk.isNone && named p (lineOf a.adr) && homeSlice (lineOf a.adr) == slice

/-- Lines that some cache, tree or L2 slice of the package lists. -/
def State.listedLines (s : State) : List Nat :=
  (s.cores.flatMap fun e => e.2.lines.map fun x => x.1 / 4) ++
    (s.fab.tree.flatMap fun e => if e.1 / 2 ^ 56 % 2 = 1 then slabLines (e.1 % 2 ^ 56) else [e.1 % 2 ^ 56]) ++
    s.slices.flatMap fun e => e.2.l2.map (·.1)

/-- The dirty sectors of a line are written back from L2, which drops it (R410, R417). -/
def State.backL2 (s : State) (l by_ : Nat) : State :=
  let m := homeSlice l
  let x := s.slice m
  match tfind x.l2 l with
  | some y => s.setSlice m { x.backLine l y by_ with l2 := tdel x.l2 l }
  | none => s

/-- A slab of a peer's lines held here goes home with its dirty sectors (R410, R441). -/
def State.giveBack (s : State) (slab : Nat) : State :=
  match s.proxyPort slab with
  | some k => s.giveSlab k ⟨slab, 0, s.link.domPkg, 0, 0, true, 1, none, []⟩
  | none => s

/-- SLICE_TCINV_DRAINED (R410, steps 2 to 5): trees of the named lines homed here are torn down, at peers too, and at engines once they have written them;
the lines leave L2, and the slice acknowledges. -/
def execSliceTcinvDrained (op slice : Nat) (s : State) : Host.Outcome State Fault Refusal :=
  match tfind s.ops op with
  | none => .next s
  | some p =>
    if s.translating op slice p.ps then .next (s.later (.sliceTcinvDrained op slice))
    else
      let ls := s.listedLines.eraseDups.filter fun l => named p.ps l && homeSlice l == slice
      if ls.any fun l => s.engineIn (256 * l) 256 || tget [] s.fab.roots l != [] then .next (s.later (.sliceTcinvDrained op slice))
      else if ls.any fun l => (s.slabHolder (l / 16)).isSome then
        .next ((ls.foldl (fun s l => (s.recall (256 * l) true).getD s) s).later (.sliceTcinvDrained op slice))
      else
      let s := ls.foldl (fun s l => ((s.giveBack (l / 16)).tearLine l).backL2 l (s.glch p.gid).ctx) s
      let s := s.dropNamed slice p.ps
      let x := s.slice slice
      let s := s.setSlice slice { x with tcinv := x.tcinv.filter (· != op) }
      match p.stage with
      | .parts n =>
        let s := s.setOp op { p with stage := .parts (n - 1) }
        if n ≤ 1 then .next (s.push (.tcinvComplete op)) else .next s
      | _ => .next s

/-- TCINV_COMPLETE (R207): the group goes on when all sixteen slices have acknowledged. -/
def execTcinvComplete (op : Nat) (s : State) : Host.Outcome State Fault Refusal :=
  match tfind s.ops op with
  | none => .next s
  | some p => if p.stage = .parts 0 then .next (s.completeOp op) else .next s

/-! ## Far checks of lanes (R222, R228) -/

/-- An access of a lane of operation `o`, once its port has answered, is `a`. -/
def State.setAcc (s : State) (o : Nat) (a : Acc) : State :=
  let p := s.op o
  s.setOp o { p with accs := p.accs.map fun b => if b.lane = a.lane then a else b }

/-- An access fails at a port (R228). -/
def Acc.fails (a : Acc) (cause : Nat) : Acc := { a with st := .failed (portTrap cause a.adr 0) }

/-- A missing page (R229, R413): helper lanes read zero, a launch lane's access waits or fails with page fault. -/
def State.accMissing (s : State) (o : Nat) (p : Op) (a : Acc) : State :=
  if !inMask p.mask a.lane && !p.instr.isGroupAccess then s.setAcc o { a with st := .done 0 }
  else if s.replays p.gid then
    (s.setAcc o { a with st := .page }).reportPage p.gid a.adr
      (if p.instr.isRead then 0 else if p.instr.atomOp.isSome then 2 else 1)
  else s.setAcc o (a.fails 0x0A)

/-- A translated access of device memory (R220, R409, R418, R433, R435). -/
def State.accDevice (s : State) (o : Nat) (p : Op) (a : Acc) (dead : Bool) (pol : Nat) (obj : ObjRaw) : State :=
  let core := (s.gblk p.gid).core
  let l := lineOf a.adr
  let sec := a.adr / 128 % 2
  let tag := s.tagOf p.gid
  let ctx := (s.glch p.gid).ctx
  if p.instr.isRead then
    let agent := if p.instr.isLoad then 0 else 1
    if dead then s.setAcc o { a with st := .zero }
    else if s.poisonedSector a.adr then s.setAcc o (a.fails 0x0B)
    else if (s.line core agent l).readHit sec then s.setAcc o { a with st := .ready }
    else ((s.setAcc o { a with st := .clear }).sendRD core agent l sec tag).noteFill core agent a.adr a.pa a.mt ctx pol p.instr.hint
  else
    match p.instr.atomOp with
    | some f =>
      if s.poisonedSector a.adr then s.setAcc o (a.fails 0x0B)
      else if f = .xadd ∨ oAfar obj ∨ 2 ≤ tget 0 (s.core core).pred (predKey l) then
        (s.setAcc o { a with st := .clear }).push (.farAtomic o a.lane)
      else if (s.line core 0 l).writeHit then s.setAcc o { a with st := .ready }
      else
        let s := ((s.setAcc o { a with st := .clear }).sendXREQ core 0 l tag).noteFill core 0 a.adr a.pa a.mt ctx (if pol = 3 then 1 else pol) false
        s.setLine core 0 l { s.line core 0 l with near := true }
    | none =>
      if (s.line core 0 l).writeHit ∨ p.instr.hint then s.setAcc o { a with st := .ready }
      else ((s.setAcc o { a with st := .clear }).sendXREQ core 0 l tag).noteFill core 0 a.adr a.pa a.mt ctx (if pol = 3 then 1 else pol) false

/-- The bridge has as many non-posted requests outstanding as its tags allow, 1,024 (R448): the lanes of one sector of an instruction's host read share
one request. -/
def State.tagsTaken (s : State) : Bool :=
  decide (1024 ≤ (s.ops.map fun e =>
    let l := e.2.accs.filter fun a => a.st == .sent && a.blk.isNone && (a.mt == 1 || a.mt == 3)
    (l.filter fun a => a.mt == 3 || e.2.instr.atomOp.isSome || !e.2.instr.isAccess).length +
      ((l.filter fun a => a.mt == 1 && e.2.instr.atomOp.isNone && e.2.instr.isAccess).map fun a => a.pa / 128).eraseDups.length).foldl (· + ·) 0)

/-- A lane waits for an answer from outside. -/
def State.sendAcc (s : State) (o : Nat) (a : Acc) : State := s.setAcc o { a with st := .sent }

/-- A hinted store to a line of a peer that L1 does not own leaves no line there: its slab must be exclusive here, and the line's bytes at hand (R221,
R441). -/
def State.accHinted (s : State) (o : Nat) (a : Acc) (ctx : Nat) : State :=
  let l := lineOf a.adr
  let excl := s.slabPst (a.pa / 65536 % 4) (a.adr / 4096) != 2
  if !excl && s.holdersOf l != [] then s.setAcc o { a with st := .ready }
  else if (s.op o).accs.any fun b => b.st == .sent && lineOf b.adr == l then s.sendAcc o a
  else match s.askPeer o ctx a.pa a.adr excl with
    | some t => t.sendAcc o a
    | none => s.setAcc o (a.fails 0x1B)

/-- A translated access of a peer package's memory (R221, R418, R441): one request asks for the line or the slab. -/
def State.accPeer (s : State) (o : Nat) (p : Op) (a : Acc) (ctx : Nat) (dead : Bool) : State :=
  let h := a.pa / 65536 % 4
  let l := lineOf a.adr
  let core := (s.gblk p.gid).core
  let again := fun (s : State) =>
    (needLines ((s.op o).accs.filter fun b => b.lane != a.lane)).foldl (fun s l => s.push (.portCheck o l)) s
  if p.instr.isRead && dead then s.setAcc o { a with st := .zero }
  else if dead then
    if (s.op o).accs.any fun b => b.st == .need && b.adr / 65536 == a.adr / 65536 && decide (b.lane < a.lane) then s
    else
      match s.slabToTake h a.adr with
      | some k => (s.askPeer o ctx a.pa (4096 * k) true).getD (s.setAcc o (a.fails 0x1B))
      | none =>
        match s.wakePeer ctx a.pa a.adr with
        | (s, false) => s.push (.portCheck o l)
        | (s, true) => again (s.push (.portCheck o l))
  else
  match p.instr.atomOp with
  | some f =>
    match s.slabPort h (a.adr / 4096) with
    | some k =>
      (s.sendAcc o a).linkSend k (.atomic ⟨a.adr, ctx, s.tenantOf ctx a.adr, f.code, a.data, a.data2, o, a.lane, false, none, 0⟩)
    | none => s.setAcc o (a.fails 0x1B)
  | none =>
    let agent := if p.instr.isRead ∧ !p.instr.isLoad then 1 else 0
    let x := s.line core agent l
    if (if p.instr.isRead then x.readHit (a.adr / 128 % 2) else x.writeHit) then s.setAcc o { a with st := .ready }
    else if p.instr.isStore && p.instr.hint then s.accHinted o a ctx
    else match s.sendSlab core agent l a.pa ctx (s.tagOf p.gid) (!p.instr.isRead) p.instr.hint with
      | some t => t.setAcc o { a with st := .clear }
      | none => s.setAcc o (a.fails 0x1B)

/-- A translated access of host memory (R421, R423, R452): the lanes of one sector share a read, and each waits for its turn at its line. -/
def State.accHost (s : State) (o : Nat) (p : Op) (a : Acc) (dead : Bool) : State :=
  if p.instr.isRead && dead then s.setAcc o { a with st := .zero }
  else if !s.link.hostUp then s.setAcc o (a.fails 0x1B)
  else if p.instr.atomOp.isSome then (s.setAcc o { a with st := .clear }).push (.hostAtomic o a.lane)
  else if p.instr.isStore then s.setAcc o { a with st := .ready }
  else if (s.op o).accs.any fun b => b.st == .sent && b.mt == 1 && b.pa / 128 == a.pa / 128 then s.sendAcc o a
  else if s.tagsTaken then s.push (.portCheck o (lineOf a.adr))
  else if !s.hostTurn o a.lane (a.pa / 256) then (s.queueHost o a.lane (a.pa / 256)).push (.portCheck o (lineOf a.adr))
  else ((s.sendAcc o a).pcie (.memRead o a.lane (a.pa / 128 * 128) 128)).hostPass o a.lane (a.pa / 256)

/-- A translated access of a device register: one request a lane (R222, R452). -/
def State.accRegister (s : State) (o : Nat) (p : Op) (a : Acc) (dead : Bool) : State :=
  if p.instr.atomOp.isSome then s.setAcc o (a.fails 0x0E)
  else if p.instr.isRead && dead then s.setAcc o { a with st := .zero }
  else if !s.link.hostUp then s.setAcc o (a.fails 0x1B)
  else if p.instr.isStore then s.setAcc o { a with st := .ready }
  else if s.tagsTaken then s.push (.portCheck o (lineOf a.adr))
  else (s.sendAcc o a).pcie (.memRead o a.lane a.pa a.size)

/-- The check of DISCARD concerns its object only (R234). -/
def State.checkDiscard (s : State) (o : Nat) (a : Acc) : State :=
  let p := s.op o
  match s.portHead (s.glch p.gid).ctx a.adr (some p.cap1.gen) with
  | (s, .error c) => s.setAcc o (a.fails c)
  | (s, .ok _) => s.setAcc o { a with st := .ready }

/-- One lane's access at its port (R228). -/
def State.checkAcc (s : State) (o : Nat) (a : Acc) : State :=
  let p := s.op o
  let ctx := (s.glch p.gid).ctx
  if p.instr.isDiscard then s.checkDiscard o a
  else
    match s.portCheck ctx a.adr (some p.cap1.gen) (if p.instr.isRead then .read else .write) with
    | (s, .fail c) => s.setAcc o (a.fails c)
    | (s, .missing) => s.accMissing o p a
    | (s, .ok pa mt dead pol obj) =>
      let a := { a with pa := pa, mt := mt }
      let s := s.setAcc o a
      match mt with
      | 0 => s.accDevice o p a dead pol obj
      | 1 => (s.raise o 7).accHost o p a dead
      | 2 => (s.raise o 7).accPeer o p a ctx dead
      | 3 => s.accRegister o p a dead
      | _ => (s.raise o 7).setAcc o (a.fails 0x07)

/-- A request that leaves the package is sent only when the operation may be performed (R92, R96, R118): reads and atomics of the host, reads of
device registers, in ascending lane order (R222), and atomics of a peer. A dead page of the host is not cleared while an atomic has one of its lines
(R409, R423). -/
def State.mustWait (s : State) (o : Nat) (p : Op) (a : Acc) : Bool :=
  let mt := (s.typeOf (s.glch p.gid).ctx a.adr (some p.cap1.gen)).getD 0
  let asks := if p.instr.atomOp.isSome then mt == 1 || mt == 2 else p.instr.isRead && (mt == 1 || mt == 3)
  (asks &&
    (!s.mayPerform o || (mt == 3 && ((s.opsOf p.gid).any fun e => decide (e.1 < o) && e.2.instr.isAccess)) ||
      (mt == 3 && p.accs.any fun b => decide (b.lane < a.lane) && b.st == .need))) ||
    (!p.instr.isRead && s.deadLocked (s.glch p.gid).ctx a.adr)

/-- The accesses of an operation to one line pass their port in ascending lane order, but for those that must still wait; the flag says that none
had to. -/
def State.checkLanes (s : State) (o : Nat) (p : Op) (as : List Acc) : State × Bool :=
  as.foldl
    (fun r a => if r.1.mustWait o { p with accs := (r.1.op o).accs } a then (r.1, false) else (r.1.checkAcc o a, r.2)) (s, true)

/-- PORT_CHECK (R228, R406): the accesses of one operation to one line are translated at their port. -/
def execPortCheck (op line : Nat) (s : State) : Host.Outcome State Fault Refusal :=
  match tfind s.ops op with
  | none => .next s
  | some p =>
    let as := p.accs.filter fun a => a.st == .need && a.blk.isNone && lineOf a.adr == line
    if as = [] then .next s
    else if !s.resident p.gid && (match (s.grp p.gid).phase with | .parked _ o => o == op | _ => false) then .next (s.later (.portCheck op line))
    else
      match (s.checkLanes op p as).2 with
      | true => .next ((s.checkLanes op p as).1.reportOp op)
      | false => .next (((s.checkLanes op p as).1.reportOp op).later (.portCheck op line))

/-! ## Answers (R433, R435, R452) -/

/-- Data or ownership of a line reaches a core's agent: accesses that waited for it are ready. -/
def State.lineArrived (s : State) (core agent l : Nat) (sector : Option Nat) : State :=
  let hit := fun (a : Acc) (i : Instr) =>
    a.st == .clear && a.blk.isNone && lineOf a.adr == l && (a.mt == 0 || a.mt == 2) &&
      (match sector with
        | some k => i.isRead && a.adr / 128 % 2 == k && (i.isLoad == (agent == 0))
        | none => !i.isRead || (i.isLoad && agent == 0))
  (s.ops.foldl
    (fun (s : State) (e : Nat × Op) =>
      if (s.gblk e.2.gid).core = core ∧ e.2.accs.any (fun a => hit a e.2.instr) then
        let s := s.setOp e.1 { e.2 with accs := e.2.accs.map fun a => if hit a e.2.instr then { a with st := .ready } else a }
        if e.2.stage = .issued then s.reportOp e.1 else s
      else if (s.gblk e.2.gid).core = core ∧ !e.2.instr.isAccess ∧ e.2.instr.agent = some agent then
        match e.2.instr, e.2.stage with
        | .wgo _, .parts id => s.push (.walkerReadReturn e.2.gid id)
        | .wgo _, _ => s
        | .monclr _, _ => s.push (e.2.again e.1)
        | _, _ => if s.atHead e.1 then s.push (e.2.again e.1) else s
      else s)
    s).settle 2

/-- The agents with a read of a sector in flight. -/
def State.fillers (s : State) (line sector : Nat) : List (Nat × Nat) :=
  s.cores.flatMap fun e => (List.range 4).filterMap fun a => if fld (s.line e.1 a line).pending sector 1 = 1 then some (e.1, a) else none

/-- The home's answer to an agent's read in flight (R433): in E as the root chose, for the JDONE that goes up to where the read was caught. -/
def State.fillMsg (s : State) (core a line sector : Nat) : TMsg :=
  let x := s.line core a line
  { agentMsg core a line sector x.tag with router := rootRouter line, excl := fld x.pending 8 1 == 1, top := x.top }

/-- An agent's read of a sector ends without data (R416): its path stands, or the agent leaves it when it holds nothing of the line; its commands
are taken up again. -/
def State.endFill (s : State) (core a line sector : Nat) : State :=
  let x := s.line core a line
  let rest := if fld (bitClr x.pending sector) 0 3 = 0 then 0 else bitClr x.pending sector
  let m := { agentMsg core a line sector x.tag with top := x.top }
  let s := (s.setLine core a line { x with pending := rest }).push (.jdone m)
  let s := if x.st = .I ∧ rest = 0 ∧ fld x.pending (7 - sector) 1 = 0 then s.push (.leave m) else s
  (s.sendWanted core a line sector x).lineArrived core a line (some sector)

/-- HBM_READ_COMPLETE (R401, R416): the sector comes into L2 and goes to the agents that asked for it; an uncorrectable one is
poisoned and fails the reads that wait for it, a corrected one is logged. -/
def execHbmReadComplete (line sector : Nat) (ecc : Ecc) (s : State) : Host.Outcome State Fault Refusal :=
  let m := homeSlice line
  let s := if ecc = .corrected then s.logErr 1 m 0 1 (256 * line + 128 * sector) 0 none 0 else s
  if ecc = .uncorrectable then
    let x := s.slice m
    let s := (s.setSlice m { x with
      poisonSec := if x.poisonSec.contains (2 * line + sector) then x.poisonSec else x.poisonSec ++ [2 * line + sector]
      l2 := tset .none x.l2 line { tget .none x.l2 line with filling := bitClr (tget .none x.l2 line).filling sector } }).count 8 m 8
        (if x.poisonSec.contains (2 * line + sector) then 0 else 1)
    let s := s.logErr 1 m 1 1 (256 * line) 0 none sector
    let hit := fun (a : Acc) => a.st == .clear && a.blk.isNone && a.mt == 0 && lineOf a.adr == line && a.adr / 128 % 2 == sector
    let s := s.ops.foldl
      (fun (s : State) (e : Nat × Op) =>
        if (e.2.instr.isRead ∨ e.2.instr.atomOp.isSome) ∧ e.2.accs.any hit then
          (s.setOp e.1 { e.2 with accs := e.2.accs.map fun a => if hit a then a.fails 0x0B else a }).reportOp e.1
        else s)
      s
    .next ((s.fillers line sector).foldl (fun s w => s.endFill w.1 w.2 line sector) s)
  else
    let wants := s.fillers line sector
    let bit := fun (w : Nat × Nat) k => fld (s.line w.1 w.2 line).pending k 1 == 1
    let x := s.slice m
    let s :=
      if wants ≠ [] ∧ wants.all (fun w => bit w 4) then
        s.setSlice m { x with l2 := tset .none x.l2 line { tget .none x.l2 line with filling := bitClr (tget .none x.l2 line).filling sector } }
      else s.fillL2 line sector (wants.any fun w => bit w 5) false (match wants with | w :: _ => (s.line w.1 w.2 line).ctx | [] => 0)
    .next (wants.foldl (fun s w => s.push (.data (s.fillMsg w.1 w.2 line sector))) s)

/-- An answered access of a lane; the operation's checks are reported when it was the last. -/
def State.answerAcc (s : State) (o : Nat) (a : Acc) : State := (s.setAcc o a).reportOp o

/-- An answer of the host fills every access of the operation that lies in the sector read (R452). -/
def State.hostData (s : State) (o : Nat) (a : Acc) (v : Nat) : State :=
  let p := s.op o
  let base := a.pa / 128 * 128
  let fill := fun (b : Acc) =>
    if b.st = .sent ∧ b.mt = 1 ∧ b.pa / 128 * 128 = base then { b with st := .done (v / 2 ^ (8 * (b.pa - base)) % 2 ^ (8 * b.size)) } else b
  (s.setOp o { p with accs := p.accs.map fill }).reportOp o

/-- A read through the bridge failed: link error (R452). -/
def State.hostFailed (s : State) (o : Nat) (a : Acc) : State :=
  let p := s.op o
  let base := a.pa / 128 * 128
  let fill := fun (b : Acc) =>
    if b.lane = a.lane ∨ (a.mt = 1 ∧ b.st = .sent ∧ b.mt = 1 ∧ b.pa / 128 * 128 = base) then b.fails 0x1B else b
  (s.setOp o { p with accs := p.accs.map fill }).reportOp o

/-! ## Far atomics (R418, R420) -/

/-- A lower lane of the operation still waits for the atomic unit at the same location. -/
def Op.lowerLane (p : Op) (a : Acc) : Bool :=
  p.accs.any fun b => decide (b.lane < a.lane) && b.meets a && (b.st == .need || b.st == .sent || b.st == .clear || b.st == .ready)

/-- Another lane's access to the same page still has its check to come, or waits for the page (R229): lanes of one page finish or park together. -/
def Op.pageOpen (p : Op) (a : Acc) : Bool := p.accs.any fun b => (b.st == .need || b.st == .page) && b.adr / 65536 == a.adr / 65536

/-- FAR_ATOMIC (R420): the unit of the home slice applies one lane's atomic, after the line's tree is gone. -/
def execFarAtomic (op lane : Nat) (s : State) : Host.Outcome State Fault Refusal :=
  match tfind s.ops op with
  | none => .next s
  | some p =>
    match p.instr.atomOp, p.accs.find? fun a => a.lane == lane && a.st == .clear with
    | some f, some a =>
      if !s.mayPerform op ∨ p.lowerLane a ∨ p.pageOpen a ∨ s.engineIn a.adr a.size ∨ tget [] s.fab.roots (lineOf a.adr) ≠ [] then
        .next (s.later (.farAtomic op lane))
      else if s.poisonedSector a.adr then .next (s.answerAcc op (a.fails 0x0B))
      else if let some t := s.recall a.adr true then .next (t.later (.farAtomic op lane))
      else
        let l := lineOf a.adr
        let ctx := (s.glch p.gid).ctx
        let (s, a) := ((s.tearLine l).allocL2 a.adr a.size (s.streams ctx l) ctx).performAtom (s.gblk p.gid).core f a
        .next ((s.answerAcc op a).count 8 (homeSlice l) 6 1)
    | _, _ => .next s

/-! ## Host atomics (R421 to R423) -/

/-- PCI Express AtomicOp of an operation, with its operand size: 0 FetchAdd, 1 Swap, 2 CAS (R421). -/
def aopOf (f : AtomOp) : Option (Nat × Nat) :=
  match f with
  | .add => some (0, 4)
  | .addw => some (0, 8)
  | .exch => some (1, 4)
  | .cas => some (2, 4)
  | .casw => some (2, 8)
  | _ => none

namespace State

/-- AFB of the object that a lane's access names (R403). -/
def afbOf (s : State) (p : Op) (a : Acc) : Bool := oAfb (s.objRaw (s.glch p.gid).ctx (a.adr / 2 ^ 40))

/-- A host atomic is over: its line's lock is released, and the next waiter's turn comes (R423). -/
def hostDone (s : State) (o : Nat) (a : Acc) : State := (s.answerAcc o a).hostPass o a.lane (a.pa / 256)

/-- A page enters the fallback table, displacing the least recently used of 64 (R422). -/
def enterFallback (s : State) (ctx page code adr : Nat) : State :=
  if s.link.fallback.contains page then s
  else
    let s := { s with link := { s.link with fallback := (page :: s.link.fallback).take 64 } }
    s.logErr 4 3 4 code adr ctx none 0

/-- The entry of a page in the fallback table is used (R422). -/
def useFallback (s : State) (page : Nat) : State :=
  if s.link.fallback.contains page then { s with link := { s.link with fallback := page :: s.link.fallback.filter (· != page) } } else s

/-- A host atomic is refused: AFB is 0 (R421, R422). -/
def refuseHost (s : State) (o : Nat) (p : Op) (a : Acc) : State :=
  ((s.useFallback (a.pa / 65536)).logErr 4 3 4 4 a.adr (s.glch p.gid).ctx none 0).hostDone o (a.fails 0x0E)

/-- The fallback: the bridge reads the operand under its lock (R421). -/
def startFallback (s : State) (o : Nat) (a : Acc) : State :=
  (((s.useFallback (a.pa / 65536)).sendAcc o a).count 8 3 11 1).pcie (.memRead o a.lane a.pa a.size)

end State

/-- HOST_ATOMIC (R421 to R423): an atomic takes its line's lock when its turn comes, after the lower lanes of its location (R93), and leaves as an
AtomicOp, as the fallback's read, or is refused. -/
def execHostAtomic (op lane : Nat) (s : State) : Host.Outcome State Fault Refusal :=
  match tfind s.ops op with
  | none => .next s
  | some p =>
    match p.instr.atomOp, p.accs.find? fun a => a.lane == lane && a.st == .clear with
    | some f, some a =>
      let l := a.pa / 256
      if !s.mayPerform op ∨ p.lowerLane a ∨ p.pageOpen a ∨ s.tagsTaken then .next (s.later (.hostAtomic op lane))
      else if !s.hostTurn op lane l then .next ((s.queueHost op lane l).push (.hostAtomic op lane))
      else
        let s := s.queueHost op lane l
        let afb := s.afbOf p a
        let ctx := (s.glch p.gid).ctx
        if !s.link.hostUp then .next (s.hostDone op (a.fails 0x1B))
        else if s.link.fallback.contains (a.pa / 65536) then
          if afb then .next (s.startFallback op a) else .next (s.refuseHost op p a)
        else
          match aopOf f with
          | some (k, z) => .next (((s.sendAcc op a).count 8 3 9 1).pcie (.atomicOp op lane a.pa k z a.data a.data2))
          | none =>
            if afb then .next ((s.enterFallback ctx (a.pa / 65536) 3 a.adr).startFallback op a) else .next (s.refuseHost op p a)
    | _, _ => .next s

/-- ATOMICOP_COMPLETION (R421, R422). -/
def execAtomicopCompletion (op lane : Nat) (st : CplStatus) (val : Nat) (s : State) : Host.Outcome State Fault Refusal :=
  match tfind s.ops op with
  | none => .next s
  | some p =>
    match p.accs.find? fun a => a.lane == lane && a.st == .sent with
    | some a =>
      match st with
      | .success => .next (s.hostDone op { a with st := .done val })
      | .poisoned => .next (s.hostDone op (a.fails 0x0F))
      | _ =>
        let s := (s.count 8 3 10 1).enterFallback (s.glch p.gid).ctx (a.pa / 65536) (if st = .unsupported then 1 else 2) a.adr
        if s.afbOf p a then .next (s.startFallback op a) else .next (s.refuseHost op p a)
    | none => .next s

/-- A part of an engine operation has its answer, and the operation is taken up again. -/
def State.answerPart (s : State) (o : Nat) (a : Acc) : State := (s.setAcc o a).push ((s.op o).again o)

/-- PCIE_COMPLETION (R421, R452): a read of the host or of a device register returns. -/
def execPcieCompletion (op lane : Nat) (st : CplStatus) (val : Nat) (s : State) : Host.Outcome State Fault Refusal :=
  match tfind s.ops op with
  | none => .next s
  | some p =>
    match p.accs.find? fun a => a.lane == lane && a.st == .sent with
    | none => .next s
    | some a =>
      if !p.instr.isAccess then
        .next (s.answerPart op (if st = .success then { a with st := .done (val % 2 ^ (8 * a.size)) } else a.fails 0x1B))
      else
        match p.instr.atomOp with
        | some f =>
          if st = .success then
            let r := f.apply (val % 2 ^ (8 * a.size)) a.data a.data2
            .next ((s.accWrite a r.1).hostDone op { a with st := .done r.2 })
          else .next (s.hostDone op (a.fails 0x1B))
        | none =>
          if st ≠ .success then .next (s.hostFailed op a)
          else if a.mt = 1 then .next (s.hostData op a val)
          else .next (s.answerAcc op { a with st := .done (val % 2 ^ (8 * a.size)) })

/-- The last request that the bridge sent for a lane was an AtomicOp. -/
def State.sentAtomic (s : State) (o k : Nat) : Bool :=
  match s.link.out.reverse.find? fun m => match m with | .atomicOp p j _ _ _ _ _ | .memRead p j _ _ => p == o && j == k | _ => false with
  | some (.atomicOp ..) => true
  | _ => false

/-- COMPLETION_TIMEOUT (R421, R452): an AtomicOp may have been applied, so its result is lost; a read fails. -/
def execCompletionTimeout (op lane : Nat) (s : State) : Host.Outcome State Fault Refusal :=
  match tfind s.ops op with
  | none => .next s
  | some p =>
    match p.accs.find? fun a => a.lane == lane && a.st == .sent with
    | none => .next s
    | some a =>
      if !p.instr.isAccess then .next (s.answerPart op (a.fails 0x1B))
      else if p.instr.atomOp.isSome then
        .next (s.hostDone op (if s.sentAtomic op lane then a.fails 0x0F else a.fails 0x1B))
      else .next (s.hostFailed op a)

/-! ## Fault reports and replays (R229, R231, R413 to R415) -/

/-- The event that takes up the next command of an operation's queue. -/
def Op.queueEvent (p : Op) (o : Nat) : Event :=
  match p.instr with
  | .cpygs _ _ _ | .cpysg _ _ _ | .cpysw _ _ | .cpygg _ _ _ _ | .cpyx _ _ _ => .copyComplete o
  | .mgmatch _ _ | .mgmerge _ _ | .mgsplit _ | .mgbias _ | .mgpop _ | .mgstat _ _ => .mergeCommandComplete o
  | _ => .matrixCommandComplete o

namespace State

/-- A group is parked on operation `o` (R229). -/
def parkedOn (s : State) (o : Nat) : Bool :=
  match (s.grp (s.op o).gid).phase with
  | .parked _ k => k == o
  | _ => false

/-- An access of a group's context waits on a page. -/
def accOn (s : State) (ctx obj page : Nat) (p : Op) (a : Acc) : Bool :=
  a.st == .page && (s.glch p.gid).ctx == ctx && a.adr / 2 ^ 40 == obj && a.adr % 2 ^ 40 / 65536 == page

/-- A group is parked at a fetch on a page. -/
def fetchOn (s : State) (ctx obj page g : Nat) : Bool :=
  match (s.grp g).phase with
  | .parkedFetch _ k => k == page && (s.glch g).ctx == ctx && (s.glch g).codeCap.obj == obj
  | _ => false

/-- A walker entry of a group waits on a page. -/
def entryOn (s : State) (ctx obj page g : Nat) (e : QEntry) : Bool := e.pages.contains (obj, page) && (s.glch g).ctx == ctx

/-- Requests that wait on a page (R413). -/
def waitingOn (s : State) (ctx obj page : Nat) : Nat :=
  (s.ops.foldl
    (fun n e =>
      n + (e.2.accs.filter (s.accOn ctx obj page e.2)).length +
        (if e.2.stage = .page obj page ∧ (s.glch e.2.gid).ctx = ctx then 1 else 0))
    0) +
    (List.range s.groups.length).foldl
      (fun n g =>
        n + (if s.fetchOn ctx obj page g then 1 else 0) +
          ((s.grp g).walk.queues.flatMap (·.2)).countP (s.entryOn ctx obj page g))
      0

/-- Every access that waits on a page fails with page fault (R414): lanes, engine commands, which stop at their access there (R279, R323), a clause fetch with its first word there (R37), and
walker entries with their lanes there (R341). -/
def failPage (s : State) (ctx obj page : Nat) : State :=
  let adr := obj * 2 ^ 40 + page * 65536
  let s := s.ops.foldl
    (fun (s : State) (e : Nat × Op) =>
      if e.2.accs.any (s.accOn ctx obj page e.2) then
        (s.setOp e.1 { e.2 with accs := e.2.accs.map fun a => if s.accOn ctx obj page e.2 a then a.fails 0x0A else a }).push
          (.farCheckReport e.1)
      else if e.2.stage = .page obj page ∧ (s.glch e.2.gid).ctx = ctx then
        let k := e.2.accs.foldl (fun n a => Nat.max n (a.lane + 1)) 0
        (s.setOp e.1 { e.2 with
          stage := .cleared, accs := e.2.accs ++ [⟨k, 0, adr, 0, 0, 65536, 0, 0, none, .failed (portTrap 0x0A adr e.2.mask)⟩] }).push (e.2.again e.1)
      else s)
    s
  (List.range s.groups.length).foldl
    (fun s g =>
      let s : State := match (s.grp g).phase, s.fetchOn ctx obj page g with
        | .parkedFetch pc _, true =>
          let c := (s.glch g).codeCap
          s.fetchTrap g pc (portTrap 0x0A (Nat.max adr (c.obj * 2 ^ 40 + c.base + pc)) (s.grp g).launchAct)
        | _, _ => s
      (((s.grp g).walk.queues.flatMap (·.2)).filter (s.entryOn ctx obj page g)).foldl
        (fun s e =>
          match s.entryOp g e.id with
          | none => s
          | some (o, p) =>
              let d := fun (L : Nat) => (tget 0 e.words L).toNat
              let ls := (lanesOf p.mask).filter fun L => p.cap1.adr (d L) / 65536 == adr / 65536
              s.entryDone g e.id o p { e with
                words := [], pages := [], inFlight := false, fail := some (failTrap (ls.map fun L => (L, d L, walkTrap p.cap1 (d L) 0x0A)) []) })
        s)
    s

/-- The bytes of a fault report (R413). -/
def reportBytes (s : State) (r : FaultRec) (slice n : Nat) : List Nat :=
  toBytes 2 (r.ctx + 4096 * r.access) ++ toBytes 2 slice ++ toBytes 4 r.obj ++ toBytes 4 r.page ++ toBytes 4 (r.core + 512 * r.part) ++
    toBytes 4 (s.tick % 2 ^ 32) ++ toBytes 4 n ++ toBytes 8 0

end State

/-- Reports of a page that are still on their way fail with the one that could not be made (R414). -/
def State.dropReports (s : State) (r : FaultRec) : State :=
  { s with agenda := s.agenda.filter fun e => match e with
      | .faultReport q => !(q.ctx == r.ctx && q.obj == r.obj && q.page == r.page)
      | _ => true }

/-- FAULT_REPORT (R413, R414): the reporting slice appends one record for each outstanding fault of a page; an access that meets one already
outstanding is counted in FDUP at its port. -/
def execFaultReport (r : FaultRec) (s : State) : Host.Outcome State Fault Refusal :=
  let m := homeSlice (lineOf (r.obj * 2 ^ 40 + r.page * 65536))
  let x := s.slice m
  let f : PageFault := ⟨r.ctx, r.obj, r.page⟩
  if x.faults.contains f then .next (s.count 8 r.port 3 1)
  else
    let fail := fun (s : State) => ((s.logErr 1 m 1 4 (r.obj * 2 ^ 40 + r.page * 65536) r.ctx none 0).dropReports r).failPage r.ctx r.obj r.page
    match (s.ctx r.ctx).faultSeq with
    | none => .next (fail s)
    | some h =>
      if !s.seqValid r.ctx h then .next (fail s)
      else
        match s.appendRec r.ctx h s.nextOp (s.reportBytes r m (s.waitingOn r.ctx r.obj r.page)) with
        | (t, .got _) =>
          let y := t.slice m
          .next ((t.setSlice m { y with faults := y.faults ++ [f] }).count 8 m 2 1)
        | _ => .next (fail s)

namespace State

/-- Everything that waits on pages chosen by `pick` is translated again (R231, R415). -/
def replayWhere (s : State) (ctx : Nat) (pick : Nat → Nat → Bool) : State :=
  let s : State := { s with slices := s.slices.map fun (e : Nat × Slice) => (e.1, { e.2 with faults := e.2.faults.filter fun f => !(f.ctx == ctx && pick f.obj f.page) }) }
  let on := fun (s : State) (p : Op) (a : Acc) => a.st == .page && (s.glch p.gid).ctx == ctx && pick (a.adr / 2 ^ 40) (a.adr % 2 ^ 40 / 65536)
  let s := s.ops.foldl
    (fun (s : State) (e : Nat × Op) =>
      if e.2.accs.any (on s e.2) then
        let go := fun (a : Acc) => a.st == .page
        let s := s.setOp e.1 { e.2 with accs := e.2.accs.map fun a => if go a then { a with st := AccSt.need } else a }
        let s := if s.parkedOn e.1 ∧ s.resident e.2.gid then s.count 2 (s.gblk e.2.gid).core 1 1 else s
        (needLines ((e.2.accs.filter go).map fun a => { a with st := .need })).foldl (fun s l => s.push (.portCheck e.1 l)) s
      else
        match e.2.stage with
        | .page obj page =>
          if (s.glch e.2.gid).ctx = ctx ∧ pick obj page then
            let s := match (s.grp e.2.gid).phase with
              | .parked _ o => if o = e.1 ∧ s.resident e.2.gid then s.count 2 (s.gblk e.2.gid).core 1 1 else s
              | _ => s
            (s.setOp e.1 { e.2 with stage := .cleared }).push (e.2.again e.1)
          else s
        | _ => s)
    s
  (List.range s.groups.length).foldl
    (fun s g =>
      if (s.glch g).ctx ≠ ctx then s
      else
        let s := (s.grp g).mons.foldl
          (fun s e => match e.2 with
            | .armed (.glob _) _ a _ => if pick (a / 2 ^ 40) (a % 2 ^ 40 / 65536) then s.push (.monitorReread g e.1) else s
            | _ => s)
          s
        let s : State := match (s.grp g).phase with
          | .parkedFetch pc page =>
            if pick (s.glch g).codeCap.obj page then s.setGrp g { s.grp g with phase := .fetch pc } else s
          | _ => s
        let w := (s.grp g).walk
        let on := fun (e : QEntry) => e.pages.any fun k => pick k.1 k.2
        let es := (w.queues.flatMap (·.2)).filter on
        if es = [] then s
        else
          es.foldl (fun s e => s.push (.walkerReadReturn g e.id))
              (s.setWalk g { w with queues := w.queues.map fun q => (q.1, q.2.map fun e => if on e then { e with pages := [] } else e) }))
    s

end State

/-- REPLAY_PAGE (R231, R415). -/
def execReplayPage (ctx obj page : Nat) (s : State) : Host.Outcome State Fault Refusal :=
  .next (s.replayWhere ctx fun o k => o == obj && k == page)

/-- REPLAY_CONTEXT (R415). -/
def execReplayContext (ctx : Nat) (s : State) : Host.Outcome State Fault Refusal := .next (s.replayWhere ctx fun _ _ => true)

end Sys2Proof.Machine
end

