-- ==== Sys2Proof/Machine/Fabric.lean ====
section
/-! DEFINITION. Routers, coherence trees and mesh links (spec/15 R427 to R447). A message is handled at the router it names, and
the next router's message is then due. Messages of slabs carry their proxy root, and in `sector` a line's place plus one, or 0 for every line. -/

namespace Sys2Proof.Machine

/-! ## Where trees stand (R427) -/

/-- The router where a message's tree is rooted (R400, R440). -/
def State.rootOf (s : State) (m : TMsg) : Nat :=
  if !m.slab then rootRouter m.key
  else if m.top ≠ 0 then m.top - 1
  else portRouter ((s.proxyPort m.key).getD ((s.slabHolder m.key).getD 0))

/-- The core at a router, or the number that stands for a port's link agent (R440). -/
def coreAt (r : Nat) : Option Nat :=
  match (List.range 12).find? fun p => portRouter p == r with
  | some p => some (448 + p)
  | none => (List.range 448).find? fun c => coreRouter c == r

/-- Tag of a router's least recently used counters: block 9 instance (R466). -/
def State.countRouter (s : State) (r k : Nat) : State := s.count 9 r k 1

end Sys2Proof.Machine

namespace Sys2Proof

open Machine

/-- The line a request names. -/
def TMsg.line (m : TMsg) : Nat := if m.slab then 16 * m.key + (m.sector - 1) else m.key

/-- Key of a root's list of requests: a line, or a slab. -/
def TMsg.rootKey (m : TMsg) : Nat := if m.slab then 2 ^ 56 + m.key else m.key

/-- A message at the next router in a direction. -/
def TMsg.step (m : TMsg) (d : Nat) : TMsg := { m with router := nbr m.router d, arr := opp d }

end Sys2Proof

namespace Sys2Proof.Machine

/-- The link and the class on which a tree message arrives; messages of one class keep their order on a link (R431, R443), while those
that only carry data may bypass (R442). -/
def Event.lane (e : Event) : Option (Nat × Nat × Nat) :=
  match e with
  | .rd m | .xreq m => some (m.router, m.arr, 0)
  | .srdSteeredRead m => some (m.router, m.arr, 1)
  | .inv m | .tkeep m | .grant m | .snoop m => some (m.router, m.arr, 2)
  | .ack m | .prune m | .jdone m | .leave m => some (m.router, m.arr, 3)
  | _ => none

/-- A message that says that a branch is gone comes before requests that were sent after it on its link, which may join the branch again (R430). -/
def Event.leads (e f : Event) : Bool :=
  match e, f with
  | .prune m, .rd k | .prune m, .xreq k =>
    m.router == k.router && m.arr == k.arr && m.key == k.key && m.slab == k.slab
  | _, _ => false

namespace State

/-! ## Entries (R428, R429) -/

/-- The entry of a message's line at its router. -/
def ent (s : State) (m : TMsg) : TEntry := s.tent m.router m.slab m.key

/-- An entry is changed and counts as used (R428). -/
def putEnt (s : State) (r : Nat) (slab : Bool) (key : Nat) (e : TEntry) : State :=
  let s := { s with fab := { s.fab with use := s.fab.use + 1 } }
  s.setTent r slab key (if e.st = .invalid then .empty else { e with use := s.fab.use })

/-- The entry of a message's line at its router becomes `e`. -/
def put (s : State) (m : TMsg) (e : TEntry) : State := s.putEnt m.router m.slab m.key e

/-- A message is held at its router (R431). -/
def hold (s : State) (k : HKind) (m : TMsg) : State :=
  ({ s with fab := { s.fab with held := s.fab.held ++ [(m.router, k, m)] } }).countRouter m.router 2

/-- Requests for ownership that wait behind the one that a root at a router serves (R435). -/
def rootHeld (s : State) (r : Nat) : Nat :=
  s.fab.roots.foldl (fun n e => match e.2 with | x :: t => if x.m.router = r then n + t.length else n | [] => n) 0

/-- A message's class has its hold buffer at the router full, 32 requests or 16 steered reads: the router accepts no message of the class
(R431). -/
def holdFull (s : State) (k : HKind) (m : TMsg) : Bool :=
  let steer := fun (k : HKind) => match k with | .srd => true | _ => false
  let n := (s.fab.held.filter fun e => e.1 == m.router && steer e.2.1 == steer k).length
  if steer k then decide (16 ≤ n) else decide (32 ≤ n + s.rootHeld m.router)

/-- A message that a router does not accept stays first on its link; other links and classes go on. -/
def onLink (s : State) (e : Event) : State :=
  { s with agenda := (s.agenda.filter fun x => x.lane != e.lane) ++ e :: s.agenda.filter fun x => x.lane == e.lane }

/-- An entry that a message reads counts as used (R428). -/
def usedEnt (s : State) (m : TMsg) : State := if (s.ent m).st = .invalid then s else s.put m (s.ent m)

/-- Messages held at a router that `pick` chooses are due again (R431). -/
def releaseWhere (s : State) (r : Nat) (pick : TMsg → Bool) : State :=
  (s.fab.held.filter fun e => e.1 == r && pick e.2.2).foldl (fun s e => s.push (.heldMessageRelease r e.2.2.key e.2.2.slab)) s

/-- Messages held at a router for a line are due again (R431). -/
def release (s : State) (r key : Nat) (slab : Bool) : State := s.releaseWhere r fun m => m.key == key && m.slab == slab

/-- An entry leaves its router; what waits there for room or for the line is due again. -/
def dropEnt (s : State) (r : Nat) (slab : Bool) (key : Nat) : State := (s.setTent r slab key .empty).releaseWhere r fun _ => true

/-- Set of a tag in a router's tree cache (R428). -/
def treeSet (r key : Nat) : Nat :=
  if r / 32 < 2 ∨ 18 ≤ r / 32 then (key % 4096) ^^^ (key / 4096 % 4096) else (key % 1024) ^^^ (key / 1024 % 1024)

/-- Entries of a router: key, slab flag, entry. -/
def entsOf (s : State) (r : Nat) : List (Nat × Bool × TEntry) :=
  s.fab.tree.filterMap fun e => if e.1 / 2 ^ 57 = r then some (e.1 % 2 ^ 56, e.1 / 2 ^ 56 % 2 == 1, e.2) else none

/-- Entries a router's TCLIM limit allows: none when there is no limit (R446). -/
def limitAt (s : State) (r : Nat) : Option Nat :=
  let lim := tget 0 s.fab.tclim r
  if lim = 0 ∨ (if r / 32 < 2 ∨ 18 ≤ r / 32 then 65536 else 16384) < lim then none else some (Nat.max 2 lim)

/-- An entry that can be evicted: it is stable, and its root serves no request and waits for no dirty sectors (R428, R436). -/
def evictable (s : State) (e : Nat × Bool × TEntry) : Bool :=
  e.2.2.st == .stable &&
    (e.2.2.par != 4 || (tget [] s.fab.roots (if e.2.1 then 2 ^ 56 + e.1 else e.1) == [] && !(e.2.1 && e.2.2.pst != 0 && s.slabMoving e.1)))

/-- The entry that gives up its place for a new one, when one must: of a full set, or of the whole router under a TCLIM limit (R428, R446). The first
answer says whether there is room already. -/
def victimAt (s : State) (r key : Nat) : Bool × Option (Nat × Bool) :=
  let es := s.entsOf r
  let mine := es.filter fun e => treeSet r e.1 == treeSet r key
  let full := decide (16 ≤ mine.length) || (match s.limitAt r with | some lim => decide (lim ≤ es.length) | none => false)
  let from_ := if (s.limitAt r).isSome then es else mine
  let v := (from_.filter s.evictable).foldl (fun b e => match b with | none => some e | some x => if e.2.2.use < x.2.2.use then some e else some x) none
  (!full, if from_.any fun e => e.2.2.st == .pruning then none else v.map fun e => (e.1, e.2.1))

/-! ## Local agents (R29, R432) -/

/-- One agent's copy of a line goes: its dirty sectors, and the predictor learns when another agent takes a line obtained for a near
atomic (R419, R432, R438, R439). -/
def invAgent (s : State) (core a l : Nat) (owned : Bool) : State × Nat :=
  let x := s.line core a l
  let dirty := if x.mt = 2 then x.dirty else s.dirtyOf x l
  let s := (List.range 2).foldl (fun s k => if fld x.dirty k 1 = 1 ∧ x.mt ≠ 2 then s.noteWrite x.ctx (256 * l + 128 * k) else s) s
  let s := s.setLine core a l <|
    if x.pending = 0 then CLine.none
    else { CLine.none with
      pending := bitSet x.pending 3, pa := x.pa, mt := x.mt, ctx := x.ctx, tag := x.tag, top := x.top
      near := x.near && fld x.pending 2 1 == 1 }
  let s := if a = 1 ∧ x.st ≠ .I then s.touch (256 * l) 256 else s
  let c := s.core core
  let k := predKey l
  let had : Bool := match x.st with | .M | .E | .O => true | _ => false
  let s := if owned ∧ x.near ∧ had ∧ a = 0 then s.setCore core { c with pred := tset 0 c.pred k (Nat.min 3 (tget 0 c.pred k + 1)) } else s
  (s, dirty)

/-- Lines that a teardown's message concerns: one, or every line of a slab. -/
def linesIn (m : TMsg) : List Nat := if m.slab then (if m.sector = 0 then slabLines m.key else [m.line]) else [m.key]

/-- An agent of a core holds no line that an entry is for. -/
def holdsNone (s : State) (m : TMsg) (core a : Nat) : Bool :=
  (linesIn { m with sector := 0 }).all fun l => (s.line core a l).st == .I

/-- An agent of a core awaits another line of a slab than the one a message names. -/
def waitsOther (s : State) (m : TMsg) (core a : Nat) : Bool :=
  m.slab && m.sector != 0 && (slabLines m.key).any fun l => l != m.line && fld (s.line core a l).pending 0 3 != 0

/-- The local agents of an entry that `keep` does not spare lose the lines; LOC and the dirty sectors that remain. -/
def invLocal (s : State) (m : TMsg) (e : TEntry) (owned : Bool) (keep : Nat → Bool) : State × TEntry :=
  match coreAt m.router with
  | none => (s, { e with loc := 0 })
  | some c =>
    let go := (List.range 4).filter fun a => fld e.loc a 1 == 1 && !keep a
    let (s, d) := go.foldl
      (fun (r : State × Nat) a =>
        (linesIn m).foldl (fun (r : State × Nat) l => let (s, x) := r.1.invAgent c a l owned; (s, r.2 ||| (if m.slab then slabDirty l x else x))) r)
      (s, e.dirty)
    (s, { e with loc := (go.filter fun a => s.holdsNone m c a && !s.waitsOther m c a).foldl (fun n a => bitClr n a) e.loc, dirty := d })

/-! ## Teardowns (R435 to R438) -/

/-- Children of an entry. -/
def kids (e : TEntry) : List Nat := (List.range 4).filter fun d => fld e.ch d 1 == 1

/-- INV goes to some children of the message's router. -/
def sendInv (s : State) (m : TMsg) (ds : List Nat) : State := ds.foldl (fun s d => s.push (.inv { m.step d with dirty := 0, excl := false })) s

/-- A teardown goes to the children of the message's router: TKEEP along the path it keeps, if any, and INV to the others (R435). -/
def sendDown (s : State) (m : TMsg) (e : TEntry) (d : Nat) : State :=
  let s := s.sendInv m ((kids e).filter (· != d))
  if (kids e).contains d then s.push (.tkeep { m.step d with dirty := 0, excl := false }) else s

/-- A router's own writer of dirty sectors, in the agent field of WB and WBACK, whose core field then names the router. -/
def routerAgent : Nat := 8

/-- A partial teardown has its acknowledgements: dirty sectors go to the home first, then PRUNE or ACK goes up (R437, R438). -/
def endPrune (s : State) (m : TMsg) : State :=
  let e := s.ent m
  let s := s.dropEnt m.router m.slab m.key
  if e.par = 4 then s
  else
    let up := { m.step e.par with dirty := 0, excl := false }
    if e.merged then s.push (.ack up) else s.push (.prune up)

/-- The acknowledgements of a partial teardown have all arrived (R437, step 2); when the owner was below, its write-back clears the root's OWN even with no
dirty sector (R434). -/
def prunedAll (s : State) (m : TMsg) : State :=
  let e := s.ent m
  if e.dirty = 0 ∧ e.own = 0 ∧ !m.slab then s.endPrune m
  else s.push (.wb { m with dirty := e.dirty, agent := routerAgent, core := m.router, arr := 4, excl := false, ctx := e.ctx, evict := e.ctx })

/-- A partial teardown begins at a router (R437); that of a root is a home teardown (R436), and the end of a slab here (R441). -/
def startPrune (s : State) (m : TMsg) : State :=
  let e := s.ent m
  let m := { m with sector := 0, top := if m.slab then s.rootOf m + 1 else 0 }
  let own : SlabMsg := ⟨m.key, 0, s.link.domPkg, e.ctx, s.tenantOf e.ctx (4096 * m.key), true, 1, none, []⟩
  if m.router = s.rootOf m ∧ !m.slab then s.tearLine m.key
  else if m.slab ∧ e.pst ≠ 0 then (s.giveSlab ((s.proxyPort m.key).getD 0) own).dropEnt m.router m.slab m.key
  else if m.slab ∧ e.pkg ≠ 0 then s.askHolders ((s.slabHolder m.key).getD 0) m.key (fun _ => true) false
  else
    let ds := kids e
    let (s, e) := s.invLocal m { e with st := .pruning, dirty := 0, merged := false } false fun _ => false
    let s := (s.put m { e with acks := e.ch, loc := 0 }).sendInv m ds
    if ds = [] then s.prunedAll m else s

/-- Room for a new entry: none yet when a victim's teardown has just begun or no entry can go (R428). -/
def makeRoom (s : State) (m : TMsg) : State × Bool :=
  match s.victimAt m.router m.key with
  | (true, _) => (s, true)
  | (false, some (k, sl)) =>
    let s := (s.countRouter m.router 1).startPrune { m with key := k, slab := sl, top := 0 }
    (s, (s.victimAt m.router m.key).1)
  | (false, none) => (s, false)

/-- A LIMIT below the present count evicts least recently used stable entries until the count, without the entries already on
their way out, is within it (R446). -/
def trimRouter (s : State) (r : Nat) : State :=
  match s.limitAt r with
  | none => s
  | some lim =>
    let es := (s.entsOf r).filter fun e => e.2.2.st != .pruning
    let old := (es.filter s.evictable).mergeSort fun a b => decide (a.2.2.use ≤ b.2.2.use)
    (old.take (es.length - lim)).foldl
      (fun (s : State) (e : Nat × Bool × TEntry) => (s.countRouter r 1).startPrune ⟨e.1, e.2.1, 0, 0, 0, r, 4, 0, 0, 0, false, 0, 0, 0⟩) s

/-- An entry has become stable: what waits for the line goes on, and what waits for an entry of the router to be evicted (R428, R446). -/
def settled (s : State) (m : TMsg) : State :=
  ((s.release m.router m.key m.slab).trimRouter m.router).releaseWhere m.router fun h =>
    (h.key != m.key || h.slab != m.slab) && (s.tent m.router h.slab h.key).st == .invalid

/-- An entry is left without a child or a local holder: it goes, and its parent hears (R437, step 4). -/
def pruneEmpty (s : State) (m : TMsg) : State :=
  let e := s.ent m
  if e.ch = 0 ∧ e.loc = 0 ∧ e.par ≠ 4 ∧ (e.st = .stable ∨ e.st = .joining) then
    (s.dropEnt m.router m.slab m.key).push (.prune { m.step e.par with excl := false })
  else s

/-- The arrival of a message joins its entry: its link or its local agent. -/
def joinAt (e : TEntry) (m : TMsg) : TEntry := if m.arr < 4 then { e with ch := bitSet e.ch m.arr } else { e with loc := bitSet e.loc m.agent }

/-- A joining entry is installed for a request (R433). -/
def installAt (s : State) (m : TMsg) : State :=
  (s.put m (joinAt { TEntry.empty with st := .joining, par := toward m.router (s.rootOf m), ctx := m.ctx } m)).countRouter m.router 0

/-- A message goes on toward a router, X then Y. -/
def onward (m : TMsg) (root : Nat) : TMsg := m.step (toward m.router root)

/-- DATA, WB or WBACK goes on to the next router, or past it: the crossing may be one made by bypass (R442; log entry 18). -/
def crossing (s : State) (m : TMsg) (to_ : Nat) (e : TMsg → Event) : State := (s.countRouter m.router 4).push (e (onward m to_))

/-! ## Reads (R433, R434) -/

/-- Requests of a core for a line have missed in L2: their class is 6 (R33). -/
def missed (s : State) (core l : Nat) : State :=
  s.ops.foldl
    (fun s e =>
      let mine := e.2.accs.any (fun a => a.st == .clear && a.blk.isNone && lineOf a.adr == l) ||
        (match e.2.instr, e.2.stage with | .wgo _, .parts _ => true | _, _ => false)
      if mine && (s.gblk e.2.gid).core == core then s.raise e.1 6 else s)
    s

/-- The home supplies a sector from L2, or reads it from memory first, in E or S as the root has chosen (R401, R433). -/
def fromHome (s : State) (m : TMsg) (excl : Bool) : State :=
  let top := if m.top = 0 then s.rootOf m + 1 else m.top
  let z := s.line m.core m.agent m.key
  let s := if fld z.pending m.sector 1 = 0 then s
    else s.setLine m.core m.agent m.key { z with top := top, pending := if excl then bitSet z.pending 8 else bitClr z.pending 8 }
  if s.inL2 m.key m.sector then s.push (.data { m with excl := excl, top := top })
  else
    let s := s.missed m.core m.key
    let k := homeSlice m.key
    let x := s.slice k
    let y := tget L2Line.none x.l2 m.key
    if fld y.filling m.sector 1 = 1 then s
    else (s.setSlice k { x with l2 := tset .none x.l2 m.key { y with filling := bitSet y.filling m.sector } }).push (.hbmReadComplete m.key m.sector .clean)

/-- A message of a slab leaves its proxy root for the slab's home; none when its port is not UP (R440, R441). -/
def askHome (s : State) (m : TMsg) (excl own : Bool) : Option State :=
  let x := s.line m.core m.agent m.line
  (s.slabPort (x.pa / 65536 % 4) m.key).map fun p =>
    let r : SlabMsg := ⟨m.key, m.line % 16, s.link.domPkg, x.ctx, s.tenantOf x.ctx (256 * m.line), false, agentTag m.core m.agent own, none, []⟩
    s.linkSend p (if excl then .slabExclusive r else .slabRead r)

/-- A request of an agent for a line of a slab ends here: its path is stable, and the agent leaves the tree when it holds nothing there. -/
def leaveTree (s : State) (m : TMsg) : State :=
  let up := { m with router := agentRouter m.core, arr := 4, hops := 0, excl := false, dirty := 0 }
  (s.push (.jdone up)).push (.leave { up with sector := 0 })

/-- A request for a line of a slab ends without it. -/
def failReq (s : State) (m : TMsg) (cause : Nat) : State := (s.failLine m.core m.agent m.line cause).leaveTree m

/-- A read whose path a teardown has removed starts afresh from its requester's router (R436, R438; log entry 66). -/
def restart (s : State) (m : TMsg) : State :=
  let x := s.line m.core m.agent m.line
  (s.setLine m.core m.agent m.line { x with pending := bitClr x.pending 3 }).push
    (.rd { m with excl := false, router := agentRouter m.core, arr := 4, top := if m.slab then m.top else 0 })

/-- A read at a slab's proxy root (R441): a holder in M or O under an exclusive slab is asked by SNOOP, or the home. -/
def serveRead (s : State) (m : TMsg) : State :=
  let e := s.ent m
  if fld (s.line m.core m.agent m.line).pending 0 2 = 0 then s.leaveTree m
  else if s.dirtyInMesh m.line then s.push (.rd m)
  else if e.pst = 2 ∧ s.owned m.line then
    let x := s.line m.core m.agent m.line
    (kids e).foldl (fun s d => s.push (.snoop (m.step d))) (s.setLine m.core m.agent m.line { x with pending := bitSet x.pending 10 })
  else (s.askHome m false false).getD (s.failReq m 0x1B)

end State

/-- A read that bounced goes to the root, router by router (R434): the root steers it along OWN, or fills it from L2; where no tree is left it starts
afresh from its requester (R436). -/
def execBounced (m : TMsg) (s : State) : State :=
  let root := s.rootOf m
  let e := s.ent m
  if m.router ≠ root then s.push (.rd (State.onward m root))
  else if e.st = .invalid then s.restart m
  else if e.st = .tearing ∨ e.st = .pruning then s.hold .rd m
  else
    let s := s.usedEnt m
    if 1 ≤ e.own ∧ e.own ≤ 4 then s.push (.srdSteeredRead { m.step (e.own - 1) with excl := false })
    else s.fromHome m (e.ch == 0 && e.loc == 0)

/-- RD (R433, R441): installs a joining entry and goes on, is caught and steered, or is held; a read of a slab is caught by no router. A bounced read
is marked by `excl`. -/
def execRd (m : TMsg) (s : State) : Host.Outcome State Fault Refusal :=
  let root := s.rootOf m
  let e := s.ent m
  if s.holdFull .rd m then .next (s.onLink (.rd m))
  else if m.excl then .next (execBounced m s)
  else
    match e.st with
    | .tearing | .pruning => .next (s.hold .rd m)
    | .invalid =>
      match s.makeRoom m with
      | (s, false) => .next (s.hold .rd m)
      | (s, true) =>
        let s := s.installAt m
        if m.router ≠ root then .next (s.push (.rd (State.onward m root)))
        else if m.slab then .next (s.serveRead m)
        else .next (s.fromHome m true)
    | _ =>
      let s := s.put m (State.joinAt e m)
      if m.slab then
        if m.router = root then .next (s.serveRead m) else .next (s.push (.rd (State.onward m root)))
      else if m.router = root ∧ e.ch = 0 ∧ e.loc = 0 ∧ e.own = 0 then .next (s.fromHome m true)
      else .next (s.push (.srdSteeredRead { m with top := m.router + 1 }))

namespace State

/-- A read bounces to the root (R434). -/
def bounce (s : State) (m : TMsg) : State := (s.push (.rd { m with excl := true })).countRouter m.router 3

/-- The child link of least depth but the one the read came by (R433). -/
def nearest (e : TEntry) (m : TMsg) : Option Nat :=
  (kids e).foldl
    (fun b d => if d = m.arr then b else match b with | none => some d | some x => if fld e.dep (4 * d) 4 < fld e.dep (4 * x) 4 then some d else some x)
    none

/-- A read goes along OWN (R433). -/
def alongOwn (s : State) (m : TMsg) (e : TEntry) : Option State :=
  if 1 ≤ e.own ∧ e.own ≤ 4 ∧ e.own - 1 ≠ m.arr then some (s.push (.srdSteeredRead (m.step (e.own - 1)))) else none

/-- A local holder supplies a line or a sector to the requester (R433, R441). -/
def supply (s : State) (m : TMsg) (core a : Nat) : State :=
  let x := s.line core a m.line
  let st : Coh := match x.st with | .M | .O => .O | .E | .S => .S | .I => .I
  (s.setLine core a m.line { x with st := st }).push (.data { m with excl := false, arr := 4 })

/-- The agent holds a read that is steered to it: its ownership is pending (R435), or the home is giving it the line in E, and the read is served when its
JDONE passes (R431; log entry 66). -/
def holdsRead (s : State) (core a l : Nat) : Bool :=
  let x := s.line core a l
  fld x.pending 2 1 == 1 || (x.st == .I && fld x.pending 8 1 == 1)

end State

/-- SRD (R433 to R435): a local holder supplies the sector, an agent whose ownership is pending holds the read; else it goes along OWN, to the
nearest child, or up. A link agent whose slab is exclusive at another package has it downgraded first (R441). -/
def execSrdSteeredRead (m : TMsg) (s : State) : Host.Outcome State Fault Refusal :=
  let e := s.ent m
  let root := s.rootOf m
  if s.holdFull .srd m then .next (s.onLink (.srdSteeredRead m))
  else
  match e.st with
  | .invalid => .next (s.bounce m)
  | .tearing | .pruning => .next (s.hold .srd m)
  | _ =>
    let s := s.usedEnt m
    let others := match coreAt m.router with
      | some c => ((List.range 4).filter fun a => fld e.loc a 1 == 1).map fun a => (c, a)
      | none => []
    match (others.find? fun w => (s.line w.1 w.2 m.key).readHit m.sector).or (others.find? fun w => (s.line w.1 w.2 m.key).st != .I && w != (m.core, m.agent)) with
    | some (c, a) =>
      if s.engineKeeps (256 * m.key) 256 (s.engineRank m.core m.agent) ∧ (s.line c a m.key).writeHit ∧ a ≠ 0 then .next (s.later (.srdSteeredRead m))
      else if let some t := (if 448 ≤ c then s.recall (256 * m.key) false else none) then .next (t.later (.srdSteeredRead m))
      else if s.holdsRead c a m.key then .next (s.hold .srd m)
      else if (s.line c a m.key).readHit m.sector then .next (s.supply m c a)
      else .next ((s.alongOwn m e).getD (s.bounce m))
    | none =>
      if others.any fun w => s.holdsRead w.1 w.2 m.key then .next (s.hold .srd m)
      else match s.alongOwn m e with
      | some t => .next t
      | none =>
        match State.nearest e m with
        | some d => .next (s.push (.srdSteeredRead (m.step d)))
        | none =>
          if m.router = root then .next (s.fromHome m false)
          else if e.par = m.arr ∨ e.par = 4 then .next (s.bounce m)
          else .next (s.push (.srdSteeredRead (m.step e.par)))

namespace State

/-- A line comes into an agent: into L1 beside its other lines, or into an engine's or a link agent's list. -/
def fillAgent (s : State) (core agent l : Nat) (y : CLine) (tag : Nat) : State :=
  if agent = 0 ∧ core < 448 then s.fillL1 core l y tag else s.setLine core agent l y

/-- What a link agent has taken serves the peers that wait for it (R440). -/
def served (s : State) (core l : Nat) : State := if core < 448 then s else s.serveWaiting (l / 16)

/-- Reads of a line whose data came when it had been taken away are made again. -/
def rereadLine (s : State) (core agent l : Nat) : State :=
  let mine := fun (a : Acc) => a.st == .clear && a.blk.isNone && a.mt == 2 && lineOf a.adr == l
  s.ops.foldl
    (fun (s : State) (e : Nat × Op) =>
      if (s.gblk e.2.gid).core = core ∧ e.2.instr.isRead ∧ (e.2.instr.isLoad == (agent == 0)) ∧ e.2.accs.any mine then s.recheck e.1 mine else s) s

/-- DATA reaches the agent that asked for a line of a slab (R441). -/
def slabData (s : State) (m : TMsg) : State :=
  let l := m.line
  let x := s.line m.core m.agent l
  if fld x.pending 0 2 = 0 then s
  else
    let gone := fld x.pending 3 1 == 1
    let rest := bitClr (x.pending / 4 * 4) 10
    let rest := if fld rest 0 3 = 0 then 0 else rest
    let s := if gone then s.setLine m.core m.agent l { CLine.none with pending := rest, near := x.near }
      else s.fillAgent m.core m.agent l { x with st := if x.st = .I then .S else x.st, valid := 3, pending := rest } m.tag
    let s := s.push (.jdone { m with router := agentRouter m.core, arr := 4, hops := 0, excl := false })
    let s := if gone then s.rereadLine m.core m.agent l else s
    (s.lineArrived m.core m.agent l (some 0)).lineArrived m.core m.agent l (some 1)

/-- DATA reaches the agent that asked for a sector (R433): it holds the sector, its waiting loads complete, and JDONE goes up; a line invalidated
meanwhile is held in I (R438). -/
def lineData (s : State) (m : TMsg) : State :=
  let x := s.line m.core m.agent m.key
  if fld x.pending m.sector 1 = 0 then s
  else
    let rest := bitClr (bitClr x.pending m.sector) 8
    let gone := fld x.pending 3 1 == 1
    let rest := if fld rest 0 3 = 0 then 0 else rest
    let s :=
      if gone then s.setLine m.core m.agent m.key { CLine.none with pending := rest, near := x.near }
      else
        s.fillAgent m.core m.agent m.key { x with
          st := if x.st = .I then (if m.excl then .E else .S) else x.st, valid := bitSet x.valid m.sector, pending := rest } m.tag
    let s := s.push (.jdone { m with router := agentRouter m.core, arr := 4, hops := 0, excl := false })
    let s := (s.sendWanted m.core m.agent m.key m.sector x).lineArrived m.core m.agent m.key (some m.sector)
    (if gone ∧ m.agent = 1 then s.touch (256 * m.key) 256 else s).served m.core m.key

end State

/-- DATA (R432, R433, R438, R441, R442): from router to router to its requester. -/
def execData (m : TMsg) (s : State) : Host.Outcome State Fault Refusal :=
  if m.router ≠ agentRouter m.core then .next (s.crossing m (agentRouter m.core) .data)
  else if m.slab then .next (s.slabData m)
  else .next (s.lineData m)

/-- JDONE (R433): joining entries become stable, up to the router that caught the read. -/
def execJdone (m : TMsg) (s : State) : Host.Outcome State Fault Refusal :=
  let e := s.ent m
  let root := s.rootOf m
  let dep := if m.arr < 4 then e.dep - fld e.dep (4 * m.arr) 4 * 2 ^ (4 * m.arr) + Nat.min m.hops 15 * 2 ^ (4 * m.arr) else e.dep
  let s :=
    match e.st with
    | .joining => (s.put m { e with st := .stable, dep := dep }).settled m
    | .stable => (s.put m { e with dep := dep }).release m.router m.key m.slab
    | _ => s
  if m.router = root ∨ m.router + 1 = m.top then .next s
  else .next (s.push (.jdone { State.onward m root with hops := m.hops + 1 }))

/-! ## Ownership (R435) -/

namespace State

/-- Requests and teardowns that the root of a line or slab serves or holds, in arrival order (R435). -/
def rootQ (s : State) (k : Nat) : List RootReq := tget [] s.fab.roots k

/-- The root's list becomes `q`. -/
def setRootQ (s : State) (k : Nat) (q : List RootReq) : State := { s with fab := { s.fab with roots := tset [] s.fab.roots k q } }

/-- GRANT goes down to a requester, with the dirty sectors collected; those it lacks that L2 does not have are read from memory (R33, R435). -/
def sendGrant (s : State) (m : TMsg) (dirty : Nat) : State :=
  let lacks := fun k => fld (s.line m.core m.agent m.key).valid k 1 == 0 && fld dirty k 1 == 0 && !s.inL2 m.key k
  let s := if !m.slab && (List.range 2).any lacks then s.missed m.core m.key else s
  s.push (.grant { m with dirty := dirty, arr := 4, excl := false })

/-- The root serves an ownership request (R435, steps 1 and 2). -/
def startOwn (s : State) (m : TMsg) : State :=
  let e := s.ent m
  let d := downToward m.router (agentRouter m.core)
  let (s, e) := s.invLocal m { e with st := .tearing, dirty := 0, own := d + 1 } true fun a => d == 4 && a == m.agent
  let s := (s.put m { e with acks := e.ch }).sendDown m e d
  if e.ch = 0 then s.sendGrant m e.dirty else s

/-- The request at the head of a root's list begins (R435); at a slab's proxy root once the slab is exclusive here, and the line's bytes are (R441). -/
def beginOwn (s : State) (m : TMsg) : State × Bool :=
  if !m.slab then (s.startOwn m, true)
  else if (s.ent m).pst ≠ 2 then
    match s.askHome m true false with
    | some t => (t, true)
    | none => (s.failReq m 0x1B, false)
  else if s.holdersOf m.line = [] ∧ !s.dirtyInMesh m.line then
    match s.askHome m false true with
    | some t => (t, true)
    | none => (s.failReq m 0x1B, false)
  else (s.startOwn m, true)

/-- The requests at a root begin, up to the first that is under way; one whose entry is gone starts afresh. -/
def serveOwn (s : State) (k : Nat) : List RootReq → State
  | [] => s.setRootQ k []
  | r :: q =>
    let s := s.setRootQ k (r :: q)
    if (s.ent r.m).st = .invalid then (r :: q).foldl (fun s x => s.push (.xreq x.m)) (s.setRootQ k [])
    else
      match (s.put r.m (joinAt (s.ent r.m) r.m)).beginOwn r.m with
      | (s, true) => s
      | (s, false) => serveOwn s k q

/-- The request that a root served is over, and the next begins. -/
def nextOwn (s : State) (k : Nat) : State := s.serveOwn k (s.rootQ k).tail

end State

/-- XREQ (R435, R441): installs or joins entries on its way; the root takes one at a time. -/
def execXreq (m : TMsg) (s : State) : Host.Outcome State Fault Refusal :=
  let root := s.rootOf m
  let e := s.ent m
  let q := s.rootQ m.rootKey
  if s.holdFull .xreq m then .next (s.onLink (.xreq m))
  else if m.router = root ∧ q ≠ [] then .next ((s.setRootQ m.rootKey (q ++ [⟨m⟩])).countRouter m.router 2)
  else
    match e.st with
    | .tearing | .pruning => .next (s.hold .xreq m)
    | .invalid =>
      match s.makeRoom m with
      | (s, false) => .next (s.hold .xreq m)
      | (s, true) => if m.router = root then .next ((s.installAt m).serveOwn m.rootKey [⟨m⟩]) else .next ((s.installAt m).push (.xreq (State.onward m root)))
    | _ =>
      if m.router = root then .next (s.serveOwn m.rootKey [⟨m⟩]) else .next ((s.put m (State.joinAt e m)).push (.xreq (State.onward m root)))

namespace State

/-- The acknowledgement of a router goes to its parent, with what it collected; `excl` says that its entry stays, for other lines of a slab. -/
def ackUp (s : State) (m : TMsg) (d dirty : Nat) (stays : Bool) : State := s.push (.ack { m.step d with dirty := dirty, excl := stays })

/-- The acknowledgements below a router have arrived: it acknowledges in its turn, and its entry goes, unless it lies on the kept path or is still for other
lines of a slab (R435). -/
def ackedAll (s : State) (m : TMsg) : State :=
  let e := s.ent m
  if e.ch = 0 ∧ e.loc = 0 then (s.ackUp m e.par e.dirty false).dropEnt m.router m.slab m.key
  else
    let s := s.ackUp m e.par e.dirty true
    if e.own = 0 then (s.put m { e with st := .stable, dirty := 0, par := toward m.router (s.rootOf m) }).settled m else s.put m { e with dirty := 0 }

/-- An invalidation at a router, which spares what lies on the path of a kept requester (R432, R435, R438). -/
def invalidateAt (s : State) (m : TMsg) (keepPath : Bool) : State :=
  let e := s.ent m
  let d := if keepPath then downToward m.router (agentRouter m.core) else 5
  match e.st with
  | .invalid => s.ackUp m m.arr 0 false
  | .pruning => s.put m { e with merged := true }
  | _ =>
    let (s, x) := s.invLocal m { e with st := .tearing, dirty := 0, own := if keepPath then d + 1 else 0 } true fun a => d == 4 && a == m.agent
    let s := s.sendDown m e d
    if e.st = .joining ∧ !m.slab then (s.dropEnt m.router m.slab m.key).ackUp m m.arr x.dirty false
    else
      let s := s.put m { x with acks := e.ch, par := m.arr }
      if e.ch = 0 then s.ackedAll m else s

/-- An agent at a message's router keeps its line for now: an engine's command that keeps it until it has written it, from another engine when the command was
issued before that engine's (R108, R435; log entry 54); or an agent whose write-back is on its way, which acknowledges after its WBACK (R438). -/
def recallWaits (s : State) (m : TMsg) : Bool :=
  match coreAt m.router with
  | some c =>
    ((linesIn m).any fun l =>
      s.engineKeeps (256 * l) 256 (s.engineRank m.core m.agent) && [1, 2].any fun a => (s.line c a l).writeHit && !(c == m.core && a == m.agent)) ||
      (!m.slab && s.agenda.any fun e => match e with | .wb w | .wback w => w.core == c && w.agent < 4 && w.key == m.key && !w.slab | _ => false)
  | none => false

/-- A link agent at a message's router has the slab torn down at the packages that hold it first (R441). -/
def linkRecall (s : State) (m : TMsg) : Option State :=
  match coreAt m.router with
  | some c => if 448 ≤ c ∧ !m.slab ∧ c ≠ m.core then s.recall (256 * m.key) true else none
  | none => none

/-- INV or TKEEP at a router. -/
def tearDown (s : State) (m : TMsg) (keepPath : Bool) (e : TMsg → Event) : State :=
  if s.recallWaits m then s.later (e m)
  else match s.linkRecall m with
    | some t => t.later (e m)
    | none => s.invalidateAt m keepPath

end State

/-- INV (R432, R438, R441). -/
def execInv (m : TMsg) (s : State) : Host.Outcome State Fault Refusal := .next (s.tearDown m false .inv)

/-- TKEEP (R432, R435). -/
def execTkeep (m : TMsg) (s : State) : Host.Outcome State Fault Refusal := .next (s.tearDown m true .tkeep)

/-- ACK (R432, R435): the last awaited acknowledgement passes on what was collected; at the root the ownership is granted, a line's dirty sectors being in
L2, and a slab's going to the new owner. -/
def execAck (m : TMsg) (s : State) : Host.Outcome State Fault Refusal :=
  let e := s.ent m
  if e.st = .invalid ∨ fld e.acks m.arr 1 = 0 then .next s
  else
    let onPath : Bool := (e.st == .tearing && e.own == m.arr + 1) || m.excl
    let e := { e with acks := bitClr e.acks m.arr, dirty := e.dirty ||| m.dirty, ch := if onPath then e.ch else bitClr e.ch m.arr }
    let s := s.put m e
    if e.acks ≠ 0 then .next s
    else if e.st = .pruning then .next (s.prunedAll m)
    else if m.router = s.rootOf m then
      let s := (List.range 2).foldl (fun s k => if fld e.dirty k 1 = 1 ∧ !m.slab then s.fillL2 m.key k (fld e.dirty (k + 2) 1 == 1) true m.ctx else s) s
      match s.rootQ m.rootKey with
      | r :: _ => .next (s.sendGrant { r.m with router := m.router } e.dirty)
      | [] => .next (s.dropEnt m.router m.slab m.key)
    else .next (s.ackedAll m)

namespace State

/-- GRANT reaches its requester, which takes M with both sectors, and the sectors collected dirty of a slab's line (R435, R441). -/
def takeOwn (s : State) (m : TMsg) : State :=
  let l := m.line
  let x := s.line m.core m.agent l
  let y := { x with
    st := .M, valid := 3, pending := if fld x.pending 0 2 = 0 then 0 else bitClr (bitClr x.pending 2) 3
    dirty := if m.slab then x.dirty ||| fld m.dirty (2 * (l % 16)) 2 else x.dirty }
  ((((s.fillAgent m.core m.agent l y m.tag).lineArrived m.core m.agent l none).nextOwn m.rootKey).served m.core l)

end State

/-- GRANT (R432, R435): each entry of the path stands stable with OWN toward the requester, installed again where a teardown removed it. A GRANT of a slab
that has left the package with its link is void. -/
def execGrant (m : TMsg) (s : State) : Host.Outcome State Fault Refusal :=
  let root := s.rootOf m
  let t := agentRouter m.core
  let d := downToward m.router t
  let e := s.ent m
  if m.slab ∧ (s.tent root true m.key).pst ≠ 2 then .next s
  else match (if e.st = .invalid then s.makeRoom m else (s, true)) with
  | (s, false) => .next (s.later (.grant m))
  | (s, true) =>
    let s := if e.st = .invalid then s.countRouter m.router 0 else s
    let e := { e with st := .stable, par := if m.router = root then 4 else toward m.router root, own := d + 1, acks := 0, dirty := 0, merged := false, ctx := m.ctx }
    if d < 4 then
      let dep := e.dep - fld e.dep (4 * d) 4 * 2 ^ (4 * d) + Nat.min (hopsOf m.router t) 15 * 2 ^ (4 * d)
      .next (((s.put m { e with ch := bitSet e.ch d, dep := dep }).settled m).push (.grant (m.step d)))
    else .next (((s.put m { e with loc := bitSet e.loc m.agent }).settled m).takeOwn m)

/-! ## Leaving (R432, R437) -/

/-- PRUNE (R432, R437, R438): the child is gone; it may count as the acknowledgement that is awaited. -/
def execPrune (m : TMsg) (s : State) : Host.Outcome State Fault Refusal :=
  let e := s.ent m
  if e.st = .invalid then .next s
  else if fld e.acks m.arr 1 = 1 then execAck m s
  else
    let own := if e.own = m.arr + 1 ∧ e.st ≠ .tearing then 0 else e.own
    .next ((s.put m { e with ch := bitClr e.ch m.arr, own := own }).pruneEmpty m)

/-- LEAVE (R432, R437): the agent leaves its router's entry. -/
def execLeave (m : TMsg) (s : State) : Host.Outcome State Fault Refusal :=
  let e := s.ent m
  let waits := (State.linesIn { m with sector := 0 }).any fun l => fld (s.line m.core m.agent l).pending 0 3 != 0
  if e.st = .invalid ∨ !s.holdsNone m m.core m.agent ∨ waits then .next s
  else
    let loc := bitClr e.loc m.agent
    .next ((s.put m { e with loc := loc, own := if e.own = 5 ∧ loc = 0 ∧ e.st ≠ .tearing then 0 else e.own }).pruneEmpty m)

namespace State

/-- What write-backs from L2 found uncorrectable is reported (R417). -/
def noteLost (s : State) : State :=
  (s.slices.flatMap fun e => e.2.lost).foldl (fun s w => s.poisonBack w.1 w.2.1 w.2.2.1 w.2.2.2)
    (if s.slices.any fun e => !e.2.lost.isEmpty then { s with slices := s.slices.map fun e => (e.1, { e.2 with lost := [] }) } else s)

/-- The router of the writer of a WB: an agent's, or the pruning router itself (R437). -/
def writerAt (m : TMsg) : Nat := if m.agent = routerAgent then m.core else agentRouter m.core

/-- Dirty sectors of a slab's lines leave for its home, each line in a message (R441); a read that a SNOOP asked their owner for is made again. -/
def slabHome (s : State) (m : TMsg) : State :=
  let ls := (slabLines m.key).filter fun l => fld m.dirty (2 * (l % 16)) 2 != 0
  let s := match (List.range 12).find? fun p => portRouter p == m.router && (s.port p).st == .up with
    | some p =>
      ls.foldl (fun (s : State) l => s.linkSend p (.slabTeardown
        ⟨m.key, l % 16, s.link.domPkg, m.ctx, s.tenantOf m.ctx (4096 * m.key), true, 0, if m.excl then some .poisoned else none, s.peerBytes l⟩)) s
    | none => s
  s.cores.foldl
    (fun (s : State) (e : Nat × Core) => (linesIn m).foldl
      (fun (s : State) l => (List.range 4).foldl
        (fun (s : State) a =>
          let x := s.line e.1 a l
          if fld x.pending 10 1 = 0 ∨ s.dataComes e.1 a l then s
          else (s.setLine e.1 a l { x with pending := bitClr x.pending 10 }).push (.rd (slabMsg e.1 a l x.tag x.ctx m.top))) s) s) s

/-- The home accepts a line's dirty sectors into L2, and the root's OWN goes with the owner's (R406, R417, R434); `excl` says that the data is
uncorrectable. -/
def lineHome (s : State) (m : TMsg) : State :=
  let e := s.ent m
  let mine := e.own == downToward m.router (writerAt m) + 1
  let s := if e.st ≠ .invalid ∧ e.st ≠ .tearing ∧ mine ∧ !s.owned m.key then s.put m { e with own := 0 } else s
  if m.excl then s.poisonBack m.key m.dirty m.ctx m.evict
  else
    (List.range 2).foldl
      (fun s k =>
        if fld m.dirty k 1 = 0 then s
        else (if m.agent = routerAgent then s else s.noteWrite m.ctx (256 * m.key + 128 * k)).fillL2 m.key k (fld m.dirty (k + 2) 1 == 1) true m.ctx)
      s

end State

/-- WB (R432, R434, R442): from router to router to the home, which accepts the sectors and acknowledges. -/
def execWb (m : TMsg) (s : State) : Host.Outcome State Fault Refusal :=
  let root := s.rootOf m
  if m.router ≠ root then .next (s.crossing m root .wb)
  else .next ((if m.slab then s.slabHome m else s.lineHome m).push (.wback { m with excl := false, dirty := 0, arr := 4 }))

/-- WBACK (R432, R437, R442): back at its writer, which leaves its tree, or at the pruning router, which ends its teardown. -/
def execWback (m : TMsg) (s : State) : Host.Outcome State Fault Refusal :=
  if m.router ≠ State.writerAt m then .next (s.crossing m (State.writerAt m) .wback)
  else if m.agent = State.routerAgent then .next (if (s.ent m).st = .pruning then s.endPrune m else s)
  else .next (s.push (.leave { m with arr := 4, sector := 0 }))

/-- SNOOP (R441): down a slab tree, the holder of the line in M or O supplies it and becomes O. -/
def execSnoop (m : TMsg) (s : State) : Host.Outcome State Fault Refusal :=
  let e := s.ent m
  let s := s.usedEnt m
  let owner := match coreAt m.router with
    | some c => ((List.range 4).find? fun a => fld e.loc a 1 == 1 && (s.line c a m.line).owner).map fun a => (c, a)
    | none => none
  let s := match owner with | some (c, a) => s.supply m c a | none => s
  .next ((State.kids e).foldl (fun s d => s.push (.snoop (m.step d))) s)

/-! ## Answers of a slab's home (R441) -/

/-- The home's answer to an agent's request at its proxy root (R441): DATA goes down to a reader; an ownership request goes on under the exclusive slab. -/
def State.agentAnswer (s : State) (port : Nat) (m : SlabMsg) (excl : Bool) : State :=
  let core := m.tag % 2 ^ 40 / 8
  let agent := m.tag % 8
  let l := 16 * m.slab + m.line
  let root := portRouter port
  let x := s.line core agent l
  let q := s.rootQ (2 ^ 56 + m.slab)
  let req : TMsg := { slabMsg core agent l x.tag x.ctx (root + 1) with router := root }
  if excl ∨ m.tag / 2 ^ 40 % 2 = 1 then
    match m.refused, q with
    | some r, h :: _ => (s.failReq h.m (statusCause r)).nextOwn (2 ^ 56 + m.slab)
    | none, h :: _ =>
      let s := (s.storeLine l m.data).notePst port m.slab m.ctx (excl || (s.tent root true m.slab).pst == 2)
      let s := s.put h.m (State.joinAt (s.ent h.m) h.m)
      if (s.ent h.m).pst = 2 then s.startOwn h.m else s.serveOwn (2 ^ 56 + m.slab) q
    | _, [] => s
  else
    match m.refused with
    | some r => s.failReq req (statusCause r)
    | none => ((s.storeLine l m.data).notePst port m.slab m.ctx false).push (.data { req with arr := 4 })

/-- The home's answer to this package's own request for a line or a slab (R441). -/
def State.slabAnswer (s : State) (port : Nat) (m : SlabMsg) (excl : Bool) : State :=
  if 2 ^ 60 ≤ m.tag then s.agentAnswer port m excl else s.lineAnswer port m excl

/-! ## Holds and quiet waves (R431, R445) -/

/-- HELD_MESSAGE_RELEASE (R431, R438): the oldest message held for a line at a router is handled afresh; a steered read whose entry is gone goes on as a
miss, unless it had come down from its parent. -/
def execHeldMessageRelease (router tag : Nat) (slab : Bool) (s : State) : Host.Outcome State Fault Refusal :=
  let mine := fun (e : Nat × HKind × TMsg) => e.1 == router && e.2.2.key == tag && e.2.2.slab == slab
  match s.fab.held.find? mine with
  | none => .next s
  | some e =>
    let s := { s with fab := { s.fab with held := s.fab.held.eraseP mine } }
    let m := e.2.2
    match e.2.1 with
    | .rd => execRd m s
    | .xreq => execXreq m s
    | .srd => if (s.ent m).st = .invalid ∧ m.arr ≠ toward m.router (s.rootOf m) then .next (s.restart m) else execSrdSteeredRead m s

/-- The router of the launch engine (R427). -/
def launchRouter : Nat := routerAt 1 2

namespace State

/-- The router that counts an access of a lane or an engine whose answer is still to come (R444): the port or the bridge that sent its request, or its
core's. -/
def awaitedAt (s : State) (p : Op) (a : Acc) : Nat :=
  if a.st = .sent ∧ (a.mt = 1 ∨ a.mt = 3) then bridgeRouter
  else if a.st = .sent ∧ a.mt = 2 then
    match s.slabIndex (a.pa / 65536 % 4) (a.adr / 4096) with | some k => portRouter k | none => coreRouter (s.gblk p.gid).core
  else if a.st = .sent ∧ a.mt = 4 then portRouter (a.pa / 65536 % 16)
  else coreRouter (s.gblk p.gid).core

/-- A message of a phase tag is at a router or at an endpoint there (R444): on a link into it, in its hold buffer or at a root, as a fill in flight, as a
request whose answer is to come, or at the queue of a sequence. -/
def tagAt (s : State) (r b : Nat) : Bool :=
  (s.agenda.any fun e => match e.msg with | some m => m.tag == b && m.router == r | none => false) ||
    (s.fab.held.any fun e => e.1 == r && e.2.2.tag == b) || (s.fab.roots.any fun e => e.2.any fun x => x.m.router == r && x.m.tag == b) ||
    (s.cores.any fun e => agentRouter e.1 == r && e.2.lines.any fun x => x.2.tag == b && fld x.2.pending 0 3 != 0) ||
    s.ops.any fun e =>
      s.tagOf e.2.gid == b &&
        ((e.2.accs.any fun a => (a.st == .need || a.st == .sent || a.st == .clear) && s.awaitedAt e.2 a == r) ||
          (e.2.instr.isSeq && rootRouter ((s.ctx (s.glch e.2.gid).ctx).seqArea * 2 ^ 32) == r))

/-- A router has accepted or sent a message: of its tag it is active since its last report (R445). -/
def noteActive (s : State) (e : Event) : State :=
  match e.msg with
  | some m =>
    let l := tget [] s.fab.active m.tag
    if l.contains m.router then s else { s with fab := { s.fab with active := tset [] s.fab.active m.tag (m.router :: l) } }
  | none => s

/-- The link by which an event's message comes is changing its width, and carries no new flit (R443). -/
def widthWaits (s : State) (e : Event) : Bool :=
  match e.msg with
  | some m => decide (m.arr < 4) && (tget .empty s.fab.links (4 * nbr m.router m.arr + opp m.arr)).st != .steady
  | none => false

end State

/-- Routers whose parent in the quiet tree is `r` (R445). -/
def quietKids (r : Nat) : List Nat :=
  ((List.range 4).map fun d => (d, nbr r d)).filterMap fun e =>
    let t := e.2
    let inside := (e.1 == 0 && decide (32 ≤ r)) || (e.1 == 1 && decide (r % 32 < 31)) || (e.1 == 2 && decide (r / 32 < 19)) || (e.1 == 3 && decide (0 < r % 32))
    if inside && toward t launchRouter == opp e.1 then some t else none

/-- QUIET (R445): a router reports quiet when its children have, it holds nothing of the tag, and it has neither accepted nor sent any since its report in the
wave before; the report of the launch engine's router ends the wave. A router that does not report is listed with 1000 added, so that the wave ends without an
answer. -/
def execQuiet (tag router : Nat) (s : State) : Host.Outcome State Fault Refusal :=
  let l := tget [] s.fab.quiet tag
  let seen := fun r => l.contains r || l.contains (1000 + r)
  if seen router ∨ !(quietKids router).all seen then .next s
  else
    let act := tget [] s.fab.active tag
    let ok := (quietKids router).all l.contains && !s.tagAt router tag && !act.contains router
    let s : State := { s with fab := { s.fab with active := tset [] s.fab.active tag (act.filter (· != router)) } }
    if router = launchRouter then
      let s : State := { s with fab := { s.fab with quiet := tset [] s.fab.quiet tag [] } }
      if !ok then .next s
      else
        let s : State := { s with fab := { s.fab with waves := tset 0 s.fab.waves tag (tget 0 s.fab.waves tag + 1) } }
        .next ((List.range s.launches.length).foldl
          (fun s k =>
            if (s.lch k).st = .draining ∧ (s.lch k).tag = tag ∧ (s.lch k).wave ≤ tget 0 s.fab.waves tag then s.push (.launchComplete k) else s) s)
    else
      let l := l ++ [if ok then router else 1000 + router]
      let s : State := { s with fab := { s.fab with quiet := tset [] s.fab.quiet tag l } }
      let up := nbr router (toward router launchRouter)
      if (quietKids up).all fun r => l.contains r || l.contains (1000 + r) then .next (s.push (.quiet tag up)) else .next s

/-- A wave of a tag begins at the routers without children, unless one is under way (R445). -/
def State.startWave (s : State) (tag : Nat) : State :=
  if s.waveOn tag then s else ((List.range 640).filter fun r => quietKids r == []).foldl (fun s r => s.push (.quiet tag r)) s

/-! ## Link widths (R443) -/

/-- A link direction. -/
def State.mlink (s : State) (k : Nat) : MLink := tget .empty s.fab.links k

/-- A link direction becomes `x`. -/
def State.setMlink (s : State) (k : Nat) (x : MLink) : State := { s with fab := { s.fab with links := tset .empty s.fab.links k x } }

/-- WREQ (R443): the receiver switches and answers. -/
def execWreq (link width : Nat) (s : State) : Host.Outcome State Fault Refusal :=
  .next ((s.setMlink link { s.mlink link with st := .answered, target := width }).push (.wack link))

/-- WACK (R443): the sender retrains its lanes. -/
def execWack (link : Nat) (s : State) : Host.Outcome State Fault Refusal :=
  if (s.mlink link).st = .answered then .next ((s.setMlink link { s.mlink link with st := .training }).push (.trainingEnd link)) else .next s

/-- TRAINING_END (R443): FRAME is sent at the new width. -/
def execTrainingEnd (link : Nat) (s : State) : Host.Outcome State Fault Refusal :=
  if (s.mlink link).st = .training then .next ((s.setMlink link { s.mlink link with st := .framing }).push (.frame link)) else .next s

/-- A width change is over: it is counted at the router of the output link (R447). -/
def State.widthSet (s : State) (link width : Nat) : State :=
  (s.setMlink link ⟨width, 0, .steady, 0⟩).countRouter (link / 4) 5

/-- FRAME (R443): the receiver locks, and the link runs at the new width. -/
def execFrame (link : Nat) (s : State) : Host.Outcome State Fault Refusal :=
  if (s.mlink link).st = .framing then .next (s.widthSet link (s.mlink link).target) else .next s

/-- FRAME_LOCK_TIMEOUT (R443): the receiver did not lock on FRAME, and sends WNAK. -/
def execFrameLockTimeout (link : Nat) (s : State) : Host.Outcome State Fault Refusal :=
  if (s.mlink link).st = .framing then
    .next (({ s with agenda := s.agenda.filter fun e => e != Event.frame link } : State).push (.wnak link))
  else .next s

/-- WNAK (R443): the sender retrains, or after the fourth failure both ends take quarter width. -/
def execWnak (link : Nat) (s : State) : Host.Outcome State Fault Refusal :=
  let x := s.mlink link
  if x.st ≠ .framing then .next s
  else if 3 ≤ x.fails then .next ((s.widthSet link 2).logErr 3 (link / 4) 6 2 0 0 none 0)
  else .next ((s.setMlink link { x with st := .training, fails := x.fails + 1 }).push (.trainingEnd link))

end Sys2Proof.Machine
end

