-- ==== Sys2Proof/Machine/Links.lean ====
section
/-! DEFINITION. Sahper Link: the link layer and the port states, slab messages, remote writes and reads, and privileged channels (spec/16
R453 to R461). -/

namespace Sys2Proof.Machine

/-! ## The link layer (R453) -/

/-- A message that only a domain port carries: any other carries remote writes and reads and privileged channels only (R455). -/
def domainOnly (m : LinkMsg) : Bool :=
  match m with | .slabRead _ | .slabExclusive _ | .slabDowngrade _ | .slabTeardown _ | .atomic _ => true | _ => false

/-- A good flit's message may be delivered in the port's present state: only discovery in DISCOVER (R454). -/
def Port.accepts (x : Port) (m : LinkMsg) : Bool := x.admits m || m == .idle

namespace State

/-- A port carries traffic: discovery messages, or everything (R454). -/
def carries (s : State) (p : Nat) : Bool := decide (p < 12) && ((s.port p).st == .up || (s.port p).st == .discover)

/-- Flits up to number `n` are acknowledged, and flits that waited behind 512 unacknowledged ones are sent (R453). -/
def ackTo (s : State) (p n : Nat) : State :=
  let x := s.port p
  match (x.unacked.take 512).findIdx? fun f => f.1 == n with
  | none => s
  | some i =>
    let rest := x.unacked.drop (i + 1)
    let sentBefore := Nat.min 512 x.unacked.length - (i + 1)
    let now := (rest.take 512).drop sentBefore
    s.setPort p { x with unacked := rest, sent := x.sent ++ now.map fun f => (f.1, x.lastGood, f.2.2) }

/-! ## Leaving UP (R441, R454, R460) -/

/-- What agents have asked for over a port fails (R441), and what the proxy root there serves is over. -/
def failAgents (s : State) (p : Nat) : State :=
  let s : State := { s with fab := { s.fab with roots := s.fab.roots.filter fun e => match e.2 with | x :: _ => !x.m.slab || x.m.top != portRouter p + 1 | [] => true } }
  s.cores.foldl
    (fun (s : State) (e : Nat × Core) => e.2.lines.foldl
      (fun (s : State) (x : Nat × CLine) =>
        if x.2.mt = 2 ∧ fld x.2.pending 0 3 ≠ 0 ∧ s.slabIndex (x.2.pa / 65536 % 4) (x.1 / 64) = some p then s.failLine e.1 (x.1 % 4) (x.1 / 4) 0x1B else s) s)
    s

/-- Accesses that wait for an answer over a port fail: an atomic whose request has been delivered may have been applied (R424, R460). -/
def failPeers (s : State) (p : Nat) : State :=
  let x := s.port p
  let mine := fun (o : Nat) (a : Acc) =>
    (a.st == .sent || a.st == .need) && a.blk.isNone && a.mt == 2 && s.slabPort (a.pa / 65536 % 4) (a.adr / 4096) == some p && (s.op o).accs.any fun b => b.lane == a.lane
  s.ops.foldl
    (fun (s : State) (e : Nat × Op) =>
      if !e.2.accs.any (mine e.1) then s
      else
        let waiting := fun (a : Acc) => x.unacked.any fun f => match f.2.2 with | .atomic m => m.tag == e.1 && m.lane == a.lane | _ => false
        let cause := fun (a : Acc) => if e.2.instr.atomOp.isSome && !waiting a then 0x0F else 0x1B
        let s := s.setOp e.1 { e.2 with accs := e.2.accs.map fun a => if mine e.1 a then { a with st := .failed (portTrap (cause a) a.adr e.2.mask) } else a }
        if e.2.instr.isAccess then s.reportOp e.1 else s.push (e.2.again e.1))
    (s.failAgents p)

/-- Remote requests in flight on a port fail with link error (R460). -/
def failRma (s : State) (p : Nat) : State :=
  s.ops.foldl
    (fun (s : State) (e : Nat × Op) =>
      match e.2.instr, e.2.stage, e.2.accs with
      | .rwri _ _, .parts 1, a :: _ | .rrd _ _, .parts 1, a :: _ =>
        if a.pa / 65536 % 16 = p then s.engFail e.1 (portTrap 0x1B a.adr e.2.mask) .sequenceAnswer else s
      | _, _, _ => s)
    s

/-- Slabs that this package holds over a port are dropped with their dirty data, which is logged; slabs that the peer held over it are
held by it no more (R441). -/
def failSlabs (s : State) (p : Nat) : State :=
  let r := portRouter p
  let h := (s.port p).pkg
  let slabs := s.fab.tree.filterMap fun e => if e.1 / 2 ^ 56 = 2 * r + 1 then some (e.1 % 2 ^ 56) else none
  slabs.foldl
    (fun s slab =>
      let e := s.tent r true slab
      if e.pst ≠ 0 then
        let s := ((slabLines slab).filter s.lineDirty).foldl (fun s l => s.logErr 5 p 6 1 (256 * l) 0 none 0) s
        s.clearSlab slab
      else if fld e.pkg h 1 = 1 ∧ (s.slabPort h slab).isNone then
        (s.putRoot p slab { e with acks := bitClr e.acks h, pkg := bitClr e.pkg h }).serveWaiting slab
      else s)
    s

/-- How far a channel's connection has come: 0 nothing, 1 version, 2 capabilities, 3 algorithms (R467, log entry 14). -/
def spdmAt (s : State) (ch : Nat) : Nat := fld s.mg.spdm (2 * ch) 2

/-- A channel's connection has come so far. -/
def spdmTo (s : State) (ch n : Nat) : State := { s with mg := { s.mg with spdm := s.mg.spdm - s.spdmAt ch * 2 ^ (2 * ch) + n * 2 ^ (2 * ch) } }

/-- A port leaves UP (R454, R460): what was in flight on it fails, nothing its peer attested holds any longer, and it retrains. -/
def leaveUp (s : State) (p : Nat) : State :=
  if (s.port p).st ≠ .up then s
  else
    let s := ((s.failPeers p).failRma p).count 10 p 2 1
    let s := s.setPort p { s.port p with st := .retrain, txSeq := 0, rxSeq := 0, unacked := [], verified := 0 }
    (s.failSlabs p).spdmTo (p + 1) 0

/-- Every unacknowledged flit is sent again, or the port is down after eight resends of one (R453). -/
def resend (s : State) (p : Nat) : State :=
  let x := s.port p
  let l := x.unacked.take 512
  if l = [] then s
  else if l.any fun f => decide (8 ≤ f.2.1) then s.leaveUp p
  else
    let y := { x with
      unacked := (l.map fun f => (f.1, f.2.1 + 1, f.2.2)) ++ x.unacked.drop 512, sent := x.sent ++ l.map fun f => (f.1, x.lastGood, f.2.2) }
    (s.setPort p y).count 10 p 1 l.length

/-- What the management engine asks a peer for next, to verify it (R461, R467; log entry 14): measurement `k`. -/
def askMeasure (s : State) (p k : Nat) : State := (s.linkSend p (.mgmt 0xE0 [k, (Config.freeWord s.free).toNat])).draw

/-- A peer's answer to this package's SPDM requests: the next request follows, and what the answer proves is noted (R461, R467). -/
def attestAnswer (s : State) (p code : Nat) (body : List Nat) : State :=
  let x := s.port p
  let k := x.verified
  match code with
  | 0x04 => s.linkSend p (.mgmt 0xE1 [])
  | 0x61 => s.linkSend p (.mgmt 0xE3 [4, 1])
  | 0x63 => if body = [4, 1] then s.linkSend p (.mgmt 0x82 [0, 0, 2 ^ 16]) else s
  | 0x02 => if k = 0 ∧ Config.peerSound 0 body then (s.setPort p { x with verified := 1 }).askMeasure p 1 else s
  | 0x60 =>
    if 1 ≤ k ∧ k ≤ 5 ∧ Config.peerSound k body then
      let s := s.setPort p { x with verified := k + 1 }
      if k < 5 then s.askMeasure p (k + 1) else s
    else s
  | _ => s

/-- A message of a peer's management engine: a request is this package's to answer, an answer belongs to its own requests (R467). -/
def mgmtMessage (s : State) (p code : Nat) (body : List Nat) : State :=
  let at_ := fun k => body.getD k 0
  match code with
  | 0x84 => s.push (.getVersion (p + 1))
  | 0xE1 => s.push (.getCapabilities (p + 1))
  | 0xE3 => s.push (.negotiateAlgorithms (p + 1) (if fld (at_ 0) 2 1 = 1 then [3072] else []) (if fld (at_ 1) 0 1 = 1 then [256] else []))
  | 0x81 => s.push (.getDigests (p + 1))
  | 0x82 => s.push (.getCertificate (p + 1) (at_ 0) (at_ 1) (at_ 2))
  | 0x83 => s.push (.challenge (p + 1) (at_ 0) (at_ 1))
  | 0xE0 => s.push (.getMeasurements (p + 1) (at_ 0) (at_ 1))
  | _ => s.attestAnswer p code body

/-- A message is delivered to the transaction layer (R453, R454). -/
def deliver (s : State) (p : Nat) (m : LinkMsg) : State :=
  match m with
  | .discovery d => s.push (.discovery p d)
  | _ =>
    if (s.port p).st ≠ .up ∨ (!(s.port p).isDomain ∧ domainOnly m) then s
    else
      match m with
      | .rwri r => s.push (.inboundRwri p r)
      | .rrd r => s.push (.inboundRrd p r)
      | .rwriAck o st => s.push (.rwriAck o st)
      | .rrdData o st d => s.push (.rrdData o st d)
      | .channel r => s.push (.channelRequest p r)
      | .mgmt code body => s.mgmtMessage p code body
      | .slabRead m => s.push (.slabRead p m)
      | .slabExclusive m => s.push (.slabExclusive p m)
      | .slabDowngrade m => s.push (.slabDowngrade p m)
      | .slabTeardown m => s.push (.slabTeardown p m)
      | .atomic m => if m.reply then s.atomicAnswer m else s.serveAtomic p m
      | _ => s

end State

/-- FLIT_RECEIVED (R453): a good flit in sequence is delivered once; any other, and one that DISCOVER does not carry (R454), is dropped and answered
with NAK. -/
def execFlitReceived (port seq ack : Nat) (crcOk : Bool) (msg : LinkMsg) (s : State) : Host.Outcome State Fault Refusal :=
  let x := s.port port
  if !s.carries port then .next s
  else if !crcOk ∨ seq ≠ x.rxSeq ∨ !x.accepts msg then .next (s.setPort port { x with naks := x.naks ++ [x.lastGood] })
  else
    let s := (s.setPort port { x with rxSeq := (x.rxSeq + 1) % 4096 }).ackTo port ack
    .next ((s.count 10 port 0 1).deliver port msg)

/-- NAK (R453): go-back-N from the flit after the last good one. -/
def execNak (port last : Nat) (s : State) : Host.Outcome State Fault Refusal :=
  if s.carries port then .next ((s.ackTo port last).resend port) else .next s

/-- ACK_TIMEOUT (R453). -/
def execAckTimeout (port : Nat) (s : State) : Host.Outcome State Fault Refusal :=
  if s.carries port then .next (s.resend port) else .next s

/-! ## Port states (R454, R455) -/

/-- A port enters DISCOVER and sends its discovery message (R455). -/
def State.startDiscovery (s : State) (p : Nat) : State :=
  (s.setPort p { s.port p with st := .discover }).linkSend p
    (.discovery ⟨1, s.link.domId, s.link.domPkg, s.link.domSize, p⟩)

/-- LINK_TRAINED (R454). -/
def execLinkTrained (port : Nat) (s : State) : Host.Outcome State Fault Refusal :=
  if port < 12 ∧ (s.port port).st = .down then .next (s.startDiscovery port) else .next s

/-- DISCOVERY (R454, R455): a port that is UP begins to verify its peer (R467, log entry 14). -/
def execDiscovery (port : Nat) (m : DiscMsg) (s : State) : Host.Outcome State Fault Refusal :=
  let x := s.port port
  if x.st ≠ .discover ∨ m.version = 0 then .next s
  else
    .next ((s.setPort port { x with
      st := .up, pkg := m.package
      isDomain := m.domain == s.link.domId && m.size == s.link.domSize && m.package != s.link.domPkg }).linkSend port (.mgmt 0x84 []))

/-- LOSS_OF_SIGNAL (R454): outside UP it changes nothing (log entry 62). -/
def execLossOfSignal (port : Nat) (s : State) : Host.Outcome State Fault Refusal := .next (s.leaveUp port)

/-- Package ticks in ten seconds (R35). -/
def tenSeconds : Nat := 10 * 1750000000 / 128

/-- RETRAIN_COMPLETE (R454): the fourth retrain within ten seconds fails the port. -/
def execRetrainComplete (port : Nat) (s : State) : Host.Outcome State Fault Refusal :=
  let x := s.port port
  if x.st ≠ .retrain then .next s
  else
    let l := (x.retrains.filter fun t => decide (s.tick < t + tenSeconds)) ++ [s.tick]
    let s := s.setPort port { x with retrains := l }
    if 4 ≤ l.length then .next (s.setPort port { s.port port with st := .failed }) else .next (s.startDiscovery port)

/-! ## Slab messages (R440, R441) -/

/-- A line of a slab is held by a command of an engine that is next in its queue and holds every line it is to write: it answers when the command has
written them (R108, R435; log entry 54). -/
def State.slabKept (s : State) (slab : Nat) : Bool :=
  s.ops.any fun e =>
    (e.2.owns.any fun l => l / 16 == slab && s.holdsLine e.1 l) && s.atHead e.1 && s.keeps e.1 && e.2.owns.all (s.holdsLine e.1)

/-- SLAB_READ (R441). -/
def execSlabRead (port : Nat) (m : SlabMsg) (s : State) : Host.Outcome State Fault Refusal :=
  if m.reply then .next (s.slabAnswer port m false) else .next (s.serveSlab port m false)

/-- SLAB_EXCLUSIVE (R441). -/
def execSlabExclusive (port : Nat) (m : SlabMsg) (s : State) : Host.Outcome State Fault Refusal :=
  if m.reply then .next (s.slabAnswer port m true) else .next (s.serveSlab port m true)

/-- SLAB_DOWNGRADE (R441): at a proxy root it waits for an owner that is being served. -/
def execSlabDowngrade (port : Nat) (m : SlabMsg) (s : State) : Host.Outcome State Fault Refusal :=
  if m.reply then .next (s.rootAnswer m true)
  else if s.slabMoving m.slab ∨ s.slabKept m.slab then .next (s.later (.slabDowngrade port m))
  else .next (s.lowerSlab port m)

/-- SLAB_TEARDOWN (R441): at a proxy root it waits for an owner that is being served, and for an engine's command about to write (R108). -/
def execSlabTeardown (port : Nat) (m : SlabMsg) (s : State) : Host.Outcome State Fault Refusal :=
  if m.reply then .next (s.rootAnswer m false)
  else if s.slabMoving m.slab ∨ s.slabKept m.slab then .next (s.later (.slabTeardown port m))
  else .next (s.giveSlab port m)

/-! ## Remote writes and reads (R457 to R460) -/

/-- Window displacement and own scratchpad offset of a remote command's block (R459). -/
def rmaAt (w : Bool) (p : List Nat) : Nat × Nat := if w then (p.getD 2 0, p.getD 0 0) else (p.getD 0 0, p.getD 2 0)

/-- Checks of a remote command at issue, in the order of R459. -/
def State.rmaCheck (s : State) (g : Nat) (w : Bool) (p : List Nat) (x : Cap) : CopyCheck :=
  let n := p.getD 1 0
  let b := p.getD 3 0
  let (d, o) := rmaAt w p
  if 4096 < n ∨ (!w ∧ (n < 16 ∨ (b ≠ 0xFFFFFFFF ∧ fld b 24 7 ≠ 0))) then .error (0x01, (s.grp g).word.toNat, 0)
  else if !x.allows ((if w then rightW else rightR) + rightP) then .error (0x07, d, 0)
  else if x.len < d + n then .error (0x06, d, 0)
  else if (s.glch g).scr < o + n then .error (0x06, o, 0)
  else if 65536 < (x.base + d) % 65536 + n then .error (0x06, d, 0)
  else
    match [p.getD 0 0, n, p.getD 2 0].find? fun v => v % 16 != 0 with
    | some v => .error (0x05, v, 1)
    | none => if w then .ok none else s.copyBar g b

/-- A remote command issues (R459). -/
def rmaIssue (i : Instr) (w : Bool) (a : RF) (c : Fin 16) (s : State) : Host.Outcome State Fault Refusal :=
  issueWord i s fun n g =>
    let p := g.params a 4
    match s.rmaCheck n w p (g.cap c.val) with
    | .error t => s.cmdTrap n t
    | .ok bar =>
      let b := match bar with | some x => [x.1, x.2] | none => []
      (s.issueOp n { g.newOp n i with ps := p ++ b, cap1 := g.cap c.val, cls := 7 }).push (.sequenceAnswer s.nextOp)

/-- RWRI (R459). -/
def execRwri (a : RF) (c : Fin 16) (s : State) : Host.Outcome State Fault Refusal := rmaIssue (.rwri a c) true a c s

/-- RRD (R459). -/
def execRrd (a : RF) (c : Fin 16) (s : State) : Host.Outcome State Fault Refusal := rmaIssue (.rrd a c) false a c s

/-- A deferred trap of a remote command, for its window offset (R459). -/
def State.rmaFail (s : State) (o cause : Nat) (w : Bool) : State :=
  let p := s.op o
  s.engFail o (portTrap cause (p.cap1.adr (rmaAt w p.ps).1) p.mask) .sequenceAnswer

/-- A remote command passes the home port of its window page and leaves on the page's port (R457, R459). -/
def State.runRma (s : State) (o : Nat) (w : Bool) : State :=
  let p := s.op o
  let (d, off) := rmaAt w p.ps
  let a := p.cap1.adr d
  let n := p.ps.getD 1 0
  if p.stage = .parts 1 then s
  else if !s.mayPerform o then s.later (.sequenceAnswer o)
  else
    match s.portCheck (s.glch p.gid).ctx a (some p.cap1.gen) (if w then .write else .read) with
    | (s, .fail c) => s.rmaFail o c w
    | (s, .missing) => if p.pageFailed a then s.rmaFail o 0x0A w else s.engPage o a (if w then 4 else 3) .sequenceAnswer
    | (s, .ok pa mt _ _ obj) =>
      let pfn := pa / 65536
      if mt ≠ 4 then s.rmaFail o 0x07 w
      else if 12 ≤ pfn % 16 then s.rmaFail o 0x09 w
      else if (s.port (pfn % 16)).st ≠ .up then s.rmaFail o 0x1B w
      else
        let data := if w then mbytes (s.blk (s.grp p.gid).blk).scr off n else []
        let r : RmaReq := ⟨pfn / 2 ^ 28 % 4096, pfn / 16 % 2 ^ 24, a % 2 ^ 40, n, oTenant obj, if w then p.ps.getD 3 0 else 0, o, data⟩
        let s := s.setOp o { p with stage := .parts 1, accs := [⟨0, d, a, pa, 4, n, 0, 0, none, .sent⟩] }
        s.linkSend (pfn % 16) (if w then .rwri r else .rrd r)

/-- RWRI_ACK (R459, R460). -/
def execRwriAck (op : Nat) (st : RmaStatus) (s : State) : Host.Outcome State Fault Refusal :=
  match tfind s.ops op with
  | none => .next s
  | some p =>
    match p.instr, p.stage with
    | .rwri _ _, .parts 1 => if st = .done then .next (s.completeOp op) else .next (s.rmaFail op (statusCause st) true)
    | _, _ => .next s

/-- RRD_DATA (R459, R460): the bytes go to the scratchpad, then the barrier counts them. -/
def execRrdData (op : Nat) (st : RmaStatus) (data : List Nat) (s : State) : Host.Outcome State Fault Refusal :=
  match tfind s.ops op with
  | none => .next s
  | some p =>
    match p.instr, p.stage with
    | .rrd _ _, .parts 1 =>
      let n := p.ps.getD 1 0
      if st ≠ .done then .next (s.rmaFail op (statusCause st) false)
      else
        let s := s.swrite (s.grp p.gid).blk (rmaAt false p.ps).2 n (ofBytes (data.take n))
        match p.bar 4 with
        | some (b, off) =>
          if s.peerGone b ∧ !(s.bar b off).broken then .next (s.engFail op ⟨0x0C, w32 (p.ps.getD 3 0), 0, p.mask, []⟩ .sequenceAnswer)
          else .next ((s.barApply b off 0 n (some op)).overUnlessHeld op b fun s => s.completeOp op)
        | none => .next (s.completeOp op)
    | _, _ => .next s

namespace State

/-- The notification binding of an object: the handle of its sequence (R458). -/
def binding (s : State) (ctx obj : Nat) : Option Nat :=
  let c := s.ctx ctx
  if c.noteN = 0 then none
  else
    let e := s.oread ctx c.noteObj (8 * (obj % c.noteN)) 8
    let h := fld e 24 20
    if fld e 0 24 = obj ∧ fld e 63 1 = 1 ∧ fld e 44 19 = 0 ∧ s.seqValid ctx h ∧ (s.seqGet ctx h).recSize = 16 then some h else none

/-- The checks of a remote request at its target, in the order of R457; the sequence engine's objects and error logs are kept from the link
engine (R348, R468). -/
def rmaRefusal (s : State) (r : RmaReq) (w : Bool) : Option RmaStatus :=
  let o := s.objRaw r.tctx r.tobj
  if !(s.ctx r.tctx).reg ∨ !objValid (s.ctx r.tctx) o ∨ s.withheld r.tobj then some .absent
  else if oTenant o ≠ r.tenant then some .tenant
  else if oRights o &&& (if w then rightW else rightR) = 0 ∨ oSize o < r.off + r.count then some .rights
  else if (List.range (if r.count = 0 then 0 else (r.off + r.count - 1) / 65536 - r.off / 65536 + 1)).any fun i =>
      (s.xlate r.tctx r.tobj (65536 * (r.off / 65536 + i))).isNone then some .absent
  else if w ∧ (s.binding r.tctx r.tobj).isNone then some .absent
  else none

/-- A refused remote request is counted and logged at its target (R457). -/
def rmaRefused (s : State) (port : Nat) (r : RmaReq) : State :=
  (s.count 10 port 4 1).logErr 5 port 6 3 (r.tobj * 2 ^ 40 + r.off) r.tctx none 0

/-- The port checks of a remote request's bytes at their target (R406): the refusal of the first that fails; nothing else is written there. -/
def rmaPorts (s : State) (r : RmaReq) (k : PKind) : State × Option RmaStatus :=
  let a := r.tobj * 2 ^ 40 + r.off
  (pieces a r.count).foldl
    (fun (x : State × Option RmaStatus) p =>
      match x.2 with
      | some _ => x
      | none =>
        match x.1.portCheck r.tctx p.1 none k with
        | (s, .ok _ 0 _ _ _) => (s.homeWant p.1 p.2 (k == .write), if k == .read && s.poisonedSector p.1 then some .poisoned else none)
        | (s, .fail 0x0B) => (s, some .poisoned)
        | (s, _) => (s, some .absent)) (s, none)

/-- The link engine has read the notification binding of an object (R406, R458). -/
def noteBinding (s : State) (ctx obj : Nat) : State :=
  let c := s.ctx ctx
  if c.noteN = 0 then s else s.noteRead ctx (c.noteObj * 2 ^ 40 + 8 * (obj % c.noteN))

/-- The notification record of a remote write (R458). -/
def noteRecord (s : State) (port : Nat) (r : RmaReq) : List Nat :=
  let x := s.port port
  let w := (if x.isDomain then x.pkg % 4 else 4) + 16 * (r.tenant % 4096) + 65536 * (port % 256)
  toBytes 4 r.imm ++ toBytes 4 r.count ++ toBytes 4 w ++ toBytes 4 s.tick

end State

/-- INBOUND_RWRI (R457 to R460): the write, then its notification, then the acknowledgement. -/
def execInboundRwri (port : Nat) (r : RmaReq) (s : State) : Host.Outcome State Fault Refusal :=
  let a := r.tobj * 2 ^ 40 + r.off
  let refuse := fun (s : State) e => (s.rmaRefused port r).linkSend port (.rwriAck r.tag e)
  match s.rmaRefusal r true, s.rmaPorts r .write with
  | some e, _ => .next (refuse s e)
  | none, (t, some e) => .next (refuse t e)
  | none, (t, none) =>
    let s := ((t.count 10 port 3 1).engPuts none r.tctx a (r.data.take r.count)).noteBinding r.tctx r.tobj
    match s.binding r.tctx r.tobj with
    | none => .next (s.linkSend port (.rwriAck r.tag .appendFailed))
    | some h =>
      match s.appendRec r.tctx h s.nextOp (s.noteRecord port r) with
      | (t, .got _) => .next (t.linkSend port (.rwriAck r.tag .done))
      | _ => .next ((s.logErr 5 port 6 4 a r.tctx none 0).linkSend port (.rwriAck r.tag .appendFailed))

/-- INBOUND_RRD (R457, R459). -/
def execInboundRrd (port : Nat) (r : RmaReq) (s : State) : Host.Outcome State Fault Refusal :=
  let refuse := fun (s : State) e => (s.rmaRefused port r).linkSend port (.rrdData r.tag e [])
  match s.rmaRefusal r false, s.rmaPorts r .read with
  | some e, _ => .next (refuse s e)
  | none, (t, some e) => .next (refuse t e)
  | none, (t, none) =>
    let ps := pieces r.off r.count
    let bs := pieceBytes ps (ps.map fun p => t.oread r.tctx r.tobj p.1 p.2)
    .next ((t.count 10 port 3 1).linkSend port (.rrdData r.tag .done bs))

/-! ## Privileged channels (R461) -/

/-- Physical address of a global one, through a context whose tables translate it. -/
def State.paOf (s : State) (g : Nat) : Option Nat := s.ctxs.findSome? fun c => s.xlate c.1 (g / 2 ^ 40) (g % 2 ^ 40)

/-- Lines of physical bytes from `a` on that an agent of the package holds, that an engine is to write, or that peers hold. -/
def State.linesAt (s : State) (a n : Nat) : List Nat :=
  let meets := fun (p : Nat) => decide (a < p + 256) && decide (p < a + n)
  let held := (s.cores.flatMap fun e => e.2.lines).filterMap fun e => if e.2.st != .I && e.2.mt != 2 && meets e.2.pa then some (e.1 / 4) else none
  let slabs := (s.fab.tree.filterMap fun e => if e.1 / 2 ^ 56 % 2 = 1 then some (e.1 % 2 ^ 56) else none).filter fun k => (s.slabHolder k).isSome
  let more := (slabs.flatMap slabLines ++ s.ops.flatMap fun e => e.2.owns).filter fun l => match s.paOf (256 * l) with | some p => meets p | none => false
  (held ++ more).eraseDups

/-- Poisoned sectors of physical bytes from `a` on, with their physical addresses (R416). -/
def State.poisonAt (s : State) (a n : Nat) : List (Nat × Nat) :=
  (s.slices.flatMap fun e => e.2.poisonSec).filterMap fun q =>
    match s.paOf (128 * q) with
    | some p => if a < p + 128 ∧ p < a + n then some (q, p) else none
    | none => none

/-- Physical bytes lie in a frame of a log: no privileged channel reaches one (R468). -/
def State.inLog (s : State) (a n : Nat) : Bool :=
  (s.mg.log.frames ++ s.mg.log.sealed).any fun f => decide (a < 65536 * f + 65536) && decide (65536 * f < a + n)

/-- CHANNEL_REQUEST (R461): only a region that permits the whole access answers it; a write comes after the trees of the lines it changes are
torn down (R30), and a read of a poisoned sector fails (R416). -/
def execChannelRequest (port : Nat) (r : ChanReq) (s : State) : Host.Outcome State Fault Refusal :=
  let rs := tget [] s.link.prot (4 * port + r.channel)
  let ok := decide (r.channel < 4) && !s.inLog r.addr r.count && rs.any fun x =>
    decide (x.base ≤ r.addr) && decide (r.addr + r.count ≤ x.base + x.len) && (if r.write then x.wr else x.rd)
  let ls := s.linesAt r.addr r.count
  let want := fun (s : State) => ls.foldl (fun s l => s.homeWant (256 * l) 256 r.write) s
  if !ok then .next ((s.logErr 5 port 6 3 0 0 none 0).linkSend port (.channelAnswer r.channel false []))
  else if r.write then
    let s := ls.foldl (fun s l => (s.tearLine l).touch (256 * l) 256) (want s)
    let s := (s.poisonAt r.addr r.count).foldl (fun s e => if r.addr ≤ e.2 ∧ e.2 + 128 ≤ r.addr + r.count then s.cleanSectors (128 * e.1) 128 else s) s
    .next ((s.pwrite r.addr r.count (ofBytes (r.data.take r.count))).linkSend port (.channelAnswer r.channel true []))
  else if s.poisonAt r.addr r.count ≠ [] then .next ((want s).linkSend port (.channelAnswer r.channel false []))
  else .next ((want s).linkSend port (.channelAnswer r.channel true (mbytes s.mem r.addr r.count)))

end Sys2Proof.Machine
end

