-- ==== Sys2Proof/Machine/Queue.lean ====
section
/-! DEFINITION. Launch queues: the commit doorbell, refresh, slots, acceptance, completion counters and records, and LAUNCH, LWAIT and
LSTAT (spec/05 R120 to R137, R156, R157, R160 to R162). -/

namespace Sys2Proof.Machine

namespace State

/-! ## Queues, counters and the doorbell's answers (R121 to R124) -/

/-- A queue of a context. -/
def queue (s : State) (ctx qn : Nat) : Queue := tget .empty s.le.queues (1024 * ctx + qn)

/-- A queue becomes `q`. -/
def setQueue (s : State) (ctx qn : Nat) (q : Queue) : State := { s with le := { s.le with queues := tset .empty s.le.queues (1024 * ctx + qn) q } }

/-- A completion counter of a context (R122). -/
def cctr (s : State) (ctx i : Nat) : Nat := s.oread ctx (s.ctx ctx).launchArea (8 * i) 8

/-- A completion counter becomes completed `c`, ERR `e`, issued `n` (R122). -/
def setCctr (s : State) (ctx i c e n : Nat) : State :=
  s.hwrite ctx (s.ctx ctx).launchArea (8 * i) 8 (c % 2 ^ 24 + 2 ^ 24 * (e % 2) + 2 ^ 32 * (n % 2 ^ 24))

/-- CDBR0 and CDBR1 after a doorbell write that reports status 0 (R124). -/
def bell (s : State) (r0 r1 : Nat) : State := { s with le := { s.le with cdbr0 := r0, cdbr1 := r1 } }

/-- A doorbell write that reports a status other than 0 is counted (R124, R163). -/
def bellFail (s : State) (status : Nat) : State := (s.bell (2 ^ 49 * status) 0).count 0 0 4 1

/-- A queue has committed records beyond its cursor. -/
def hasWork (s : State) (ctx : Nat) (q : Queue) : Bool := decide (q.cursor < (s.seqGet ctx q.seq).clen)

/-- A doorbell's queue: registered, enabled and host-fed (R124, R125). -/
def hostQueue (s : State) (ctx qn : Nat) : Bool :=
  (s.ctx ctx).reg && decide (qn < 1024) && (s.queue ctx qn).st != .off && (s.queue ctx qn).host

end State

/-- RESERVE (R124): the free list comes before the window (R359), behind a reservation that waits on the sequence (R361). DESIGN CHOICE: of several
statuses N's comes first, then the queue's; a sealed sequence reports 1 (log entry 56). -/
def execReserve (ctx qn n : Nat) (s : State) : Host.Outcome State Fault Refusal :=
  let q := s.queue ctx qn
  let d := s.seqGet ctx q.seq
  let room := 256 - (d.rlen - d.clen)
  if n = 0 ∨ 256 < n then .next (s.bellFail 4)
  else if !s.hostQueue ctx qn ∨ d.st ≠ 1 then .next (s.bellFail 1)
  else
    let k := s.resCount ctx q.seq (Nat.min n (Nat.max room 1)) 0
    match s.reserveAll ctx q.seq (List.replicate k 0) with
    | (t, .got (p :: ps)) =>
      if s.behind ctx q.seq s.nextOp then .next (s.bellFail 5)
      else
        .next (((t.setQueue ctx qn { q with hostRes := q.hostRes ++ (p :: ps).map (·.pos) }).count 6 (seqDie q.seq) 0 1).bell (p.pos + 2 ^ 40 * (ps.length + 1)) (d.slotAt p.brk p.slot))
    | (_, .wait) => .next (s.bellFail 5)
    | _ => .next (s.bellFail 2)

/-- COMMIT (R113, R124): the oldest host-reserved positions are committed. -/
def execCommit (ctx qn n : Nat) (s : State) : Host.Outcome State Fault Refusal :=
  let q := s.queue ctx qn
  if n = 0 ∨ 256 < n then .next (s.bellFail 4)
  else if !s.hostQueue ctx qn then .next (s.bellFail 1)
  else if q.hostRes.length < n then .next (s.bellFail 3)
  else
    let s := s.setQueue ctx qn { q with hostRes := q.hostRes.drop n }
    .next ((((q.hostRes.take n).foldl (fun s p => s.commitAt ctx q.seq p 1) s).count 6 (seqDie q.seq) 0 1).bell (2 ^ 40 * n) 0)

/-- A queue's state at refresh (R134). -/
def refreshed (st : QState) (work : Bool) : QState :=
  match st with
  | .off | .ie | .iw => if work then .iw else .ie
  | .mw | .me => if work then .mw else .me

/-- A queue takes a class. DESIGN CHOICE: one that holds a slot keeps it unless that would break the reserve of R135: then it gives the slot up (log
entry 17). -/
def State.recast (s : State) (q : Queue) (c : Nat) : Queue :=
  let holds := fun (x : Queue) => x.st == .mw || x.st == .me || x.moving
  let n := fun (k : Nat) => (s.le.queues.filter fun e => holds e.2 && e.2.cls == k).length + (if k = c then 1 else 0) - (if k = q.cls then 1 else 0)
  if !holds q || q.cls == c || decide ((List.range 4).foldl (fun m k => m + Nat.max (n k) 16) 0 ≤ 256) then { q with cls := c }
  else { q with cls := c, moving := false, st := if q.st = .me then .ie else .iw }

/-- REFRESH (R121, R134): the queue-table entry is read; a bad or disabled one takes the queue to OFF. -/
def execRefresh (ctx qn : Nat) (s : State) : Host.Outcome State Fault Refusal :=
  if !(s.ctx ctx).reg ∨ 1024 ≤ qn then .next (s.bellFail 1)
  else
    let s := s.noteRead ctx ((s.ctx ctx).launchArea * 2 ^ 40 + 0x400 + 8 * qn)
    let e := s.oread ctx (s.ctx ctx).launchArea (0x400 + 8 * qn) 8
    let h := fld e 0 20
    let d := s.seqGet ctx h
    let q := s.queue ctx qn
    let off := s.setQueue ctx qn { q with st := .off, moving := false }
    if fld e 24 40 ≠ 0 ∨ !s.seqValid ctx h ∨ d.lq ≠ 1 ∨ d.recSize ≠ 128 then .next (off.bellFail 1)
    else if fld e 22 1 = 0 then .next (off.bell 0 0)
    else
      let q := if q.seq = h then q else { q with seq := h, cursor := 0, hostRes := [] }
      let q := s.recast q (fld e 20 2)
      let q := { q with host := fld e 23 1 == 1 }
      let st := refreshed q.st (s.hasWork ctx q)
      let q := { q with
        st := st, since := if st = .iw ∧ q.st ≠ .iw then s.tick else q.since, bound := q.bound && q.st == .iw
        mostW := if st = .iw ∧ q.st = .iw then q.mostW else 0, leastS := if st = .iw ∧ q.st = .iw then q.leastS else 0 }
      let s := (s.setQueue ctx qn q).bell 0 0
      .next (if st = .mw then s.push (.recordAccept ctx qn) else s)

/-! ## Tokens (R132) -/

/-- A launch token of a context: 0 or 1 with its counter's ERR when satisfied, 2 when not, 3 for the refused token. -/
def State.tokenState (s : State) (ctx t : Nat) : Nat :=
  if t = 0x7FFFFFFF then 3
  else if t / 2 ^ 31 = 0 then 0
  else
    let c := s.cctr ctx (fld t 24 7)
    if (fld c 0 24 + 2 ^ 24 - t % 2 ^ 24) % 2 ^ 24 < 2 ^ 23 then fld c 24 1 else 2

/-! ## Launch records (R126 to R129, R141) -/

/-- The fields of a record's 128 bytes (R126). -/
def LRec.ofBits (x : Nat) : LRec where
  ver := fld x 0 8
  flags := fld x 8 8
  gpb := fld x 16 8
  bpc := fld x 24 8
  code := fld x 32 24
  cls := fld x 56 8
  entry := fld x 64 32
  part := fld x 96 32
  ncourse := fld x 128 32
  nlanes := fld x 160 32
  handler := fld x 192 32
  cseq := fld x 224 24
  cctr := fld x 248 8
  s := (List.range 16).map fun i => fld x (256 + 32 * i) 32
  ch := (List.range 4).map fun i => fld x (768 + 32 * i) 32
  tok := (List.range 4).map fun i => fld x (896 + 32 * i) 32

/-- Bytes of a block's lane registers, scratchpad and accumulator store (R138). -/
def LRec.shares (r : LRec) : Nat × Nat × Nat := (r.gpb * (8 * fld r.part 0 8) * 128, fld r.part 8 8 * 16384, fld r.part 16 8 * 16384)

/-- Half of a pool: 2 MiB (R139). -/
def half : Nat := 2097152

/-- PRE without WHOLE: the blocks lie in one bank (R127, R139). -/
def LRec.banked (r : LRec) : Bool := fld r.flags 0 2 == 1

/-- A partition word is valid (R141). -/
def LRec.partValid (r : LRec) : Bool :=
  let (a, b, c) := r.shares
  decide (1 ≤ fld r.part 0 8) && decide (fld r.part 0 8 ≤ 128) && decide (fld r.part 8 8 ≤ 128) && decide (fld r.part 16 8 ≤ 128) &&
    fld r.part 24 8 == 0 && decide (a ≤ half) && decide (b ≤ half) && decide (c ≤ half) &&
    decide (a + b + c ≤ if r.banked then half else 2 * half)

/-- A completion sequence is one of record size 32 (R128). -/
def State.cseqValid (s : State) (ctx h : Nat) : Bool := s.seqValid ctx h && (s.seqGet ctx h).recSize == 32

/-- The checks of R128 but for the version. DESIGN CHOICE: an ENTRY or HANDLER that is not a multiple of 4 is no ground for refusal, and is the pc as
it stands (R36; log entry 55). -/
def State.recValid (s : State) (ctx : Nat) (r : LRec) : Bool :=
  fld r.flags 7 1 == 0 && fld r.cls 2 6 == 0 && fld r.cseq 20 4 == 0 && r.ch.all (fun h => decide (h < 2 ^ 24)) &&
    decide (1 ≤ r.gpb) && decide (r.gpb ≤ 32) && decide (1 ≤ r.bpc) && decide (r.bpc ≤ 8) && decide (1 ≤ r.ncourse) &&
    decide (r.ncourse ≤ 2 ^ 31) && (r.nlanes == 0 || (r.nlanes + 31) / 32 == r.ncourse * r.bpc * r.gpb) && r.partValid &&
    (match s.capLoad ctx r.code with
      | some c => c.kind == 2 && c.rights &&& rightX != 0
      | none => false) &&
    r.ch.all (fun h => (s.capLoad ctx h).isSome) && (fld r.flags 5 1 == 0 || s.cseqValid ctx r.cseq) && !r.tok.contains 0x7FFFFFFF

/-! ## Completion (R131, R156, R157) -/

/-- LWAIT commands on a counter look again. -/
def State.askTokens (s : State) (ctx i : Nat) : State :=
  s.ops.foldl
    (fun (s : State) (e : Nat × Op) =>
      match e.2.instr with
      | .lwait _ _ => if e.2.stage = .seqWait ∧ (s.glch e.2.gid).ctx = ctx ∧ fld (e.2.ps.getD 0 0) 24 7 = i then s.push (.sequenceAnswer e.1) else s
      | _ => s)
    s

/-- COMPLETED after a target completes: it advances over the gap-free run of those remembered. -/
def runOn (c : Nat) (done : List Nat) : Nat → Nat × List Nat
  | 0 => (c, done)
  | n + 1 =>
    let t := (c + 1) % 2 ^ 24
    if done.contains t then runOn t (done.filter (· != t)) n else (c, done)

/-- A completion is counted in ISSUED order (R131), with ERR set before it (R156). -/
def State.countDone (s : State) (ctx i target : Nat) (err : Bool) : State :=
  let c := s.cctr ctx i
  let k := 128 * ctx + i
  let (n, rest) := runOn (fld c 0 24) (tget [] s.le.done k ++ [target]) 257
  let s := { s with le := { s.le with done := tset [] s.le.done k rest } }
  let s := (s.setCctr ctx i n (if err then 1 else fld c 24 1) (fld c 32 24)).askTokens ctx i
  s.le.queues.foldl (fun s e => if e.1 / 1024 = ctx ∧ e.2.st = .mw then s.push (.recordAccept ctx (e.1 % 1024)) else s) s

/-- The 32 bytes of a completion record (R157). -/
def State.doneRecord (s : State) (l : Launch) (status : Nat) : List Nat :=
  toBytes 4 l.token ++ toBytes 2 status ++ toBytes 2 0 ++ toBytes 8 (l.pos % 2 ^ 40 + 2 ^ 40 * (l.qn % 1024)) ++ toBytes 4 l.tcause ++
    toBytes 4 l.tpc ++ toBytes 4 l.accTick ++ toBytes 4 s.tick

/-- A launch completes (R156): its record, ERR, and its count; `none` while the completion sequence's commit window is full. DESIGN CHOICE: a sealed
completion sequence drops the record and logs it as an empty free list does, and a handle no longer valid drops it (R157; log entry 56). -/
def State.finishLaunch (s : State) (k : Nat) : Option State :=
  let l := s.lch k
  let status := if l.broken then 3 else l.status
  let app : Option State :=
    if fld l.lr.flags 5 1 = 1 ∧ s.cseqValid l.ctx l.lr.cseq then
      match s.appendRec l.ctx l.lr.cseq (2 ^ 60 + k) (s.doneRecord l status) with
      | (t, .got _) => some (t.seqLeave (2 ^ 60 + k))
      | (_, .wait) => none
      | _ => some (s.logErr 6 0 3 2 0 l.ctx none 0)
    else some s
  app.map fun s =>
    let s := s.setLch k { s.lch k with st := .complete }
    let s := if status = 3 then s.count 0 0 3 1 else s
    if fld l.lr.cctr 7 1 = 1 then s.countDone l.ctx (fld l.lr.cctr 0 7) (l.token % 2 ^ 24) (status != 0) else s

/-- The record of a launch that completes waits at its completion sequence, in order of arrival (R361). -/
def State.launchWaits (s : State) (k : Nat) : State :=
  let l := s.lch k
  let e := (l.ctx, l.lr.cseq, 2 ^ 60 + k)
  let s : State := if s.seqWait.contains e then s else ({ s with seqWait := s.seqWait ++ [e] } : State).count 6 (seqDie l.lr.cseq) 1 1
  s.later (.launchComplete k)

/-- LAUNCH_COMPLETE (R114, R156): a draining launch whose accesses are all performed completes. -/
def execLaunchComplete (launch : Nat) (s : State) : Host.Outcome State Fault Refusal :=
  let l := s.lch launch
  if l.st ≠ .draining ∨ s.ops.any (fun e => (s.gblk e.2.gid).launch == launch) then .next s
  else match s.finishLaunch launch with
    | some t => .next t
    | none => .next (s.launchWaits launch)

/-! ## Acceptance (R130, R131) -/

namespace State

/-- The record of a queue's position: its 128 bytes, none when the window has passed it. -/
def recAt (s : State) (ctx : Nat) (d : SeqD) (pos : Nat) : Option Nat :=
  match s.brickAt ctx d pos with
  | some x =>
    if pos < d.wlo then none
    else
      let a := d.slotAt x.brk (pos - x.first d)
      some (s.oread ctx d.pool a 64 + 2 ^ 512 * s.oread ctx d.pool (a + 64) 64)
  | none => none

/-- The sectors of a position's record. -/
def recSectors (s : State) (ctx : Nat) (d : SeqD) (pos : Nat) : List Nat :=
  match s.brickAt ctx d pos with
  | some x => let a := d.pool * 2 ^ 40 + d.slotAt x.brk (pos - x.first d); [a, a + 64]
  | none => []

/-- An operation has its value, and is over. -/
def opAnswer (s : State) (o : Nat) (v : Word) : State :=
  let p := s.op o
  (s.setGrp p.gid ((s.grp p.gid).putsAll p.dest p.mask p.helpers [v])).seqEnd o

/-- Phase 2 of the LAUNCH that appended a position ends (R160). -/
def answerLaunch (s : State) (ctx qn pos v : Nat) : State :=
  match s.ops.find? fun e =>
      (match e.2.instr with | .launch _ _ _ => true | _ => false) && e.2.stage == .parts 2 && (s.glch e.2.gid).ctx == ctx &&
        e.2.ps.drop 2 == [qn, pos] with
  | some e => s.opAnswer e.1 (w32 v)
  | none => s

/-- The cursor of a queue goes past a record, and a queue without more work is ME (R130, R134). -/
def pastRecord (s : State) (ctx qn : Nat) : State :=
  let q := s.queue ctx qn
  let q := { q with cursor := q.cursor + 1 }
  if s.hasWork ctx q then (s.setQueue ctx qn q).push (.recordAccept ctx qn) else s.setQueue ctx qn { q with st := .me }

/-- A record of version 1 is accepted: it takes its token, and is checked (R128 to R130). -/
def acceptRec (s : State) (ctx qn pos : Nat) (r : LRec) : State :=
  let q := s.queue ctx qn
  let i := fld r.cctr 0 7
  let c := s.cctr ctx i
  let n := (fld c 32 24 + 1) % 2 ^ 24
  let counted : Bool := fld r.cctr 7 1 == 1
  let s := if counted then s.setCctr ctx i (fld c 0 24) (fld c 24 1) n else s
  let token := if counted then 2 ^ 31 + 2 ^ 24 * i + n else 0
  let ok := s.recValid ctx r
  let clamp : Bool := ok && decide (q.cls < r.cls)
  let s := if clamp then s.count 0 0 5 1 else s
  let k := s.launches.length
  let l : Launch := { Launch.empty with
    ctx := ctx, qn := qn, pos := pos, lr := { r with cls := if clamp then q.cls else r.cls }
    codeCap := (s.capLoad ctx r.code).getD .null, chCaps := r.ch.map fun h => (s.capLoad ctx h).getD .null
    token := token, accTick := s.tick % 2 ^ 32, st := if ok then .accepted else .draining, status := if ok then 0 else 2, prev := q.last }
  let s : State := { s with launches := s.launches ++ [l] }
  let s := s.setQueue ctx qn { s.queue ctx qn with last := some k, waiting := if ok then q.waiting ++ [k] else q.waiting }
  let s := s.answerLaunch ctx qn pos token
  if ok then s
  else
    let s := s.count 0 0 4 1
    (s.finishLaunch k).getD (s.launchWaits k)

end State

/-- RECORD_ACCEPT (R130): a mapped queue with room among its 64 places accepts its next committed record. -/
def execRecordAccept (ctx qn : Nat) (s : State) : Host.Outcome State Fault Refusal :=
  let q := s.queue ctx qn
  let d := s.seqGet ctx q.seq
  if q.st ≠ .mw ∨ 64 ≤ q.waiting.length ∨ !s.seqValid ctx q.seq ∨ d.clen ≤ q.cursor then .next s
  else
    match s.recAt ctx d q.cursor with
    | none => .next (s.pastRecord ctx qn)
    | some x =>
      let s := (s.noteReads ctx (s.brickSectors ctx d (s.brickAt ctx d q.cursor).toList)).noteReads ctx (s.recSectors ctx d q.cursor)
      let r := LRec.ofBits x
      let c := s.cctr ctx (fld r.cctr 0 7)
      if r.ver ≠ 1 then .next (((s.count 0 0 4 1).answerLaunch ctx qn q.cursor 0x7FFFFFFF).pastRecord ctx qn)
      else if fld r.cctr 7 1 = 1 ∧ 256 ≤ (fld c 32 24 + 2 ^ 24 - fld c 0 24) % 2 ^ 24 then .next s
      else .next ((s.acceptRec ctx qn q.cursor r).pastRecord ctx qn)

/-! ## LAUNCH, LWAIT and LSTAT (R160 to R162) -/

/-- LAUNCH (R160): its checks at issue; phase 1 holds the group. -/
def execLaunch (d a : RF) (c : Fin 16) (s : State) : Host.Outcome State Fault Refusal :=
  issueWord (.launch d a c) s fun n g =>
    let p := g.params a 2
    let x := g.cap c.val
    let off := p.getD 1 0
    if x.kind ≠ 1 ∨ !x.allows rightR then s.trapHere n (g.wide 0x07 (w32 off) 0)
    else if x.len < off + 128 then s.trapHere n (g.wide 0x06 (w32 off) 0)
    else if off % 16 ≠ 0 then s.trapHere n (g.wide 0x05 (w32 off) 1)
    else
      let o := s.nextOp
      let p := { g.newOp n (.launch d a c) with
        ps := p, cap1 := x, dest := g.destRegs d 1, stage := .issued, cls := 6 }
      let s := s.issueOp n p
      (s.setGrp n { s.grp n with phase := .held g.idx o }).push (.sequenceAnswer o)

/-- LWAIT and LSTAT at issue (R161, R162). -/
def tokenIssue (i : Instr) (d a : RF) (s : State) : Host.Outcome State Fault Refusal :=
  issueWord i s fun n g =>
    (s.issueOp n { g.newOp n i with ps := [(g.usrc a).toNat], dest := g.destRegs d 1, cls := 4 }).push (.sequenceAnswer s.nextOp)

/-- LWAIT (R161). -/
def execLwait (d a : RF) (s : State) : Host.Outcome State Fault Refusal := tokenIssue (.lwait d a) d a s

/-- LSTAT (R162). -/
def execLstat (d a : RF) (s : State) : Host.Outcome State Fault Refusal := tokenIssue (.lstat d a) d a s

namespace State

/-- LWAIT or LSTAT tests its token: it is an acquire when it answers 0 or 1 for a token (R161, R162). -/
def runToken (s : State) (o : Nat) (wait : Bool) : State :=
  let p := s.op o
  let v := s.tokenState (s.glch p.gid).ctx (p.ps.getD 0 0)
  if wait ∧ v = 2 then
    match (s.grp p.gid).phase with
    | .stopped => s.endOp o
    | _ => s.setOp o { p with stage := .seqWait }
  else if v < 2 ∧ fld (p.ps.getD 0 0) 31 1 = 1 then s.opAnswer o (w32 v)
  else (s.noAcquire o).opAnswer o (w32 v)

/-- The queue that a LAUNCH names takes records of device groups (R125, R160). DESIGN CHOICE: a queue whose sequence has been deleted takes none (log
entry 56). -/
def takesLaunch (s : State) (ctx w : Nat) : Bool :=
  decide (w < 1024) && (s.queue ctx w).st != .off && !(s.queue ctx w).host && s.seqValid ctx (s.queue ctx w).seq

/-- Phase 1 of LAUNCH ends and the group goes on (R160). -/
def launchGoes (s : State) (o : Nat) (qn pos : Nat) : State :=
  let p := s.op o
  let s := (s.seqLeave o).setOp o { p with stage := .parts 2, ps := p.ps.take 2 ++ [qn, pos] }
  let x := s.grp p.gid
  let s := match x.phase with
    | .held i k | .parked i k => if k = o then s.setGrp p.gid (x.after i) else s
    | _ => s
  if x.sched.sv.isSome then s.push (.waitEventWake p.gid) else s

/-- Phase 1 of LAUNCH reserves, fills and commits one position (R160). -/
def launchAppend (s : State) (o : Nat) (bytes : List Nat) : State :=
  let p := s.op o
  let ctx := (s.glch p.gid).ctx
  let qn := p.ps.getD 0 0
  let h := (s.queue ctx qn).seq
  if !s.takesLaunch ctx qn then s.opAnswer o 0x7FFFFFFF
  else
    match s.reserveAll ctx h [0] with
    | (_, .sealed) => s.opAnswer o 0x7FFFFFFF
    | (_, .empty f need) => if p.stage = .seqWait then s else s.trapOp o ⟨0x10, w32 f, w32 need, p.mask, []⟩
    | (_, .wait) => s.seqPark ctx h o
    | (t, .got ps) =>
      if s.behind ctx h o then s.seqPark ctx h o
      else
        let x := ps.headD ⟨0, 0, 0, 0, 0, []⟩
        let d := t.seqGet ctx h
        let t := (t.hstore ctx d.pool (d.slotAt x.brk x.slot) bytes).launchGoes o qn x.pos
        (t.commitAt ctx h x.pos 1).count 6 (seqDie h) 0 2

/-- Phase 1 of LAUNCH (R160): the record is read as a load by one lane once the group's earlier accesses are performed. -/
def runLaunch (s : State) (o : Nat) : State :=
  let p := s.op o
  let a := p.cap1.adr (p.ps.getD 1 0)
  let ps := pieces a 128
  match p.stage with
  | .parts 2 => s
  | _ =>
    if !s.mayPerform o then s.later (.sequenceAnswer o)
    else
      match s.engReads o (s.glch p.gid).ctx (some p.cap1.gen) ps with
      | (s, .wait) => s
      | (s, .fail i c) => s.trapOp o (portTrap c (ps.getD i (a, 0)).1 p.mask)
      | (s, .missing i) =>
        let a := (ps.getD i (a, 0)).1
        if s.replays p.gid then
          let s := s.setOp o { p with stage := .page (a / 2 ^ 40) (a % 2 ^ 40 / 65536) }
          let s := s.setGrp p.gid { s.grp p.gid with phase := .parked p.idx o }
          ((s.count 2 (s.gblk p.gid).core 0 1).reportPage p.gid a 0).stopWaiting p.gid
        else s.trapOp o (portTrap 0x0A a p.mask)
      | (s, .vals vs) => s.launchAppend o (pieceBytes ps vs)

end State

end Sys2Proof.Machine
end

