-- ==== Sys2Proof/Machine/Swap.lean ====
section
/-! DEFINITION. What becomes of the operations, walks, waits and monitors of a course that leaves its cores, and of the course when it
comes back (spec/05 R147 to R154, spec/06 R193, spec/10 R315, spec/11 R345, spec/12 R376; log entry 16). -/

namespace Sys2Proof.Machine

namespace State

/-- Groups of the blocks of a course. -/
def groupsIn (s : State) (c : Nat) : List Nat := (List.range s.groups.length).filter fun g => (s.gblk g).course == c

end State

/-! ## Fates at a swap (R151, R315, R345, R376) -/

/-- Discarded, abandoned or withdrawn at a swap, and issued or started again at resume. -/
def Op.restarts (p : Op) : Bool :=
  ((match p.instr with | .wgo _ => true | _ => false) ||
    !(p.accs.any fun a => a.blk.isNone && a.mt == 3 && (match a.st with | .sent | .done _ => true | _ => false))) &&
  match p.instr with
  | .cpygs _ _ _ | .cpysg _ _ _ | .cpysw _ _ | .cpygg _ _ _ _ | .cpyx _ _ _ => p.stage != .parts 3
  | .ld _ _ _ _ _ | .lda _ _ _ _ _ _ | .lds _ _ _ _ _ | .ldw _ _ _ _ | .monarm _ _ _ | .srd _ _ | .capld _ _ | .ldsb _ _ _ _ | .cbld _ _ _
  | .mgmatch _ _ | .mgmerge _ _ | .mgsplit _ | .mgbias _
  | .mgpop _ | .mgstat _ _ | .qpop _ _ | .lwait _ _ | .lstat _ _ => true
  | .launch _ _ _ => p.stage != .parts 2
  | .sqres _ _ | .sqapp _ _ _ | .sqtake _ _ => p.stage == .seqWait
  | .wgo _ => match p.stage with | .parts _ => true | _ => false
  | _ => false

/-- An operation that must be over before its course's image is complete (R153). -/
def Op.finishes (p : Op) : Bool :=
  !p.restarts &&
    (match p.instr with
      | .fence _ _ | .launch _ _ _ | .nop | .monclr _ => false
      | _ => true)

/-- A read that may last for ever: it does not hold back an image (R151, R376). -/
def Op.endless (p : Op) : Bool :=
  match p.instr with
  | .qpop _ _ | .lwait _ _ | .launch _ _ _ | .nop => true
  | _ => p.stage == .seqWait

/-- An older operation `q` of number `k` must be over before `p` can be: it blocks it, it is earlier than a fence or a TCINV, or it lies
before it in the matrix engine's queue (R103, R107, R207, R312). -/
def Op.leads (k : Nat) (q p : Op) : Bool :=
  q.blocks k p || ((p.instr.fenceAcq || p.instr.fenceRel || (match p.instr with | .tcinv _ => true | _ => false)) && q.instr.touches) || (q.instr.agent == some 2 && p.instr.agent == some 2)

/-- A matrix command that the bank switch waits for (R315). -/
def Op.holdsSwitch (p : Op) : Bool :=
  match p.instr, p.stage with
  | .accld _ _, .page _ _ | .accst _ _, .page _ _ | .accss _ _, .page _ _ => true
  | _, _ => false

/-- An operation as it stands in the image when it is to be started again: a load reads every lane anew, as one read (R116); a walker's reads are
made again at the same displacements (R345), but for those of device registers, which are made once (R118). -/
def Op.restart (p : Op) : Op :=
  let again := fun (a : Acc) =>
    match a.st, a.blk with
    | .failed t, _ => if t.cause = 0x06 ∨ t.cause = 0x05 ∨ t.cause = 0x07 then a else { a with st := .need }
    | _, some _ => { a with st := if p.instr.isLoad && (match p.instr with | .lds _ _ _ _ _ => true | _ => false) then .ready else .need }
    | _, none => { a with st := .need }
  { p with
    accs := if p.instr.isRead then p.accs.map again else match p.instr with | .wgo _ => p.accs.filter fun a => a.mt == 3 | _ => []
    vals := match p.instr with | .wgo _ => p.vals.filter fun e => decide (e.1 < 32) | _ => p.vals
    owns := []
    stage := match p.instr with
      | .ld _ _ _ _ _ | .lda _ _ _ _ _ _ | .lds _ _ _ _ _ | .ldw _ _ _ _ | .monarm _ _ _ | .capld _ _ | .launch _ _ _ | .sqres _ _
      | .sqapp _ _ _ | .sqtake _ _ | .qpop _ _ => .issued
      | .wgo _ => p.stage
      | _ => .cleared }

/-- The operation an event takes up. -/
def Event.ofOp (e : Event) : Option Nat :=
  match e with
  | .portCheck o _ | .farCheckReport o | .loadDataReturn o | .capldEntryReturn o | .copyComplete o | .matrixCommandComplete o
  | .mergeCommandComplete o | .walkerCommandComplete o | .sequenceAnswer o => some o
  | _ => none

/-- The group whose walker, wait or monitor an event takes up. -/
def Event.ofGroup (e : Event) : Option Nat :=
  match e with
  | .walkerReadReturn g _ | .probeTimeout g | .walkerEntryGenerate g | .residencyProbeAnswer g _ _ | .waitEventWake g
  | .monitorReread g _ => some g
  | _ => none

/-- Of a group's operations those that are over before its image is complete (R151, R153, R315): the ones that finish, and what must be over before
them. Nothing of them comes after an operation which may last for ever, or, but in the matrix engine's queue, after a parked one (`State.aheadFree`, R170). -/
def awaited (ps : List (Nat × Op)) (parked : Nat → Bool) : List (Nat × Op) :=
  ps.foldr
    (fun e l =>
      if (!parked e.1 || e.2.holdsSwitch) && (e.2.finishes || (!e.2.endless && l.any fun p => e.2.leads e.1 p.2)) then e :: l else l) []

namespace State

/-- Some operation of a course must still be over before its image is complete (R153). -/
def spillWaits (s : State) (c : Nat) : Bool :=
  (s.groupsIn c).any fun g => (awaited (s.opsOf g) s.parkedOn) != []

/-- An operation of an outgoing group is discarded or withdrawn, to be issued again at resume (R151): one that nothing waits for. -/
def swapsOut (s : State) (o : Nat) : Bool :=
  let p := s.op o
  p.restarts && !s.parkedOn o && !(awaited (s.opsOf p.gid) s.parkedOn).any fun e => e.1 == o

/-! ## Context images (R154) -/

/-- Bytes of a course's image: its header and the pool shares of its blocks. -/
def imageSize (s : State) (c : Nat) : Nat := 64 + (s.crs c).blocks.length * (s.lch (s.crs c).launch).pool

/-- Context of a course. -/
def courseCtx (s : State) (c : Nat) : Nat := (s.lch (s.crs c).launch).ctx

/-- Images in a context's save object: offset and size. -/
def images (s : State) (ctx : Nat) : List (Nat × Nat) :=
  (List.range s.courses.length).filterMap fun c => if s.courseCtx c = ctx then (s.crs c).image.map fun a => (a, s.imageSize c) else none

/-- The lowest place for a course's image in the save object, none when it does not fit (R466; log entry 17). -/
def imageAt (s : State) (c : Nat) : Option Nat :=
  let ctx := s.courseCtx c
  let n := s.imageSize c
  let used := s.images ctx
  (0 :: used.map fun e => e.1 + e.2).find? fun a =>
    decide (a + n ≤ oSize (s.objRaw ctx (s.ctx ctx).saveObj)) && !used.any fun e => decide (a < e.1 + e.2) && decide (e.1 < a + n)

/-- The header of a course's image, with its flags (R154). -/
def imageHeader (s : State) (c flags : Nat) : State :=
  let x := s.crs c
  let l := s.lch x.launch
  match x.image with
  | none => s
  | some a =>
    s.hstore l.ctx (s.ctx l.ctx).saveObj a
      (toBytes 2 1 ++ toBytes 2 flags ++ toBytes 4 l.ctx ++ toBytes 8 (l.qn % 1024 + 1024 * (l.pos % 2 ^ 40)) ++ toBytes 4 x.num ++
        toBytes 4 (s.imageSize c - 64) ++ toBytes 40 0)

/-! ## Out of the cores (R149 to R152) -/

/-- Probes of the present choice are forgotten: choices still to come are made afresh (R345). -/
def Walk.forget (w : Walk) : Walk := { w with ranks := [], probed := false }

/-- The lane instructions that a group has issued complete before it is saved (R243). -/
def endLanes (s : State) (g : Nat) : State :=
  let hit := fun (e : Event) => match e with | .fixedLatencyComplete k _ => k == g | _ => false
  let s := (s.agenda.filter hit).foldl
    (fun s e => match e with | .fixedLatencyComplete k tok => s.setGrp k ((s.grp k).clearPend tok) | _ => s) s
  { s with agenda := s.agenda.filter fun e => !hit e }

/-- What a group's fetch and its monitors' reads hold is dropped: they are made afresh. -/
def dropReads (s : State) (g : Nat) : State :=
  ((s.opsOf g).filter fun e => match e.2.instr with | .nop | .monclr _ => true | _ => false).foldl (fun s e => s.delOp e.1) s

/-- Reads that a WSTOP has discarded end with the swap, and so does a WSTOP that waited for them (R342, R345). -/
def dropDiscarded (s : State) (g : Nat) : State :=
  let w := (s.grp g).walk
  let gone := (s.walkOps g).filter fun e => match e.2.stage with
    | .parts id => !w.queues.any fun q => q.2.any fun x => x.id == id
    | _ => false
  let s := gone.foldl (fun s e => s.delOp e.1) s
  (s.opsOf g).foldl (fun s e => match e.2.instr, e.2.stage with | .wstop, .parts _ => s.completeOp e.1 | _, _ => s) s

/-- A group leaves its partition: what its fetch and its monitors' reads hold is dropped, and a swap it takes part in is undone. -/
def leavePartition (s : State) (g : Nat) : State :=
  let s := (s.dropReads g).dropDiscarded g
  let hit := fun (e : Event) => match e with | .swapDone i o => i == g || o == some g | _ => false
  let s := (s.agenda.filter hit).foldl
    (fun s e =>
      match e with
      | .swapDone i o =>
        (i :: o.toList).foldl (fun s k => s.setGrp k { s.grp k with sched := { (s.grp k).sched with swapping := false } }) s
      | _ => s)
    s
  let s := s.endLanes g
  let x := s.grp g
  let w := { x.walk with walks := match x.walk.walks with | y :: t => Walk.forget y :: t | [] => [] }
  let s := s.setGrp g { x with sched := { x.sched with active := false, swapping := false, leaving := false, waited := 0, aged := false }, walk := w }
  { s with agenda := s.agenda.filter fun e => !hit e && e.ofGroup != some g }

/-- One operation of a course that leaves its cores (R151). -/
def swapOp (s : State) (o : Nat) : State :=
  let p := s.op o
  if !s.swapsOut o then s
  else
    let s : State := { s with agenda := s.agenda.filter fun e => e.ofOp != some o }
    let s := (s.seqLeave o).unqueue o p.queueEvent
    s.setOp o p.restart

/-- The product tables of a course's partitions are built again at first use (R315). -/
def dropTables (s : State) (c : Nat) : State :=
  (s.groupsIn c).foldl (fun s g => let k := (s.gblk g).core; s.setCore k { s.core k with ptab := tdel (s.core k).ptab (s.grp g).part }) s

/-- The body of a course's image takes form in its save object, in a form private to the device: each of its words is a free value (R154, log
entry 16). -/
def imageBody (s : State) (c : Nat) : State :=
  let x := s.crs c
  let l := s.lch x.launch
  match x.image with
  | none => s
  | some a =>
    let n := (s.imageSize c - 64) / 4
    let f := s.free
    let s := (List.range n).foldl
      (fun s i => s.hstore l.ctx (s.ctx l.ctx).saveObj (a + 64 + 4 * i) (toBytes 4 (Config.freeWord (f + i)).toNat)) s
    { s with free := f + n }

/-- Operations of a course that nothing waits for are discarded or withdrawn (R151, R376). -/
def withdrawOps (s : State) (c : Nat) : State :=
  let gs := s.groupsIn c
  ((s.ops.filter fun e => gs.contains e.2.gid).filter fun e => s.swapsOut e.1).foldl (fun s e => s.swapOp e.1) s

/-- A matrix command of a course waits for a page's replay, and holds the switch (R315). -/
def holdsSwitch (s : State) (c : Nat) : Bool := s.ops.any fun e => (s.gblk e.2.gid).course == c && e.2.holdsSwitch

/-- A course's slice is stretched: counted once (R150, R315, R466). -/
def stretch (s : State) (c : Nat) : State :=
  if (s.crs c).stretched then s else (s.setCrs c { s.crs c with stretched := true }).count 0 0 2 1

/-- A course leaves its cores: its image begins (R149, R151). -/
def swapOut (s : State) (c : Nat) : State :=
  match s.imageAt c with
  | none => s
  | some a =>
    let gs := s.groupsIn c
    let s := gs.foldl leavePartition s
    let s := (s.withdrawOps c).dropTables c
    let s := s.setCrs c { s.crs c with st := .spilling, image := some a, complete := false, stretched := false }
    ((s.imageHeader c 0).imageBody c).push (.spillComplete c)

end State

/-- SPILL_COMPLETE (R153): the image is complete when every operation it waits for is over; a matrix command that waits for a page stretches the slice
(R315), and an operation that has come to wait at its instance since the swap began is withdrawn (R376). -/
def execSpillComplete (course : Nat) (s : State) : Host.Outcome State Fault Refusal :=
  if (s.crs course).st ≠ .spilling then .next s
  else if s.spillWaits course then .next ((if s.holdsSwitch course then s.stretch course else s).later (.spillComplete course))
  else
    let s := s.withdrawOps course
    let s := s.setCrs course { s.crs course with st := .saved, complete := true, waitSince := some s.tick }
    .next (s.imageHeader course 1)

/-! ## Back on the cores (R193, R294) -/

namespace State

/-- A command joins the queue of its core's engine again. -/
def requeue (s : State) (o : Nat) : State :=
  let p := s.op o
  let core := (s.gblk p.gid).core
  let c := s.core core
  let copy := fun (q : Nat) =>
    let l := tget [] c.cq q
    let s := s.setCore core { c with cq := tset [] c.cq q (l ++ [o]) }
    if l = [] then s.push (.copyComplete o) else s
  match p.instr with
  | .cpygs q _ _ | .cpysg q _ _ | .cpysw q _ | .cpygg q _ _ _ | .cpyx q _ _ => copy q.val
  | .mgmatch _ _ | .mgmerge _ _ | .mgsplit _ | .mgbias _ | .mgpop _ | .mgstat _ _ =>
    let s := s.setCore core { c with mq := c.mq ++ [o] }
    if c.mq = [] then s.push (.mergeCommandComplete o) else s
  | _ =>
    let l := tget [] c.matq p.gid
    let s := s.setCore core { c with matq := tset [] c.matq p.gid (l ++ [o]) }
    if l = [] then s.push (.matrixCommandComplete o) else s

/-- A parked operation's replay, recorded while its course was out of its cores, issues on the core it now has (R233, R240). -/
def countReplay (s : State) (o : Nat) : State :=
  let p := s.op o
  let due := if p.instr.isAccess then p.accs.any fun a => a.st != .page else match p.stage with | .page _ _ => false | _ => true
  if s.parkedOn o && due then s.count 2 (s.gblk p.gid).core 1 1 else s

/-- An access goes on from the core its group now runs on (R193, R229, R233); a replay that was under way begins again there. -/
def reaccess (s : State) (o : Nat) : State :=
  let p := s.op o
  if s.parkedOn o then
    let as := p.accs.map fun a => match a.st with | .clear | .ready | .zero => { a with st := AccSt.need } | _ => a
    (needLines as).foldl (fun s l => s.push (.portCheck o l)) (s.setOp o { p with accs := as })
  else
    let core := (s.gblk p.gid).core
    let fresh := fun (a : Acc) =>
      match a.st with
      | .clear | .ready | .zero =>
        if a.blk = none ∧ a.mt = 0 then { a with st := .need } else if s.readsMarked p.instr a then { a with st := .need } else a
      | _ => a
    let as := p.accs.map fun a => s.hitL1 core (s.glch p.gid).ctx p.instr (fresh a)
    let clear := as.all fun a => a.st != .need
    let s := s.setOp o { p with accs := as, stage := if clear then .cleared else .issued }
    if clear then (if p.instr.isLoad then s.push (.loadDataReturn o) else s) else s.sendChecks o as

/-- One operation of a resumed course goes on or starts again. -/
def rekick (s : State) (o : Nat) : State :=
  let p := s.op o
  if p.instr.isAccess then s.reaccess o
  else
    match p.instr, p.stage with
    | .srd _ _, _ => s.push (.loadDataReturn o)
    | .capld _ _, _ => s.push (.capldEntryReturn o)
    | .launch _ _ _, .parts 2 => s
    | .launch _ _ _, _ => if s.parkedOn o then s else s.push (.sequenceAnswer o)
    | .lwait _ _, _ | .lstat _ _, _ | .sqres _ _, _ | .sqapp _ _ _, _ | .sqtake _ _, _ => s.push (.sequenceAnswer o)
    | .qpop _ _, _ => s.push (.walkerCommandComplete o)
    | .wgo _, .parts id => s.push (.walkerReadReturn p.gid id)
    | .cpygs _ _ _, _ | .cpysg _ _ _, _ | .cpysw _ _, _ | .cpygg _ _ _ _, _ | .cpyx _ _ _, _ | .mgmatch _ _, _ | .mgmerge _ _, _
    | .mgsplit _, _ | .mgbias _, _ | .mgpop _, _ | .mgstat _ _, _ | .mma _ _ _ _ _ _, _ | .accz _, _ | .accld _ _, _ | .accst _ _, _
    | .accss _ _, _ | .accxa _ _ _, _ | .accxr _ _ _, _ | .acccp _, _ | .cbld _ _ _, _ | .ldsb _ _ _ _, _ => s.requeue o
    | _, _ => s

/-- The engines of every core forget the commands of some groups. -/
def purgeQueues (s : State) (gs : List Nat) : State :=
  let mine := fun (o : Nat) => gs.contains (s.op o).gid
  let cut := fun (m : SMap (List Nat)) => (m.map fun e => (e.1, e.2.filter fun o => !mine o)).filter fun e => e.2 != []
  s.cores.foldl
    (fun (s : State) (e : Nat × Core) =>
      let c := s.core e.1
      s.setCore e.1 { c with cq := cut c.cq, matq := cut c.matq, mq := c.mq.filter fun o => !mine o })
    s

/-- A group becomes resident in its partition (R172): it takes its age, and a place of the active set if one is free. -/
def enterPartition (s : State) (g : Nat) : State :=
  let x := s.grp g
  match x.phase with
  | .exited | .stopped => s
  | _ =>
    let active := decide (s.placesTaken g < 8)
    let s := s.setGrp g { x with sched := ⟨s.le.nextAge, active, s.turn, 0, false, false, false, none, 0⟩ }
    { s with le := { s.le with nextAge := s.le.nextAge + 1 } }

/-- A course runs: its slice begins (R148). -/
def startCourse (s : State) (c : Nat) : State :=
  let s := s.setCrs c { s.crs c with st := .running, sliceStart := s.tick, outs := [], stretched := false, waitSince := none, yieldTo := none }
  (s.groupsIn c).foldl enterPartition s

/-- The waits, walks and monitors of a resumed group go on: each wait is tested again, each armed monitor reads its word afresh
(R178, R294, R345). -/
def resumeGroup (s : State) (g : Nat) : State :=
  let s := (s.push (.waitEventWake g)).push (.walkerEntryGenerate g)
  (s.grp g).mons.foldl (fun s e => match e.2 with | .armed _ _ _ _ => s.push (.monitorReread g e.1) | _ => s) s

/-- A saved course runs again (R153, R193). -/
def resumeCourse (s : State) (c : Nat) : State :=
  let gs := s.groupsIn c
  let s := s.setCrs c { s.crs c with image := none, complete := false }
  let s := s.startCourse c
  let s := (s.ops.filter fun e => gs.contains e.2.gid).foldl (fun s e => (s.countReplay e.1).rekick e.1) s
  (gs.foldl resumeGroup s).settle 2

/-- A course that is ready comes in: a new one starts, a saved one resumes. -/
def bringIn (s : State) (c : Nat) : State := if (s.crs c).image.isSome then s.resumeCourse c else s.startCourse c

/-- Blocks that hold pool space of a core. -/
def onCore (s : State) (core : Nat) : List Block :=
  s.blocks.filter fun b =>
    b.core == core && (b.st == .allocating || b.st == .live || b.st == .retired) && (s.crs b.course).st != .saved

/-- A course would be the third on one of its cores: others run there, and the shadow bank holds a course, none of those it displaces itself, that is not
spilled (R150). -/
def third (s : State) (c : Nat) : Bool :=
  (s.crs c).blocks.any fun b =>
    let ys := (s.onCore (s.blk b).core).filter fun y => y.course != c && !(s.crs c).outs.contains y.course
    (ys.any fun y => (s.crs y.course).st == .spilling) && (s.onCore (s.blk b).core).any fun y => y.course != c && (s.crs y.course).st == .running

/-- A course is ready in its banks: it runs at once, or its cores switch banks, or it waits for the shadow bank (R149, R150). -/
def courseReady (s : State) (c : Nat) : State :=
  if (s.crs c).outs = [] ∧ !s.third c then s.bringIn c
  else (s.setCrs c { s.crs c with st := .switching }).push (.bankSwitchComplete c)

end State

/-- A scratchpad word of a course's block, by rank and offset, is restored marked, and logged for the context (R396, R469). -/
def State.markWord (s : State) (course rank off : Nat) : State :=
  match (s.crs course).blocks[rank]? with
  | none => s
  | some b =>
    let x := s.blk b
    let w := off / 4 * 4
    if x.marked.contains w ∨ (s.lch x.launch).scr < w + 4 then s
    else (s.setBlk b { x with marked := x.marked ++ [w] }).logErr 2 (dieOf x.core) 1 5 0 (s.courseCtx course) none w

/-- IMAGE_FILL_COMPLETE (R149, R238, R396): it comes after the reclaims its blocks needed; `bad` are the scratchpad words whose saved copies hold an uncorrectable error. -/
def execImageFillComplete (course : Nat) (bad : List (Nat × Nat)) (s : State) : Host.Outcome State Fault Refusal :=
  let kept := (s.crs course).blocks.any fun b => (s.core (s.blk b).core).reclaim.contains b
  if (s.crs course).st = .filling ∧ kept then .next (s.later (.imageFillComplete course bad))
  else if (s.crs course).st = .filling then .next ((bad.foldl (fun s w => s.markWord course w.1 w.2) s).courseReady course) else .next s

/-- Courses whose matrix commands still have to complete before the bank switch takes effect (R315). -/
def State.matrixBusy (s : State) (c : Nat) : Bool :=
  s.ops.any fun e => (s.gblk e.2.gid).course == c && e.2.instr.agent == some 2 && (tget [] (s.core (s.gblk e.2.gid).core).matq e.2.gid).contains e.1

/-- BANK_SWITCH_COMPLETE (R149, R150, R315): the outgoing courses lie in the shadow bank and the incoming one runs, once the matrix commands in flight
have completed. A matrix command that waits for a page's replay holds the switch. -/
def execBankSwitchComplete (course : Nat) (s : State) : Host.Outcome State Fault Refusal :=
  if (s.crs course).st ≠ .switching then .next s
  else
    let outs := (s.crs course).outs.filter fun c => (s.crs c).st == .running
    let late := outs.filter fun c => (s.imageAt c).isNone || s.holdsSwitch c || s.third course
    if s.third course ∨ late ≠ [] then .next ((late.foldl State.stretch s).later (.bankSwitchComplete course))
    else if outs.any fun c => ((outs.takeWhile (· != c)).foldl State.swapOut s).imageAt c == none then .next (s.later (.bankSwitchComplete course))
    else
      let s := outs.foldl State.swapOut s
      if (s.crs course).outs.any s.matrixBusy then
        .next ((((s.crs course).outs.filter s.holdsSwitch).foldl State.stretch s).later (.bankSwitchComplete course))
      else .next ((if (s.crs course).outs = [] then s else s.count 0 0 0 1).bringIn course)

end Sys2Proof.Machine
end

