-- ==== Sys2Proof/Machine/Place.lean ====
section
/-! DEFINITION. Slots of the launch engine, the placement of courses, pre-emption, the start and the retirement of blocks, and the failure
of a die (spec/05 R134 to R155, R159, R476, spec/09 R293; log entry 17). -/

namespace Sys2Proof.Machine

/-! ## Time (R35) -/

/-- So many package ticks of 128 cycles at 1.75 GHz last at least so many microseconds. -/
def lasts (ticks us : Nat) : Bool := decide (1750 * us ≤ 128 * ticks)

/-- A list in ascending order of a key, equal keys as they stood. -/
def sortOn {α : Type} (k : α → Nat) : List α → List α
  | [] => []
  | x :: t => ins (sortOn k t) x
where
  ins (l : List α) (x : α) : List α :=
    match l with
    | [] => [x]
    | y :: u => if k x ≤ k y then x :: y :: u else y :: ins u x

namespace State

/-- Quantum of a class in microseconds: 20 at reset (R136). -/
def quantum (s : State) (c : Nat) : Nat := tget 20 s.le.quanta c

/-! ## Slots (R134 to R137) -/

/-- Queue `k` of the table, keyed 1024 × context + number, becomes `q`. -/
def putQueue (s : State) (k : Nat) (q : Queue) : State := { s with le := { s.le with queues := tset .empty s.le.queues k q } }

end State

/-- A queue holds a slot, or one is on its way to it. -/
def Queue.holds (q : Queue) : Bool := q.st == .mw || q.st == .me || q.moving

/-- A queue waits for a slot. -/
def Queue.waits (q : Queue) : Bool := q.st == .iw && !q.moving

namespace State

/-- Slots of class k (R135). -/
def slotsOf (s : State) (k : Nat) : Nat := (s.le.queues.filter fun e => e.2.holds && e.2.cls == k).length

/-- The reserve of R135 holds when class c gains a slot and, where there is one, class `lose` gives it up. -/
def reserveHolds (s : State) (c : Nat) (lose : Option Nat) : Bool :=
  decide ((List.range 4).foldl
    (fun n k => n + Nat.max (s.slotsOf k + (if k = c then 1 else 0) - (if lose = some k then 1 else 0)) 16) 0 ≤ 256)

/-- Of some queues the one of longest tenure (R135). -/
def longest (es : List (Nat × Queue)) : Option (Nat × Queue) :=
  es.foldl (fun b e => match b with | none => some e | some x => if e.2.tenure < x.2.tenure then some e else some x) none

/-- The slot that a queue of class c takes: a free one, or the queue that gives its own up; none when there is none for it (R135). -/
def slotFor (s : State) (c : Nat) : Option (Option (Nat × Queue)) :=
  if ((List.range 4).foldl (fun n k => n + s.slotsOf k) 0) < 256 ∧ s.reserveHolds c none then some none
  else
    match longest (s.le.queues.filter fun e => e.2.st == .me && s.reserveHolds c (some e.2.cls)) with
    | some e => some (some e)
    | none =>
      match (List.range c).find? fun k => decide (16 < s.slotsOf k) && s.reserveHolds c (some k) with
      | some k => (longest (s.le.queues.filter fun e => e.2.st == .mw && e.2.cls == k)).map some
      | none => none

/-- A slot is granted to a waiting queue: it moves within the time of R135. -/
def grantSlot (s : State) (k : Nat) : State :=
  let q := tget .empty s.le.queues k
  match s.slotFor q.cls with
  | none => s
  | some v =>
    let s := match v with
      | none => s
      | some (j, x) => if x.st = QState.me then s.putQueue j { x with st := .ie } else s.putQueue j { x with st := .iw, since := s.tick, bound := false, mostW := 0, leastS := 0 }
    (s.putQueue k { q with moving := true }).push (.slotMoveComplete (k / 1024) (k % 1024))

/-- Slots are granted: classes from 3 down, longest wait first, then context and queue number (R135). -/
def grants (s : State) : State :=
  let ws := s.le.queues.filter fun e => e.2.waits
  ((List.range 4).reverse.flatMap fun c => sortOn (fun e => e.2.since) (ws.filter fun e => e.2.cls == c)).foldl
    (fun s e => s.grantSlot e.1) s

/-- A class-c queue waits that could not be served. -/
def unserved (s : State) (c : Nat) : Bool := s.le.queues.any fun e => e.2.waits && e.2.cls == c

/-- A mapped queue's tenure has reached its class's quantum while another waits (R136). -/
def rotates (s : State) (q : Queue) : Bool := q.st == .mw && lasts (s.tick - q.tenure) (s.quantum q.cls) && s.unserved q.cls

/-- Queues of class c in IW or MW (R137). -/
def wanting (s : State) (c : Nat) : Nat := (s.le.queues.filter fun e => (e.2.st == .iw || e.2.st == .mw) && e.2.cls == c).length

/-- W_c and S_c of a queue's present wait, with what is there now (R137). -/
def waitBounds (s : State) (q : Queue) : Nat × Nat :=
  let w := s.wanting q.cls
  let n := s.slotsOf q.cls
  if q.mostW = 0 then (w, n) else (Nat.max w q.mostW, Nat.min n q.leastS)

/-- A queue has waited past the bound of R137. -/
def pastBound (s : State) (q : Queue) : Bool :=
  let (w, m) := s.waitBounds q
  let n := Nat.max 1 (Nat.max m (Nat.min w 16))
  q.waits && !q.bound && decide (1750 * ((w + n - 1) / n * s.quantum q.cls + 4) < 128 * (s.tick - q.since))

/-- What a waiting queue sees of its class is kept for its bound (R137). -/
def watchWaits (s : State) : State :=
  s.le.queues.foldl
    (fun t e => if e.2.waits then (let (w, n) := s.waitBounds e.2; t.putQueue e.1 { e.2 with mostW := w, leastS := n }) else t) s

/-- What a tick does for the queues: grants, rotations, bounds and acceptance (R130, R135 to R137). -/
def tickQueues (s : State) : State :=
  let s := s.watchWaits.grants
  s.le.queues.foldl
    (fun s e =>
      let ctx := e.1 / 1024
      let qn := e.1 % 1024
      let s := if s.rotates e.2 then s.pushNew (.rotation ctx qn) else s
      let s := if s.pastBound e.2 then s.pushNew (.mappingBoundExceeded ctx qn) else s
      if e.2.st = .mw ∧ s.hasWork ctx e.2 then s.pushNew (.recordAccept ctx qn) else s)
    s

end State

/-- SLOT_MOVE_COMPLETE (R134, R135): the queue is mapped and its tenure starts. -/
def execSlotMoveComplete (ctx qn : Nat) (s : State) : Host.Outcome State Fault Refusal :=
  let q := s.queue ctx qn
  if !q.moving then .next s
  else if s.hasWork ctx q then
    .next ((s.setQueue ctx qn { q with st := .mw, moving := false, bound := false, mostW := 0, leastS := 0, tenure := s.tick }).push (.recordAccept ctx qn))
  else .next (s.setQueue ctx qn { q with st := .me, moving := false, bound := false, mostW := 0, leastS := 0, tenure := s.tick })

/-- ROTATION (R136): the queue waits anew, and its slot passes at once. -/
def execRotation (ctx qn : Nat) (s : State) : Host.Outcome State Fault Refusal :=
  let q := s.queue ctx qn
  if s.rotates q then .next (s.setQueue ctx qn { q with st := .iw, since := s.tick, bound := false, mostW := 0, leastS := 0 }).grants else .next s

/-- MAPPING_BOUND_EXCEEDED (R137, R469). -/
def execMappingBoundExceeded (ctx qn : Nat) (s : State) : Host.Outcome State Fault Refusal :=
  let q := s.queue ctx qn
  if s.pastBound q then .next ((s.setQueue ctx qn { q with bound := true }).logErr 6 0 3 1 0 ctx none qn) else .next s

/-! ## Room on a core (R138, R139, R150) -/

namespace State

/-- Register, scratchpad and accumulator bytes that a block holds. -/
def shareOf (s : State) (b : Block) : Nat × Nat × Nat :=
  if b.st = .retired then (0, (s.lch b.launch).scr, 0) else (s.lch b.launch).lr.shares

/-- The shares of some blocks together. -/
def sharesOf (s : State) (bs : List Block) : Nat × Nat × Nat :=
  bs.foldl (fun n b => let x := s.shareOf b; (n.1 + x.1, n.2.1 + x.2.1, n.2.2 + x.2.2)) (0, 0, 0)

end State

/-- Three shares together. -/
def total (x : Nat × Nat × Nat) : Nat := x.1 + x.2.1 + x.2.2

namespace State

/-- The bank that pre-emptible work on a core now runs in, or would run in (R149; log entry 17). -/
def bankOf (s : State) (core : Nat) : Bool :=
  let bs := (s.onCore core).filter fun b => (s.lch b.launch).lr.banked
  match bs.find? fun b => (s.crs b.course).st != .spilling with
  | some b => b.upper
  | none => match bs.head? with | some b => !b.upper | none => false

/-- Launches whose accesses are still draining under a tag on a core (R115). -/
def drains (s : State) (core tag : Nat) : Bool :=
  s.blocks.any fun b => b.core == core && (s.lch b.launch).st == .draining && (s.lch b.launch).tag == tag

/-- Room on a core for one more block of launch `l` with `mons` armed monitors, when the courses `outs` are to leave it: the bank, none
when there is no room (R139, R150, R294). `gone` says that they will have left before it comes; else the bank switch moves all the pre-emptible work
of the core, and every course of it is to leave (R149). -/
def roomOn (s : State) (core : Nat) (l : Launch) (outs : List Nat) (gone : Bool) (mons : Nat) : Option Bool :=
  let all := (s.onCore core).filter fun b => !(gone && outs.contains b.course)
  let bs := all.filter fun b => (s.crs b.course).st != .spilling && !outs.contains b.course
  let spills := all.any fun b => (s.crs b.course).st == .spilling
  let bank := if outs ≠ [] ∧ !gone ∧ all.any (fun b => outs.contains b.course && (s.lch b.launch).lr.banked) then !s.bankOf core else s.bankOf core
  let (r, a, c) := s.sharesOf bs
  let (r', a', c') := l.lr.shares
  let inBank := all.filter fun b => (s.lch b.launch).lr.banked && b.upper == bank
  let groups := bs.foldl (fun n b => if b.st = .retired then n else n + (s.lch b.launch).lr.gpb) 0
  if spills ∧ all.any (fun b => (s.crs b.course).st != .spilling) then none
  else if outs ≠ [] ∧ !gone ∧ bs.any (fun b => (s.lch b.launch).lr.banked) then none
  else if r + r' ≤ half ∧ a + a' ≤ half ∧ c + c' ≤ half ∧ total (s.sharesOf all) + total l.lr.shares ≤ 2 * half ∧
      groups + l.lr.gpb ≤ 64 ∧ s.monsOn core + mons ≤ 64 ∧ (!l.lr.banked ∨ total (s.sharesOf inBank) + total l.lr.shares ≤ half) then some bank
  else none

/-! ## Where a course goes (R142, R143, R476) -/

/-- Cores of a cluster of a die (R9). -/
def clusterCores (die cl : Nat) : List Nat := (List.range 8).map fun k => 56 * die + 8 * cl + k

/-- Pairs of dies that share a seam, the lower first (R8). -/
def seams : List (Nat × Nat) :=
  (List.range 8).flatMap fun d => (if d % 4 < 3 then [(d, d + 1)] else []) ++ (if d < 4 then [(d, d + 4)] else [])

/-- Dies in service (R159). -/
def liveDies (s : State) : List Nat := (List.range 8).filter fun d => !s.le.deadDies.contains d

/-- What a course asks of its cores: its launch, its tag and the armed monitors of the block that has most (R294). -/
structure Want where
  launch : Nat
  saved : Option Nat
  tag : Nat
  mons : Nat
  deriving DecidableEq, Repr

/-- A course, by launch and number, still waits for cores. -/
def awaits (s : State) (k : Nat × Nat) : Bool :=
  let l := s.lch k.1
  l.st != .complete &&
    ((l.nextCourse == k.2 && l.status == 0 && decide (k.2 < l.lr.ncourse)) ||
      s.courses.any fun x => x.launch == k.1 && x.num == k.2 && x.st == .saved && x.complete)

/-- The course, by launch and number, that a candidate places. -/
def courseNo (s : State) (k : Nat) (saved : Option Nat) : Nat × Nat := (k, match saved with | some c => (s.crs c).num | none => (s.lch k).nextCourse)

/-- A core that a course left on the slow path for another candidate is kept for it, against candidates of no higher class (R152). -/
def keptFrom (s : State) (w : Want) (core : Nat) : Bool :=
  s.courses.any fun x =>
    (x.st == .spilling || x.st == .saved) && x.blocks.any (fun b => (s.blk b).core == core) &&
      (match x.yieldTo with
        | some k => k != s.courseNo w.launch w.saved && s.awaits k && decide ((s.lch w.launch).lr.cls ≤ (s.lch k.1).lr.cls)
        | none => false)

/-- The first `n` cores of a cluster with room, each with its bank. -/
def pick (s : State) (w : Want) (die cl n : Nat) (outs : Nat → List Nat) (gone : Bool) : Option (List (Nat × Bool)) :=
  let l := s.lch w.launch
  let cs := ((clusterCores die cl).filterMap fun c =>
    if s.drains c w.tag || s.keptFrom w c then none else (s.roomOn c l (outs c) gone w.mons).map fun b => (c, b)).take n
  if cs.length = n then some cs else none

/-- Cores for a course in one cluster: the lowest die and cluster with room. -/
def inCluster (s : State) (w : Want) (outs : Nat → List Nat) (gone : Bool) : Option (List (Nat × Bool)) :=
  let n := (s.lch w.launch).lr.bpc
  s.liveDies.findSome? fun d => (List.range 7).findSome? fun cl => s.pick w d cl n outs gone

/-- Cores for a course on a seam pair (R142). -/
def onSeam (s : State) (w : Want) : Option (List (Nat × Bool)) :=
  let l := s.lch w.launch
  if !l.flag 4 ∨ l.lr.bpc < 5 then none
  else
    (seams.filter fun e => s.liveDies.contains e.1 && s.liveDies.contains e.2).findSome? fun e =>
      match (List.range 7).findSome? fun cl => s.pick w e.1 cl 4 (fun _ => []) false,
        (List.range 7).findSome? fun cl => s.pick w e.2 cl (l.lr.bpc - 4) (fun _ => []) false with
      | some a, some b => some (a ++ b)
      | _, _ => none

/-- Tags a course may take (R115): that of its launch once a course of it is placed. -/
def tagsFor (s : State) (k : Nat) : List Nat := if (s.lch k).st = .accepted then [0, 1] else [(s.lch k).tag]

/-- What candidate `e` asks under a tag. -/
def want (s : State) (e : Nat × Option Nat) (tag : Nat) : Want :=
  let mons := match e.2 with
    | some c =>
      (s.crs c).blocks.foldl
        (fun n b => Nat.max n ((s.groupsIn c).foldl (fun k g => if (s.grp g).blk = b then k + (s.grp g).mons.length else k) 0)) 0
    | none => 0
  ⟨e.1, e.2, tag, mons⟩

/-- Cores for a candidate: a cluster under either tag, else a seam pair. -/
def spotFor (s : State) (e : Nat × Option Nat) : Option (Nat × Bool × List (Nat × Bool)) :=
  match (s.tagsFor e.1).findSome? fun t => (s.inCluster (s.want e t) (fun _ => []) false).map fun l => (t, false, l) with
  | some x => some x
  | none => (s.tagsFor e.1).findSome? fun t => (s.onSeam (s.want e t)).map fun l => (t, true, l)

/-- A launch's tokens are satisfied, SER does not hold it, and it is the first of its queue not yet placed (R133). -/
def mayStart (s : State) (k : Nat) : Bool :=
  let l := s.lch k
  (s.queue l.ctx l.qn).waiting.head? == some k && l.lr.tok.all (fun t => s.tokenState l.ctx t != 2) &&
    (!l.flag 6 || (match l.prev with | some p => (s.lch p).st == .complete | none => true))

/-- The courses a launch offers: its saved ones, then its next (R133, R153, R476). -/
def offers (s : State) (k : Nat) : List (Nat × Option Nat) :=
  let l := s.lch k
  ((List.range s.courses.length).filter fun c => (s.crs c).launch == k && (s.crs c).st == .saved && (s.crs c).complete).map (fun c => (k, some c)) ++
    (if l.status = 0 ∧ l.nextCourse < l.lr.ncourse ∧ (l.st = .running ∨ (l.st = .accepted ∧ s.mayStart k)) then [(k, none)] else [])

/-- Candidates in the order of R476: higher CLASS first, then order of acceptance. -/
def candidates (s : State) : List (Nat × Option Nat) :=
  let ks := List.range s.launches.length
  (List.range 4).reverse.flatMap fun c => (ks.filter fun k => (s.lch k).lr.cls == c && (s.lch k).st != .complete).flatMap s.offers

/-! ## Placing (R140, R142, R149, R237, R238) -/

/-- A block claims its share of its core's pool: L1 first gives up what is lent of it, and fills those ways no more (R238); a core that nothing has used lends all. -/
def claimPool (s : State) (b : Nat) : State :=
  let core := (s.blk b).core
  let c := if (tfind s.cores core).isNone then { Core.empty with lent := 256 } else s.core core
  if s.lendable core < c.lent then
    let s := s.setCore core { c with lent := s.lendable core, reclaim := c.reclaim ++ [b] }
    if c.reclaim = [] then s.push (.reclaimComplete core) else s
  else (s.setCore core c).push (.poolAllocationComplete b)

/-- A launch's next course is placed (R142, R143). -/
def placeNew (s : State) (k tag : Nat) (seam : Bool) (at_ : List (Nat × Bool)) (outs : List Nat) : State :=
  let l := s.lch k
  let c := s.courses.length
  let b0 := s.blocks.length
  let bs := at_.zipIdx.map fun e =>
    { Block.empty with launch := k, course := c, rank := e.2, core := e.1.1, upper := e.1.2, st := .allocating }
  let x : Course := { Course.empty with
    launch := k, num := l.nextCourse, blocks := (List.range bs.length).map (b0 + ·), seam := seam, st := .placed, outs := outs }
  let s : State := { s with blocks := s.blocks ++ bs, courses := s.courses ++ [x] }
  let s := s.setLch k { l with nextCourse := l.nextCourse + 1, st := .running, tag := tag, since := none }
  let q := s.queue l.ctx l.qn
  let s := s.setQueue l.ctx l.qn { q with waiting := q.waiting.filter (· != k) }
  x.blocks.foldl claimPool s

/-- Groups of a partition of a core that its present blocks hold. -/
def inPartition (s : State) (core p : Nat) (outs : List Nat) : Nat :=
  (List.range s.groups.length).countP fun g =>
    let b := s.gblk g
    (s.grp g).part == p && b.core == core && (b.st == .live || b.st == .allocating) && (s.crs b.course).st != .spilling &&
      (s.crs b.course).st != .saved && !outs.contains b.course

/-- The partition a group goes to: its number modulo 4, or the next with a free place (R139, R143; log entry 17). -/
def partitionFor (s : State) (b g : Nat) : Nat :=
  let outs := (s.crs (s.blk b).course).outs
  (((List.range 4).map fun i => (g + i) % 4).find? fun p => decide (s.inPartition (s.blk b).core p outs < 16)).getD (g % 4)

/-- A resumed course's groups take places in the partitions of their new cores (R139). -/
def placeGroups (s : State) (c : Nat) : State :=
  let gs := s.groupsIn c
  let s := gs.foldl (fun s g => s.setGrp g { s.grp g with part := 4 }) s
  gs.foldl (fun s g => s.setGrp g { s.grp g with part := s.partitionFor (s.grp g).blk (s.grp g).gid }) s

/-- A saved course is placed: its blocks claim their pool shares, and its image fills the banks (R149, R153, R238). -/
def placeSaved (s : State) (c : Nat) (seam : Bool) (at_ : List (Nat × Bool)) (outs : List Nat) : State :=
  let x := s.crs c
  let s := s.purgeQueues (s.groupsIn c)
  let s := (x.blocks.zip at_).foldl
    (fun s e => s.setBlk e.1 { s.blk e.1 with core := e.2.1, upper := e.2.2 }) s
  let s := s.setCrs c { x with st := .filling, seam := seam, outs := outs, waitSince := none, yieldTo := none }
  ((x.blocks.foldl claimPool s).placeGroups c).push (.imageFillComplete c [])

/-- A candidate is placed. -/
def placeAt (s : State) (e : Nat × Option Nat) (tag : Nat) (seam : Bool) (at_ : List (Nat × Bool)) (outs : List Nat) : State :=
  match e.2 with
  | some c => s.placeSaved c seam at_ outs
  | none => s.placeNew e.1 tag seam at_ outs

/-- Courses are placed one at a time until no candidate fits (R476). -/
def placeAll (s : State) : Nat → State
  | 0 => s
  | n + 1 =>
    match s.candidates.findSome? fun e => (s.spotFor e).map fun x => (e, x) with
    | some (e, t, seam, at_) => State.placeAll (s.placeAt e t seam at_ []) n
    | none => s

/-! ## Pre-emption (R147 to R152, R178) -/

/-- A course's time slice is over, or it is idle: every unexited group is descheduled (R148, R178). DESIGN CHOICE: a slice lasts Q_c (log entry 57). -/
def sliceOver (s : State) (c : Nat) : Bool :=
  let x := s.crs c
  lasts (s.tick - x.sliceStart) (s.quantum (s.lch x.launch).lr.cls) ||
    (s.groupsIn c).all fun g =>
      match (s.grp g).phase with
      | .exited | .stopped | .waiting _ _ => true
      | _ => (s.grp g).sched.sv.isSome

/-- Since when a candidate waits for cores. -/
def waitsSince (s : State) (e : Nat × Option Nat) : Option Nat :=
  match e.2 with
  | some c => (s.crs c).waitSince
  | none => (s.lch e.1).since

/-- A candidate has grounds to pre-empt a course (R148, R178): another course of its own launch too. -/
def mayPreempt (s : State) (e : Nat × Option Nat) (c : Nat) : Bool :=
  let x := s.crs c
  let v := s.lch x.launch
  let l := s.lch e.1
  x.st == .running && v.flag 0 &&
    (decide (v.lr.cls < l.lr.cls) ||
      (v.lr.cls == l.lr.cls && s.sliceOver c && (match s.waitsSince e with | some t => lasts (s.tick - t) (s.quantum v.lr.cls) | none => false))) &&
    !s.courses.any fun y => (y.st == .placed || y.st == .filling || y.st == .switching) && y.outs.contains c

/-- A course could leave its cores now: its image fits, no matrix command of it holds the switch, and no core of it holds an unspilled one (R150,
R315, R466). -/
def canLeave (s : State) (c : Nat) : Bool :=
  (s.imageAt c).isSome && !s.holdsSwitch c && !(s.crs c).blocks.any fun b => (s.onCore (s.blk b).core).any fun y => (s.crs y.course).st == .spilling

/-- Courses on a core that a candidate may pre-empt and that could leave. -/
def victims (s : State) (e : Nat × Option Nat) (whole : Bool) (core : Nat) : List Nat :=
  ((s.onCore core).map (·.course)).eraseDups.filter fun c =>
    s.mayPreempt e c && s.canLeave c && (whole || (s.lch (s.crs c).launch).lr.banked)

/-- A candidate that fits nowhere pre-empts: through the shadow bank, else on the slow path, where the cores are kept for it (R149, R152). DESIGN CHOICE:
CSLOW counts one use of the slow path for each incoming course (log entry 57). -/
def preempt (s : State) (e : Nat × Option Nat) : State :=
  let leavers := fun (whole : Bool) (at_ : List (Nat × Bool)) => (at_.flatMap fun a => s.victims e whole a.1).eraseDups
  match (s.tagsFor e.1).findSome? fun t => (s.inCluster (s.want e t) (s.victims e false) false).map fun l => (t, l) with
  | some (t, at_) => s.placeAt e t false at_ (leavers false at_)
  | none =>
    let k := s.courseNo e.1 e.2
    if s.courses.any fun x => x.st == .spilling && x.yieldTo == some k then s
    else
      match (s.tagsFor e.1).findSome? fun t => s.inCluster (s.want e t) (s.victims e true) true with
      | some at_ =>
        ((leavers true at_).foldl (fun s c => let t := s.swapOut c; t.setCrs c { t.crs c with yieldTo := some k }) s).count 0 0 1 1
      | none => s

/-- Courses that would be pre-empted for a candidate but cannot leave have their slices stretched (R150, R466). -/
def stretchFor (s : State) (e : Nat × Option Nat) : State :=
  ((List.range s.courses.length).filter fun c => s.mayPreempt e c && !s.canLeave c).foldl stretch s

/-- What a tick does for the courses that did not fit: they begin to wait, or pre-empt (R148). -/
def tickWaits (s : State) : State :=
  s.candidates.foldl
    (fun s e =>
      if !s.candidates.contains e ∨ (s.spotFor e).isSome then s
      else
        let s := match e.2 with
          | none => if (s.lch e.1).since.isNone then s.setLch e.1 { s.lch e.1 with since := some s.tick } else s
          | some _ => s
        (s.stretchFor e).preempt e)
    s

/-! ## Start (R140, R145, R164) -/

/-- Lane masks of group `G` of a launch of `n` lanes: launch lanes and helper lanes (R164). -/
def startLanes (n G : Nat) : Lanes :=
  let launch := maskOf fun L => decide (32 * G + L < n)
  let helper := maskOf fun L => decide (n ≤ 32 * G + L) && decide (32 * G + L < 4 * ((n + 3) / 4))
  ⟨launch, launch, launch, helper, none⟩

/-- Group `g` of a block as it starts (R145). DESIGN CHOICE: a capability entry that fails to load then is the one found at acceptance (log entry 57). -/
def newGroup (s : State) (b g : Nat) : Group :=
  let x := s.blk b
  let l := s.lch x.launch
  let G := ((s.crs x.course).num * l.lr.bpc + x.rank) * l.lr.gpb + g
  let n := if l.lr.nlanes = 0 then l.lr.ncourse * l.lr.bpc * l.lr.gpb * 32 else l.lr.nlanes
  let caps := (List.range 4).foldl
    (fun m i => tset .null m i ((s.capLoad l.ctx (l.lr.ch.getD i 0)).getD (l.chCaps.getD i .null))) []
  { Group.empty with
    blk := b, gid := g, part := s.partitionFor b g, phase := .fetch l.lr.entry, lanes := startLanes n G
    uregs := (List.range 16).foldl (fun m i => tset 0 m i (w32 (l.lr.s.getD i 0))) [], caps := caps, alloc := l.alloc }

end State

/-- POOL_ALLOCATION_COMPLETE (R140, R145): the block's groups are made; a course runs, or its cores switch banks, when every block of it
is allocated. -/
def execPoolAllocationComplete (blk : Nat) (s : State) : Host.Outcome State Fault Refusal :=
  let x := s.blk blk
  if x.st ≠ .allocating then .next s
  else
    let l := s.lch x.launch
    let s := (List.range l.lr.gpb).foldl (fun (s : State) g => { s with groups := s.groups ++ [s.newGroup blk g] }) s
    let s := s.setBlk blk { s.blk blk with st := .live }
    let c := s.crs x.course
    if c.st = .placed ∧ c.blocks.all (fun b => (s.blk b).st != .allocating) then .next (s.courseReady x.course) else .next s

/-! ## Retirement (R155, R156, R158, R190) -/

namespace State

/-- A running launch whose groups have all ended, and that places no more courses, drains (R114, R156, R158). -/
def launchOver (s : State) (k : Nat) : State :=
  let l := s.lch k
  if l.st = .running ∧ l.retired = l.nextCourse ∧ (l.nextCourse = l.lr.ncourse ∨ l.status ≠ 0) then
    s.setLch k { l with st := .draining, wave := tget 0 s.fab.waves l.tag + (if s.waveOn l.tag then 2 else 1) }
  else s

/-- A block's scratchpad is gone: the groups that wait on its barriers look again (R155, R290). -/
def releaseBlock (s : State) (b : Nat) : State :=
  let os := (s.blk b).held.filterMap HeldBar.op
  let s := s.setBlk b { s.blk b with st := .released, scr := [], acc := [], books := [], marked := [], held := [], bars := [] }
  (List.range s.groups.length).foldl
    (fun s g => match (s.grp g).phase with | .waiting _ (.barrier t _ _) => if t = b then s.push (.waitEventWake g) else s | _ => s) (s.endHeld os)

/-- A course whose blocks have all retired, or are lost, is over (R155). -/
def courseOver (s : State) (c : Nat) : State :=
  let x := s.crs c
  if x.st = .retired ∨ x.st = .lost ∨ x.blocks.any (fun b => (s.blk b).st == .live || (s.blk b).st == .allocating) then s
  else
    let s := (x.blocks.filter fun b => (s.blk b).st == .retired).foldl releaseBlock s
    let lost := x.blocks.any fun b => (s.blk b).st == .lost
    let s := s.setCrs c { s.crs c with st := if lost then .lost else .retired, image := none, outs := [] }
    let l := s.lch x.launch
    (s.setLch x.launch { l with retired := l.retired + 1 }).launchOver x.launch

end State

/-- BLOCK_RETIRE (R155): every group has ended and every operation of them is over. -/
def execBlockRetire (blk : Nat) (s : State) : Host.Outcome State Fault Refusal :=
  let x := s.blk blk
  let gs := (List.range s.groups.length).filter fun g => (s.grp g).blk == blk
  let ended := gs.all fun g => match (s.grp g).phase with | .exited | .stopped => true | _ => false
  if x.st ≠ .live ∨ !ended then .next s
  else
    let idle := fun (e : Nat × Op) =>
      gs.contains e.2.gid && (match e.2.instr, e.2.stage with | .nop, _ => true | .monclr _, _ => true | .wgo _, .parts _ => true | _, _ => false)
    let s := (s.ops.filter idle).foldl (fun s e => s.delOp e.1) s
    if s.ops.any fun e => gs.contains e.2.gid then .next s
    else
      let s := if (s.lch x.launch).flag 2 then s.setBlk blk { s.blk blk with st := .retired, acc := [], books := [] } else s.releaseBlock blk
      .next (s.courseOver x.course)

/-! ## A failed die (R159, R293) -/

namespace State

/-- A block is lost: its groups are treated as exited and what they had in flight is gone (R159). -/
def loseBlock (s : State) (b : Nat) : State :=
  let gs := (List.range s.groups.length).filter fun g => (s.grp g).blk == b
  let s := s.purgeQueues gs
  let s := (s.ops.filter fun e => gs.contains e.2.gid).foldl (fun s e => (s.seqLeave e.1).delOp e.1) s
  let s := gs.foldl (fun s g => s.setGrp g { (s.grp g).finish .exited with pend := [], flags := [] }) s
  let os := (s.blk b).held.filterMap HeldBar.op
  let s := s.setBlk b { s.blk b with st := .lost, scr := [], acc := [], books := [], marked := [], held := [], bars := [] }
  let s := s.endHeld os
  let k := (s.blk b).launch
  s.setLch k { s.lch k with broken := true }

/-- Barriers of a block that some party has reached through the course window, before or after BARINIT (R282, R283, R293). -/
def courseBarriers (s : State) (b : Nat) : List Nat := (s.blk b).bars.filter fun off => (s.bar b off).course

/-- The barriers of the surviving blocks of a seam-pair course become broken, and waiters of barriers on lost blocks look again
(R293). -/
def breakCourse (s : State) (c : Nat) : State :=
  let s := if (s.crs c).seam then
      ((s.crs c).blocks.filter fun b => (s.blk b).st != .lost).foldl
        (fun s b => (s.courseBarriers b).foldl (fun s off => (s.breakBar b off).freeHeld b off) s) s
    else s
  (s.groupsIn c).foldl
    (fun s g => match (s.grp g).phase with | .waiting _ (.barrier t _ _) => if (s.blk t).st = .lost then s.push (.waitEventWake g) else s | _ => s)
    s

/-- A course with a block on a failed die, or whose image was not complete (R159): the blocks there are lost, or all of a spilling
course's; one whose complete image was being filled is saved again. -/
def failCourse (s : State) (die c : Nat) : State :=
  let x := s.crs c
  let there := x.blocks.filter fun b => dieOf (s.blk b).core == die
  let live := fun (b : Nat) => match (s.blk b).st with | .allocating | .live | .retired => true | _ => false
  if there.all (fun b => !live b) then s
  else
    match x.st with
    | .saved | .retired | .lost => s
    | .spilling =>
      let s := s.imageHeader c 2
      (x.blocks.filter live).foldl loseBlock s
    | _ =>
      if x.image.isSome then s.setCrs c { x with st := .saved, outs := [], waitSince := some s.tick }
      else (there.filter live).foldl loseBlock s

/-- The lines of a failed die's cores leave their trees. -/
def dropCore (s : State) (core : Nat) : State :=
  let s := (s.core core).lines.foldl (fun s e => if e.2.st = .I then s else s.dropLine core (e.1 % 4) (e.1 / 4) 0 e.2.ctx) s
  s.setCore core { s.core core with reclaim := [], cq := [], mq := [], matq := [] }

end State

/-- DIE_FATAL_FAILURE (R159, R293). -/
def execDieFatalFailure (die : Nat) (s : State) : Host.Outcome State Fault Refusal :=
  if 8 ≤ die ∨ s.le.deadDies.contains die then .next s
  else
    let s : State := { s with le := { s.le with deadDies := s.le.deadDies ++ [die] } }
    let s := s.logErr 2 die 7 2 0 0 none 0
    let cs := List.range s.courses.length
    let lost := fun (s : State) (c : Nat) => ((s.crs c).blocks.filter fun b => (s.blk b).st == .lost).length
    let before := cs.map (lost s)
    let s := cs.foldl (fun s c => s.failCourse die c) s
    let s := ((s.cores.map (·.1)).filter fun c => dieOf c == die).foldl State.dropCore s
    let hit := cs.filter fun c => decide (before.getD c 0 < lost s c)
    let s := hit.foldl (fun s c => (s.breakCourse c).courseOver c) s
    let ready := hit.filter fun c => (s.crs c).st == .placed && (s.crs c).blocks.all fun b => (s.blk b).st != .allocating
    .next (ready.foldl State.courseReady s)

end Sys2Proof.Machine
end

