-- ==== Sys2Proof/Machine/Tick.lean ====
section
/-! DEFINITION. The package tick and what it brings about, interrupts, and the step that takes up an answer of the launch engine, of a
sequence-engine instance or of the link engine for an instruction (spec/01 R35, spec/05 R135, R476, spec/14 R419, spec/16 R451). -/

namespace Sys2Proof.Machine

namespace State

/-! ## Interrupts (R449, R451) -/

/-- The MSI-X table entry of a vector; its mask bit is set at reset (log entry 1). -/
def msixEntry (s : State) (n : Nat) : Nat := tget (2 ^ 96) s.link.msixTab n

/-- An MSI-X message is sent, or is pending while its vector is masked. -/
def sendIrq (s : State) (n : Nat) : State :=
  if fld (s.msixEntry n) 96 1 = 1 then { s with link := { s.link with msixPend := bitSet s.link.msixPend n } }
  else s.pcie (.msix n)


/-! ## Lending (R237) -/

/-- Space of the cores in use that no block claims is lent to their L1s. -/
def lendAll (s : State) : State :=
  { s with cores := s.cores.map fun (e : Nat × Core) =>
    if e.2.reclaim = [] then (e.1, { e.2 with lent := Nat.max e.2.lent (Nat.min 256 (s.lendable e.1)) }) else e }

/-! ## The tick -/

/-- The sc fences whose tick has come (R105). -/
def tickFences (s : State) : State :=
  s.ops.foldl
    (fun (s : State) (e : Nat × Op) =>
      match e.2.instr, e.2.stage with
      | .fence _ _, .tick n => if n ≤ s.tick then s.pushNew (.fenceScComplete e.1) else s
      | _, _ => s)
    s

/-- A wave for each phase tag under which a launch drains (R445). -/
def tickWaves (s : State) : State :=
  [0, 1].foldl (fun s t => if s.launches.any fun l => l.st == .draining && l.tag == t then s.startWave t else s) s

/-- More courses than a package can hold: at most 64 blocks on each of 448 cores (R139). -/
def courseLimit : Nat := 28672

/-- What the launch engine does at a tick: slots, placement, pre-emption, lending, waves (R135, R148, R178, R237, R445, R476). -/
def tickLaunch (s : State) : State :=
  let s := s.tickQueues
  let s := (List.range s.launches.length).foldl launchOver s
  let s := ((s.placeAll courseLimit).tickWaits).lendAll
  s.tickWaves

/-- Every enabled vector whose sequence has advanced since the last tick is sent once (R451). -/
def tickIrqs (s : State) : State :=
  (s.link.irqDue.filter fun n => (s.irqSeq n).isSome).foldl sendIrq { s with link := { s.link with irqDue := [] } }

end State

/-- PACKAGE_TICK (R35, R419): the system tick is every eighth, the predictors' decay every 64th; requests of peers that had to wait are looked at again. -/
def execPackageTick (s : State) : Host.Outcome State Fault Refusal :=
  let s : State := { s with tick := s.tick + 1 }
  let s := if s.tick % 8 = 0 then s.push .systemTick else s
  let s := if s.tick % 64 = 0 then s.push .predictorDecay else s
  if s.mg.boot = .ready then .next (s.tickFences.tickLaunch).tickIrqs.serveAtomics else .next s

/-- SYSTEM_TICK (R35): sc fences of system scope complete at it (R105). -/
def execSystemTick (s : State) : Host.Outcome State Fault Refusal := .next s.tickFences

/-- PREDICTOR_DECAY (R419): every counter of the contention predictors falls by one. -/
def execPredictorDecay (s : State) : Host.Outcome State Fault Refusal :=
  .next { s with cores := s.cores.map fun (e : Nat × Core) =>
    (e.1, { e.2 with pred := (e.2.pred.map fun p => (p.1, p.2 - 1)).filter fun p => p.2 != 0 }) }

/-- SEQUENCE_ANSWER (R160 to R162, R357, R459): an operation reaches the sequence engine, the launch engine or the link engine, or is taken
up again there. -/
def execSequenceAnswer (op : Nat) (s : State) : Host.Outcome State Fault Refusal :=
  match tfind s.ops op with
  | none => .next s
  | some p =>
    match p.instr with
    | .launch _ _ _ => .next (s.runLaunch op)
    | .lwait _ _ => .next (s.runToken op true)
    | .lstat _ _ => .next (s.runToken op false)
    | .rwri _ _ => .next (s.runRma op true)
    | .rrd _ _ => .next (s.runRma op false)
    | .sqres _ _ | .sqcom _ | .sqapp _ _ _ | .sqlen _ _ | .sqrlen _ _ | .sqwlo _ _ | .sqmap _ _ _ | .sqfork _ _ | .sqnew _ _ | .sqrel _
    | .sqwin _ | .sqtake _ _ | .sqseal _ | .flpop _ _ | .flpush _ | .flcnt _ _ => .next (s.runSeq op)
    | _ => .next s

end Sys2Proof.Machine
end

