-- ==== Sys2Proof/Machine/Mgmt.lean ====
section
/-! DEFINITION. The management engine: boot, the mailbox commands, attestation, the error log's commands and power (spec/17 R463 to R473). -/

namespace Sys2Proof.Machine

/-! ## The mailbox (R464, R466) -/

/-- What a command answers: a status other than 0, which changes nothing, or the state with its results: offset in ARGS, bytes, value. -/
inductive Cmd where
  | fail (status : Nat)
  | done (s : State) (out : List (Nat × Nat × Nat))

/-- Bits of ARGS that a command's table row assigns: byte offset, lowest bit, width. -/
abbrev ArgBits := List (Nat × Nat × Nat)

/-- The bits of byte `k` of ARGS that are assigned. -/
def argMask (f : ArgBits) (k : Nat) : Nat :=
  (List.range 8).foldl (fun m j => if f.any fun e => decide (8 * e.1 + e.2.1 ≤ 8 * k + j) && decide (8 * k + j < 8 * e.1 + e.2.1 + e.2.2) then m + 2 ^ j else m) 0

namespace State

/-- `n` bytes of ARGS at an offset. -/
def arg (s : State) (off n : Nat) : Nat := mread s.mg.mbox (0x10 + off) n

/-- Every bit of ARGS outside a command's row is zero (R466). -/
def argsClean (s : State) (f : ArgBits) : Bool :=
  s.mg.mbox.all fun e => decide (e.1 < 0x10) || (e.2.toNat &&& (255 - argMask f (e.1 - 0x10))) == 0

/-- The mailbox bytes become `m`. -/
def setMbox (s : State) (m : List Host.Cell) : State := { s with mg := { s.mg with mbox := m } }

/-- A command ends with a status: BUSY clears (R464). -/
def mboxEnd (s : State) (status : Nat) : State :=
  let m := mset s.mg.mbox 4 (BitVec.ofNat 8 status)
  s.setMbox (mset m 3 (mget m 3 &&& 0x7F))

/-- A mailbox command (R463 to R466): `early` says that it runs outside READY too. DEDUCED: which status comes first where several apply (log entries 45
and 61). -/
def command (s : State) (early : Bool) (f : ArgBits) (body : State → Cmd) : Host.Outcome State Fault Refusal :=
  if s.mg.boot ≠ .ready ∧ !early then .next (s.mboxEnd 3)
  else if !s.argsClean f then .next (s.mboxEnd 2)
  else
    match body s with
    | .fail n => .next (s.mboxEnd n)
    | .done s out =>
      let m := s.mg.mbox.filter fun e => decide (e.1 < 0x10)
      .next ((s.setMbox (out.foldl (fun m e => mwrite m (0x10 + e.1) e.2.1 e.2.2) m)).mboxEnd 0)

/-- The context of [11:0] at +0x00. -/
def argCtx (s : State) : Nat := fld (s.arg 0 4) 0 12

/-- A valid object of a context's own table (R466). -/
def objIn (s : State) (c n : Nat) : Bool := (s.ctx c).tbl && objValid (s.ctx c) (s.objRaw c n)

/-- Every page of a range of an object is present and of memory type 0. -/
def pagesIn (s : State) (c n off len : Nat) : Bool :=
  (List.range (if len = 0 then 0 else (off + len - 1) / 65536 - off / 65536 + 1)).all fun i => (s.xlate c n (65536 * (off / 65536 + i))).isSome

/-- A context becomes `x`, registered or not. -/
def editCtx (s : State) (c : Nat) (f : Ctx → Ctx) : State := s.setCtx c (f (s.ctx c))

end State

/-- STATUS (R466): voltages are free values (log entry 15). -/
def execStatus (s : State) : Host.Outcome State Fault Refusal :=
  s.command true [] fun s =>
    let st := match s.mg.boot with | .rom => 0 | .selftest => 1 | .ready => 2 | .safe => 3
    let isl := (List.range 64).map fun i =>
      let x := tget .empty s.mg.islands i
      (0x10 + 4 * i, 4, (if i < 32 then x.mhz else 0) + 4096 * (Config.islandVolts s.free i).val + (if x.throttled then 2 ^ 24 else 0)
        + (if x.outOf ∨ (i < 32 ∧ s.le.deadDies.contains (i / 4)) then 2 ^ 25 else 0))
    .done s.draw ([(0, 4, st + 256 * s.mg.code), (4, 4, s.mg.repaired)] ++ isl)

/-- CTXREG (R120, R154, R466, R477). -/
def execCtxreg (s : State) : Host.Outcome State Fault Refusal :=
  s.command false [(0, 0, 25), (4, 0, 24), (8, 0, 24)] fun s =>
    let c := s.argCtx
    let x := s.ctx c
    let priv : Bool := fld (s.arg 0 4) 24 1 == 1
    let area := s.arg 4 4
    let save := s.arg 8 4
    if x.reg then .fail 3
    else if x.tbl ∧ x.aliasCtx = c ∧ !priv then .fail 2
    else if !s.objIn c area ∨ !s.objIn c save then .fail 4
    else if oKind (s.objRaw c area) ≠ 1 ∨ oSize (s.objRaw c area) < 9216 then .fail 2
    else .done (s.setCtx c { x with reg := true, tenant := fld (s.arg 0 4) 12 12, priv := priv, launchArea := area, saveObj := save }) []

/-- An object of `n` bytes is written as zero. -/
def State.zeroObj (s : State) (c obj n : Nat) : State :=
  (List.range ((n + 65535) / 65536)).foldl
    (fun (s : State) i =>
      match s.xlate c obj (65536 * i) with
      | some a =>
        let s := (s.tearRange (obj * 2 ^ 40 + 65536 * i) 65536).noteWrite c (obj * 2 ^ 40 + 65536 * i)
        let len := Nat.min 65536 (n - 65536 * i)
        { s with mem := mzero s.mem a len }
      | none => s)
    s

/-- SEQAREA (R348): the area is zeroed and every node goes to the map pool. -/
def execSeqarea (s : State) : Host.Outcome State Fault Refusal :=
  s.command false [(0, 0, 12), (4, 0, 24), (8, 0, 24)] fun s =>
    let c := s.argCtx
    let area := s.arg 4 4
    let pool := s.arg 8 4
    let sa := oSize (s.objRaw c area)
    let sm := oSize (s.objRaw c pool)
    if !(s.ctx c).reg then .fail 4
    else if (s.ctx c).seq then .fail 3
    else if !s.objIn c area ∨ !s.objIn c pool then .fail 4
    else if sa < 0x1040 ∨ sa % 64 ≠ 0 ∨ sm % 256 ≠ 0 ∨ !s.allPages c area ∨ !s.allPages c pool then .fail 2
    else
      let s := (s.zeroObj c area sa).zeroObj c pool sm
      let s := (List.range (sm / 256 - 1)).foldl (fun s i => s.owrite c pool (256 * i + 8) 8 (256 * (i + 1) + 2 ^ 63)) s
      let s := s.editCtx c fun x => { x with seq := true, seqArea := area, mapPool := pool, nseq := Nat.min ((sa - 0x1000) / 64) (2 ^ 20) }
      .done (s.flPut c 64 ⟨pool, 8, 0, if sm = 0 then 0 else 1, sm / 256⟩) []

/-- FLSET (R351). -/
def execFlset (s : State) : Host.Outcome State Fault Refusal :=
  s.command false [(0, 0, 12), (0, 16, 6), (4, 0, 24), (8, 0, 5)] fun s =>
    let c := s.argCtx
    let f := fld (s.arg 0 4) 16 6
    let obj := s.arg 4 4
    let b := s.arg 8 4
    if b < 8 ∨ 20 < b then .fail 2
    else if !(s.ctx c).reg ∨ !(s.ctx c).seq ∨ !s.objIn c obj then .fail 4
    else if !s.allPages c obj then .fail 2
    else if (s.flGet c f).count ≠ 0 then .fail 3
    else .done (s.flPut c f ⟨obj, b, 0, 0, 0⟩) []

/-- OBJTAB (R403, R466, R477). -/
def execObjtab (s : State) : Host.Outcome State Fault Refusal :=
  s.command false [(0, 0, 12), (8, 0, 52), (0x10, 0, 32), (0x18, 0, 52), (0x20, 0, 40), (0x28, 0, 12), (0x2C, 0, 24)] fun s =>
    let c := s.argCtx
    let base := s.arg 8 8
    let n := s.arg 0x10 4
    let rb := s.arg 0x18 8
    let rl := s.arg 0x20 8
    let ac := s.arg 0x28 4
    let a := s.ctx ac
    if base % 32 ≠ 0 ∨ n < 2 ∨ 2 ^ 24 < n ∨ rb % 65536 ≠ 0 ∨ rl % 65536 ≠ 0 ∨ base < rb ∨ rb + rl < base + 32 * n ∨ memBytes < rb + rl then .fail 2
    else if !(if a.reg then a.priv else ac == c) then .fail 2
    else
      .done (s.editCtx c fun x =>
        { x with tbl := true, tblBase := base, tblN := n, regBase := rb, regLen := rl, aliasCtx := ac, aliasObj := s.arg 0x2C 4 }) []

/-- FAULTSEQ (R413). -/
def execFaultseq (s : State) : Host.Outcome State Fault Refusal :=
  s.command false [(0, 0, 12), (4, 0, 20)] fun s =>
    let c := s.argCtx
    let h := s.arg 4 4
    if !(s.ctx c).reg ∨ !s.seqValid c h then .fail 4
    else if (s.seqGet c h).recSize ≠ 32 then .fail 2
    else .done (s.editCtx c fun x => { x with faultSeq := some h }) []

/-- NOTETAB (R458). -/
def execNotetab (s : State) : Host.Outcome State Fault Refusal :=
  s.command false [(0, 0, 12), (4, 0, 24), (8, 0, 32)] fun s =>
    let c := s.argCtx
    let obj := s.arg 4 4
    let n := s.arg 8 4
    if !(List.range 13).any (fun k => 2 ^ k == n) then .fail 2
    else if !(s.ctx c).reg ∨ !s.objIn c obj then .fail 4
    else if oSize (s.objRaw c obj) < 8 * n then .fail 2
    else .done (s.editCtx c fun x => { x with noteObj := obj, noteN := n }) []

/-- QUANTUM (R136). -/
def execQuantum (s : State) : Host.Outcome State Fault Refusal :=
  s.command false [(0, 0, 2), (4, 0, 32)] fun s =>
    let k := s.arg 0 4
    let us := s.arg 4 4
    if us < 1 ∨ 1000 < us then .fail 2
    else .done { s with le := { s.le with quanta := tset 20 s.le.quanta k us } } [(8, 4, s.quantum k)]

/-- TCLIMSET (R446): entries above the new limit are evicted. -/
def execTclimset (s : State) : Host.Outcome State Fault Refusal :=
  s.command false [(0, 0, 5), (0, 8, 5), (4, 0, 17)] fun s =>
    let y := fld (s.arg 0 4) 8 5
    let r := routerAt (fld (s.arg 0 4) 0 5) y
    if 19 < y then .fail 2
    else .done (({ s with fab := { s.fab with tclim := tset 0 s.fab.tclim r (s.arg 4 4) } } : State).trimRouter r) []

/-- DOMAIN (R455). -/
def execDomain (s : State) : Host.Outcome State Fault Refusal :=
  s.command false [(0, 0, 32), (4, 0, 5)] fun s =>
    let n := fld (s.arg 4 4) 2 3
    if n < 1 ∨ 4 < n then .fail 2
    else if s.link.ports.any fun e => e.2.isDomain && e.2.st == .up then .fail 3
    else .done { s with link := { s.link with domId := s.arg 0 4, domPkg := fld (s.arg 4 4) 0 2, domSize := n } } []

/-- PROTDOM (R461). -/
def execProtdom (s : State) : Host.Outcome State Fault Refusal :=
  let w := s.arg 0 4
  let n := fld w 8 5
  let regs := (List.range n).flatMap fun r => [(0x10 + 16 * r, 0, 52), (0x18 + 16 * r, 0, 40), (0x18 + 16 * r, 62, 2)]
  s.command false ([(0, 0, 6), (0, 8, 5)] ++ (if n ≤ 16 then regs else [])) fun s =>
    let p := fld w 0 4
    let rs := (List.range n).map fun r =>
      let l := s.arg (0x18 + 16 * r) 8
      (⟨s.arg (0x10 + 16 * r) 8, fld l 0 40, fld l 62 1 == 1, fld l 63 1 == 1⟩ : Region)
    if 11 < p ∨ 16 < n ∨ rs.any (fun x => x.base % 65536 != 0 || x.len % 65536 != 0) then .fail 2
    else if !(s.port p).attested then .fail 3
    else .done { s with link := { s.link with prot := tset [] s.link.prot (4 * p + fld w 4 2) rs } } []

/-- POISONDEL (R417). -/
def execPoisondel (s : State) : Host.Outcome State Fault Refusal :=
  s.command false [(0, 0, 12), (4, 0, 24), (8, 0, 24)] fun s =>
    let e := (s.argCtx, s.arg 4 4, s.arg 8 4)
    if !(s.ctx e.1).reg ∨ !s.objIn e.1 e.2.1 then .fail 4
    else
      let hit := s.slices.any fun x => x.2.poison.contains e
      let cut := s.slices.map fun x => (x.1, { x.2 with poison := x.2.poison.filter (· != e) })
      .done { s with slices := cut.filter fun x => x.2 != .empty } [(0x0C, 4, if hit then 1 else 0)]

/-- Counters of each block and its instances (R466). -/
def counterTable : List (Nat × Nat) :=
  [(6, 1), (6, 1792), (6, 448), (6, 448), (6, 448), (6, 1792), (6, 16), (5, 448), (12, 16), (6, 640), (6, 12), (6, 1), (2, 1)]

/-- Counters of cycles lost to bank conflicts, of cycles in which a walk was passed over, of bypass crossings, and of the flits of PCI Express that
the bridge receives and sends again, which timing and packing alone decide (log entry 18). -/
def timed (b k : Nat) : Bool := [(2, 5), (5, 3), (9, 4), (11, 0), (11, 1)].contains (b, k)

/-- What a counter reads: one of cycles is 0 until something it counts has happened, and a free value after it; of the crossings that may be made by
bypass any number may have been (log entry 18). -/
def State.counter (s : State) (b k key : Nat) : Nat :=
  let n := tget 0 s.cnt key
  if !timed b k ∨ n = 0 then n
  else if b = 9 then (Config.timedCount s.free key).toNat % (n + 1)
  else (Config.timedCount s.free key).toNat

/-- CNTREAD (R466). -/
def execCntread (s : State) : Host.Outcome State Fault Refusal :=
  s.command true [(0, 0, 8), (0, 16, 16), (4, 0, 32), (8, 0, 32)] fun s =>
    let b := fld (s.arg 0 4) 0 8
    let i := fld (s.arg 0 4) 16 16
    let k := s.arg 4 4
    let n := s.arg 8 4
    let (rows, insts) := counterTable.getD b (0, 0)
    if insts ≤ i ∨ n < 1 ∨ 500 < n ∨ rows < k + n then .fail 2
    else
      let key := (b * 65536 + i) * 64
      .done s.draw ((List.range n).map fun j =>
        (0x10 + 8 * j, 8, s.counter b (k + j) (key + k + j)))

/-! ## The error log's commands (R468 to R471) -/

/-- LOGROT (R471). -/
def execLogrot (s : State) : Host.Outcome State Fault Refusal :=
  s.command false [(0, 0, 12), (4, 0, 24)] fun s =>
    let c := s.argCtx
    let n := s.arg 4 4
    let o := s.objRaw c n
    let l := s.mg.log
    if !(s.ctx c).reg ∨ !s.objIn c n then .fail 4
    else if oKind o ≠ 1 ∨ oSize o % 32 ≠ 0 ∨ oSize o < 64 ∨ !s.allPages c n ∨ s.everLog n then .fail 2
    else
      let fs := (List.range ((oSize o + 65535) / 65536)).map fun i => (s.xlate c n (65536 * i)).getD 0 / 65536
      let l' : ErrLog :=
        { l with ctx := c, obj := n, first := l.next, committed := 0, everLogs := l.everLogs ++ [(c, n)], size := oSize o, frames := fs
                 sealed := l.sealed ++ l.frames }
      .done (({ s with mg := { s.mg with log := l' } } : State).logErr 0 0 8 1 0 c none l.obj) [(8, 8, l.next)]

/-- The record of a number, when it is in the boot log or committed in the present one (R466). -/
def State.logRecord (s : State) (n : Nat) : Option Nat :=
  let l := s.mg.log
  match l.boot.find? fun r => r.num == n with
  | some r => some r.bits
  | none => if l.obj ≠ 0 ∧ l.first ≤ n ∧ n < l.first + l.committed then some (mread s.mem (l.at_ (n - l.first)) 32) else none

/-- Records from a number on, up to the first that is missing. -/
def State.logRun (s : State) (n : Nat) : Nat → List Nat
  | 0 => []
  | k + 1 => match s.logRecord n with | some r => r :: State.logRun s (n + 1) k | none => []

/-- LOGREAD (R466, R468). -/
def execLogread (s : State) : Host.Outcome State Fault Refusal :=
  s.command true [(0, 0, 64), (8, 0, 32)] fun s =>
    let l := s.mg.log
    let n := s.arg 8 4
    if 126 < n then .fail 2
    else
      let rs := s.logRun (s.arg 0 8) n
      .done s ([(0, 4, l.ctx), (4, 4, l.obj), (8, 8, l.committed), (0x10, 8, tget 0 s.cnt (12 * 65536 * 64 + 1)), (0x18, 8, l.first), (0x20, 4, rs.length)]
        ++ rs.zipIdx.map fun e => (0x30 + 32 * e.2, 32, e.1))

/-! ## Power, ports, dies and contexts (R454, R465, R473) -/

/-- PWRLIM (R473). -/
def execPwrlim (s : State) : Host.Outcome State Fault Refusal :=
  s.command false [(0, 0, 32)] fun s =>
    let w := s.arg 0 4
    if w < 1000 ∨ 4500 < w then .fail 2 else .done { s with mg := { s.mg with pwrlim := w } } [(4, 4, s.mg.pwrlim)]

/-- PORTRST (R454): a failed port goes to DOWN; any other port stays as it is (log entry 45). -/
def execPortrst (s : State) : Host.Outcome State Fault Refusal :=
  s.command false [(0, 0, 32)] fun s =>
    let p := s.arg 0 4
    if 11 < p then .fail 2
    else if (s.port p).st = .failed then .done (s.setPort p { s.port p with st := .down, retrains := [] }) []
    else .done s []

/-- DIEUP (R159): a die returns to service, with its islands. -/
def execDieup (s : State) : Host.Outcome State Fault Refusal :=
  s.command false [(0, 0, 32)] fun s =>
    let d := s.arg 0 4
    if 7 < d then .fail 2
    else
      let isl := (List.range 4).foldl
        (fun m k => let i := 4 * d + k; tset .empty m i { tget .empty m i with outOf := false }) s.mg.islands
      .done { s with le := { s.le with deadDies := s.le.deadDies.filter (· != d) }, mg := { s.mg with islands := isl } } []

/-- CTXREL (R465): the context is unregistered, and its queues are OFF (R134); its table's registration stays (log entry 45). -/
def execCtxrel (s : State) : Host.Outcome State Fault Refusal :=
  s.command false [(0, 0, 12)] fun s =>
    let c := s.argCtx
    if !(s.ctx c).reg then .fail 4
    else if s.launches.any fun l => l.ctx == c && l.st != .complete then .fail 3
    else
      let x := s.ctx c
      let s := s.setCtx c { Ctx.empty with
        tbl := x.tbl, tblBase := x.tblBase, tblN := x.tblN, regBase := x.regBase, regLen := x.regLen, aliasCtx := x.aliasCtx, aliasObj := x.aliasObj }
      .done { s with le := { s.le with
        queues := s.le.queues.filter fun e => e.1 / 1024 != c
        done := s.le.done.filter fun e => e.1 / 128 != c } } []

/-- SQCREATE (R365, R466). -/
def execSqcreate (s : State) : Host.Outcome State Fault Refusal :=
  s.command false [(0, 0, 12), (4, 0, 20), (8, 0, 32), (0x0C, 0, 32)] fun s =>
    let c := s.argCtx
    let w := s.arg 8 4
    let wlen := s.arg 0x0C 4
    if !newLegal w wlen then .fail 2
    else if !(s.ctx c).reg ∨ !(s.ctx c).seq then .fail 4
    else
      match s.seqNew c (s.arg 4 4) w wlen none with
      | (s, .status n) => .done (s.count 6 (seqDie (s.arg 4 4)) 0 1) [(0x10, 4, n)]
      | (_, .trap 0x09 _) => .fail 4
      | _ => .fail 2

/-- FLFILL (R372, R466). -/
def execFlfill (s : State) : Host.Outcome State Fault Refusal :=
  s.command false [(0, 0, 12), (0, 16, 6), (8, 0, 40), (0x10, 0, 32)] fun s =>
    let c := s.argCtx
    let f := fld (s.arg 0 4) 16 6
    let a := s.arg 8 8
    let n := s.arg 0x10 4
    let x := s.flGet c f
    if n < 1 ∨ 2 ^ 20 < n then .fail 2
    else if !(s.ctx c).reg ∨ !(s.ctx c).seq ∨ x.pool = 0 then .fail 4
    else if a % 2 ^ x.bszl ≠ 0 ∨ oSize (s.objRaw c x.pool) < a + n * 2 ^ x.bszl ∨ !s.pagesIn c x.pool a (n * 2 ^ x.bszl) then .fail 2
    else
      let s := (List.range n).foldl (fun s i => s.flGive c f (a + i * 2 ^ x.bszl)) s
      .done (s.count 6 (f % 16) 0 n) [(0x14, 4, (s.flGet c f).count)]

/-- SQDEL (R368, R465). -/
def execSqdel (s : State) : Host.Outcome State Fault Refusal :=
  s.command false [(0, 0, 12), (4, 0, 20)] fun s =>
    let c := s.argCtx
    let h := s.arg 4 4
    if !(s.ctx c).reg ∨ !s.seqValid c h then .fail 4 else .done ((s.seqRelease c h).count 6 (seqDie h) 0 1) []

/-! ## Boot (R463) -/

/-- PACKAGE_RESET (R463): everything but what lies outside the package's logic is as after power-on; device memory keeps its bytes, and what was
sent has been sent (log entry 46). -/
def execPackageReset (s : State) : Host.Outcome State Fault Refusal :=
  .next { State.reset with
    mem := s.mem, link := { State.reset.link with out := s.link.out, hostUp := s.link.hostUp }, sched := s.sched, turn := s.turn, free := s.free }

/-- ROM_CHECK_COMPLETE (R463). -/
def execRomCheckComplete (ok : Bool) (s : State) : Host.Outcome State Fault Refusal :=
  if s.mg.boot = .rom then .next { s with mg := { s.mg with boot := if ok then .selftest else .safe, code := if ok then s.mg.code else 0x10 } }
  else .next s

/-- SELFTEST_COMPLETE (R463): repairs are logged as corrected events; a failure leads to SAFE with its code, any other code to READY (log
entry 61). -/
def execSelftestComplete (code repaired : Nat) (s : State) : Host.Outcome State Fault Refusal :=
  if s.mg.boot ≠ .selftest then .next s
  else
    let s := (List.range repaired).foldl (fun (s : State) _ => s.logErr 0 0 0 2 0 0 none 0) s
    let bad := decide (0x11 ≤ code) && decide (code ≤ 0x14)
    .next { s with mg := { s.mg with boot := if bad then .safe else .ready, code := if bad then code else 0, repaired := repaired } }

/-! ## Attestation (R467) -/

namespace State

/-- An SPDM answer leaves on its channel: 0 for PCI Express messages, p + 1 for channel 0 of Sahper Link port p. -/
def spdmSend (s : State) (ch code : Nat) (body : List Nat) : State :=
  if ch = 0 then s.pcie (.spdm 0 code body)
  else if ch ≤ 12 ∧ (s.port (ch - 1)).st = .up then s.linkSend (ch - 1) (.mgmt code body)
  else s

/-- An SPDM error answer. -/
def spdmError (s : State) (ch code : Nat) : State := s.spdmSend ch 0x7F [code, 0]

/-- A request that its connection is not ready for is refused as unexpected; otherwise it is answered. -/
def spdmAsk (s : State) (ch need : Nat) (f : State → State) : Host.Outcome State Fault Refusal :=
  if s.spdmAt ch < need then .next (s.spdmError ch 4) else .next (f s)

/-- `n` bytes of one of the package's own values (log entry 14). -/
def secretBytes (kind idx n : Nat) : List Nat := toBytes n (Config.secret kind idx)

end State

/-- GET_VERSION (R467): version 1.3. -/
def execGetVersion (ch : Nat) (s : State) : Host.Outcome State Fault Refusal := .next ((s.spdmTo ch 1).spdmSend ch 0x04 [0x13])

/-- GET_CAPABILITIES (R467). -/
def execGetCapabilities (ch : Nat) (s : State) : Host.Outcome State Fault Refusal :=
  s.spdmAsk ch 1 fun s => (s.spdmTo ch 2).spdmSend ch 0x61 (State.secretBytes 0 0 4)

/-- NEGOTIATE_ALGORITHMS (R467): RSASSA with 3072 bits and SHA-256 are the only ones offered. -/
def execNegotiateAlgorithms (ch : Nat) (sigs hashes : List Nat) (s : State) : Host.Outcome State Fault Refusal :=
  s.spdmAsk ch 2 fun s =>
    if sigs.contains 3072 ∧ hashes.contains 256 then (s.spdmTo ch 3).spdmSend ch 0x63 [4, 1] else s.spdmSend ch 0x63 [0, 0]

/-- GET_DIGESTS (R467): the digest of the chain in slot 0. -/
def execGetDigests (ch : Nat) (s : State) : Host.Outcome State Fault Refusal :=
  s.spdmAsk ch 3 fun s => s.spdmSend ch 0x01 (State.secretBytes 1 0 32)

/-- GET_CERTIFICATE (R467): bytes of the chain in slot 0, the only slot. -/
def execGetCertificate (ch slot off len : Nat) (s : State) : Host.Outcome State Fault Refusal :=
  s.spdmAsk ch 3 fun s =>
    if slot = 0 then s.spdmSend ch 0x02 ((List.range len).map fun i => Config.secret 2 (off + i) % 256) else s.spdmError ch 1

/-- CHALLENGE (R467): signed with the identity key. -/
def execChallenge (ch slot nonce : Nat) (s : State) : Host.Outcome State Fault Refusal :=
  s.spdmAsk ch 3 fun s => if slot = 0 then s.spdmSend ch 0x03 (State.secretBytes 3 nonce 384) else s.spdmError ch 1

/-- A measurement (R467): the self-test result and the domains are this package's; the others are its own values. -/
def State.measurement (s : State) (idx : Nat) : List Nat :=
  match idx with
  | 3 => toBytes 4 s.mg.code ++ toBytes 4 s.mg.repaired
  | 5 =>
    toBytes 4 s.link.domId ++ [s.link.domPkg % 256, s.link.domSize % 256] ++
      s.link.prot.flatMap fun e => toBytes 2 e.1 ++ e.2.flatMap fun r => toBytes 8 r.base ++ toBytes 8 r.len ++ [(if r.rd then 1 else 0) + if r.wr then 2 else 0]
  | _ => State.secretBytes 4 idx 32

/-- GET_MEASUREMENTS (R467): signed with the identity key. -/
def execGetMeasurements (ch idx nonce : Nat) (s : State) : Host.Outcome State Fault Refusal :=
  s.spdmAsk ch 3 fun s =>
    if 1 ≤ idx ∧ idx ≤ 5 then s.spdmSend ch 0x60 (s.measurement idx ++ State.secretBytes 5 nonce 384) else s.spdmError ch 1

/-! ## Power (R472, R473) -/

/-- A frequency an island may run at: a compute island in steps of 25 MHz from 600 to 1,750, any other at the fabric's (R472). -/
def islandMhz (i mhz : Nat) : Nat := if i < 32 ∧ 600 ≤ mhz ∧ mhz ≤ 1750 ∧ mhz % 25 = 0 then mhz else 1750

/-- POWER_CONTROL (R443, R472, R473): the controllers' decisions are inputs (log entry 15); an island that has headroom again is throttled no
more. -/
def execPowerControl (isl : List IslandSet) (links : List LinkOrder) (s : State) : Host.Outcome State Fault Refusal :=
  let s := isl.foldl
    (fun (s : State) x =>
      if x.isl < 64 then
        let y := tget .empty s.mg.islands x.isl
        let mhz := islandMhz x.isl x.mhz
        { s with mg := { s.mg with islands := tset .empty s.mg.islands x.isl { y with mhz := mhz, mv := x.mv % 4096, throttled := y.throttled && decide (mhz ≤ y.mhz) } } }
      else s)
    s
  .next (links.foldl
    (fun (s : State) o =>
      let x := s.mlink o.link
      if o.width ≤ 2 ∧ o.link < 2560 ∧ x.st = .steady ∧ x.width ≠ o.width then
        (s.setMlink o.link { x with st := .asked, target := o.width }).push (.wreq o.link o.width)
      else s)
    s)

/-- THERMAL_THROTTLE (R473): each episode is logged. -/
def execThermalThrottle (isl : Nat) (s : State) : Host.Outcome State Fault Refusal :=
  let x := tget .empty s.mg.islands isl
  if 32 ≤ isl ∨ x.throttled then .next s
  else
    .next (({ s with mg := { s.mg with islands := tset .empty s.mg.islands isl { x with throttled := true, mhz := Nat.max 600 (x.mhz - 25) } } } : State).logErr
      2 (isl / 4) 7 1 0 0 none isl)

/-- DIE_OVERHEAT (R473): the die is taken out of service, a fatal failure under R159. -/
def execDieOverheat (die : Nat) (s : State) : Host.Outcome State Fault Refusal :=
  if 8 ≤ die then .next s
  else
    let isl := (List.range 4).foldl (fun m k => let i := 4 * die + k; tset .empty m i { tget .empty m i with outOf := true }) s.mg.islands
    .next (({ s with mg := { s.mg with islands := isl } } : State).push (.dieFatalFailure die))

end Sys2Proof.Machine
end

