-- ==== Sys2Proof/Machine/Bridge.lean ====
section
/-! DEFINITION. The host bridge: registers of BAR0, apertures of BAR2, and the PCI Express link (spec/16 R448 to R452, spec/05 R123,
spec/14 R415, spec/17 R464). -/

namespace Sys2Proof.Machine

/-! ## Registers (R449) -/

/-- Byte `i` of a number becomes `b`. -/
def byteSet (x i b : Nat) : Nat := x - fld x (8 * i) 8 * 2 ^ (8 * i) + b % 256 * 2 ^ (8 * i)

/-- What is written to a bank of registers of `w` bytes each, `off` bytes from its start: the registers after the write. -/
def bankWrite (d w : Nat) (m : SMap Nat) (off size val : Nat) : SMap Nat :=
  (List.range size).foldl (fun m i => tset d m ((off + i) / w) (byteSet (tget d m ((off + i) / w)) ((off + i) % w) (fld val (8 * i) 8))) m

/-- `size` bytes of a bank of registers of `w` bytes each. -/
def bankRead (d w : Nat) (m : SMap Nat) (off size : Nat) : Nat :=
  ofBytes ((List.range size).map fun i => fld (tget d m ((off + i) / w)) (8 * ((off + i) % w)) 8)

/-- Reserved bits of an aperture register read as zero (R6, R450). -/
def apShown (x : Nat) : Nat := fld x 0 37 + 2 ^ 63 * fld x 63 1 + 2 ^ 64 * fld x 64 40

/-- Reserved bits of the mailbox's command word read as zero (R6, R464). -/
def mboxShown (m : List Host.Cell) : List Host.Cell := mset (mset m 2 0) 3 (if 128 ≤ (mget m 3).toNat then 128 else 0)

/-- The event that a mailbox command code starts (R465). -/
def mboxEvent : Nat → Option Event
  | 0x01 => some .status
  | 0x02 => some .ctxreg
  | 0x03 => some .seqarea
  | 0x04 => some .flset
  | 0x05 => some .objtab
  | 0x06 => some .faultseq
  | 0x07 => some .notetab
  | 0x08 => some .quantum
  | 0x09 => some .tclimset
  | 0x0A => some .domain
  | 0x0B => some .protdom
  | 0x0C => some .poisondel
  | 0x0D => some .cntread
  | 0x0E => some .logrot
  | 0x0F => some .logread
  | 0x10 => some .pwrlim
  | 0x11 => some .portrst
  | 0x12 => some .dieup
  | 0x13 => some .ctxrel
  | 0x14 => some .sqcreate
  | 0x15 => some .flfill
  | 0x16 => some .sqdel
  | _ => none

namespace State

/-- BSTAT (R449, R463). -/
def bstat (s : State) : Nat := (if s.mg.boot = .ready then 0 else 1) + (if s.mg.boot = .safe then 2 else 0) + 16

/-- A host read of BAR0 (R449). In SAFE only BSTAT, the mailbox and the MSI-X structures respond. -/
def regRead (s : State) (off size : Nat) : Nat :=
  let part := fun (x base : Nat) => x / 2 ^ (8 * (off - base)) % 2 ^ (8 * size)
  if off < 4 then part s.bstat 0
  else if 0x4000 ≤ off ∧ off < 0x5000 then mread (mboxShown s.mg.mbox) (off - 0x4000) size
  else if 0x8000 ≤ off ∧ off < 0x8800 then bankRead (2 ^ 96) 16 s.link.msixTab (off - 0x8000) size
  else if 0x9000 ≤ off ∧ off < 0x9008 then part s.link.msixPend 0x9000
  else if s.mg.boot = .safe then 0
  else if 0x1008 ≤ off ∧ off < 0x1018 then part (s.le.cdbr0 + 2 ^ 64 * s.le.cdbr1) 0x1008
  else if 0x2000 ≤ off ∧ off < 0x2100 then bankRead 0 16 (s.link.ap.map fun e => (e.1, apShown e.2)) (off - 0x2000) size
  else if 0x3000 ≤ off ∧ off < 0x3200 then bankRead 0 8 (s.link.irqb.map fun e => (e.1, e.2 % 2 ^ 33)) (off - 0x3000) size
  else 0

/-- A write of CDB (R123, R124). -/
def writeCdb (s : State) (v : Nat) : Host.Outcome State Fault Refusal :=
  let ctx := fld v 12 12
  let qn := fld v 2 10
  let n := fld v 24 9
  if 2 ^ 33 ≤ v then .next (s.bellFail 4)
  else
    match fld v 0 2 with
    | 0 => execReserve ctx qn n s
    | 1 => execCommit ctx qn n s
    | 2 => execRefresh ctx qn s
    | _ => .next (s.bellFail 4)

/-- A write of RPLY (R415); an ignored one is counted at die 3 (log entry 61). -/
def writeRply (s : State) (v : Nat) : Host.Outcome State Fault Refusal :=
  if 2 ^ 61 ≤ v then .next (s.count 8 3 4 1)
  else if fld v 60 1 = 0 then execReplayPage (fld v 0 12) (fld v 12 24) (fld v 36 24) s
  else execReplayContext (fld v 0 12) s

/-- Interrupt bindings are written: one that now names another sequence watches it from here on, any other keeps the advances it has seen (R451). -/
def writeIrqb (s : State) (off size val : Nat) : State :=
  let t : State := { s with link := { s.link with irqb := bankWrite 0 8 s.link.irqb off size val } }
  { t with link := { t.link with irqDue := t.link.irqDue.filter fun n => t.irqSeq n == s.irqSeq n } }

/-- The MSI-X table is written: a vector that is unmasked while it is pending is sent. -/
def writeMsix (s : State) (off size val : Nat) : State :=
  let s : State := { s with link := { s.link with msixTab := bankWrite (2 ^ 96) 16 s.link.msixTab off size val } }
  (List.range 64).foldl
    (fun (s : State) n =>
      if fld s.link.msixPend n 1 = 1 ∧ fld (s.msixEntry n) 96 1 = 0 then
        ({ s with link := { s.link with msixPend := bitClr s.link.msixPend n } } : State).pcie (.msix n)
      else s) s

/-- The command that the mailbox's command word starts (R464): a code that names no command, and a reserved bit, end it at once. -/
def startCommand (s : State) : State :=
  match mboxEvent (mread s.mg.mbox 0 2) with
  | none => s.mboxEnd 1
  | some e => if mread s.mg.mbox 2 2 % 2 ^ 15 = 0 then s.push e else s.mboxEnd 2

/-- The mailbox is written (R464): STATUS and VERSION are read-only, and so is the command word while a command runs. -/
def writeMbox (s : State) (off size val : Nat) : State :=
  let busy := decide (128 ≤ (mget s.mg.mbox 3).toNat)
  let word := decide (off < 4)
  let m := (List.range size).foldl
    (fun m i => if (off + i < 4 ∧ busy) ∨ (4 ≤ off + i ∧ off + i < 0x10) ∨ 0x1000 ≤ off + i then m
      else mset m (off + i) (BitVec.ofNat 8 (fld val (8 * i) 8))) s.mg.mbox
  let s := s.setMbox m
  if !word then s
  else if busy then s.count 12 0 0 1
  else if 128 ≤ (mget m 3).toNat then s.startCommand
  else s

end State

/-- REGISTER_WRITE (R449): a host write to BAR0. -/
def execRegisterWrite (off size val : Nat) (s : State) : Host.Outcome State Fault Refusal :=
  let z := Nat.min size 4096
  if 0x4000 ≤ off ∧ off < 0x5000 then .next (s.writeMbox (off - 0x4000) z val)
  else if 0x8000 ≤ off ∧ off < 0x8800 then .next (s.writeMsix (off - 0x8000) (Nat.min z (0x8800 - off)) val)
  else if s.mg.boot = .safe then .next s
  else if off = 0x1000 ∧ size = 8 then s.writeCdb (val % 2 ^ 64)
  else if off = 0x1100 ∧ size = 8 then s.writeRply (val % 2 ^ 64)
  else if 0x2000 ≤ off ∧ off < 0x2100 then
    .next { s with link := { s.link with ap := bankWrite 0 16 s.link.ap (off - 0x2000) (Nat.min z (0x2100 - off)) val } }
  else if 0x3000 ≤ off ∧ off < 0x3200 then .next (s.writeIrqb (off - 0x3000) (Nat.min z (0x3200 - off)) val)
  else .next s

/-! ## Apertures (R450) -/

/-- What an aperture access names: context and global address; none when its register or the range refuses it. -/
def State.apertureAt (s : State) (off size : Nat) (write : Bool) : Option (Nat × Nat) :=
  let x := tget 0 s.link.ap (off / 2 ^ 32)
  let ctx := fld x 0 12
  let obj := fld x 12 24
  let o := fld x 64 40 + off % 2 ^ 32
  if 2 ^ 36 ≤ off ∨ fld x 63 1 = 0 ∨ fld x 37 26 ≠ 0 ∨ fld x 104 24 ≠ 0 then none
  else if write ∧ (fld x 36 1 = 0 ∨ s.everLog obj) then none
  else if s.seqObject obj then none
  else if 2 ^ 40 < o + size then none
  else some (ctx, obj * 2 ^ 40 + o)

/-- The home port's check of one piece: its physical address and whether its page is dead (R406, R409, R450, R477). -/
def State.hostPort (s : State) (ctx adr n : Nat) (k : PKind) : State × Option (Nat × Bool) :=
  match s.aliasRegion ctx (adr / 2 ^ 40) with
  | some (b, len) => (s, if adr % 2 ^ 40 + n ≤ len then some (b + adr % 2 ^ 40, false) else none)
  | none =>
    match s.portCheck ctx adr none k with
    | (s, .ok pa 0 dead _ o) => (s, if adr % 2 ^ 40 + n ≤ oSize o then some (pa, dead) else none)
    | (s, _) => (s, none)

/-- Every piece of an aperture access at its port; none as soon as one is refused. -/
def State.hostPorts (s : State) (ctx : Nat) (ps : List (Nat × Nat)) (k : PKind) : State × Option (List (Nat × Bool)) :=
  ps.foldl
    (fun (r : State × Option (List (Nat × Bool))) p =>
      match r.2 with
      | none => r
      | some l => let (s, x) := r.1.hostPort ctx p.1 p.2 k; (s, x.map fun y => l ++ [y])) (s, some [])

/-- A refused aperture access is logged and counted (R450). -/
def State.hostRefused (s : State) (off : Nat) : State :=
  let x := tget 0 s.link.ap (off / 2 ^ 32)
  (s.count 11 0 5 1).logErr 4 3 5 1 (fld x 12 24 * 2 ^ 40 + (fld x 64 40 + off % 2 ^ 32) % 2 ^ 40) (fld x 0 12) none 0

/-- What the host sends, which is taken in the order of its function (R113, R124, R450). -/
def Event.fromHost : Event → Bool
  | .registerWrite .. | .hostApertureRead .. | .hostApertureWrite .. | .reserve .. | .commit .. | .refresh .. | .replayPage .. | .replayContext _
  | .hostAtomicopReceived _ => true
  | _ => false

/-- A request of the host waits, and what the host sent after it waits behind it (R124, R450). -/
def State.hostLater (s : State) (e : Event) : State :=
  { s with agenda := (s.agenda.filter fun x => !x.fromHost) ++ e :: s.agenda.filter fun x => x.fromHost }

/-- A read's bytes go to the host in completions of at most 512 bytes (R448). -/
def State.complete (s : State) (bs : List Nat) : State :=
  (List.range (Nat.max 1 ((bs.length + 511) / 512))).foldl
    (fun s i => let c := (bs.drop (512 * i)).take 512; s.pcie (.cplData c.length (ofBytes c))) s

/-- HOST_APERTURE_READ (R450): the completion carries the data, or Unsupported Request. -/
def execHostApertureRead (off size : Nat) (s : State) : Host.Outcome State Fault Refusal :=
  let refused := fun (s : State) => (s.hostRefused off).pcie (.cplUnsupported 0)
  match s.apertureAt off size false with
  | none => .next (refused s)
  | some (ctx, a) =>
    let ps := pieces a size
    match s.hostPorts ctx ps .read with
    | (s, none) => .next (refused s)
    | (s, some rs) =>
      let s := s.homeWant a size false
      if ps.any fun p => s.poisonedSector p.1 then .next (s.pcie (.cplUnsupported 0))
      else .next (s.complete (pieceBytes ps ((ps.zip rs).map fun e => if e.2.2 then 0 else mread s.mem e.2.1 e.1.2)))

/-- HOST_APERTURE_WRITE (R450): the write is performed at its home slices, or dropped. -/
def execHostApertureWrite (off : Nat) (bytes : List Nat) (s : State) : Host.Outcome State Fault Refusal :=
  match s.apertureAt off bytes.length true with
  | none => .next (s.hostRefused off)
  | some (ctx, a) =>
      let ps := pieces a bytes.length
      match s.hostPorts ctx ps .write with
      | (s, none) => .next (s.hostRefused off)
      | (s, some rs) =>
        let s := s.homeWant a bytes.length true
        let put := fun (s : State) (e : (Nat × Nat) × Nat × Bool) =>
          ((s.tearLine (lineOf e.1.1)).allocL2 e.1.1 e.1.2 (s.streams ctx (lineOf e.1.1)) ctx).dwrite 0 e.1.1 e.2.1 e.1.2 (ofBytes ((bytes.drop (e.1.1 - a)).take e.1.2))
        .next (((ps.zip rs).foldl put s).cleanSectors a bytes.length)

/-- HOST_ATOMICOP_RECEIVED (R448). -/
def execHostAtomicopReceived (tag : Nat) (s : State) : Host.Outcome State Fault Refusal := .next (s.pcie (.cplUnsupported tag))

/-! ## The PCI Express link (R452) -/

/-- PCIE_LINK_DOWN (R452): what is in flight through the bridge fails with link error, and so do the stores that were still to leave; the locks are
free, and what waited for them is refused. -/
def execPcieLinkDown (s : State) : Host.Outcome State Fault Refusal :=
  let s := if s.link.hostUp then s.count 11 0 2 1 else s
  let s : State := { s with link := { s.link with hostUp := false, locks := [] } }
  let mine := fun (a : Acc) => (a.st == .sent || a.st == .clear || a.st == .ready) && a.blk.isNone && (a.mt == 1 || a.mt == 3)
  .next (s.ops.foldl
    (fun (s : State) (e : Nat × Op) =>
      if !e.2.accs.any mine then s
      else
        let s := s.setOp e.1 { e.2 with accs := e.2.accs.map fun a => if mine a then a.fails 0x1B else a }
        if e.2.instr.isAccess then s.reportOp e.1 else s.push (e.2.again e.1))
    s)

/-- PCIE_LINK_UP (R452). -/
def execPcieLinkUp (s : State) : Host.Outcome State Fault Refusal := .next { s with link := { s.link with hostUp := true } }

end Sys2Proof.Machine
end

