-- ==== Sys2Proof/Machine/Control.lean ====
section
/-! DEFINITION. The control instructions but for TCINV (spec/06 R180 to R206). -/

namespace Sys2Proof.Machine

/-- NOP (R198). -/
def execNop (s : State) : Host.Outcome State Fault Refusal := groupWord .nop s id

/-- BRA (R199). -/
def execBra (i : Bool) (q : Fin 8) (o : BitVec 21) (s : State) : Host.Outcome State Fault Refusal :=
  issueWord (.bra i q o) s fun n g =>
    s.setGrp n (g.goto (if g.upred q.val ^^ i then fbTarget g.clause.hdr o else g.clause.fall))

/-- The lanes of `m` for which a lane predicate, optionally inverted, holds (R183, R203). -/
def Group.predLanes (g : Group) (i : Bool) (p : Nat) : Mask := if i then ~~~g.pred p else g.pred p

/-- BRD (R183). -/
def execBrd (i : Bool) (p : Fin 8) (o : BitVec 21) (s : State) : Host.Outcome State Fault Refusal :=
  issueWord (.brd i p o) s fun n g =>
    let live := g.lanes.em &&& g.lanes.live
    let t := live &&& g.predLanes i p.val
    let h := g.clause.hdr
    if t = live then s.setGrp n (g.goto (fbTarget h o))
    else if t = 0 then s.setGrp n (g.goto g.clause.fall)
    else if g.join.length = 32 then s.trapHere n (g.wide 0x1E 32 0)
    else
      s.setGrp n
        { g.goto (fbTarget h o) with
          join := ⟨true, g.clause.fall, live &&& ~~~t, g.fmt⟩ :: g.join
          lanes := { g.lanes with em := t, only := none } }

/-- PUSHJ (R182). -/
def execPushj (o : BitVec 21) (s : State) : Host.Outcome State Fault Refusal :=
  issueWord (.pushj o) s fun n g =>
    if g.join.length = 32 then s.trapHere n (g.wide 0x1E 32 0)
    else
      s.setGrp n
        { g.goto g.clause.fall with join := ⟨false, fbTarget g.clause.hdr o, g.lanes.em, g.fmt⟩ :: g.join }

/-- The first stacked entry with a live lane, and what lies below it (R184). -/
def endPath (live : Mask) : List JoinEntry → Option (JoinEntry × List JoinEntry)
  | [] => none
  | e :: t => if e.em &&& live ≠ 0 then some (e, t) else endPath live t

/-- The present path ends: the group goes on at the next stacked path, or ends (R184, R185). -/
def State.leavePath (s : State) (n : Nat) (g : Group) : State :=
  match endPath g.lanes.live g.join with
  | some (e, t) =>
    s.setGrp n
      { g.goto e.pc with
        join := t, fmt := e.fmt, lanes := { g.lanes with em := e.em &&& g.lanes.live, only := none } }
  | none => (s.setGrp n { g with join := [] }).groupEnd n

/-- JOIN (R184). -/
def execJoin (s : State) : Host.Outcome State Fault Refusal :=
  issueWord .join s fun n g =>
    if g.join = [] then s.trapHere n (g.wide 0x1E 0 0) else s.leavePath n g

/-- CALL (R200). -/
def execCall (o : BitVec 21) (s : State) : Host.Outcome State Fault Refusal :=
  issueWord (.call o) s fun n g =>
    s.setGrp n ((g.setUni 30 (w32 g.clause.fall)).goto (fbTarget g.clause.hdr o))

/-- A transfer to a target held in registers: misaligned when bits [1:0] are not zero (R39, R200). -/
def State.jump (s : State) (n : Nat) (g : Group) (t : Word) : State :=
  if t.toNat % 4 = 0 then s.setGrp n (g.goto t.toNat) else s.trapHere n (g.wide 0x05 t 0)

/-- RET (R200). -/
def execRet (a : RF) (s : State) : Host.Outcome State Fault Refusal :=
  issueWord (.ret a) s fun n g => s.jump n g (g.usrc a)

/-- BRX (R200). -/
def execBrx (a b : RF) (s : State) : Host.Outcome State Fault Refusal :=
  issueWord (.brx a b) s fun n g => s.jump n g (g.usrc a + 4 * g.usrc b)

/-- WBASE (R202). -/
def execWbase (i : BitVec 18) (s : State) : Host.Outcome State Fault Refusal :=
  issueWord (.wbase i) s fun n g =>
    if g.alloc ≤ 8 * i.toNat then s.trapHere n (g.wide 0x04 (w32 (8 * i.toNat)) 0)
    else s.setGrp n { g with wb := 8 * i.toNat }.next

/-- MRD (R203). -/
def execMrd (d : RF) (s : State) : Host.Outcome State Fault Refusal :=
  groupWord (.mrd d) s fun g => g.bcast d g.lanes.em

/-- MWR (R203). -/
def execMwr (a : RF) (s : State) : Host.Outcome State Fault Refusal :=
  groupWord (.mwr a) s fun g => { g with lanes := { g.lanes with em := g.usrc a &&& g.lanes.live } }

/-- MAND (R203). -/
def execMand (i : Bool) (p : Fin 8) (s : State) : Host.Outcome State Fault Refusal :=
  groupWord (.mand i p) s fun g => { g with lanes := { g.lanes with em := g.lanes.em &&& g.predLanes i p.val } }

/-- HRD (R203). -/
def execHrd (d : RF) (s : State) : Host.Outcome State Fault Refusal :=
  groupWord (.hrd d) s fun g => g.bcast d g.lanes.helper

/-- FMTS (R73, R204). -/
def execFmts (a : RF) (s : State) : Host.Outcome State Fault Refusal :=
  issueWord (.fmts a) s fun n g =>
    if fmtLegal (g.usrc a) then s.setGrp n { g with fmt := g.usrc a }.next
    else s.trapHere n (g.wide 0x01 g.word 0)

/-- FMTR (R204). -/
def execFmtr (d : RF) (s : State) : Host.Outcome State Fault Refusal :=
  groupWord (.fmtr d) s fun g => g.bcast d g.fmt

/-- YIELD (R201): a wait on a flag deschedules the group (R177), and a voluntary swap lets the oldest ready pending group in, when there is
one (R174). -/
def execYield (c : Option (Fin 12)) (o : BitVec 21) (s : State) : Host.Outcome State Fault Refusal :=
  issueWord (.yield c o) s fun n g =>
    match c with
    | some f =>
      if g.flagOf f.val = 0 then s.setGrp n (g.goto (fbTarget g.clause.hdr o)) else s.enterWait n (.flag f.val)
    | none =>
      let g' := g.goto (fbTarget g.clause.hdr o)
      s.setGrp n { g' with sched := { g'.sched with leaving := (s.entering n).isSome } }

/-- EXIT (R185): the active lanes exit and leave every stacked entry (R181). -/
def execExit (s : State) : Host.Outcome State Fault Refusal :=
  issueWord .exit s fun n g =>
    let live := g.lanes.live &&& ~~~g.lanes.em
    let g := { g with
      join := g.join.map fun e => { e with em := e.em &&& live }
      lanes := { g.lanes with live := live, em := g.lanes.em &&& live } }
    s.leavePath n g

/-- TRAP (R206). -/
def execTrap (i : BitVec 18) (s : State) : Host.Outcome State Fault Refusal :=
  issueWord (.trap i) s fun n g => s.takeTrap n (g.wide 0x19 (i.setWidth 32) 0) g.clause.fall g.clause false

/-- BRK (R206). -/
def execBrk (s : State) : Host.Outcome State Fault Refusal :=
  issueWord .brk s fun n g => s.takeTrap n (g.wide 0x1A (w32 g.pc) 0) g.clause.fall g.clause false

/-- TRET (R192). -/
def execTret (s : State) : Host.Outcome State Fault Refusal :=
  issueChecked (fun g => if g.trap.handler then none else some 0x03) .tret s fun n g => s.setGrp n g.tret

/-- The FLAGS special register (R194). -/
def Group.flagsReg (g : Group) : Word :=
  w32 ((List.range 12).foldl (fun t i => if g.flagOf i = 0 then t else t + 2 ^ i) 0 + (if g.trap.handler then 2 ^ 16 else 0)
    + (if g.trap.tdef then 2 ^ 17 else 0))

/-- Special register `i` of group `n` in lane `L`, but for the clock and TICK (R194). -/
def State.special (s : State) (n : Nat) (i L : Nat) : Word :=
  let g := s.grp n
  let b := s.gblk n
  let c := s.crs b.course
  let l := s.glch n
  match i with
  | 0 => w32 L
  | 1 => w32 (L / 4)
  | 2 => w32 g.gid
  | 3 => w32 (c.num * l.lr.bpc + b.rank)
  | 4 => w32 c.num
  | 5 => w32 l.token
  | 6 => w32 l.lr.gpb
  | 7 => w32 l.lr.bpc
  | 8 => w32 l.lr.ncourse
  | 10 => g.clockHi
  | 12 => w32 (dieOf b.core)
  | 13 => w32 b.core
  | 14 => w32 g.wb
  | 15 => w32 g.alloc
  | 16 => g.flagsReg
  | 17 => g.trap.tem
  | 18 => g.trap.tfm
  | 19 => g.trap.tpc
  | 20 => g.trap.tcause
  | 21 => g.trap.tval
  | 22 => g.trap.tvalhi
  | 23 => tget 0 g.trap.tlane L
  | 24 => g.lanes.helper
  | 25 => w32 g.join.length
  | 26 => w32 g.part
  | 27 => w32 (1 + Config.revisionStep.val)
  | 28 => 1
  | 29 => w32 l.ctx
  | _ => 0

/-- The special registers that hold a value for each lane (R194). -/
def perLane (i : Nat) : Bool := i == 0 || i == 1 || i == 23

/-- SRD (R195): TICK is read by a memory-class operation, CLOCKLO latches the upper half, every other register reads at
once. -/
def execSrd (d : RF) (i : Fin 30) (s : State) : Host.Outcome State Fault Refusal :=
  issueWord (.srd d i) s fun n g =>
    if i.val = 11 then
      ((s.issueOp n { g.newOp n (.srd d i) with dest := g.destRegs d 1, cls := 4 }).push (.loadDataReturn s.nextOp))
    else if i.val = 9 then
      let t := Config.freeClock s.free
      s.draw.setGrp n ({ g with clockHi := t.extractLsb' 32 32 }.bcast d (t.extractLsb' 0 32)).next
    else if perLane i.val then s.setGrp n (g.dst d 0 fun L => s.special n i.val L).next
    else s.setGrp n (g.bcast d (s.special n i.val 0)).next

/-- A write of a trap register, shaped as R194 states. -/
def Group.writeTrap (g : Group) (i : Nat) (v : Word) : Group :=
  { g with
    trap :=
      match i with
      | 17 => { g.trap with tem := v &&& g.lanes.launch }
      | 18 => { g.trap with tfm := v &&& g.lanes.launch }
      | 19 => { g.trap with tpc := v &&& 0xFFFFFFFC, tpcWritten := true }
      | 20 => { g.trap with tcause := v &&& 0xFF }
      | 21 => { g.trap with tval := v }
      | _ => g.trap }

/-- SWR (R196). -/
def execSwr (a : RF) (i : Fin 30) (s : State) : Host.Outcome State Fault Refusal :=
  issueChecked
    (fun g => if i.val < 17 ∨ 21 < i.val then some 0x01 else if g.trap.handler then none else some 0x03)
    (.swr a i) s fun n g => s.setGrp n (g.writeTrap i.val (g.usrc a)).next

/-- UCMP (R205). -/
def execUcmp (c : ICond) (q : Fin 8) (a b : RF) (s : State) : Host.Outcome State Fault Refusal :=
  groupWord (.ucmp c q a b) s fun g => g.setUpred q.val (c.holds (g.usrc a) (g.usrc b))

end Sys2Proof.Machine
end

