-- ==== Sys2Proof/Machine/Dispatch.lean ====
section
/-! DEFINITION. The one dispatch from an instruction or operation to its meaning, an arm for each constructor of `Instr`. -/

namespace Sys2Proof.Machine

open Sys2Proof

/-- The meaning of every row of spec/opcode_table.json. -/
def exec (i : Instr) (s : State) : Host.Outcome State Fault Refusal :=
  match i with
  | .nop => Sys2Proof.Machine.execNop s
  | .bra inv q o => Sys2Proof.Machine.execBra inv q o s
  | .brd inv p o => Sys2Proof.Machine.execBrd inv p o s
  | .pushj o => Sys2Proof.Machine.execPushj o s
  | .join => Sys2Proof.Machine.execJoin s
  | .call o => Sys2Proof.Machine.execCall o s
  | .ret a => Sys2Proof.Machine.execRet a s
  | .brx a b => Sys2Proof.Machine.execBrx a b s
  | .wbase imm => Sys2Proof.Machine.execWbase imm s
  | .mrd d => Sys2Proof.Machine.execMrd d s
  | .mwr a => Sys2Proof.Machine.execMwr a s
  | .mand inv p => Sys2Proof.Machine.execMand inv p s
  | .hrd d => Sys2Proof.Machine.execHrd d s
  | .fmts a => Sys2Proof.Machine.execFmts a s
  | .fmtr d => Sys2Proof.Machine.execFmtr d s
  | .yield c o => Sys2Proof.Machine.execYield c o s
  | .exit => Sys2Proof.Machine.execExit s
  | .trap imm => Sys2Proof.Machine.execTrap imm s
  | .tret => Sys2Proof.Machine.execTret s
  | .srd d imm => Sys2Proof.Machine.execSrd d imm s
  | .swr a imm => Sys2Proof.Machine.execSwr a imm s
  | .ucmp c q a b => Sys2Proof.Machine.execUcmp c q a b s
  | .tcinv a => Sys2Proof.Machine.execTcinv a s
  | .brk => Sys2Proof.Machine.execBrk s
  | .iadd d a b => Sys2Proof.Machine.execIadd d a b s
  | .isub d a b => Sys2Proof.Machine.execIsub d a b s
  | .imin d a b => Sys2Proof.Machine.execImin d a b s
  | .imax d a b => Sys2Proof.Machine.execImax d a b s
  | .iminu d a b => Sys2Proof.Machine.execIminu d a b s
  | .imaxu d a b => Sys2Proof.Machine.execImaxu d a b s
  | .iabsd d a b => Sys2Proof.Machine.execIabsd d a b s
  | .iadds d a b => Sys2Proof.Machine.execIadds d a b s
  | .isubs d a b => Sys2Proof.Machine.execIsubs d a b s
  | .imul d a b => Sys2Proof.Machine.execImul d a b s
  | .imulh d a b => Sys2Proof.Machine.execImulh d a b s
  | .imulhu d a b => Sys2Proof.Machine.execImulhu d a b s
  | .imad d a b => Sys2Proof.Machine.execImad d a b s
  | .and d a b => Sys2Proof.Machine.execAnd d a b s
  | .or d a b => Sys2Proof.Machine.execOr d a b s
  | .xor d a b => Sys2Proof.Machine.execXor d a b s
  | .andn d a b => Sys2Proof.Machine.execAndn d a b s
  | .orn d a b => Sys2Proof.Machine.execOrn d a b s
  | .xnor d a b => Sys2Proof.Machine.execXnor d a b s
  | .shl d a b => Sys2Proof.Machine.execShl d a b s
  | .shr d a b => Sys2Proof.Machine.execShr d a b s
  | .sar d a b => Sys2Proof.Machine.execSar d a b s
  | .rol d a b => Sys2Proof.Machine.execRol d a b s
  | .ror d a b => Sys2Proof.Machine.execRor d a b s
  | .popc d a => Sys2Proof.Machine.execPopc d a s
  | .clz d a => Sys2Proof.Machine.execClz d a s
  | .ctz d a => Sys2Proof.Machine.execCtz d a s
  | .brev d a => Sys2Proof.Machine.execBrev d a s
  | .bswap d a => Sys2Proof.Machine.execBswap d a s
  | .bfe d a b => Sys2Proof.Machine.execBfe d a b s
  | .bfeu d a b => Sys2Proof.Machine.execBfeu d a b s
  | .bfi d a b => Sys2Proof.Machine.execBfi d a b s
  | .icmp c p a b => Sys2Proof.Machine.execIcmp c p a b s
  | .sel p d a b => Sys2Proof.Machine.execSel p d a b s
  | .mov d a => Sys2Proof.Machine.execMov d a s
  | .pmov d p => Sys2Proof.Machine.execPmov d p s
  | .movp p a => Sys2Proof.Machine.execMovp p a s
  | .addi d a imm => Sys2Proof.Machine.execAddi d a imm s
  | .andi d a imm => Sys2Proof.Machine.execAndi d a imm s
  | .ori d a imm => Sys2Proof.Machine.execOri d a imm s
  | .xori d a imm => Sys2Proof.Machine.execXori d a imm s
  | .shli d a n => Sys2Proof.Machine.execShli d a n s
  | .shri d a n => Sys2Proof.Machine.execShri d a n s
  | .sari d a n => Sys2Proof.Machine.execSari d a n s
  | .icmpi p a c imm => Sys2Proof.Machine.execIcmpi p a c imm s
  | .muli d a imm => Sys2Proof.Machine.execMuli d a imm s
  | .movi d imm => Sys2Proof.Machine.execMovi d imm s
  | .movhi d imm => Sys2Proof.Machine.execMovhi d imm s
  | .fadd d a b => Sys2Proof.Machine.execFadd d a b s
  | .fsub d a b => Sys2Proof.Machine.execFsub d a b s
  | .fmul d a b => Sys2Proof.Machine.execFmul d a b s
  | .ffma d a b => Sys2Proof.Machine.execFfma d a b s
  | .ffms d a b => Sys2Proof.Machine.execFfms d a b s
  | .fmin d a b => Sys2Proof.Machine.execFmin d a b s
  | .fmax d a b => Sys2Proof.Machine.execFmax d a b s
  | .fdiv d a b => Sys2Proof.Machine.execFdiv d a b s
  | .fabs d a => Sys2Proof.Machine.execFabs d a s
  | .fneg d a => Sys2Proof.Machine.execFneg d a s
  | .fcpys d a b => Sys2Proof.Machine.execFcpys d a b s
  | .fcmp c p a b => Sys2Proof.Machine.execFcmp c p a b s
  | .frcp d a => Sys2Proof.Machine.execFrcp d a s
  | .frsq d a => Sys2Proof.Machine.execFrsq d a s
  | .fsqrt d a => Sys2Proof.Machine.execFsqrt d a s
  | .fexp2 d a => Sys2Proof.Machine.execFexp2 d a s
  | .flog2 d a => Sys2Proof.Machine.execFlog2 d a s
  | .fsinpi d a => Sys2Proof.Machine.execFsinpi d a s
  | .fcospi d a => Sys2Proof.Machine.execFcospi d a s
  | .ftanh d a => Sys2Proof.Machine.execFtanh d a s
  | .frne d a => Sys2Proof.Machine.execFrne d a s
  | .frtz d a => Sys2Proof.Machine.execFrtz d a s
  | .fflr d a => Sys2Proof.Machine.execFflr d a s
  | .fceil d a => Sys2Proof.Machine.execFceil d a s
  | .hadd2 d a b => Sys2Proof.Machine.execHadd2 d a b s
  | .hmul2 d a b => Sys2Proof.Machine.execHmul2 d a b s
  | .hfma2 d a b => Sys2Proof.Machine.execHfma2 d a b s
  | .hmin2 d a b => Sys2Proof.Machine.execHmin2 d a b s
  | .hmax2 d a b => Sys2Proof.Machine.execHmax2 d a b s
  | .cvtfi d a m => Sys2Proof.Machine.execCvtfi d a m s
  | .cvtfu d a m => Sys2Proof.Machine.execCvtfu d a m s
  | .cvtif d a => Sys2Proof.Machine.execCvtif d a s
  | .cvtuf d a => Sys2Proof.Machine.execCvtuf d a s
  | .cvtfn d a b => Sys2Proof.Machine.execCvtfn d a b s
  | .cvtnf d a b => Sys2Proof.Machine.execCvtnf d a b s
  | .cvtnfh d a b => Sys2Proof.Machine.execCvtnfh d a b s
  | .cvtfc d a => Sys2Proof.Machine.execCvtfc d a s
  | .cvtcf d a b => Sys2Proof.Machine.execCvtcf d a b s
  | .cvtfnt d a b => Sys2Proof.Machine.execCvtfnt d a b s
  | .qswh d a => Sys2Proof.Machine.execQswh d a s
  | .qswv d a => Sys2Proof.Machine.execQswv d a s
  | .qswd d a => Sys2Proof.Machine.execQswd d a s
  | .qbc d a n => Sys2Proof.Machine.execQbc d a n s
  | .shfli d a b => Sys2Proof.Machine.execShfli d a b s
  | .shflu d a b => Sys2Proof.Machine.execShflu d a b s
  | .shfld d a b => Sys2Proof.Machine.execShfld d a b s
  | .shflx d a b => Sys2Proof.Machine.execShflx d a b s
  | .vany q inv p => Sys2Proof.Machine.execVany q inv p s
  | .vall q inv p => Sys2Proof.Machine.execVall q inv p s
  | .vbal d inv p => Sys2Proof.Machine.execVbal d inv p s
  | .rdadd d a => Sys2Proof.Machine.execRdadd d a s
  | .rdmin d a => Sys2Proof.Machine.execRdmin d a s
  | .rdmax d a => Sys2Proof.Machine.execRdmax d a s
  | .rdand d a => Sys2Proof.Machine.execRdand d a s
  | .rdor d a => Sys2Proof.Machine.execRdor d a s
  | .rdxor d a => Sys2Proof.Machine.execRdxor d a s
  | .rdfadd d a => Sys2Proof.Machine.execRdfadd d a s
  | .movxr d a b => Sys2Proof.Machine.execMovxr d a b s
  | .movxw d a b => Sys2Proof.Machine.execMovxw d a b s
  | .hmix d a b => Sys2Proof.Machine.execHmix d a b s
  | .prmt d a b => Sys2Proof.Machine.execPrmt d a b s
  | .addw d a b => Sys2Proof.Machine.execAddw d a b s
  | .subw d a b => Sys2Proof.Machine.execSubw d a b s
  | .mulw d a b => Sys2Proof.Machine.execMulw d a b s
  | .mulwu d a b => Sys2Proof.Machine.execMulwu d a b s
  | .shlw d a b => Sys2Proof.Machine.execShlw d a b s
  | .shrw d a b => Sys2Proof.Machine.execShrw d a b s
  | .ld h z d a c => Sys2Proof.Machine.execLd h z d a c s
  | .lda h z d a k c => Sys2Proof.Machine.execLda h z d a k c s
  | .st h z d a c => Sys2Proof.Machine.execSt h z d a c s
  | .stl h z d a k c => Sys2Proof.Machine.execStl h z d a k c s
  | .lds h z d a b => Sys2Proof.Machine.execLds h z d a b s
  | .sts h z d a b => Sys2Proof.Machine.execSts h z d a b s
  | .ldw h z d a => Sys2Proof.Machine.execLdw h z d a s
  | .stw h z d a => Sys2Proof.Machine.execStw h z d a s
  | .atom f d a c => Sys2Proof.Machine.execAtom f d a c s
  | .atoma f d a k c => Sys2Proof.Machine.execAtoma f d a k c s
  | .atoml f d a k c => Sys2Proof.Machine.execAtoml f d a k c s
  | .atomr f d a k c => Sys2Proof.Machine.execAtomr f d a k c s
  | .atoms f d a b => Sys2Proof.Machine.execAtoms f d a b s
  | .fence r k => Sys2Proof.Machine.execFence r k s
  | .capld e a => Sys2Proof.Machine.execCapld e a s
  | .capnar e a c => Sys2Proof.Machine.execCapnar e a c s
  | .caprd d c => Sys2Proof.Machine.execCaprd d c s
  | .caprr e a c => Sys2Proof.Machine.execCaprr e a c s
  | .discard a c => Sys2Proof.Machine.execDiscard a c s
  | .pref a c => Sys2Proof.Machine.execPref a c s
  | .cpygs q a c => Sys2Proof.Machine.execCpygs q a c s
  | .cpysg q e a => Sys2Proof.Machine.execCpysg q e a s
  | .cpysw q a => Sys2Proof.Machine.execCpysw q a s
  | .cpygg q e a c => Sys2Proof.Machine.execCpygg q e a c s
  | .cpyx q a c => Sys2Proof.Machine.execCpyx q a c s
  | .barinit a => Sys2Proof.Machine.execBarinit a s
  | .bararr a => Sys2Proof.Machine.execBararr a s
  | .barwait q a => Sys2Proof.Machine.execBarwait q a s
  | .bartry d a x => Sys2Proof.Machine.execBartry d a x s
  | .monarm m a f => Sys2Proof.Machine.execMonarm m a f s
  | .monwait d m => Sys2Proof.Machine.execMonwait d m s
  | .monclr m => Sys2Proof.Machine.execMonclr m s
  | .mma r z t d a b => Sys2Proof.Machine.execMma r z t d a b s
  | .accz a => Sys2Proof.Machine.execAccz a s
  | .accld a f => Sys2Proof.Machine.execAccld a f s
  | .accst a f => Sys2Proof.Machine.execAccst a f s
  | .accss a f => Sys2Proof.Machine.execAccss a f s
  | .accxa d a m => Sys2Proof.Machine.execAccxa d a m s
  | .accxr d a m => Sys2Proof.Machine.execAccxr d a m s
  | .acccp a => Sys2Proof.Machine.execAcccp a s
  | .cbld n a c => Sys2Proof.Machine.execCbld n a c s
  | .ldsb n d a c => Sys2Proof.Machine.execLdsb n d a c s
  | .wset n a => Sys2Proof.Machine.execWset n a s
  | .wgo n => Sys2Proof.Machine.execWgo n s
  | .qpop q d => Sys2Proof.Machine.execQpop q d s
  | .wstop => Sys2Proof.Machine.execWstop s
  | .wstat d => Sys2Proof.Machine.execWstat d s
  | .sqres d a => Sys2Proof.Machine.execSqres d a s
  | .sqcom a => Sys2Proof.Machine.execSqcom a s
  | .sqapp d a b => Sys2Proof.Machine.execSqapp d a b s
  | .sqlen d a => Sys2Proof.Machine.execSqlen d a s
  | .sqrlen d a => Sys2Proof.Machine.execSqrlen d a s
  | .sqwlo d a => Sys2Proof.Machine.execSqwlo d a s
  | .sqmap d a b => Sys2Proof.Machine.execSqmap d a b s
  | .sqfork d a => Sys2Proof.Machine.execSqfork d a s
  | .sqnew d a => Sys2Proof.Machine.execSqnew d a s
  | .sqrel a => Sys2Proof.Machine.execSqrel a s
  | .sqwin a => Sys2Proof.Machine.execSqwin a s
  | .sqtake d a => Sys2Proof.Machine.execSqtake d a s
  | .sqseal a => Sys2Proof.Machine.execSqseal a s
  | .flpop d a => Sys2Proof.Machine.execFlpop d a s
  | .flpush a => Sys2Proof.Machine.execFlpush a s
  | .flcnt d a => Sys2Proof.Machine.execFlcnt d a s
  | .mgmatch d a => Sys2Proof.Machine.execMgmatch d a s
  | .mgmerge d a => Sys2Proof.Machine.execMgmerge d a s
  | .mgsplit a => Sys2Proof.Machine.execMgsplit a s
  | .mgbias a => Sys2Proof.Machine.execMgbias a s
  | .mgpop a => Sys2Proof.Machine.execMgpop a s
  | .mgstat d a => Sys2Proof.Machine.execMgstat d a s
  | .launch d a c => Sys2Proof.Machine.execLaunch d a c s
  | .lwait d a => Sys2Proof.Machine.execLwait d a s
  | .lstat d a => Sys2Proof.Machine.execLstat d a s
  | .rwri a c => Sys2Proof.Machine.execRwri a c s
  | .rrd a c => Sys2Proof.Machine.execRrd a c s
  | .clauseFetch g => Sys2Proof.Machine.execClauseFetch g s
  | .clauseAccept g => Sys2Proof.Machine.execClauseAccept g s
  | .deferredTrap g => Sys2Proof.Machine.execDeferredTrap g s
  | .groupAged g => Sys2Proof.Machine.execGroupAged g s
  | .pendingAgeSwap g => Sys2Proof.Machine.execPendingAgeSwap g s
  | .swap inn out => Sys2Proof.Machine.execSwap inn out s
  | .swapDone inn out => Sys2Proof.Machine.execSwapDone inn out s
  | .waitEventWake g => Sys2Proof.Machine.execWaitEventWake g s
  | .farCheckReport op => Sys2Proof.Machine.execFarCheckReport op s
  | .loadDataReturn op => Sys2Proof.Machine.execLoadDataReturn op s
  | .atomicReturn op => Sys2Proof.Machine.execAtomicReturn op s
  | .atomicResultLost op => Sys2Proof.Machine.execAtomicResultLost op s
  | .capldEntryReturn op => Sys2Proof.Machine.execCapldEntryReturn op s
  | .fenceScComplete op => Sys2Proof.Machine.execFenceScComplete op s
  | .tcinvComplete op => Sys2Proof.Machine.execTcinvComplete op s
  | .prefArrival op => Sys2Proof.Machine.execPrefArrival op s
  | .reclaimComplete core => Sys2Proof.Machine.execReclaimComplete core s
  | .copyComplete op => Sys2Proof.Machine.execCopyComplete op s
  | .seamCompletionMessage blk off => Sys2Proof.Machine.execSeamCompletionMessage blk off s
  | .seamCompletionAck blk off => Sys2Proof.Machine.execSeamCompletionAck blk off s
  | .monitorReread g m => Sys2Proof.Machine.execMonitorReread g m s
  | .matrixCommandComplete op => Sys2Proof.Machine.execMatrixCommandComplete op s
  | .walkerReadReturn g ent => Sys2Proof.Machine.execWalkerReadReturn g ent s
  | .probeTimeout g => Sys2Proof.Machine.execProbeTimeout g s
  | .sequenceAnswer op => Sys2Proof.Machine.execSequenceAnswer op s
  | .mergeCommandComplete op => Sys2Proof.Machine.execMergeCommandComplete op s
  | .packageTick => Sys2Proof.Machine.execPackageTick s
  | .systemTick => Sys2Proof.Machine.execSystemTick s
  | .rotation ctx qn => Sys2Proof.Machine.execRotation ctx qn s
  | .spillComplete course => Sys2Proof.Machine.execSpillComplete course s
  | .predictorDecay => Sys2Proof.Machine.execPredictorDecay s
  | .mappingBoundExceeded ctx qn => Sys2Proof.Machine.execMappingBoundExceeded ctx qn s
  | .recordAccept ctx qn => Sys2Proof.Machine.execRecordAccept ctx qn s
  | .launchComplete launch => Sys2Proof.Machine.execLaunchComplete launch s
  | .blockRetire blk => Sys2Proof.Machine.execBlockRetire blk s
  | .dieFatalFailure die => Sys2Proof.Machine.execDieFatalFailure die s
  | .reserve ctx qn n => Sys2Proof.Machine.execReserve ctx qn n s
  | .commit ctx qn n => Sys2Proof.Machine.execCommit ctx qn n s
  | .refresh ctx qn => Sys2Proof.Machine.execRefresh ctx qn s
  | .replayPage ctx obj page => Sys2Proof.Machine.execReplayPage ctx obj page s
  | .replayContext ctx => Sys2Proof.Machine.execReplayContext ctx s
  | .status => Sys2Proof.Machine.execStatus s
  | .ctxreg => Sys2Proof.Machine.execCtxreg s
  | .seqarea => Sys2Proof.Machine.execSeqarea s
  | .flset => Sys2Proof.Machine.execFlset s
  | .objtab => Sys2Proof.Machine.execObjtab s
  | .faultseq => Sys2Proof.Machine.execFaultseq s
  | .notetab => Sys2Proof.Machine.execNotetab s
  | .quantum => Sys2Proof.Machine.execQuantum s
  | .tclimset => Sys2Proof.Machine.execTclimset s
  | .domain => Sys2Proof.Machine.execDomain s
  | .protdom => Sys2Proof.Machine.execProtdom s
  | .poisondel => Sys2Proof.Machine.execPoisondel s
  | .cntread => Sys2Proof.Machine.execCntread s
  | .logrot => Sys2Proof.Machine.execLogrot s
  | .logread => Sys2Proof.Machine.execLogread s
  | .pwrlim => Sys2Proof.Machine.execPwrlim s
  | .portrst => Sys2Proof.Machine.execPortrst s
  | .dieup => Sys2Proof.Machine.execDieup s
  | .ctxrel => Sys2Proof.Machine.execCtxrel s
  | .sqcreate => Sys2Proof.Machine.execSqcreate s
  | .flfill => Sys2Proof.Machine.execFlfill s
  | .sqdel => Sys2Proof.Machine.execSqdel s
  | .registerWrite off size val => Sys2Proof.Machine.execRegisterWrite off size val s
  | .hostApertureRead off size => Sys2Proof.Machine.execHostApertureRead off size s
  | .hostApertureWrite off bytes => Sys2Proof.Machine.execHostApertureWrite off bytes s
  | .hostAtomicopReceived tag => Sys2Proof.Machine.execHostAtomicopReceived tag s
  | .getVersion ch => Sys2Proof.Machine.execGetVersion ch s
  | .getCapabilities ch => Sys2Proof.Machine.execGetCapabilities ch s
  | .negotiateAlgorithms ch sigs hashes => Sys2Proof.Machine.execNegotiateAlgorithms ch sigs hashes s
  | .getDigests ch => Sys2Proof.Machine.execGetDigests ch s
  | .getCertificate ch slot off len => Sys2Proof.Machine.execGetCertificate ch slot off len s
  | .challenge ch slot nonce => Sys2Proof.Machine.execChallenge ch slot nonce s
  | .getMeasurements ch idx nonce => Sys2Proof.Machine.execGetMeasurements ch idx nonce s
  | .packageReset => Sys2Proof.Machine.execPackageReset s
  | .selftestComplete code repaired => Sys2Proof.Machine.execSelftestComplete code repaired s
  | .powerControl isl links => Sys2Proof.Machine.execPowerControl isl links s
  | .thermalThrottle isl => Sys2Proof.Machine.execThermalThrottle isl s
  | .dieOverheat die => Sys2Proof.Machine.execDieOverheat die s
  | .portCheck op line => Sys2Proof.Machine.execPortCheck op line s
  | .faultReport r => Sys2Proof.Machine.execFaultReport r s
  | .hbmReadComplete line sector ecc => Sys2Proof.Machine.execHbmReadComplete line sector ecc s
  | .farAtomic op lane => Sys2Proof.Machine.execFarAtomic op lane s
  | .hostAtomic op lane => Sys2Proof.Machine.execHostAtomic op lane s
  | .atomicopCompletion op lane st val => Sys2Proof.Machine.execAtomicopCompletion op lane st val s
  | .sliceTcinv op slice => Sys2Proof.Machine.execSliceTcinv op slice s
  | .sliceTcinvDrained op slice => Sys2Proof.Machine.execSliceTcinvDrained op slice s
  | .pcieCompletion op lane st val => Sys2Proof.Machine.execPcieCompletion op lane st val s
  | .completionTimeout op lane => Sys2Proof.Machine.execCompletionTimeout op lane s
  | .pcieLinkDown => Sys2Proof.Machine.execPcieLinkDown s
  | .pcieLinkUp => Sys2Proof.Machine.execPcieLinkUp s
  | .linkTrained port => Sys2Proof.Machine.execLinkTrained port s
  | .discovery port m => Sys2Proof.Machine.execDiscovery port m s
  | .flitReceived port seq ack crcOk msg => Sys2Proof.Machine.execFlitReceived port seq ack crcOk msg s
  | .nak port last => Sys2Proof.Machine.execNak port last s
  | .ackTimeout port => Sys2Proof.Machine.execAckTimeout port s
  | .lossOfSignal port => Sys2Proof.Machine.execLossOfSignal port s
  | .retrainComplete port => Sys2Proof.Machine.execRetrainComplete port s
  | .inboundRwri port r => Sys2Proof.Machine.execInboundRwri port r s
  | .inboundRrd port r => Sys2Proof.Machine.execInboundRrd port r s
  | .rwriAck op st => Sys2Proof.Machine.execRwriAck op st s
  | .rrdData op st data => Sys2Proof.Machine.execRrdData op st data s
  | .channelRequest port r => Sys2Proof.Machine.execChannelRequest port r s
  | .slabRead port m => Sys2Proof.Machine.execSlabRead port m s
  | .slabExclusive port m => Sys2Proof.Machine.execSlabExclusive port m s
  | .slabDowngrade port m => Sys2Proof.Machine.execSlabDowngrade port m s
  | .slabTeardown port m => Sys2Proof.Machine.execSlabTeardown port m s
  | .rd m => Sys2Proof.Machine.execRd m s
  | .xreq m => Sys2Proof.Machine.execXreq m s
  | .srdSteeredRead m => Sys2Proof.Machine.execSrdSteeredRead m s
  | .inv m => Sys2Proof.Machine.execInv m s
  | .tkeep m => Sys2Proof.Machine.execTkeep m s
  | .grant m => Sys2Proof.Machine.execGrant m s
  | .data m => Sys2Proof.Machine.execData m s
  | .ack m => Sys2Proof.Machine.execAck m s
  | .prune m => Sys2Proof.Machine.execPrune m s
  | .jdone m => Sys2Proof.Machine.execJdone m s
  | .leave m => Sys2Proof.Machine.execLeave m s
  | .wb m => Sys2Proof.Machine.execWb m s
  | .wback m => Sys2Proof.Machine.execWback m s
  | .snoop m => Sys2Proof.Machine.execSnoop m s
  | .quiet tag router => Sys2Proof.Machine.execQuiet tag router s
  | .heldMessageRelease router tag slab => Sys2Proof.Machine.execHeldMessageRelease router tag slab s
  | .wreq link width => Sys2Proof.Machine.execWreq link width s
  | .wack link => Sys2Proof.Machine.execWack link s
  | .trainingEnd link => Sys2Proof.Machine.execTrainingEnd link s
  | .frame link => Sys2Proof.Machine.execFrame link s
  | .frameLockTimeout link => Sys2Proof.Machine.execFrameLockTimeout link s
  | .wnak link => Sys2Proof.Machine.execWnak link s
  | .romCheckComplete ok => Sys2Proof.Machine.execRomCheckComplete ok s
  | .slotMoveComplete ctx qn => Sys2Proof.Machine.execSlotMoveComplete ctx qn s
  | .poolAllocationComplete blk => Sys2Proof.Machine.execPoolAllocationComplete blk s
  | .imageFillComplete course bad => Sys2Proof.Machine.execImageFillComplete course bad s
  | .bankSwitchComplete course => Sys2Proof.Machine.execBankSwitchComplete course s
  | .walkerCommandComplete op => Sys2Proof.Machine.execWalkerCommandComplete op s
  | .walkerEntryGenerate g => Sys2Proof.Machine.execWalkerEntryGenerate g s
  | .residencyProbeAnswer g tile rank => Sys2Proof.Machine.execResidencyProbeAnswer g tile rank s
  | .fixedLatencyComplete g tok => Sys2Proof.Machine.execFixedLatencyComplete g tok s

end Sys2Proof.Machine
end

