-- ==== Sys2Proof/Machine/Events.lean ====
section
/-! DEFINITION. Running an event that is due: each calls the meaning that `exec` gives its row. -/

namespace Sys2Proof.Machine

/-- The meaning of an event, that of its row in `exec`. -/
def Event.run (e : Event) (s : State) : Host.Outcome State Fault Refusal :=
  match e with
  | .clauseFetch g => execClauseFetch g s
  | .clauseAccept g => execClauseAccept g s
  | .deferredTrap g => execDeferredTrap g s
  | .groupAged g => execGroupAged g s
  | .pendingAgeSwap g => execPendingAgeSwap g s
  | .swap inn out => execSwap inn out s
  | .swapDone inn out => execSwapDone inn out s
  | .waitEventWake g => execWaitEventWake g s
  | .farCheckReport op => execFarCheckReport op s
  | .loadDataReturn op => execLoadDataReturn op s
  | .atomicReturn op => execAtomicReturn op s
  | .atomicResultLost op => execAtomicResultLost op s
  | .capldEntryReturn op => execCapldEntryReturn op s
  | .fenceScComplete op => execFenceScComplete op s
  | .tcinvComplete op => execTcinvComplete op s
  | .prefArrival op => execPrefArrival op s
  | .reclaimComplete core => execReclaimComplete core s
  | .copyComplete op => execCopyComplete op s
  | .seamCompletionMessage blk off => execSeamCompletionMessage blk off s
  | .seamCompletionAck blk off => execSeamCompletionAck blk off s
  | .monitorReread g i => execMonitorReread g i s
  | .matrixCommandComplete op => execMatrixCommandComplete op s
  | .walkerReadReturn g ent => execWalkerReadReturn g ent s
  | .probeTimeout g => execProbeTimeout g s
  | .sequenceAnswer op => execSequenceAnswer op s
  | .mergeCommandComplete op => execMergeCommandComplete op s
  | .packageTick => execPackageTick s
  | .systemTick => execSystemTick s
  | .rotation ctx qn => execRotation ctx qn s
  | .spillComplete course => execSpillComplete course s
  | .predictorDecay => execPredictorDecay s
  | .mappingBoundExceeded ctx qn => execMappingBoundExceeded ctx qn s
  | .recordAccept ctx qn => execRecordAccept ctx qn s
  | .launchComplete launch => execLaunchComplete launch s
  | .blockRetire blk => execBlockRetire blk s
  | .dieFatalFailure die => execDieFatalFailure die s
  | .reserve ctx qn n => execReserve ctx qn n s
  | .commit ctx qn n => execCommit ctx qn n s
  | .refresh ctx qn => execRefresh ctx qn s
  | .replayPage ctx obj page => execReplayPage ctx obj page s
  | .replayContext ctx => execReplayContext ctx s
  | .status => execStatus s
  | .ctxreg => execCtxreg s
  | .seqarea => execSeqarea s
  | .flset => execFlset s
  | .objtab => execObjtab s
  | .faultseq => execFaultseq s
  | .notetab => execNotetab s
  | .quantum => execQuantum s
  | .tclimset => execTclimset s
  | .domain => execDomain s
  | .protdom => execProtdom s
  | .poisondel => execPoisondel s
  | .cntread => execCntread s
  | .logrot => execLogrot s
  | .logread => execLogread s
  | .pwrlim => execPwrlim s
  | .portrst => execPortrst s
  | .dieup => execDieup s
  | .ctxrel => execCtxrel s
  | .sqcreate => execSqcreate s
  | .flfill => execFlfill s
  | .sqdel => execSqdel s
  | .registerWrite off size val => execRegisterWrite off size val s
  | .hostApertureRead off size => execHostApertureRead off size s
  | .hostApertureWrite off bytes => execHostApertureWrite off bytes s
  | .hostAtomicopReceived tag => execHostAtomicopReceived tag s
  | .getVersion ch => execGetVersion ch s
  | .getCapabilities ch => execGetCapabilities ch s
  | .negotiateAlgorithms ch sigs hashes => execNegotiateAlgorithms ch sigs hashes s
  | .getDigests ch => execGetDigests ch s
  | .getCertificate ch slot off len => execGetCertificate ch slot off len s
  | .challenge ch slot nonce => execChallenge ch slot nonce s
  | .getMeasurements ch idx nonce => execGetMeasurements ch idx nonce s
  | .packageReset => execPackageReset s
  | .selftestComplete code repaired => execSelftestComplete code repaired s
  | .powerControl isl links => execPowerControl isl links s
  | .thermalThrottle isl => execThermalThrottle isl s
  | .dieOverheat die => execDieOverheat die s
  | .portCheck op line => execPortCheck op line s
  | .faultReport r => execFaultReport r s
  | .hbmReadComplete line sector ecc => execHbmReadComplete line sector ecc s
  | .farAtomic op lane => execFarAtomic op lane s
  | .hostAtomic op lane => execHostAtomic op lane s
  | .atomicopCompletion op lane st val => execAtomicopCompletion op lane st val s
  | .sliceTcinv op slice => execSliceTcinv op slice s
  | .sliceTcinvDrained op slice => execSliceTcinvDrained op slice s
  | .pcieCompletion op lane st val => execPcieCompletion op lane st val s
  | .completionTimeout op lane => execCompletionTimeout op lane s
  | .pcieLinkDown => execPcieLinkDown s
  | .pcieLinkUp => execPcieLinkUp s
  | .linkTrained port => execLinkTrained port s
  | .discovery port m => execDiscovery port m s
  | .flitReceived port seq acked crcOk msg => execFlitReceived port seq acked crcOk msg s
  | .nak port last => execNak port last s
  | .ackTimeout port => execAckTimeout port s
  | .lossOfSignal port => execLossOfSignal port s
  | .retrainComplete port => execRetrainComplete port s
  | .inboundRwri port r => execInboundRwri port r s
  | .inboundRrd port r => execInboundRrd port r s
  | .rwriAck op st => execRwriAck op st s
  | .rrdData op st bytes => execRrdData op st bytes s
  | .channelRequest port r => execChannelRequest port r s
  | .slabRead port m => execSlabRead port m s
  | .slabExclusive port m => execSlabExclusive port m s
  | .slabDowngrade port m => execSlabDowngrade port m s
  | .slabTeardown port m => execSlabTeardown port m s
  | .rd m => execRd m s
  | .xreq m => execXreq m s
  | .srdSteeredRead m => execSrdSteeredRead m s
  | .inv m => execInv m s
  | .tkeep m => execTkeep m s
  | .grant m => execGrant m s
  | .data m => execData m s
  | .ack m => execAck m s
  | .prune m => execPrune m s
  | .jdone m => execJdone m s
  | .leave m => execLeave m s
  | .wb m => execWb m s
  | .wback m => execWback m s
  | .snoop m => execSnoop m s
  | .quiet tag router => execQuiet tag router s
  | .heldMessageRelease router tag slab => execHeldMessageRelease router tag slab s
  | .wreq link width => execWreq link width s
  | .wack link => execWack link s
  | .trainingEnd link => execTrainingEnd link s
  | .frame link => execFrame link s
  | .frameLockTimeout link => execFrameLockTimeout link s
  | .wnak link => execWnak link s
  | .romCheckComplete ok => execRomCheckComplete ok s
  | .slotMoveComplete ctx qn => execSlotMoveComplete ctx qn s
  | .poolAllocationComplete blk => execPoolAllocationComplete blk s
  | .imageFillComplete course bad => execImageFillComplete course bad s
  | .bankSwitchComplete course => execBankSwitchComplete course s
  | .walkerCommandComplete op => execWalkerCommandComplete op s
  | .walkerEntryGenerate g => execWalkerEntryGenerate g s
  | .residencyProbeAnswer g tile rank => execResidencyProbeAnswer g tile rank s
  | .fixedLatencyComplete g tok => execFixedLatencyComplete g tok s

end Sys2Proof.Machine
end

