-- ==== Sys2Proof/Machine/Sched.lean ====
section
/-! DEFINITION. Which step is taken next, and taking it (spec/06 R168 to R178; log entry 4). -/

namespace Sys2Proof.Machine

/-- A step that can be taken. -/
inductive Act where
  /-- the due event of this index in the agenda -/
  | due (k : Nat)
  /-- an event that a group's state enables -/
  | run (e : Event)
  /-- the partition of this group issues for it -/
  | issue (g : Nat)
  /-- a stalled group is descheduled -/
  | desched (g : Nat)
  | tick
  deriving DecidableEq, Repr

/-- The group its partition issues for (R173): the oldest aged ready group of the active set, else the oldest ready one. -/
def State.issueChoice (s : State) (g : Nat) : Option Nat :=
  let rs := (s.activeOf g).filter s.ready
  match s.oldest (rs.filter fun k => (s.grp k).sched.aged) with
  | some k => some k
  | none => s.oldest rs

/-- Why the word an active group stands at does not issue, as kinds that are counted once for an instruction: 0 a pending register (R20),
1 a flag count of 63 (R17), 2 a full copy command queue (R273). -/
def State.stallKinds (s : State) (g : Nat) : List Nat :=
  let x := s.grp g
  let i := x.nextInstr
  let f := x.flagFor (i.cls x)
  if x.atIssue ∧ x.sched.active ∧ !x.sched.swapping then
    (if x.pending (i.touched x.fmt x.wb) || !x.movxFree i then [0] else []) ++ (if f ≠ 15 ∧ 63 ≤ x.flagOf f then [1] else []) ++
      (if s.copyFull g i then [2] else [])
  else []

/-- The kinds not yet counted at the word. -/
def State.newStalls (s : State) (g : Nat) : List Nat := (s.stallKinds g).filter fun k => fld (s.grp g).sched.stalls k 1 == 0

/-- The stalls of a word are counted, each kind once: PSTALL, FSAT (R176) or CQFULL (R300); a group that has left its word starts afresh. -/
def State.noteStall (s : State) (g : Nat) : State :=
  let s := if (s.grp g).atIssue ∨ (s.grp g).sched.stalls = 0 then s
    else s.setGrp g { s.grp g with sched := { (s.grp g).sched with stalls := 0 } }
  (s.newStalls g).foldl
    (fun s k =>
      let x := s.grp g
      let s := s.setGrp g { x with sched := { x.sched with stalls := bitSet x.sched.stalls k } }
      if k = 2 then s.count 3 (s.gblk g).core 1 1 else s.count 1 (s.partOf g) k 1)
    s

/-- The stalls that stand when a step begins are counted (R20, R176, R273; log entry 18). -/
def State.noteStalls (s : State) : State := (List.range s.groups.length).foldl State.noteStall s

/-- The steps that one group's state enables. -/
def State.actsOf (s : State) (g : Nat) : List Act :=
  let x := s.grp g
  if !s.resident g then []
  else
    (match x.phase with
      | .fetch _ => if s.fetchOp g = none then [Act.run (.clauseFetch g)] else []
      | .fetched | .resume _ =>
        if x.sched.active && !x.sched.swapping && x.sched.sv.isNone && x.waitMet x.clause.wait then [.run (.clauseAccept g)] else []
      | _ => []) ++
      (if s.issueChoice g = some g then [.issue g] else []) ++
      (if x.sched.sv.isNone then (if (s.stallObject g).isSome then [.desched g] else [])
       else if s.stallObject g = x.sched.sv then [] else [.run (.waitEventWake g)]) ++
      (if s.entering g = some g ∧ !s.pendingAged g then
        (if s.placesTaken g < 8 then [.run (.swap g none)] else []) ++
          ((s.activeOf g).filter s.maySwapOut).map fun k => .run (.swap g (some k))
       else []) ++
      (if 256 ≤ x.sched.waited then
        (if x.sched.active then (if x.sched.aged then [] else [.run (.groupAged g)]) else [.run (.pendingAgeSwap g)])
       else [])

/-- The steps that the groups' states enable. -/
def State.acts (s : State) : List Act := (List.range s.groups.length).flatMap s.actsOf

/-- The step taken next: the one that `sched` names, or without one a fair rotation of due events, enabled steps and ticks. -/
def State.choose (s : State) : Act :=
  let due := (List.range s.agenda.length).map Act.due
  let acts := s.acts
  match s.sched with
  | n :: _ => ((due ++ acts ++ [Act.tick])[n % (due.length + acts.length + 1)]?).getD .tick
  | [] =>
    if s.turn % 128 = 127 then .tick
    else if s.turn % 2 = 0 ∧ due ≠ [] then .due 0
    else
      match acts[s.turn / 2 % acts.length]? with
      | some a => a
      | none => if due = [] then .tick else .due 0

/-- Events that keep their order: tree messages on their link (R431), messages that a Sahper Link port has delivered (R453), and the host's requests,
which have the PCI Express order of its function (R113, R124, R450). -/
def Event.channel (e : Event) : Option (Nat × Nat × Nat) :=
  match e with
  | .slabRead p _ | .slabExclusive p _ | .slabDowngrade p _ | .slabTeardown p _ | .inboundRwri p _ | .inboundRrd p _ | .channelRequest p _ | .discovery p _ =>
    some (p, 5, 5)
  | .rwriAck _ _ | .rrdData _ _ _ => some (0, 5, 6)
  | e => if e.fromHost then some (0, 5, 4) else e.lane

/-- The first event of the channel of the event of index `k`. -/
def State.firstOf (s : State) (k : Nat) : Nat :=
  match s.agenda[k]?.bind Event.channel with
  | none => k
  | some c => (s.agenda.findIdx? fun e => e.channel == some c).getD k

/-- The due event taken for index `k`: a tree message waits behind those before it on its link (R443), a request of the host behind those
before it. -/
def State.inOrder (s : State) (k : Nat) : Nat :=
  let j := s.firstOf k
  match s.agenda[j]? with
  | some f => match (s.agenda.take j).findIdx? fun e => e.leads f with
    | some i => s.firstOf i
    | none => j
  | none => j

/-- The choice is used up; the stalls there are have been counted, and what write-backs found uncorrectable is reported. -/
def State.advance (s : State) : State :=
  let s := s.noteStalls.noteLost
  { s with sched := s.sched.tail, turn := s.turn + 1 }

/-- A partition issues for group `g`: the waits of its other groups lengthen, one that is not ready waits and ages afresh, and an aged group's
issue is counted (R173, R176). A voluntary swap that finds no pending group ready lapses (R174, R201). -/
def State.issueFor (s : State) (g : Nat) : State :=
  let s := if (s.grp g).sched.aged then s.count 1 (s.partOf g) 3 1 else s
  let s := (s.mates g).foldl
    (fun t k =>
      let x := t.grp k
      let w := if k = g then 0 else if s.ready k || (!x.sched.active && s.wantsPlace k) then x.sched.waited + 1 else 0
      t.setGrp k { x with sched := { x.sched with
        waited := w, aged := x.sched.aged && w != 0, leaving := x.sched.leaving && (s.entering g).isSome
        stalls := if k = g then 0 else x.sched.stalls } })
    s
  { s with cur := g }

/-- The word is skipped: TRET found TFM = 0 (R192). -/
def Group.skips (g : Group) : Bool := g.lanes.only == some 0

/-- The word group `g` stands at issues: a waiting deferred trap comes first (R191); a word that TFM leaves no lane is skipped (R192); a
word that names no instruction traps (R48, R50). -/
def State.issueNow (s : State) (g : Nat) : Host.Outcome State Fault Refusal :=
  let t := s.issueFor g
  if t.deferredDue g then execDeferredTrap g t
  else if (t.grp g).skips then .next (t.setGrp g (t.grp g).next)
  else
    match decodeWord (t.grp g).word.toNat with
    | .ok i => exec i t
    | .error _ => .next (t.trapHere g ((t.grp g).wide 0x01 (t.grp g).word 0))

/-- A stalled group is descheduled (R177); a group of a stopped launch stops at once (R158). -/
def State.desched (s : State) (g : Nat) : State :=
  let x := s.grp g
  ((s.setGrp g { x with sched := { x.sched with sv := s.stallObject g } }).count 1 (s.partOf g) 4 1).stopWaiting g

/-- A due event is taken up again later: a request of the host keeps its place among the host's. -/
def State.retry (s : State) (e : Event) : State := if e.fromHost then s.hostLater e else s.push e

/-- What comes over PCI Express comes in flits, whose packing is the link's own (R462, log entry 18). -/
def State.noteFlits (s : State) (e : Event) : State :=
  if e.fromHost || (match e with | .pcieCompletion .. | .atomicopCompletion .. => true | _ => false) then (s.count 11 0 0 1).count 11 0 1 1 else s

/-- What a step from `s` comes to: when its agents at the homes met lines that peers hold, that engines keep until they have written them, or whose root
serves an ownership request, it is taken back; the holders are asked, and the step is taken again later (R30, R108, R435, R441). -/
def State.orRecall (s : State) (again : Option Event) (r : Host.Outcome State Fault Refusal) : Host.Outcome State Fault Refusal :=
  match r with
  | .next t =>
    if t.link.wants = [] then .next t
    else if t.link.wants.any fun w => (s.recall w.1 w.2).isSome || s.engineIn w.1 1 || (w.2 && tget [] s.fab.roots (lineOf w.1) != []) then
      let s := t.link.wants.foldl (fun s w => (s.recall w.1 w.2).getD s) s
      .next (match again with | some e => s.retry e | none => s)
    else .next { t with link := { t.link with wants := [] } }
  | r => r

/-- One step of the package; a tree message waits while its link changes its width (R443). -/
def State.stepOnce (s : State) : Host.Outcome State Fault Refusal :=
  let t := s.advance
  match s.choose with
  | .due k =>
    let j := t.inOrder k
    match t.agenda[j]? with
    | some e =>
      let u := { t with agenda := t.agenda.eraseIdx j }
      if t.widthWaits e then .next (u.onLink e) else u.orRecall (some e) (e.run ((u.noteActive e).noteFlits e))
    | none => .next t
  | .run e => t.orRecall none (e.run t)
  | .issue g => t.orRecall none (t.issueNow g)
  | .desched g => .next (t.desched g)
  | .tick => t.orRecall none (Event.packageTick.run t)

/-! ## Running one word (the host's probe) -/

/-- A launch of one group on core 0 whose next word issues next: everything the fetch and the issue of that word need. -/
def State.withWord (s : State) (w : Nat) : State :=
  let lr : LRec := { LRec.empty with ver := 1, gpb := 1, bpc := 1, part := 0x0000100C, ncourse := 1, nlanes := 32 }
  let l : Launch := { Launch.empty with lr := lr, st := .running }
  let g : Group := { Group.empty with
    phase := .issue 0, clause := ⟨0, 0, 15, 15, [w]⟩, lanes := ⟨BitVec.allOnes 32, BitVec.allOnes 32, BitVec.allOnes 32, 0, none⟩
    alloc := 96, sched := ⟨0, true, 0, 0, false, false, false, none, 0⟩ }
  { s with
    agenda := [], sched := [0], stuck := none, mg := { s.mg with boot := .ready }
    launches := [l], courses := [{ Course.empty with blocks := [0], st := .running }], blocks := [{ Block.empty with st := .live }]
    groups := [g] }

end Sys2Proof.Machine
end

