-- ==== Sys2Proof/Laws/Mem.lean ====
section
/-! SUPPORT. Sparse tables and memory: what a read gives after a write, and that every operation keeps the canonical form. -/

namespace Sys2Proof.Machine

/-! ## Reading a table after a change of it -/

@[simp] theorem tget_tins_self {α : Type} (d v : α) (m : SMap α) (k : Nat) : tget d (tins m k v) k = v := by
  induction m with
  | nil => simp [tins, tget]
  | cons e t ih =>
    simp only [tins]
    split
    · simp [tget]
    · split
      · simp [tget]
      · next h1 h2 => simp [tget, ih, Ne.symm h2]

theorem tget_tins_ne {α : Type} (d v : α) (m : SMap α) (k j : Nat) (h : j ≠ k) :
    tget d (tins m k v) j = tget d m j := by
  induction m with
  | nil => simp [tins, tget, h.symm]
  | cons e t ih =>
    simp only [tins]
    split
    · simp [tget, h.symm]
    · split
      · next h2 => simp [tget, h.symm, ← h2]
      · simp [tget, ih]

theorem tget_tins {α : Type} (d v : α) (m : SMap α) (k j : Nat) :
    tget d (tins m k v) j = if j = k then v else tget d m j := by
  split
  · next h => subst h; exact tget_tins_self ..
  · next h => exact tget_tins_ne _ _ _ _ _ h

theorem tget_tdel {α : Type} (d : α) (m : SMap α) (k j : Nat) :
    tget d (tdel m k) j = if j = k then d else tget d m j := by
  induction m with
  | nil => simp [tdel, tget]
  | cons e t ih =>
    simp only [tdel, List.filter_cons] at ih ⊢
    by_cases he : e.1 = k
    · rw [if_neg (by simp [he]), ih]
      by_cases hj : j = k <;> simp [hj, tget]
      intro h; exact absurd (h.symm.trans he) hj
    · rw [if_pos (by simpa using he)]
      simp only [tget, ih]
      by_cases hj : j = k <;> simp [hj, he]

/-- An entry reads as it was set, and every other entry as before. -/
theorem tget_tset {α : Type} [DecidableEq α] (d v : α) (m : SMap α) (k j : Nat) :
    tget d (tset d m k v) j = if j = k then v else tget d m j := by
  simp only [tset]
  split
  · next h => rw [tget_tdel, h]
  · exact tget_tins ..

@[simp] theorem tget_tset_self {α : Type} [DecidableEq α] (d v : α) (m : SMap α) (k : Nat) :
    tget d (tset d m k v) k = v := by simp [tget_tset]

theorem tget_tset_ne {α : Type} [DecidableEq α] (d v : α) (m : SMap α) (k j : Nat) (h : j ≠ k) :
    tget d (tset d m k v) j = tget d m j := by simp [tget_tset, h]

@[simp] theorem tfind_tins_self {α : Type} (v : α) (m : SMap α) (k : Nat) : tfind (tins m k v) k = some v := by
  induction m with
  | nil => simp [tins, tfind]
  | cons e t ih =>
    simp only [tins]
    split
    · simp [tfind]
    · split
      · simp [tfind]
      · next h1 h2 => simp [tfind, ih, Ne.symm h2]

theorem tfind_tins_ne {α : Type} (v : α) (m : SMap α) (k j : Nat) (h : j ≠ k) : tfind (tins m k v) j = tfind m j := by
  induction m with
  | nil => simp [tins, tfind, h.symm]
  | cons e t ih =>
    simp only [tins]
    split
    · simp [tfind, h.symm]
    · split
      · next h2 => simp [tfind, h.symm, ← h2]
      · simp [tfind, ih]

/-- A table holds an entry exactly when looking for it finds it. -/
theorem tget_eq_tfind {α : Type} (d : α) (m : SMap α) (k : Nat) : tget d m k = (tfind m k).getD d := by
  induction m with
  | nil => rfl
  | cons e t ih => simp only [tget, tfind]; split <;> simp [ih]

/-! ## The canonical form -/

theorem rising_mono {α : Type} {a b : Nat} (m : SMap α) (h : a ≤ b) (hm : rising b m = true) : rising a m = true := by
  cases m with
  | nil => rfl
  | cons e t =>
    simp only [rising, Bool.and_eq_true, decide_eq_true_eq] at hm ⊢
    exact ⟨by omega, hm.2⟩

theorem rising_tins {α : Type} (v : α) (k : Nat) (m : SMap α) (lo : Nat) (hk : lo ≤ k) (h : rising lo m = true) :
    rising lo (tins m k v) = true := by
  induction m generalizing lo with
  | nil => simp [tins, rising, hk]
  | cons e t ih =>
    simp only [rising, Bool.and_eq_true, decide_eq_true_eq] at h
    simp only [tins]
    split
    · next hlt => simp only [rising, Bool.and_eq_true, decide_eq_true_eq]; exact ⟨hk, by omega, h.2⟩
    · split
      · next heq => simp only [rising, Bool.and_eq_true, decide_eq_true_eq]; exact ⟨hk, by rw [heq]; exact h.2⟩
      · simp only [rising, Bool.and_eq_true, decide_eq_true_eq]
        exact ⟨h.1, ih _ (by omega) h.2⟩

theorem rising_filter {α : Type} (p : Nat × α → Bool) (m : SMap α) (lo : Nat) (h : rising lo m = true) :
    rising lo (m.filter p) = true := by
  induction m generalizing lo with
  | nil => rfl
  | cons e t ih =>
    simp only [rising, Bool.and_eq_true, decide_eq_true_eq] at h
    rw [List.filter_cons]
    split
    · simp only [rising, Bool.and_eq_true, decide_eq_true_eq]; exact ⟨h.1, ih _ h.2⟩
    · exact rising_mono _ (by omega) (ih _ h.2)

theorem all_tins {α : Type} (p : Nat × α → Bool) (m : SMap α) (k : Nat) (v : α) (hv : p (k, v) = true) (h : m.all p = true) :
    (tins m k v).all p = true := by
  induction m with
  | nil => simp [tins, hv]
  | cons e t ih =>
    simp only [List.all_cons, Bool.and_eq_true] at h
    simp only [tins]
    split
    · simp only [List.all_cons, Bool.and_eq_true]; exact ⟨hv, h⟩
    · split
      · simp only [List.all_cons, Bool.and_eq_true]; exact ⟨hv, h.2⟩
      · simp only [List.all_cons, Bool.and_eq_true]; exact ⟨h.1, ih h.2⟩

/-- Removing entries keeps the canonical form. -/
theorem twf_filter {α : Type} [DecidableEq α] (d : α) (p : Nat × α → Bool) (m : SMap α) (h : twf d m = true) :
    twf d (m.filter p) = true := by
  simp only [twf, Bool.and_eq_true] at h ⊢
  refine ⟨rising_filter _ _ _ h.1, ?_⟩
  rw [List.all_eq_true] at h ⊢
  exact fun e he => h.2 e (List.mem_of_mem_filter he)

/-- Setting an entry keeps the canonical form. -/
theorem twf_tset {α : Type} [DecidableEq α] (d v : α) (m : SMap α) (k : Nat) (h : twf d m = true) :
    twf d (tset d m k v) = true := by
  simp only [tset]
  split
  · exact twf_filter _ _ _ h
  · next hv =>
    simp only [twf, Bool.and_eq_true] at h ⊢
    exact ⟨rising_tins _ _ _ _ (Nat.zero_le _) h.1, all_tins _ _ _ _ (by simpa using hv) h.2⟩

/-! ## Memory -/

/-- A byte reads as it was written, and every other byte as before. -/
theorem mget_mset (m : List Host.Cell) (a b : Nat) (v : Byte) : mget (mset m a v) b = if b = a then v else mget m b :=
  tget_tset ..

theorem mset_wf (m : List Host.Cell) (a : Nat) (v : Byte) (h : Memory.wf m = true) : Memory.wf (mset m a v) = true :=
  twf_tset _ _ _ _ h

theorem mwrite_wf (n : Nat) : ∀ (m : List Host.Cell) (a v : Nat), Memory.wf m = true → Memory.wf (mwrite m a n v) = true := by
  induction n with
  | zero => exact fun _ _ _ h => h
  | succ n ih => exact fun m a v h => ih _ _ _ (mset_wf _ _ _ h)

theorem mstore_wf (l : List Nat) : ∀ (m : List Host.Cell) (a : Nat), Memory.wf m = true → Memory.wf (mstore m a l) = true := by
  induction l with
  | nil => exact fun _ _ h => h
  | cons b t ih => exact fun m a h => ih _ _ (mset_wf _ _ _ h)

theorem mzero_wf (m : List Host.Cell) (a n : Nat) (h : Memory.wf m = true) : Memory.wf (mzero m a n) = true :=
  twf_filter _ _ _ h

/-- Every memory operation keeps the canonical form. -/
theorem memory_ops_wf (m : List Host.Cell) (h : Memory.wf m = true) :
    (∀ a v, Memory.wf (mset m a v) = true) ∧ (∀ a n v, Memory.wf (mwrite m a n v) = true) ∧
      (∀ a l, Memory.wf (mstore m a l) = true) ∧ (∀ a n, Memory.wf (mzero m a n) = true) :=
  ⟨fun _ _ => mset_wf _ _ _ h, fun _ _ _ => mwrite_wf _ _ _ _ h, fun _ _ => mstore_wf _ _ _ h, fun _ _ => mzero_wf _ _ _ h⟩

/-- A write leaves every byte outside it alone. -/
theorem mget_mwrite_out (n : Nat) : ∀ (m : List Host.Cell) (a v b : Nat), (b < a ∨ a + n ≤ b) →
    mget (mwrite m a n v) b = mget m b := by
  induction n with
  | zero => exact fun _ _ _ _ _ => rfl
  | succ n ih =>
    intro m a v b h
    rw [mwrite, ih _ _ _ _ (by omega), mget_mset, if_neg (by omega)]

/-- A byte inside a write reads as that byte of the value. -/
theorem mget_mwrite_in (n : Nat) : ∀ (m : List Host.Cell) (a v i : Nat), i < n →
    mget (mwrite m a n v) (a + i) = BitVec.ofNat 8 (v / 256 ^ i) := by
  induction n with
  | zero => exact fun _ _ _ _ h => absurd h (by omega)
  | succ n ih =>
    intro m a v i h
    cases i with
    | zero => rw [mwrite, mget_mwrite_out _ _ _ _ _ (by omega), mget_mset]; simp
    | succ i =>
      rw [mwrite, show a + (i + 1) = (a + 1) + i by omega, ih _ _ _ _ (by omega), Nat.div_div_eq_div_mul, Nat.pow_succ, Nat.mul_comm]

/-- What was written is what is read. -/
theorem mread_mwrite (n : Nat) : ∀ (m : List Host.Cell) (a v : Nat), mread (mwrite m a n v) a n = v % 256 ^ n := by
  have key : ∀ (k : Nat) (m : List Host.Cell) (a v : Nat), (∀ i, i < k → mget m (a + i) = BitVec.ofNat 8 (v / 256 ^ i)) →
      mread m a k = v % 256 ^ k := by
    intro k
    induction k with
    | zero => intro m a v _; simp [mread, Nat.mod_one]
    | succ k ih =>
      intro m a v h
      rw [mread, ih m (a + 1) (v / 256)]
      · have h0 := h 0 (by omega)
        simp only [Nat.add_zero, pow_zero, Nat.div_one] at h0
        rw [h0, BitVec.toNat_ofNat, Nat.pow_succ' (m := 256), Nat.mod_mul]
      · intro i hi
        rw [show a + 1 + i = a + (i + 1) by omega, h _ (by omega), Nat.div_div_eq_div_mul, Nat.pow_succ']
  exact fun m a v => key _ _ _ _ fun i hi => mget_mwrite_in _ _ _ _ _ hi

/-- A read sees only the bytes it names. -/
theorem mread_congr (n : Nat) : ∀ (m m' : List Host.Cell) (a : Nat), (∀ i, i < n → mget m (a + i) = mget m' (a + i)) →
    mread m a n = mread m' a n := by
  induction n with
  | zero => exact fun _ _ _ _ => rfl
  | succ n ih =>
    intro m m' a h
    have h0 := h 0 (by omega)
    simp only [Nat.add_zero] at h0
    rw [mread, mread, h0, ih m m' (a + 1) fun i hi => by rw [show a + 1 + i = a + (i + 1) by omega]; exact h _ (by omega)]

end Sys2Proof.Machine
end

