-- ==== Sys2Proof/Laws/State.lean ====
section
/-! SUPPORT. What each update of the state, of a group and of an operation leaves in each field: one lemma a field and an update, by
reflexivity. -/

namespace Sys2Proof.Machine

/-! ### State.setGrp -/

@[simp] theorem State.setGrp_agenda (s : State) (g : Nat) (x : Group) : (s.setGrp g x).agenda = s.agenda := rfl
@[simp] theorem State.setGrp_sched (s : State) (g : Nat) (x : Group) : (s.setGrp g x).sched = s.sched := rfl
@[simp] theorem State.setGrp_cur (s : State) (g : Nat) (x : Group) : (s.setGrp g x).cur = s.cur := rfl
@[simp] theorem State.setGrp_turn (s : State) (g : Nat) (x : Group) : (s.setGrp g x).turn = s.turn := rfl
@[simp] theorem State.setGrp_stuck (s : State) (g : Nat) (x : Group) : (s.setGrp g x).stuck = s.stuck := rfl
@[simp] theorem State.setGrp_free (s : State) (g : Nat) (x : Group) : (s.setGrp g x).free = s.free := rfl
@[simp] theorem State.setGrp_tick (s : State) (g : Nat) (x : Group) : (s.setGrp g x).tick = s.tick := rfl
@[simp] theorem State.setGrp_mem (s : State) (g : Nat) (x : Group) : (s.setGrp g x).mem = s.mem := rfl
@[simp] theorem State.setGrp_groups (s : State) (g : Nat) (x : Group) : (s.setGrp g x).groups = s.groups.set g x := rfl
@[simp] theorem State.setGrp_blocks (s : State) (g : Nat) (x : Group) : (s.setGrp g x).blocks = s.blocks := rfl
@[simp] theorem State.setGrp_courses (s : State) (g : Nat) (x : Group) : (s.setGrp g x).courses = s.courses := rfl
@[simp] theorem State.setGrp_launches (s : State) (g : Nat) (x : Group) : (s.setGrp g x).launches = s.launches := rfl
@[simp] theorem State.setGrp_ops (s : State) (g : Nat) (x : Group) : (s.setGrp g x).ops = s.ops := rfl
@[simp] theorem State.setGrp_nextOp (s : State) (g : Nat) (x : Group) : (s.setGrp g x).nextOp = s.nextOp := rfl
@[simp] theorem State.setGrp_seqWait (s : State) (g : Nat) (x : Group) : (s.setGrp g x).seqWait = s.seqWait := rfl
@[simp] theorem State.setGrp_cores (s : State) (g : Nat) (x : Group) : (s.setGrp g x).cores = s.cores := rfl
@[simp] theorem State.setGrp_ctxs (s : State) (g : Nat) (x : Group) : (s.setGrp g x).ctxs = s.ctxs := rfl
@[simp] theorem State.setGrp_le (s : State) (g : Nat) (x : Group) : (s.setGrp g x).le = s.le := rfl
@[simp] theorem State.setGrp_slices (s : State) (g : Nat) (x : Group) : (s.setGrp g x).slices = s.slices := rfl
@[simp] theorem State.setGrp_fab (s : State) (g : Nat) (x : Group) : (s.setGrp g x).fab = s.fab := rfl
@[simp] theorem State.setGrp_link (s : State) (g : Nat) (x : Group) : (s.setGrp g x).link = s.link := rfl
@[simp] theorem State.setGrp_mg (s : State) (g : Nat) (x : Group) : (s.setGrp g x).mg = s.mg := rfl
@[simp] theorem State.setGrp_cnt (s : State) (g : Nat) (x : Group) : (s.setGrp g x).cnt = s.cnt := rfl

/-! ### State.setBlk -/

@[simp] theorem State.setBlk_agenda (s : State) (b : Nat) (x : Block) : (s.setBlk b x).agenda = s.agenda := rfl
@[simp] theorem State.setBlk_sched (s : State) (b : Nat) (x : Block) : (s.setBlk b x).sched = s.sched := rfl
@[simp] theorem State.setBlk_cur (s : State) (b : Nat) (x : Block) : (s.setBlk b x).cur = s.cur := rfl
@[simp] theorem State.setBlk_turn (s : State) (b : Nat) (x : Block) : (s.setBlk b x).turn = s.turn := rfl
@[simp] theorem State.setBlk_stuck (s : State) (b : Nat) (x : Block) : (s.setBlk b x).stuck = s.stuck := rfl
@[simp] theorem State.setBlk_free (s : State) (b : Nat) (x : Block) : (s.setBlk b x).free = s.free := rfl
@[simp] theorem State.setBlk_tick (s : State) (b : Nat) (x : Block) : (s.setBlk b x).tick = s.tick := rfl
@[simp] theorem State.setBlk_mem (s : State) (b : Nat) (x : Block) : (s.setBlk b x).mem = s.mem := rfl
@[simp] theorem State.setBlk_groups (s : State) (b : Nat) (x : Block) : (s.setBlk b x).groups = s.groups := rfl
@[simp] theorem State.setBlk_blocks (s : State) (b : Nat) (x : Block) : (s.setBlk b x).blocks = s.blocks.set b x := rfl
@[simp] theorem State.setBlk_courses (s : State) (b : Nat) (x : Block) : (s.setBlk b x).courses = s.courses := rfl
@[simp] theorem State.setBlk_launches (s : State) (b : Nat) (x : Block) : (s.setBlk b x).launches = s.launches := rfl
@[simp] theorem State.setBlk_ops (s : State) (b : Nat) (x : Block) : (s.setBlk b x).ops = s.ops := rfl
@[simp] theorem State.setBlk_nextOp (s : State) (b : Nat) (x : Block) : (s.setBlk b x).nextOp = s.nextOp := rfl
@[simp] theorem State.setBlk_seqWait (s : State) (b : Nat) (x : Block) : (s.setBlk b x).seqWait = s.seqWait := rfl
@[simp] theorem State.setBlk_cores (s : State) (b : Nat) (x : Block) : (s.setBlk b x).cores = s.cores := rfl
@[simp] theorem State.setBlk_ctxs (s : State) (b : Nat) (x : Block) : (s.setBlk b x).ctxs = s.ctxs := rfl
@[simp] theorem State.setBlk_le (s : State) (b : Nat) (x : Block) : (s.setBlk b x).le = s.le := rfl
@[simp] theorem State.setBlk_slices (s : State) (b : Nat) (x : Block) : (s.setBlk b x).slices = s.slices := rfl
@[simp] theorem State.setBlk_fab (s : State) (b : Nat) (x : Block) : (s.setBlk b x).fab = s.fab := rfl
@[simp] theorem State.setBlk_link (s : State) (b : Nat) (x : Block) : (s.setBlk b x).link = s.link := rfl
@[simp] theorem State.setBlk_mg (s : State) (b : Nat) (x : Block) : (s.setBlk b x).mg = s.mg := rfl
@[simp] theorem State.setBlk_cnt (s : State) (b : Nat) (x : Block) : (s.setBlk b x).cnt = s.cnt := rfl

/-! ### State.setCrs -/

@[simp] theorem State.setCrs_agenda (s : State) (c : Nat) (x : Course) : (s.setCrs c x).agenda = s.agenda := rfl
@[simp] theorem State.setCrs_sched (s : State) (c : Nat) (x : Course) : (s.setCrs c x).sched = s.sched := rfl
@[simp] theorem State.setCrs_cur (s : State) (c : Nat) (x : Course) : (s.setCrs c x).cur = s.cur := rfl
@[simp] theorem State.setCrs_turn (s : State) (c : Nat) (x : Course) : (s.setCrs c x).turn = s.turn := rfl
@[simp] theorem State.setCrs_stuck (s : State) (c : Nat) (x : Course) : (s.setCrs c x).stuck = s.stuck := rfl
@[simp] theorem State.setCrs_free (s : State) (c : Nat) (x : Course) : (s.setCrs c x).free = s.free := rfl
@[simp] theorem State.setCrs_tick (s : State) (c : Nat) (x : Course) : (s.setCrs c x).tick = s.tick := rfl
@[simp] theorem State.setCrs_mem (s : State) (c : Nat) (x : Course) : (s.setCrs c x).mem = s.mem := rfl
@[simp] theorem State.setCrs_groups (s : State) (c : Nat) (x : Course) : (s.setCrs c x).groups = s.groups := rfl
@[simp] theorem State.setCrs_blocks (s : State) (c : Nat) (x : Course) : (s.setCrs c x).blocks = s.blocks := rfl
@[simp] theorem State.setCrs_courses (s : State) (c : Nat) (x : Course) : (s.setCrs c x).courses = s.courses.set c x := rfl
@[simp] theorem State.setCrs_launches (s : State) (c : Nat) (x : Course) : (s.setCrs c x).launches = s.launches := rfl
@[simp] theorem State.setCrs_ops (s : State) (c : Nat) (x : Course) : (s.setCrs c x).ops = s.ops := rfl
@[simp] theorem State.setCrs_nextOp (s : State) (c : Nat) (x : Course) : (s.setCrs c x).nextOp = s.nextOp := rfl
@[simp] theorem State.setCrs_seqWait (s : State) (c : Nat) (x : Course) : (s.setCrs c x).seqWait = s.seqWait := rfl
@[simp] theorem State.setCrs_cores (s : State) (c : Nat) (x : Course) : (s.setCrs c x).cores = s.cores := rfl
@[simp] theorem State.setCrs_ctxs (s : State) (c : Nat) (x : Course) : (s.setCrs c x).ctxs = s.ctxs := rfl
@[simp] theorem State.setCrs_le (s : State) (c : Nat) (x : Course) : (s.setCrs c x).le = s.le := rfl
@[simp] theorem State.setCrs_slices (s : State) (c : Nat) (x : Course) : (s.setCrs c x).slices = s.slices := rfl
@[simp] theorem State.setCrs_fab (s : State) (c : Nat) (x : Course) : (s.setCrs c x).fab = s.fab := rfl
@[simp] theorem State.setCrs_link (s : State) (c : Nat) (x : Course) : (s.setCrs c x).link = s.link := rfl
@[simp] theorem State.setCrs_mg (s : State) (c : Nat) (x : Course) : (s.setCrs c x).mg = s.mg := rfl
@[simp] theorem State.setCrs_cnt (s : State) (c : Nat) (x : Course) : (s.setCrs c x).cnt = s.cnt := rfl

/-! ### State.setLch -/

@[simp] theorem State.setLch_agenda (s : State) (l : Nat) (x : Launch) : (s.setLch l x).agenda = s.agenda := rfl
@[simp] theorem State.setLch_sched (s : State) (l : Nat) (x : Launch) : (s.setLch l x).sched = s.sched := rfl
@[simp] theorem State.setLch_cur (s : State) (l : Nat) (x : Launch) : (s.setLch l x).cur = s.cur := rfl
@[simp] theorem State.setLch_turn (s : State) (l : Nat) (x : Launch) : (s.setLch l x).turn = s.turn := rfl
@[simp] theorem State.setLch_stuck (s : State) (l : Nat) (x : Launch) : (s.setLch l x).stuck = s.stuck := rfl
@[simp] theorem State.setLch_free (s : State) (l : Nat) (x : Launch) : (s.setLch l x).free = s.free := rfl
@[simp] theorem State.setLch_tick (s : State) (l : Nat) (x : Launch) : (s.setLch l x).tick = s.tick := rfl
@[simp] theorem State.setLch_mem (s : State) (l : Nat) (x : Launch) : (s.setLch l x).mem = s.mem := rfl
@[simp] theorem State.setLch_groups (s : State) (l : Nat) (x : Launch) : (s.setLch l x).groups = s.groups := rfl
@[simp] theorem State.setLch_blocks (s : State) (l : Nat) (x : Launch) : (s.setLch l x).blocks = s.blocks := rfl
@[simp] theorem State.setLch_courses (s : State) (l : Nat) (x : Launch) : (s.setLch l x).courses = s.courses := rfl
@[simp] theorem State.setLch_launches (s : State) (l : Nat) (x : Launch) : (s.setLch l x).launches = s.launches.set l x := rfl
@[simp] theorem State.setLch_ops (s : State) (l : Nat) (x : Launch) : (s.setLch l x).ops = s.ops := rfl
@[simp] theorem State.setLch_nextOp (s : State) (l : Nat) (x : Launch) : (s.setLch l x).nextOp = s.nextOp := rfl
@[simp] theorem State.setLch_seqWait (s : State) (l : Nat) (x : Launch) : (s.setLch l x).seqWait = s.seqWait := rfl
@[simp] theorem State.setLch_cores (s : State) (l : Nat) (x : Launch) : (s.setLch l x).cores = s.cores := rfl
@[simp] theorem State.setLch_ctxs (s : State) (l : Nat) (x : Launch) : (s.setLch l x).ctxs = s.ctxs := rfl
@[simp] theorem State.setLch_le (s : State) (l : Nat) (x : Launch) : (s.setLch l x).le = s.le := rfl
@[simp] theorem State.setLch_slices (s : State) (l : Nat) (x : Launch) : (s.setLch l x).slices = s.slices := rfl
@[simp] theorem State.setLch_fab (s : State) (l : Nat) (x : Launch) : (s.setLch l x).fab = s.fab := rfl
@[simp] theorem State.setLch_link (s : State) (l : Nat) (x : Launch) : (s.setLch l x).link = s.link := rfl
@[simp] theorem State.setLch_mg (s : State) (l : Nat) (x : Launch) : (s.setLch l x).mg = s.mg := rfl
@[simp] theorem State.setLch_cnt (s : State) (l : Nat) (x : Launch) : (s.setLch l x).cnt = s.cnt := rfl

/-! ### State.setCore -/

@[simp] theorem State.setCore_agenda (s : State) (c : Nat) (x : Core) : (s.setCore c x).agenda = s.agenda := rfl
@[simp] theorem State.setCore_sched (s : State) (c : Nat) (x : Core) : (s.setCore c x).sched = s.sched := rfl
@[simp] theorem State.setCore_cur (s : State) (c : Nat) (x : Core) : (s.setCore c x).cur = s.cur := rfl
@[simp] theorem State.setCore_turn (s : State) (c : Nat) (x : Core) : (s.setCore c x).turn = s.turn := rfl
@[simp] theorem State.setCore_stuck (s : State) (c : Nat) (x : Core) : (s.setCore c x).stuck = s.stuck := rfl
@[simp] theorem State.setCore_free (s : State) (c : Nat) (x : Core) : (s.setCore c x).free = s.free := rfl
@[simp] theorem State.setCore_tick (s : State) (c : Nat) (x : Core) : (s.setCore c x).tick = s.tick := rfl
@[simp] theorem State.setCore_mem (s : State) (c : Nat) (x : Core) : (s.setCore c x).mem = s.mem := rfl
@[simp] theorem State.setCore_groups (s : State) (c : Nat) (x : Core) : (s.setCore c x).groups = s.groups := rfl
@[simp] theorem State.setCore_blocks (s : State) (c : Nat) (x : Core) : (s.setCore c x).blocks = s.blocks := rfl
@[simp] theorem State.setCore_courses (s : State) (c : Nat) (x : Core) : (s.setCore c x).courses = s.courses := rfl
@[simp] theorem State.setCore_launches (s : State) (c : Nat) (x : Core) : (s.setCore c x).launches = s.launches := rfl
@[simp] theorem State.setCore_ops (s : State) (c : Nat) (x : Core) : (s.setCore c x).ops = s.ops := rfl
@[simp] theorem State.setCore_nextOp (s : State) (c : Nat) (x : Core) : (s.setCore c x).nextOp = s.nextOp := rfl
@[simp] theorem State.setCore_seqWait (s : State) (c : Nat) (x : Core) : (s.setCore c x).seqWait = s.seqWait := rfl
@[simp] theorem State.setCore_cores (s : State) (c : Nat) (x : Core) : (s.setCore c x).cores = tset .empty s.cores c x := rfl
@[simp] theorem State.setCore_ctxs (s : State) (c : Nat) (x : Core) : (s.setCore c x).ctxs = s.ctxs := rfl
@[simp] theorem State.setCore_le (s : State) (c : Nat) (x : Core) : (s.setCore c x).le = s.le := rfl
@[simp] theorem State.setCore_slices (s : State) (c : Nat) (x : Core) : (s.setCore c x).slices = s.slices := rfl
@[simp] theorem State.setCore_fab (s : State) (c : Nat) (x : Core) : (s.setCore c x).fab = s.fab := rfl
@[simp] theorem State.setCore_link (s : State) (c : Nat) (x : Core) : (s.setCore c x).link = s.link := rfl
@[simp] theorem State.setCore_mg (s : State) (c : Nat) (x : Core) : (s.setCore c x).mg = s.mg := rfl
@[simp] theorem State.setCore_cnt (s : State) (c : Nat) (x : Core) : (s.setCore c x).cnt = s.cnt := rfl

/-! ### State.setCtx -/

@[simp] theorem State.setCtx_agenda (s : State) (c : Nat) (x : Ctx) : (s.setCtx c x).agenda = s.agenda := rfl
@[simp] theorem State.setCtx_sched (s : State) (c : Nat) (x : Ctx) : (s.setCtx c x).sched = s.sched := rfl
@[simp] theorem State.setCtx_cur (s : State) (c : Nat) (x : Ctx) : (s.setCtx c x).cur = s.cur := rfl
@[simp] theorem State.setCtx_turn (s : State) (c : Nat) (x : Ctx) : (s.setCtx c x).turn = s.turn := rfl
@[simp] theorem State.setCtx_stuck (s : State) (c : Nat) (x : Ctx) : (s.setCtx c x).stuck = s.stuck := rfl
@[simp] theorem State.setCtx_free (s : State) (c : Nat) (x : Ctx) : (s.setCtx c x).free = s.free := rfl
@[simp] theorem State.setCtx_tick (s : State) (c : Nat) (x : Ctx) : (s.setCtx c x).tick = s.tick := rfl
@[simp] theorem State.setCtx_mem (s : State) (c : Nat) (x : Ctx) : (s.setCtx c x).mem = s.mem := rfl
@[simp] theorem State.setCtx_groups (s : State) (c : Nat) (x : Ctx) : (s.setCtx c x).groups = s.groups := rfl
@[simp] theorem State.setCtx_blocks (s : State) (c : Nat) (x : Ctx) : (s.setCtx c x).blocks = s.blocks := rfl
@[simp] theorem State.setCtx_courses (s : State) (c : Nat) (x : Ctx) : (s.setCtx c x).courses = s.courses := rfl
@[simp] theorem State.setCtx_launches (s : State) (c : Nat) (x : Ctx) : (s.setCtx c x).launches = s.launches := rfl
@[simp] theorem State.setCtx_ops (s : State) (c : Nat) (x : Ctx) : (s.setCtx c x).ops = s.ops := rfl
@[simp] theorem State.setCtx_nextOp (s : State) (c : Nat) (x : Ctx) : (s.setCtx c x).nextOp = s.nextOp := rfl
@[simp] theorem State.setCtx_seqWait (s : State) (c : Nat) (x : Ctx) : (s.setCtx c x).seqWait = s.seqWait := rfl
@[simp] theorem State.setCtx_cores (s : State) (c : Nat) (x : Ctx) : (s.setCtx c x).cores = s.cores := rfl
@[simp] theorem State.setCtx_ctxs (s : State) (c : Nat) (x : Ctx) : (s.setCtx c x).ctxs = tset .empty s.ctxs c x := rfl
@[simp] theorem State.setCtx_le (s : State) (c : Nat) (x : Ctx) : (s.setCtx c x).le = s.le := rfl
@[simp] theorem State.setCtx_slices (s : State) (c : Nat) (x : Ctx) : (s.setCtx c x).slices = s.slices := rfl
@[simp] theorem State.setCtx_fab (s : State) (c : Nat) (x : Ctx) : (s.setCtx c x).fab = s.fab := rfl
@[simp] theorem State.setCtx_link (s : State) (c : Nat) (x : Ctx) : (s.setCtx c x).link = s.link := rfl
@[simp] theorem State.setCtx_mg (s : State) (c : Nat) (x : Ctx) : (s.setCtx c x).mg = s.mg := rfl
@[simp] theorem State.setCtx_cnt (s : State) (c : Nat) (x : Ctx) : (s.setCtx c x).cnt = s.cnt := rfl

/-! ### State.setSlice -/

@[simp] theorem State.setSlice_agenda (s : State) (m : Nat) (x : Slice) : (s.setSlice m x).agenda = s.agenda := rfl
@[simp] theorem State.setSlice_sched (s : State) (m : Nat) (x : Slice) : (s.setSlice m x).sched = s.sched := rfl
@[simp] theorem State.setSlice_cur (s : State) (m : Nat) (x : Slice) : (s.setSlice m x).cur = s.cur := rfl
@[simp] theorem State.setSlice_turn (s : State) (m : Nat) (x : Slice) : (s.setSlice m x).turn = s.turn := rfl
@[simp] theorem State.setSlice_stuck (s : State) (m : Nat) (x : Slice) : (s.setSlice m x).stuck = s.stuck := rfl
@[simp] theorem State.setSlice_free (s : State) (m : Nat) (x : Slice) : (s.setSlice m x).free = s.free := rfl
@[simp] theorem State.setSlice_tick (s : State) (m : Nat) (x : Slice) : (s.setSlice m x).tick = s.tick := rfl
@[simp] theorem State.setSlice_mem (s : State) (m : Nat) (x : Slice) : (s.setSlice m x).mem = s.mem := rfl
@[simp] theorem State.setSlice_groups (s : State) (m : Nat) (x : Slice) : (s.setSlice m x).groups = s.groups := rfl
@[simp] theorem State.setSlice_blocks (s : State) (m : Nat) (x : Slice) : (s.setSlice m x).blocks = s.blocks := rfl
@[simp] theorem State.setSlice_courses (s : State) (m : Nat) (x : Slice) : (s.setSlice m x).courses = s.courses := rfl
@[simp] theorem State.setSlice_launches (s : State) (m : Nat) (x : Slice) : (s.setSlice m x).launches = s.launches := rfl
@[simp] theorem State.setSlice_ops (s : State) (m : Nat) (x : Slice) : (s.setSlice m x).ops = s.ops := rfl
@[simp] theorem State.setSlice_nextOp (s : State) (m : Nat) (x : Slice) : (s.setSlice m x).nextOp = s.nextOp := rfl
@[simp] theorem State.setSlice_seqWait (s : State) (m : Nat) (x : Slice) : (s.setSlice m x).seqWait = s.seqWait := rfl
@[simp] theorem State.setSlice_cores (s : State) (m : Nat) (x : Slice) : (s.setSlice m x).cores = s.cores := rfl
@[simp] theorem State.setSlice_ctxs (s : State) (m : Nat) (x : Slice) : (s.setSlice m x).ctxs = s.ctxs := rfl
@[simp] theorem State.setSlice_le (s : State) (m : Nat) (x : Slice) : (s.setSlice m x).le = s.le := rfl
@[simp] theorem State.setSlice_slices (s : State) (m : Nat) (x : Slice) : (s.setSlice m x).slices = tset .empty s.slices m x := rfl
@[simp] theorem State.setSlice_fab (s : State) (m : Nat) (x : Slice) : (s.setSlice m x).fab = s.fab := rfl
@[simp] theorem State.setSlice_link (s : State) (m : Nat) (x : Slice) : (s.setSlice m x).link = s.link := rfl
@[simp] theorem State.setSlice_mg (s : State) (m : Nat) (x : Slice) : (s.setSlice m x).mg = s.mg := rfl
@[simp] theorem State.setSlice_cnt (s : State) (m : Nat) (x : Slice) : (s.setSlice m x).cnt = s.cnt := rfl

/-! ### State.push -/

@[simp] theorem State.push_agenda (s : State) (e : Event) : (s.push e).agenda = s.agenda ++ [e] := rfl
@[simp] theorem State.push_sched (s : State) (e : Event) : (s.push e).sched = s.sched := rfl
@[simp] theorem State.push_cur (s : State) (e : Event) : (s.push e).cur = s.cur := rfl
@[simp] theorem State.push_turn (s : State) (e : Event) : (s.push e).turn = s.turn := rfl
@[simp] theorem State.push_stuck (s : State) (e : Event) : (s.push e).stuck = s.stuck := rfl
@[simp] theorem State.push_free (s : State) (e : Event) : (s.push e).free = s.free := rfl
@[simp] theorem State.push_tick (s : State) (e : Event) : (s.push e).tick = s.tick := rfl
@[simp] theorem State.push_mem (s : State) (e : Event) : (s.push e).mem = s.mem := rfl
@[simp] theorem State.push_groups (s : State) (e : Event) : (s.push e).groups = s.groups := rfl
@[simp] theorem State.push_blocks (s : State) (e : Event) : (s.push e).blocks = s.blocks := rfl
@[simp] theorem State.push_courses (s : State) (e : Event) : (s.push e).courses = s.courses := rfl
@[simp] theorem State.push_launches (s : State) (e : Event) : (s.push e).launches = s.launches := rfl
@[simp] theorem State.push_ops (s : State) (e : Event) : (s.push e).ops = s.ops := rfl
@[simp] theorem State.push_nextOp (s : State) (e : Event) : (s.push e).nextOp = s.nextOp := rfl
@[simp] theorem State.push_seqWait (s : State) (e : Event) : (s.push e).seqWait = s.seqWait := rfl
@[simp] theorem State.push_cores (s : State) (e : Event) : (s.push e).cores = s.cores := rfl
@[simp] theorem State.push_ctxs (s : State) (e : Event) : (s.push e).ctxs = s.ctxs := rfl
@[simp] theorem State.push_le (s : State) (e : Event) : (s.push e).le = s.le := rfl
@[simp] theorem State.push_slices (s : State) (e : Event) : (s.push e).slices = s.slices := rfl
@[simp] theorem State.push_fab (s : State) (e : Event) : (s.push e).fab = s.fab := rfl
@[simp] theorem State.push_link (s : State) (e : Event) : (s.push e).link = s.link := rfl
@[simp] theorem State.push_mg (s : State) (e : Event) : (s.push e).mg = s.mg := rfl
@[simp] theorem State.push_cnt (s : State) (e : Event) : (s.push e).cnt = s.cnt := rfl

/-! ### State.count -/

@[simp] theorem State.count_agenda (s : State) (b i k n : Nat) : (s.count b i k n).agenda = s.agenda := rfl
@[simp] theorem State.count_sched (s : State) (b i k n : Nat) : (s.count b i k n).sched = s.sched := rfl
@[simp] theorem State.count_cur (s : State) (b i k n : Nat) : (s.count b i k n).cur = s.cur := rfl
@[simp] theorem State.count_turn (s : State) (b i k n : Nat) : (s.count b i k n).turn = s.turn := rfl
@[simp] theorem State.count_stuck (s : State) (b i k n : Nat) : (s.count b i k n).stuck = s.stuck := rfl
@[simp] theorem State.count_free (s : State) (b i k n : Nat) : (s.count b i k n).free = s.free := rfl
@[simp] theorem State.count_tick (s : State) (b i k n : Nat) : (s.count b i k n).tick = s.tick := rfl
@[simp] theorem State.count_mem (s : State) (b i k n : Nat) : (s.count b i k n).mem = s.mem := rfl
@[simp] theorem State.count_groups (s : State) (b i k n : Nat) : (s.count b i k n).groups = s.groups := rfl
@[simp] theorem State.count_blocks (s : State) (b i k n : Nat) : (s.count b i k n).blocks = s.blocks := rfl
@[simp] theorem State.count_courses (s : State) (b i k n : Nat) : (s.count b i k n).courses = s.courses := rfl
@[simp] theorem State.count_launches (s : State) (b i k n : Nat) : (s.count b i k n).launches = s.launches := rfl
@[simp] theorem State.count_ops (s : State) (b i k n : Nat) : (s.count b i k n).ops = s.ops := rfl
@[simp] theorem State.count_nextOp (s : State) (b i k n : Nat) : (s.count b i k n).nextOp = s.nextOp := rfl
@[simp] theorem State.count_seqWait (s : State) (b i k n : Nat) : (s.count b i k n).seqWait = s.seqWait := rfl
@[simp] theorem State.count_cores (s : State) (b i k n : Nat) : (s.count b i k n).cores = s.cores := rfl
@[simp] theorem State.count_ctxs (s : State) (b i k n : Nat) : (s.count b i k n).ctxs = s.ctxs := rfl
@[simp] theorem State.count_le (s : State) (b i k n : Nat) : (s.count b i k n).le = s.le := rfl
@[simp] theorem State.count_slices (s : State) (b i k n : Nat) : (s.count b i k n).slices = s.slices := rfl
@[simp] theorem State.count_fab (s : State) (b i k n : Nat) : (s.count b i k n).fab = s.fab := rfl
@[simp] theorem State.count_link (s : State) (b i k n : Nat) : (s.count b i k n).link = s.link := rfl
@[simp] theorem State.count_mg (s : State) (b i k n : Nat) : (s.count b i k n).mg = s.mg := rfl

/-! ### State.setOp -/

@[simp] theorem State.setOp_agenda (s : State) (o : Nat) (x : Op) : (s.setOp o x).agenda = s.agenda := rfl
@[simp] theorem State.setOp_sched (s : State) (o : Nat) (x : Op) : (s.setOp o x).sched = s.sched := rfl
@[simp] theorem State.setOp_cur (s : State) (o : Nat) (x : Op) : (s.setOp o x).cur = s.cur := rfl
@[simp] theorem State.setOp_turn (s : State) (o : Nat) (x : Op) : (s.setOp o x).turn = s.turn := rfl
@[simp] theorem State.setOp_stuck (s : State) (o : Nat) (x : Op) : (s.setOp o x).stuck = s.stuck := rfl
@[simp] theorem State.setOp_free (s : State) (o : Nat) (x : Op) : (s.setOp o x).free = s.free := rfl
@[simp] theorem State.setOp_tick (s : State) (o : Nat) (x : Op) : (s.setOp o x).tick = s.tick := rfl
@[simp] theorem State.setOp_mem (s : State) (o : Nat) (x : Op) : (s.setOp o x).mem = s.mem := rfl
@[simp] theorem State.setOp_groups (s : State) (o : Nat) (x : Op) : (s.setOp o x).groups = s.groups := rfl
@[simp] theorem State.setOp_blocks (s : State) (o : Nat) (x : Op) : (s.setOp o x).blocks = s.blocks := rfl
@[simp] theorem State.setOp_courses (s : State) (o : Nat) (x : Op) : (s.setOp o x).courses = s.courses := rfl
@[simp] theorem State.setOp_launches (s : State) (o : Nat) (x : Op) : (s.setOp o x).launches = s.launches := rfl
@[simp] theorem State.setOp_ops (s : State) (o : Nat) (x : Op) : (s.setOp o x).ops = tins s.ops o x := rfl
@[simp] theorem State.setOp_nextOp (s : State) (o : Nat) (x : Op) : (s.setOp o x).nextOp = s.nextOp := rfl
@[simp] theorem State.setOp_seqWait (s : State) (o : Nat) (x : Op) : (s.setOp o x).seqWait = s.seqWait := rfl
@[simp] theorem State.setOp_cores (s : State) (o : Nat) (x : Op) : (s.setOp o x).cores = s.cores := rfl
@[simp] theorem State.setOp_ctxs (s : State) (o : Nat) (x : Op) : (s.setOp o x).ctxs = s.ctxs := rfl
@[simp] theorem State.setOp_le (s : State) (o : Nat) (x : Op) : (s.setOp o x).le = s.le := rfl
@[simp] theorem State.setOp_slices (s : State) (o : Nat) (x : Op) : (s.setOp o x).slices = s.slices := rfl
@[simp] theorem State.setOp_fab (s : State) (o : Nat) (x : Op) : (s.setOp o x).fab = s.fab := rfl
@[simp] theorem State.setOp_link (s : State) (o : Nat) (x : Op) : (s.setOp o x).link = s.link := rfl
@[simp] theorem State.setOp_mg (s : State) (o : Nat) (x : Op) : (s.setOp o x).mg = s.mg := rfl
@[simp] theorem State.setOp_cnt (s : State) (o : Nat) (x : Op) : (s.setOp o x).cnt = s.cnt := rfl

/-! ### State.delOp -/

@[simp] theorem State.delOp_agenda (s : State) (o : Nat) : (s.delOp o).agenda = s.agenda := rfl
@[simp] theorem State.delOp_sched (s : State) (o : Nat) : (s.delOp o).sched = s.sched := rfl
@[simp] theorem State.delOp_cur (s : State) (o : Nat) : (s.delOp o).cur = s.cur := rfl
@[simp] theorem State.delOp_turn (s : State) (o : Nat) : (s.delOp o).turn = s.turn := rfl
@[simp] theorem State.delOp_stuck (s : State) (o : Nat) : (s.delOp o).stuck = s.stuck := rfl
@[simp] theorem State.delOp_free (s : State) (o : Nat) : (s.delOp o).free = s.free := rfl
@[simp] theorem State.delOp_tick (s : State) (o : Nat) : (s.delOp o).tick = s.tick := rfl
@[simp] theorem State.delOp_mem (s : State) (o : Nat) : (s.delOp o).mem = s.mem := rfl
@[simp] theorem State.delOp_groups (s : State) (o : Nat) : (s.delOp o).groups = s.groups := rfl
@[simp] theorem State.delOp_blocks (s : State) (o : Nat) : (s.delOp o).blocks = s.blocks := rfl
@[simp] theorem State.delOp_courses (s : State) (o : Nat) : (s.delOp o).courses = s.courses := rfl
@[simp] theorem State.delOp_launches (s : State) (o : Nat) : (s.delOp o).launches = s.launches := rfl
@[simp] theorem State.delOp_ops (s : State) (o : Nat) : (s.delOp o).ops = tdel s.ops o := rfl
@[simp] theorem State.delOp_nextOp (s : State) (o : Nat) : (s.delOp o).nextOp = s.nextOp := rfl
@[simp] theorem State.delOp_seqWait (s : State) (o : Nat) : (s.delOp o).seqWait = s.seqWait := rfl
@[simp] theorem State.delOp_cores (s : State) (o : Nat) : (s.delOp o).cores = s.cores := rfl
@[simp] theorem State.delOp_ctxs (s : State) (o : Nat) : (s.delOp o).ctxs = s.ctxs := rfl
@[simp] theorem State.delOp_le (s : State) (o : Nat) : (s.delOp o).le = s.le := rfl
@[simp] theorem State.delOp_slices (s : State) (o : Nat) : (s.delOp o).slices = s.slices := rfl
@[simp] theorem State.delOp_fab (s : State) (o : Nat) : (s.delOp o).fab = s.fab := rfl
@[simp] theorem State.delOp_link (s : State) (o : Nat) : (s.delOp o).link = s.link := rfl
@[simp] theorem State.delOp_mg (s : State) (o : Nat) : (s.delOp o).mg = s.mg := rfl
@[simp] theorem State.delOp_cnt (s : State) (o : Nat) : (s.delOp o).cnt = s.cnt := rfl

/-! ### State.draw -/

@[simp] theorem State.draw_agenda (s : State) : (s.draw).agenda = s.agenda := rfl
@[simp] theorem State.draw_sched (s : State) : (s.draw).sched = s.sched := rfl
@[simp] theorem State.draw_cur (s : State) : (s.draw).cur = s.cur := rfl
@[simp] theorem State.draw_turn (s : State) : (s.draw).turn = s.turn := rfl
@[simp] theorem State.draw_stuck (s : State) : (s.draw).stuck = s.stuck := rfl
@[simp] theorem State.draw_free (s : State) : (s.draw).free = s.free + 1 := rfl
@[simp] theorem State.draw_tick (s : State) : (s.draw).tick = s.tick := rfl
@[simp] theorem State.draw_mem (s : State) : (s.draw).mem = s.mem := rfl
@[simp] theorem State.draw_groups (s : State) : (s.draw).groups = s.groups := rfl
@[simp] theorem State.draw_blocks (s : State) : (s.draw).blocks = s.blocks := rfl
@[simp] theorem State.draw_courses (s : State) : (s.draw).courses = s.courses := rfl
@[simp] theorem State.draw_launches (s : State) : (s.draw).launches = s.launches := rfl
@[simp] theorem State.draw_ops (s : State) : (s.draw).ops = s.ops := rfl
@[simp] theorem State.draw_nextOp (s : State) : (s.draw).nextOp = s.nextOp := rfl
@[simp] theorem State.draw_seqWait (s : State) : (s.draw).seqWait = s.seqWait := rfl
@[simp] theorem State.draw_cores (s : State) : (s.draw).cores = s.cores := rfl
@[simp] theorem State.draw_ctxs (s : State) : (s.draw).ctxs = s.ctxs := rfl
@[simp] theorem State.draw_le (s : State) : (s.draw).le = s.le := rfl
@[simp] theorem State.draw_slices (s : State) : (s.draw).slices = s.slices := rfl
@[simp] theorem State.draw_fab (s : State) : (s.draw).fab = s.fab := rfl
@[simp] theorem State.draw_link (s : State) : (s.draw).link = s.link := rfl
@[simp] theorem State.draw_mg (s : State) : (s.draw).mg = s.mg := rfl
@[simp] theorem State.draw_cnt (s : State) : (s.draw).cnt = s.cnt := rfl

/-! ### State.advance -/

/-- What holds of a state and is kept by each round of a fold holds at its end. -/
theorem foldl_keeps {α β γ : Type} (f : α → γ) (g : α → β → α) (h : ∀ a b, f (g a b) = f a) (l : List β) (a : α) : f (l.foldl g a) = f a := by
  induction l generalizing a with
  | nil => rfl
  | cons b l ih => exact (ih _).trans (h a b)

/-- With nothing found uncorrectable there is nothing to report. -/
theorem State.noteLost_none (s : State) (h : ∀ e ∈ s.slices, e.2.lost = []) : s.noteLost = s := by
  have h1 : (s.slices.flatMap fun e => e.2.lost) = [] := by simpa using h
  have h2 : (s.slices.any fun e => !e.2.lost.isEmpty) = false := by simpa using h
  simp [State.noteLost, h1, h2]

/-- What neither a group's record nor a counter shows is as before after the stalls have been counted. -/
theorem State.noteStalls_keeps {γ : Type} (f : State → γ) (hg : ∀ s g x, f (State.setGrp s g x) = f s) (hc : ∀ s b i k n, f (State.count s b i k n) = f s)
    (s : State) : f s.noteStalls = f s := by
  refine foldl_keeps f _ (fun t g => ?_) _ s
  unfold State.noteStall
  refine (foldl_keeps f _ (fun u k => ?_) _ _).trans ?_
  · dsimp only; split <;> rw [hc, hg]
  · split <;> simp [hg]

/-- With nothing found uncorrectable a step's start changes groups and counters, and uses up one choice. -/
theorem State.advance_keeps {γ : Type} (f : State → γ) (hg : ∀ s g x, f (State.setGrp s g x) = f s) (hc : ∀ s b i k n, f (State.count s b i k n) = f s)
    (ht : ∀ (s : State) l n, f { s with sched := l, turn := n } = f s) (s : State) (h : ∀ e ∈ s.noteStalls.slices, e.2.lost = []) :
    f s.advance = f s := by
  rw [State.advance, State.noteLost_none _ h, ht, State.noteStalls_keeps f hg hc]



/-! ### Group.setPhys -/

@[simp] theorem Group.setPhys_blk (g : Group) (n L : Nat) (v : Word) : (g.setPhys n L v).blk = g.blk := rfl
@[simp] theorem Group.setPhys_gid (g : Group) (n L : Nat) (v : Word) : (g.setPhys n L v).gid = g.gid := rfl
@[simp] theorem Group.setPhys_part (g : Group) (n L : Nat) (v : Word) : (g.setPhys n L v).part = g.part := rfl
@[simp] theorem Group.setPhys_phase (g : Group) (n L : Nat) (v : Word) : (g.setPhys n L v).phase = g.phase := rfl
@[simp] theorem Group.setPhys_clause (g : Group) (n L : Nat) (v : Word) : (g.setPhys n L v).clause = g.clause := rfl
@[simp] theorem Group.setPhys_lanes (g : Group) (n L : Nat) (v : Word) : (g.setPhys n L v).lanes = g.lanes := rfl
@[simp] theorem Group.setPhys_regs (g : Group) (n L : Nat) (v : Word) : (g.setPhys n L v).regs = tset 0 g.regs (32 * n + L) v := rfl
@[simp] theorem Group.setPhys_uregs (g : Group) (n L : Nat) (v : Word) : (g.setPhys n L v).uregs = g.uregs := rfl
@[simp] theorem Group.setPhys_preds (g : Group) (n L : Nat) (v : Word) : (g.setPhys n L v).preds = g.preds := rfl
@[simp] theorem Group.setPhys_upreds (g : Group) (n L : Nat) (v : Word) : (g.setPhys n L v).upreds = g.upreds := rfl
@[simp] theorem Group.setPhys_caps (g : Group) (n L : Nat) (v : Word) : (g.setPhys n L v).caps = g.caps := rfl
@[simp] theorem Group.setPhys_flags (g : Group) (n L : Nat) (v : Word) : (g.setPhys n L v).flags = g.flags := rfl
@[simp] theorem Group.setPhys_fmt (g : Group) (n L : Nat) (v : Word) : (g.setPhys n L v).fmt = g.fmt := rfl
@[simp] theorem Group.setPhys_wb (g : Group) (n L : Nat) (v : Word) : (g.setPhys n L v).wb = g.wb := rfl
@[simp] theorem Group.setPhys_alloc (g : Group) (n L : Nat) (v : Word) : (g.setPhys n L v).alloc = g.alloc := rfl
@[simp] theorem Group.setPhys_join (g : Group) (n L : Nat) (v : Word) : (g.setPhys n L v).join = g.join := rfl
@[simp] theorem Group.setPhys_trap (g : Group) (n L : Nat) (v : Word) : (g.setPhys n L v).trap = g.trap := rfl
@[simp] theorem Group.setPhys_deferred (g : Group) (n L : Nat) (v : Word) : (g.setPhys n L v).deferred = g.deferred := rfl
@[simp] theorem Group.setPhys_pend (g : Group) (n L : Nat) (v : Word) : (g.setPhys n L v).pend = g.pend := rfl
@[simp] theorem Group.setPhys_nextTok (g : Group) (n L : Nat) (v : Word) : (g.setPhys n L v).nextTok = g.nextTok := rfl
@[simp] theorem Group.setPhys_acqTo (g : Group) (n L : Nat) (v : Word) : (g.setPhys n L v).acqTo = g.acqTo := rfl
@[simp] theorem Group.setPhys_relTo (g : Group) (n L : Nat) (v : Word) : (g.setPhys n L v).relTo = g.relTo := rfl
@[simp] theorem Group.setPhys_mons (g : Group) (n L : Nat) (v : Word) : (g.setPhys n L v).mons = g.mons := rfl
@[simp] theorem Group.setPhys_walk (g : Group) (n L : Nat) (v : Word) : (g.setPhys n L v).walk = g.walk := rfl
@[simp] theorem Group.setPhys_latch (g : Group) (n L : Nat) (v : Word) : (g.setPhys n L v).latch = g.latch := rfl
@[simp] theorem Group.setPhys_clockHi (g : Group) (n L : Nat) (v : Word) : (g.setPhys n L v).clockHi = g.clockHi := rfl
@[simp] theorem Group.setPhys_sched (g : Group) (n L : Nat) (v : Word) : (g.setPhys n L v).sched = g.sched := rfl

/-! ### Group.setUni -/

@[simp] theorem Group.setUni_blk (g : Group) (n : Nat) (v : Word) : (g.setUni n v).blk = g.blk := rfl
@[simp] theorem Group.setUni_gid (g : Group) (n : Nat) (v : Word) : (g.setUni n v).gid = g.gid := rfl
@[simp] theorem Group.setUni_part (g : Group) (n : Nat) (v : Word) : (g.setUni n v).part = g.part := rfl
@[simp] theorem Group.setUni_phase (g : Group) (n : Nat) (v : Word) : (g.setUni n v).phase = g.phase := rfl
@[simp] theorem Group.setUni_clause (g : Group) (n : Nat) (v : Word) : (g.setUni n v).clause = g.clause := rfl
@[simp] theorem Group.setUni_lanes (g : Group) (n : Nat) (v : Word) : (g.setUni n v).lanes = g.lanes := rfl
@[simp] theorem Group.setUni_regs (g : Group) (n : Nat) (v : Word) : (g.setUni n v).regs = g.regs := rfl
@[simp] theorem Group.setUni_uregs (g : Group) (n : Nat) (v : Word) : (g.setUni n v).uregs = tset 0 g.uregs n v := rfl
@[simp] theorem Group.setUni_preds (g : Group) (n : Nat) (v : Word) : (g.setUni n v).preds = g.preds := rfl
@[simp] theorem Group.setUni_upreds (g : Group) (n : Nat) (v : Word) : (g.setUni n v).upreds = g.upreds := rfl
@[simp] theorem Group.setUni_caps (g : Group) (n : Nat) (v : Word) : (g.setUni n v).caps = g.caps := rfl
@[simp] theorem Group.setUni_flags (g : Group) (n : Nat) (v : Word) : (g.setUni n v).flags = g.flags := rfl
@[simp] theorem Group.setUni_fmt (g : Group) (n : Nat) (v : Word) : (g.setUni n v).fmt = g.fmt := rfl
@[simp] theorem Group.setUni_wb (g : Group) (n : Nat) (v : Word) : (g.setUni n v).wb = g.wb := rfl
@[simp] theorem Group.setUni_alloc (g : Group) (n : Nat) (v : Word) : (g.setUni n v).alloc = g.alloc := rfl
@[simp] theorem Group.setUni_join (g : Group) (n : Nat) (v : Word) : (g.setUni n v).join = g.join := rfl
@[simp] theorem Group.setUni_trap (g : Group) (n : Nat) (v : Word) : (g.setUni n v).trap = g.trap := rfl
@[simp] theorem Group.setUni_deferred (g : Group) (n : Nat) (v : Word) : (g.setUni n v).deferred = g.deferred := rfl
@[simp] theorem Group.setUni_pend (g : Group) (n : Nat) (v : Word) : (g.setUni n v).pend = g.pend := rfl
@[simp] theorem Group.setUni_nextTok (g : Group) (n : Nat) (v : Word) : (g.setUni n v).nextTok = g.nextTok := rfl
@[simp] theorem Group.setUni_acqTo (g : Group) (n : Nat) (v : Word) : (g.setUni n v).acqTo = g.acqTo := rfl
@[simp] theorem Group.setUni_relTo (g : Group) (n : Nat) (v : Word) : (g.setUni n v).relTo = g.relTo := rfl
@[simp] theorem Group.setUni_mons (g : Group) (n : Nat) (v : Word) : (g.setUni n v).mons = g.mons := rfl
@[simp] theorem Group.setUni_walk (g : Group) (n : Nat) (v : Word) : (g.setUni n v).walk = g.walk := rfl
@[simp] theorem Group.setUni_latch (g : Group) (n : Nat) (v : Word) : (g.setUni n v).latch = g.latch := rfl
@[simp] theorem Group.setUni_clockHi (g : Group) (n : Nat) (v : Word) : (g.setUni n v).clockHi = g.clockHi := rfl
@[simp] theorem Group.setUni_sched (g : Group) (n : Nat) (v : Word) : (g.setUni n v).sched = g.sched := rfl

/-! ### Group.setCap -/

@[simp] theorem Group.setCap_blk (g : Group) (n : Nat) (c : Cap) : (g.setCap n c).blk = g.blk := rfl
@[simp] theorem Group.setCap_gid (g : Group) (n : Nat) (c : Cap) : (g.setCap n c).gid = g.gid := rfl
@[simp] theorem Group.setCap_part (g : Group) (n : Nat) (c : Cap) : (g.setCap n c).part = g.part := rfl
@[simp] theorem Group.setCap_phase (g : Group) (n : Nat) (c : Cap) : (g.setCap n c).phase = g.phase := rfl
@[simp] theorem Group.setCap_clause (g : Group) (n : Nat) (c : Cap) : (g.setCap n c).clause = g.clause := rfl
@[simp] theorem Group.setCap_lanes (g : Group) (n : Nat) (c : Cap) : (g.setCap n c).lanes = g.lanes := rfl
@[simp] theorem Group.setCap_regs (g : Group) (n : Nat) (c : Cap) : (g.setCap n c).regs = g.regs := rfl
@[simp] theorem Group.setCap_uregs (g : Group) (n : Nat) (c : Cap) : (g.setCap n c).uregs = g.uregs := rfl
@[simp] theorem Group.setCap_preds (g : Group) (n : Nat) (c : Cap) : (g.setCap n c).preds = g.preds := rfl
@[simp] theorem Group.setCap_upreds (g : Group) (n : Nat) (c : Cap) : (g.setCap n c).upreds = g.upreds := rfl
@[simp] theorem Group.setCap_caps (g : Group) (n : Nat) (c : Cap) : (g.setCap n c).caps = tset .null g.caps n c := rfl
@[simp] theorem Group.setCap_flags (g : Group) (n : Nat) (c : Cap) : (g.setCap n c).flags = g.flags := rfl
@[simp] theorem Group.setCap_fmt (g : Group) (n : Nat) (c : Cap) : (g.setCap n c).fmt = g.fmt := rfl
@[simp] theorem Group.setCap_wb (g : Group) (n : Nat) (c : Cap) : (g.setCap n c).wb = g.wb := rfl
@[simp] theorem Group.setCap_alloc (g : Group) (n : Nat) (c : Cap) : (g.setCap n c).alloc = g.alloc := rfl
@[simp] theorem Group.setCap_join (g : Group) (n : Nat) (c : Cap) : (g.setCap n c).join = g.join := rfl
@[simp] theorem Group.setCap_trap (g : Group) (n : Nat) (c : Cap) : (g.setCap n c).trap = g.trap := rfl
@[simp] theorem Group.setCap_deferred (g : Group) (n : Nat) (c : Cap) : (g.setCap n c).deferred = g.deferred := rfl
@[simp] theorem Group.setCap_pend (g : Group) (n : Nat) (c : Cap) : (g.setCap n c).pend = g.pend := rfl
@[simp] theorem Group.setCap_nextTok (g : Group) (n : Nat) (c : Cap) : (g.setCap n c).nextTok = g.nextTok := rfl
@[simp] theorem Group.setCap_acqTo (g : Group) (n : Nat) (c : Cap) : (g.setCap n c).acqTo = g.acqTo := rfl
@[simp] theorem Group.setCap_relTo (g : Group) (n : Nat) (c : Cap) : (g.setCap n c).relTo = g.relTo := rfl
@[simp] theorem Group.setCap_mons (g : Group) (n : Nat) (c : Cap) : (g.setCap n c).mons = g.mons := rfl
@[simp] theorem Group.setCap_walk (g : Group) (n : Nat) (c : Cap) : (g.setCap n c).walk = g.walk := rfl
@[simp] theorem Group.setCap_latch (g : Group) (n : Nat) (c : Cap) : (g.setCap n c).latch = g.latch := rfl
@[simp] theorem Group.setCap_clockHi (g : Group) (n : Nat) (c : Cap) : (g.setCap n c).clockHi = g.clockHi := rfl
@[simp] theorem Group.setCap_sched (g : Group) (n : Nat) (c : Cap) : (g.setCap n c).sched = g.sched := rfl

/-! ### Group.addPend -/

@[simp] theorem Group.addPend_blk (g : Group) (rs : List PReg) (k : Nat) : (g.addPend rs k).blk = g.blk := rfl
@[simp] theorem Group.addPend_gid (g : Group) (rs : List PReg) (k : Nat) : (g.addPend rs k).gid = g.gid := rfl
@[simp] theorem Group.addPend_part (g : Group) (rs : List PReg) (k : Nat) : (g.addPend rs k).part = g.part := rfl
@[simp] theorem Group.addPend_phase (g : Group) (rs : List PReg) (k : Nat) : (g.addPend rs k).phase = g.phase := rfl
@[simp] theorem Group.addPend_clause (g : Group) (rs : List PReg) (k : Nat) : (g.addPend rs k).clause = g.clause := rfl
@[simp] theorem Group.addPend_lanes (g : Group) (rs : List PReg) (k : Nat) : (g.addPend rs k).lanes = g.lanes := rfl
@[simp] theorem Group.addPend_regs (g : Group) (rs : List PReg) (k : Nat) : (g.addPend rs k).regs = g.regs := rfl
@[simp] theorem Group.addPend_uregs (g : Group) (rs : List PReg) (k : Nat) : (g.addPend rs k).uregs = g.uregs := rfl
@[simp] theorem Group.addPend_preds (g : Group) (rs : List PReg) (k : Nat) : (g.addPend rs k).preds = g.preds := rfl
@[simp] theorem Group.addPend_upreds (g : Group) (rs : List PReg) (k : Nat) : (g.addPend rs k).upreds = g.upreds := rfl
@[simp] theorem Group.addPend_caps (g : Group) (rs : List PReg) (k : Nat) : (g.addPend rs k).caps = g.caps := rfl
@[simp] theorem Group.addPend_flags (g : Group) (rs : List PReg) (k : Nat) : (g.addPend rs k).flags = g.flags := rfl
@[simp] theorem Group.addPend_fmt (g : Group) (rs : List PReg) (k : Nat) : (g.addPend rs k).fmt = g.fmt := rfl
@[simp] theorem Group.addPend_wb (g : Group) (rs : List PReg) (k : Nat) : (g.addPend rs k).wb = g.wb := rfl
@[simp] theorem Group.addPend_alloc (g : Group) (rs : List PReg) (k : Nat) : (g.addPend rs k).alloc = g.alloc := rfl
@[simp] theorem Group.addPend_join (g : Group) (rs : List PReg) (k : Nat) : (g.addPend rs k).join = g.join := rfl
@[simp] theorem Group.addPend_trap (g : Group) (rs : List PReg) (k : Nat) : (g.addPend rs k).trap = g.trap := rfl
@[simp] theorem Group.addPend_deferred (g : Group) (rs : List PReg) (k : Nat) : (g.addPend rs k).deferred = g.deferred := rfl
@[simp] theorem Group.addPend_pend (g : Group) (rs : List PReg) (k : Nat) : (g.addPend rs k).pend = g.pend ++ rs.map (·, k) := rfl
@[simp] theorem Group.addPend_nextTok (g : Group) (rs : List PReg) (k : Nat) : (g.addPend rs k).nextTok = g.nextTok := rfl
@[simp] theorem Group.addPend_acqTo (g : Group) (rs : List PReg) (k : Nat) : (g.addPend rs k).acqTo = g.acqTo := rfl
@[simp] theorem Group.addPend_relTo (g : Group) (rs : List PReg) (k : Nat) : (g.addPend rs k).relTo = g.relTo := rfl
@[simp] theorem Group.addPend_mons (g : Group) (rs : List PReg) (k : Nat) : (g.addPend rs k).mons = g.mons := rfl
@[simp] theorem Group.addPend_walk (g : Group) (rs : List PReg) (k : Nat) : (g.addPend rs k).walk = g.walk := rfl
@[simp] theorem Group.addPend_latch (g : Group) (rs : List PReg) (k : Nat) : (g.addPend rs k).latch = g.latch := rfl
@[simp] theorem Group.addPend_clockHi (g : Group) (rs : List PReg) (k : Nat) : (g.addPend rs k).clockHi = g.clockHi := rfl
@[simp] theorem Group.addPend_sched (g : Group) (rs : List PReg) (k : Nat) : (g.addPend rs k).sched = g.sched := rfl

/-! ### Group.clearPend -/

@[simp] theorem Group.clearPend_blk (g : Group) (k : Nat) : (g.clearPend k).blk = g.blk := rfl
@[simp] theorem Group.clearPend_gid (g : Group) (k : Nat) : (g.clearPend k).gid = g.gid := rfl
@[simp] theorem Group.clearPend_part (g : Group) (k : Nat) : (g.clearPend k).part = g.part := rfl
@[simp] theorem Group.clearPend_phase (g : Group) (k : Nat) : (g.clearPend k).phase = g.phase := rfl
@[simp] theorem Group.clearPend_clause (g : Group) (k : Nat) : (g.clearPend k).clause = g.clause := rfl
@[simp] theorem Group.clearPend_lanes (g : Group) (k : Nat) : (g.clearPend k).lanes = g.lanes := rfl
@[simp] theorem Group.clearPend_regs (g : Group) (k : Nat) : (g.clearPend k).regs = g.regs := rfl
@[simp] theorem Group.clearPend_uregs (g : Group) (k : Nat) : (g.clearPend k).uregs = g.uregs := rfl
@[simp] theorem Group.clearPend_preds (g : Group) (k : Nat) : (g.clearPend k).preds = g.preds := rfl
@[simp] theorem Group.clearPend_upreds (g : Group) (k : Nat) : (g.clearPend k).upreds = g.upreds := rfl
@[simp] theorem Group.clearPend_caps (g : Group) (k : Nat) : (g.clearPend k).caps = g.caps := rfl
@[simp] theorem Group.clearPend_flags (g : Group) (k : Nat) : (g.clearPend k).flags = g.flags := rfl
@[simp] theorem Group.clearPend_fmt (g : Group) (k : Nat) : (g.clearPend k).fmt = g.fmt := rfl
@[simp] theorem Group.clearPend_wb (g : Group) (k : Nat) : (g.clearPend k).wb = g.wb := rfl
@[simp] theorem Group.clearPend_alloc (g : Group) (k : Nat) : (g.clearPend k).alloc = g.alloc := rfl
@[simp] theorem Group.clearPend_join (g : Group) (k : Nat) : (g.clearPend k).join = g.join := rfl
@[simp] theorem Group.clearPend_trap (g : Group) (k : Nat) : (g.clearPend k).trap = g.trap := rfl
@[simp] theorem Group.clearPend_deferred (g : Group) (k : Nat) : (g.clearPend k).deferred = g.deferred := rfl
@[simp] theorem Group.clearPend_pend (g : Group) (k : Nat) : (g.clearPend k).pend = g.pend.filter fun e => e.2 != k := rfl
@[simp] theorem Group.clearPend_nextTok (g : Group) (k : Nat) : (g.clearPend k).nextTok = g.nextTok := rfl
@[simp] theorem Group.clearPend_acqTo (g : Group) (k : Nat) : (g.clearPend k).acqTo = g.acqTo := rfl
@[simp] theorem Group.clearPend_relTo (g : Group) (k : Nat) : (g.clearPend k).relTo = g.relTo := rfl
@[simp] theorem Group.clearPend_mons (g : Group) (k : Nat) : (g.clearPend k).mons = g.mons := rfl
@[simp] theorem Group.clearPend_walk (g : Group) (k : Nat) : (g.clearPend k).walk = g.walk := rfl
@[simp] theorem Group.clearPend_latch (g : Group) (k : Nat) : (g.clearPend k).latch = g.latch := rfl
@[simp] theorem Group.clearPend_clockHi (g : Group) (k : Nat) : (g.clearPend k).clockHi = g.clockHi := rfl
@[simp] theorem Group.clearPend_sched (g : Group) (k : Nat) : (g.clearPend k).sched = g.sched := rfl

/-! ### Group.goto -/

@[simp] theorem Group.goto_blk (g : Group) (pc : Nat) : (g.goto pc).blk = g.blk := rfl
@[simp] theorem Group.goto_gid (g : Group) (pc : Nat) : (g.goto pc).gid = g.gid := rfl
@[simp] theorem Group.goto_part (g : Group) (pc : Nat) : (g.goto pc).part = g.part := rfl
@[simp] theorem Group.goto_phase (g : Group) (pc : Nat) : (g.goto pc).phase = .fetch pc := rfl
@[simp] theorem Group.goto_clause (g : Group) (pc : Nat) : (g.goto pc).clause = g.clause := rfl
@[simp] theorem Group.goto_lanes (g : Group) (pc : Nat) : (g.goto pc).lanes = { g.lanes with only := none } := rfl
@[simp] theorem Group.goto_regs (g : Group) (pc : Nat) : (g.goto pc).regs = g.regs := rfl
@[simp] theorem Group.goto_uregs (g : Group) (pc : Nat) : (g.goto pc).uregs = g.uregs := rfl
@[simp] theorem Group.goto_preds (g : Group) (pc : Nat) : (g.goto pc).preds = g.preds := rfl
@[simp] theorem Group.goto_upreds (g : Group) (pc : Nat) : (g.goto pc).upreds = g.upreds := rfl
@[simp] theorem Group.goto_caps (g : Group) (pc : Nat) : (g.goto pc).caps = g.caps := rfl
@[simp] theorem Group.goto_flags (g : Group) (pc : Nat) : (g.goto pc).flags = g.flags := rfl
@[simp] theorem Group.goto_fmt (g : Group) (pc : Nat) : (g.goto pc).fmt = g.fmt := rfl
@[simp] theorem Group.goto_wb (g : Group) (pc : Nat) : (g.goto pc).wb = g.wb := rfl
@[simp] theorem Group.goto_alloc (g : Group) (pc : Nat) : (g.goto pc).alloc = g.alloc := rfl
@[simp] theorem Group.goto_join (g : Group) (pc : Nat) : (g.goto pc).join = g.join := rfl
@[simp] theorem Group.goto_trap (g : Group) (pc : Nat) : (g.goto pc).trap = g.trap := rfl
@[simp] theorem Group.goto_deferred (g : Group) (pc : Nat) : (g.goto pc).deferred = g.deferred := rfl
@[simp] theorem Group.goto_pend (g : Group) (pc : Nat) : (g.goto pc).pend = g.pend := rfl
@[simp] theorem Group.goto_nextTok (g : Group) (pc : Nat) : (g.goto pc).nextTok = g.nextTok := rfl
@[simp] theorem Group.goto_acqTo (g : Group) (pc : Nat) : (g.goto pc).acqTo = g.acqTo := rfl
@[simp] theorem Group.goto_relTo (g : Group) (pc : Nat) : (g.goto pc).relTo = g.relTo := rfl
@[simp] theorem Group.goto_mons (g : Group) (pc : Nat) : (g.goto pc).mons = g.mons := rfl
@[simp] theorem Group.goto_walk (g : Group) (pc : Nat) : (g.goto pc).walk = g.walk := rfl
@[simp] theorem Group.goto_latch (g : Group) (pc : Nat) : (g.goto pc).latch = g.latch := rfl
@[simp] theorem Group.goto_clockHi (g : Group) (pc : Nat) : (g.goto pc).clockHi = g.clockHi := rfl
@[simp] theorem Group.goto_sched (g : Group) (pc : Nat) : (g.goto pc).sched = g.sched := rfl

/-! ### Group.next -/

@[simp] theorem Group.next_blk (g : Group) : (g.next).blk = g.blk := rfl
@[simp] theorem Group.next_gid (g : Group) : (g.next).gid = g.gid := rfl
@[simp] theorem Group.next_part (g : Group) : (g.next).part = g.part := rfl
@[simp] theorem Group.next_clause (g : Group) : (g.next).clause = g.clause := rfl
@[simp] theorem Group.next_lanes (g : Group) : (g.next).lanes = { g.lanes with only := none } := rfl
@[simp] theorem Group.next_regs (g : Group) : (g.next).regs = g.regs := rfl
@[simp] theorem Group.next_uregs (g : Group) : (g.next).uregs = g.uregs := rfl
@[simp] theorem Group.next_preds (g : Group) : (g.next).preds = g.preds := rfl
@[simp] theorem Group.next_upreds (g : Group) : (g.next).upreds = g.upreds := rfl
@[simp] theorem Group.next_caps (g : Group) : (g.next).caps = g.caps := rfl
@[simp] theorem Group.next_flags (g : Group) : (g.next).flags = g.flags := rfl
@[simp] theorem Group.next_fmt (g : Group) : (g.next).fmt = g.fmt := rfl
@[simp] theorem Group.next_wb (g : Group) : (g.next).wb = g.wb := rfl
@[simp] theorem Group.next_alloc (g : Group) : (g.next).alloc = g.alloc := rfl
@[simp] theorem Group.next_join (g : Group) : (g.next).join = g.join := rfl
@[simp] theorem Group.next_trap (g : Group) : (g.next).trap = g.trap := rfl
@[simp] theorem Group.next_deferred (g : Group) : (g.next).deferred = g.deferred := rfl
@[simp] theorem Group.next_pend (g : Group) : (g.next).pend = g.pend := rfl
@[simp] theorem Group.next_nextTok (g : Group) : (g.next).nextTok = g.nextTok := rfl
@[simp] theorem Group.next_acqTo (g : Group) : (g.next).acqTo = g.acqTo := rfl
@[simp] theorem Group.next_relTo (g : Group) : (g.next).relTo = g.relTo := rfl
@[simp] theorem Group.next_mons (g : Group) : (g.next).mons = g.mons := rfl
@[simp] theorem Group.next_walk (g : Group) : (g.next).walk = g.walk := rfl
@[simp] theorem Group.next_latch (g : Group) : (g.next).latch = g.latch := rfl
@[simp] theorem Group.next_clockHi (g : Group) : (g.next).clockHi = g.clockHi := rfl
@[simp] theorem Group.next_sched (g : Group) : (g.next).sched = g.sched := rfl

/-! ### Group.writeTrap -/

@[simp] theorem Group.writeTrap_blk (g : Group) (i : Nat) (v : Word) : (g.writeTrap i v).blk = g.blk := rfl
@[simp] theorem Group.writeTrap_gid (g : Group) (i : Nat) (v : Word) : (g.writeTrap i v).gid = g.gid := rfl
@[simp] theorem Group.writeTrap_part (g : Group) (i : Nat) (v : Word) : (g.writeTrap i v).part = g.part := rfl
@[simp] theorem Group.writeTrap_phase (g : Group) (i : Nat) (v : Word) : (g.writeTrap i v).phase = g.phase := rfl
@[simp] theorem Group.writeTrap_clause (g : Group) (i : Nat) (v : Word) : (g.writeTrap i v).clause = g.clause := rfl
@[simp] theorem Group.writeTrap_lanes (g : Group) (i : Nat) (v : Word) : (g.writeTrap i v).lanes = g.lanes := rfl
@[simp] theorem Group.writeTrap_regs (g : Group) (i : Nat) (v : Word) : (g.writeTrap i v).regs = g.regs := rfl
@[simp] theorem Group.writeTrap_uregs (g : Group) (i : Nat) (v : Word) : (g.writeTrap i v).uregs = g.uregs := rfl
@[simp] theorem Group.writeTrap_preds (g : Group) (i : Nat) (v : Word) : (g.writeTrap i v).preds = g.preds := rfl
@[simp] theorem Group.writeTrap_upreds (g : Group) (i : Nat) (v : Word) : (g.writeTrap i v).upreds = g.upreds := rfl
@[simp] theorem Group.writeTrap_caps (g : Group) (i : Nat) (v : Word) : (g.writeTrap i v).caps = g.caps := rfl
@[simp] theorem Group.writeTrap_flags (g : Group) (i : Nat) (v : Word) : (g.writeTrap i v).flags = g.flags := rfl
@[simp] theorem Group.writeTrap_fmt (g : Group) (i : Nat) (v : Word) : (g.writeTrap i v).fmt = g.fmt := rfl
@[simp] theorem Group.writeTrap_wb (g : Group) (i : Nat) (v : Word) : (g.writeTrap i v).wb = g.wb := rfl
@[simp] theorem Group.writeTrap_alloc (g : Group) (i : Nat) (v : Word) : (g.writeTrap i v).alloc = g.alloc := rfl
@[simp] theorem Group.writeTrap_join (g : Group) (i : Nat) (v : Word) : (g.writeTrap i v).join = g.join := rfl
@[simp] theorem Group.writeTrap_deferred (g : Group) (i : Nat) (v : Word) : (g.writeTrap i v).deferred = g.deferred := rfl
@[simp] theorem Group.writeTrap_pend (g : Group) (i : Nat) (v : Word) : (g.writeTrap i v).pend = g.pend := rfl
@[simp] theorem Group.writeTrap_nextTok (g : Group) (i : Nat) (v : Word) : (g.writeTrap i v).nextTok = g.nextTok := rfl
@[simp] theorem Group.writeTrap_acqTo (g : Group) (i : Nat) (v : Word) : (g.writeTrap i v).acqTo = g.acqTo := rfl
@[simp] theorem Group.writeTrap_relTo (g : Group) (i : Nat) (v : Word) : (g.writeTrap i v).relTo = g.relTo := rfl
@[simp] theorem Group.writeTrap_mons (g : Group) (i : Nat) (v : Word) : (g.writeTrap i v).mons = g.mons := rfl
@[simp] theorem Group.writeTrap_walk (g : Group) (i : Nat) (v : Word) : (g.writeTrap i v).walk = g.walk := rfl
@[simp] theorem Group.writeTrap_latch (g : Group) (i : Nat) (v : Word) : (g.writeTrap i v).latch = g.latch := rfl
@[simp] theorem Group.writeTrap_clockHi (g : Group) (i : Nat) (v : Word) : (g.writeTrap i v).clockHi = g.clockHi := rfl
@[simp] theorem Group.writeTrap_sched (g : Group) (i : Nat) (v : Word) : (g.writeTrap i v).sched = g.sched := rfl

/-! ### Group.finish -/

@[simp] theorem Group.finish_blk (g : Group) (ph : Phase) : (g.finish ph).blk = g.blk := rfl
@[simp] theorem Group.finish_gid (g : Group) (ph : Phase) : (g.finish ph).gid = g.gid := rfl
@[simp] theorem Group.finish_part (g : Group) (ph : Phase) : (g.finish ph).part = g.part := rfl
@[simp] theorem Group.finish_phase (g : Group) (ph : Phase) : (g.finish ph).phase = ph := rfl
@[simp] theorem Group.finish_clause (g : Group) (ph : Phase) : (g.finish ph).clause = g.clause := rfl
@[simp] theorem Group.finish_lanes (g : Group) (ph : Phase) : (g.finish ph).lanes = { g.lanes with live := 0, em := 0, only := none } := rfl
@[simp] theorem Group.finish_regs (g : Group) (ph : Phase) : (g.finish ph).regs = g.regs := rfl
@[simp] theorem Group.finish_uregs (g : Group) (ph : Phase) : (g.finish ph).uregs = g.uregs := rfl
@[simp] theorem Group.finish_preds (g : Group) (ph : Phase) : (g.finish ph).preds = g.preds := rfl
@[simp] theorem Group.finish_upreds (g : Group) (ph : Phase) : (g.finish ph).upreds = g.upreds := rfl
@[simp] theorem Group.finish_caps (g : Group) (ph : Phase) : (g.finish ph).caps = g.caps := rfl
@[simp] theorem Group.finish_flags (g : Group) (ph : Phase) : (g.finish ph).flags = g.flags := rfl
@[simp] theorem Group.finish_fmt (g : Group) (ph : Phase) : (g.finish ph).fmt = g.fmt := rfl
@[simp] theorem Group.finish_wb (g : Group) (ph : Phase) : (g.finish ph).wb = g.wb := rfl
@[simp] theorem Group.finish_alloc (g : Group) (ph : Phase) : (g.finish ph).alloc = g.alloc := rfl
@[simp] theorem Group.finish_join (g : Group) (ph : Phase) : (g.finish ph).join = g.join := rfl
@[simp] theorem Group.finish_trap (g : Group) (ph : Phase) : (g.finish ph).trap = g.trap := rfl
@[simp] theorem Group.finish_deferred (g : Group) (ph : Phase) : (g.finish ph).deferred = [] := rfl
@[simp] theorem Group.finish_pend (g : Group) (ph : Phase) : (g.finish ph).pend = g.pend := rfl
@[simp] theorem Group.finish_nextTok (g : Group) (ph : Phase) : (g.finish ph).nextTok = g.nextTok := rfl
@[simp] theorem Group.finish_acqTo (g : Group) (ph : Phase) : (g.finish ph).acqTo = g.acqTo := rfl
@[simp] theorem Group.finish_relTo (g : Group) (ph : Phase) : (g.finish ph).relTo = g.relTo := rfl
@[simp] theorem Group.finish_mons (g : Group) (ph : Phase) : (g.finish ph).mons = [] := rfl
@[simp] theorem Group.finish_walk (g : Group) (ph : Phase) : (g.finish ph).walk = .empty := rfl
@[simp] theorem Group.finish_latch (g : Group) (ph : Phase) : (g.finish ph).latch = none := rfl
@[simp] theorem Group.finish_clockHi (g : Group) (ph : Phase) : (g.finish ph).clockHi = g.clockHi := rfl

/-! ### Group.ordered -/

@[simp] theorem Group.ordered_blk (g : Group) (i : Instr) (n : Nat) : (g.ordered i n).blk = g.blk := rfl
@[simp] theorem Group.ordered_gid (g : Group) (i : Instr) (n : Nat) : (g.ordered i n).gid = g.gid := rfl
@[simp] theorem Group.ordered_part (g : Group) (i : Instr) (n : Nat) : (g.ordered i n).part = g.part := rfl
@[simp] theorem Group.ordered_phase (g : Group) (i : Instr) (n : Nat) : (g.ordered i n).phase = g.phase := rfl
@[simp] theorem Group.ordered_clause (g : Group) (i : Instr) (n : Nat) : (g.ordered i n).clause = g.clause := rfl
@[simp] theorem Group.ordered_lanes (g : Group) (i : Instr) (n : Nat) : (g.ordered i n).lanes = g.lanes := rfl
@[simp] theorem Group.ordered_regs (g : Group) (i : Instr) (n : Nat) : (g.ordered i n).regs = g.regs := rfl
@[simp] theorem Group.ordered_uregs (g : Group) (i : Instr) (n : Nat) : (g.ordered i n).uregs = g.uregs := rfl
@[simp] theorem Group.ordered_preds (g : Group) (i : Instr) (n : Nat) : (g.ordered i n).preds = g.preds := rfl
@[simp] theorem Group.ordered_upreds (g : Group) (i : Instr) (n : Nat) : (g.ordered i n).upreds = g.upreds := rfl
@[simp] theorem Group.ordered_caps (g : Group) (i : Instr) (n : Nat) : (g.ordered i n).caps = g.caps := rfl
@[simp] theorem Group.ordered_flags (g : Group) (i : Instr) (n : Nat) : (g.ordered i n).flags = g.flags := rfl
@[simp] theorem Group.ordered_fmt (g : Group) (i : Instr) (n : Nat) : (g.ordered i n).fmt = g.fmt := rfl
@[simp] theorem Group.ordered_wb (g : Group) (i : Instr) (n : Nat) : (g.ordered i n).wb = g.wb := rfl
@[simp] theorem Group.ordered_alloc (g : Group) (i : Instr) (n : Nat) : (g.ordered i n).alloc = g.alloc := rfl
@[simp] theorem Group.ordered_join (g : Group) (i : Instr) (n : Nat) : (g.ordered i n).join = g.join := rfl
@[simp] theorem Group.ordered_trap (g : Group) (i : Instr) (n : Nat) : (g.ordered i n).trap = g.trap := rfl
@[simp] theorem Group.ordered_deferred (g : Group) (i : Instr) (n : Nat) : (g.ordered i n).deferred = g.deferred := rfl
@[simp] theorem Group.ordered_pend (g : Group) (i : Instr) (n : Nat) : (g.ordered i n).pend = g.pend := rfl
@[simp] theorem Group.ordered_nextTok (g : Group) (i : Instr) (n : Nat) : (g.ordered i n).nextTok = g.nextTok := rfl
@[simp] theorem Group.ordered_mons (g : Group) (i : Instr) (n : Nat) : (g.ordered i n).mons = g.mons := rfl
@[simp] theorem Group.ordered_walk (g : Group) (i : Instr) (n : Nat) : (g.ordered i n).walk = g.walk := rfl
@[simp] theorem Group.ordered_latch (g : Group) (i : Instr) (n : Nat) : (g.ordered i n).latch = g.latch := rfl
@[simp] theorem Group.ordered_clockHi (g : Group) (i : Instr) (n : Nat) : (g.ordered i n).clockHi = g.clockHi := rfl
@[simp] theorem Group.ordered_sched (g : Group) (i : Instr) (n : Nat) : (g.ordered i n).sched = g.sched := rfl
@[simp] theorem Group.ordered_acqTo (g : Group) (i : Instr) (n : Nat) : (g.ordered i n).acqTo = if i.acquires || i.fenceAcq then n + 1 else g.acqTo := rfl
@[simp] theorem Group.ordered_relTo (g : Group) (i : Instr) (n : Nat) : (g.ordered i n).relTo = if i.releases || i.fenceRel then n else g.relTo := rfl

end Sys2Proof.Machine
end

