-- ==== Sys2Proof/Safety.lean ====
section
/-! DEFINITION. What a safe run is, and the words that statements about the machine use: when a word issues, what a step answers, and
the shapes of the results that several instructions share. -/

namespace Sys2Proof.Machine

/-- A step that goes on. -/
def Safe (o : Host.Outcome State Fault Refusal) : Prop := ∃ t, o = .next t

/-- A run of `n` steps that goes on to its end. -/
def SafeRun : Nat → State → Prop
  | 0, _ => True
  | n + 1, s => ∃ t, step s = .next t ∧ SafeRun n t

/-- The instruction answers a next state of which `P` holds. -/
def Answers (i : Instr) (s : State) (P : State → Prop) : Prop := ∃ t, exec i s = .next t ∧ P t

/-- The current group is `g`, and it stands at an issue (R168). -/
abbrev AtIssue (s : State) (g : Group) : Prop := s.groups[s.cur]? = some g ∧ g.atIssue = true

/-- The current group `g` issues the word `i`, and the word passes the checks of R50 that every word has: its register kinds, the
allocation and the multiples of its registers. -/
abbrev Issues (s : State) (g : Group) (i : Instr) : Prop :=
  AtIssue s g ∧ i.wfAt g.fmt = true ∧ i.beyondAlloc g.fmt g.wb g.alloc = none ∧ i.misaligned g.fmt = none

/-- The current group becomes `x`, and nothing else of the package changes. -/
def OnlyGroup (s t : State) (x : Group) : Prop := t = { s with groups := s.groups.set s.cur x }

/-- The group goes on at the word after the one it stands at, or at the clause that follows, whose header lies at h + 4 × (LEN + 2) (R36,
R168). -/
def Group.onward (g : Group) : Group :=
  { g with
    phase := if g.idx + 1 < g.clause.words.length then .issue (g.idx + 1)
      else .fetch ((g.clause.hdr + 4 * (g.clause.words.length + 1)) % 2 ^ 32)
    lanes := { g.lanes with only := none } }

/-- The group transfers to a clause header at `pc` (R39). -/
def Group.toClause (g : Group) (pc : Nat) : Group := { g with phase := .fetch pc, lanes := { g.lanes with only := none } }

/-- What a trap with a handler leaves of group `x` (R187): the trap registers, EM, and the handler's clause to be fetched. -/
def Group.inHandler (x : Group) (t : Trap) (pc : Nat) (c : Clause) (deferred : Bool) (handler : Nat) : Group :=
  { x with
    trap :=
      { handler := true, tem := x.lanes.em, tfm := t.mask, tpc := BitVec.ofNat 32 pc, tcause := BitVec.ofNat 32 t.cause, tval := t.val,
        tvalhi := t.valhi, tlane := t.lanes, tdef := deferred, tpcWritten := false, clause := c }
    lanes := { x.lanes with em := x.lanes.live, only := none }
    phase := .fetch handler }

/-- State `t` is `s` with the trap taken by the current group: a handler is there and the group is not in it, TRAPS counts the entry, and
only that group changes (R187). -/
def TakesTrap (s t : State) (g : Group) (r : Trap) (pc : Nat) (c : Clause) (deferred : Bool) : Prop :=
  t = { s with
    groups := s.groups.set s.cur (g.inHandler r pc c deferred (s.glch s.cur).lr.handler)
    cnt := (s.count 1 (s.partOf s.cur) 5 1).cnt }

/-- The current group has a handler to enter: it is not in handler mode, and its launch names one (R187, R190). -/
abbrev MayTrap (s : State) (g : Group) : Prop := g.trap.handler = false ∧ (s.glch s.cur).lr.handler ≠ 0xFFFFFFFF

/-- The trap that the word at which the group stands takes: TPC is its offset and TFM every active launch lane (R50, R188). -/
def TrapsAtWord (s t : State) (g : Group) (cause : Nat) (val valhi : Word) : Prop :=
  TakesTrap s t g ⟨cause, val, valhi, g.launchAct, []⟩ (g.clause.hdr + 4 * (g.idx + 1)) g.clause false

/-! ## Results of lane instructions -/

/-- What a lane instruction leaves beside its registers: the registers `rs`, p7 and q7 apart, are pending under a new token, whose end is due, and
the group goes on at the next word (R243). -/
def Group.laneDone (g : Group) (rs : List PReg) : Group :=
  { g with pend := g.pend ++ (rs.filter PReg.interlocked).map (·, g.nextTok), nextTok := g.nextTok + 1, phase := g.next.phase, lanes := g.next.lanes }

/-- State `t` is `s` but for the current group, which is `x`, and the due end of the token that `g` had next. -/
def LaneDue (s t : State) (g x : Group) : Prop :=
  t = { s with groups := s.groups.set s.cur x, agenda := s.agenda ++ [.fixedLatencyComplete s.cur g.nextTok] }

/-- The lane-register table after `k` registers from field `d` are written in the active lanes: register `j` of them gets `v j L` in lane
`L`, and every other register of every lane is as before (R44, R242). -/
def LaneRegs (g : Group) (d : RF) (k : Nat) (v : Nat → Nat → Word) (regs : SMap Word) : Prop :=
  ∀ n L, L < 32 → tget 0 regs (32 * n + L) =
    if d.val < 96 ∧ g.wb + d.val ≤ n ∧ n < g.wb + d.val + k ∧ g.act.getLsbD L = true then v (n - (g.wb + d.val)) L else g.phys n L

/-- The uniform registers after the same write: a uniform destination gets the value of the lowest active launch lane, and with no such
lane nothing is written (R44, R166). -/
def UniRegs (g : Group) (d : RF) (k : Nat) (v : Nat → Nat → Word) (uregs : SMap Word) : Prop :=
  ∀ n, tget 0 uregs n =
    match (lanesOf g.launchAct).head? with
    | some L => if 96 ≤ d.val ∧ d.val < 127 ∧ d.val - 96 ≤ n ∧ n < d.val - 96 + k then v (n - (d.val - 96)) L else g.uni n
    | none => g.uni n

/-- A lane instruction wrote `k` registers from field `d` and changed nothing else of the package but the group's pending registers and
its place. Field sz is neither a lane nor a uniform register, so it takes no value (R43). -/
def Wrote (s t : State) (g : Group) (d : RF) (k : Nat) (v : Nat → Nat → Word) : Prop :=
  ∃ regs uregs, LaneDue s t g { g.laneDone (g.destRegs d k) with regs := regs, uregs := uregs } ∧
    LaneRegs g d k v regs ∧ UniRegs g d k v uregs

/-- A lane instruction wrote predicate `p` in the active lanes, `b L` in lane `L`; p7 takes no value (R244). -/
def WrotePred (s t : State) (g : Group) (p : Nat) (b : Nat → Bool) : Prop :=
  ∃ preds, LaneDue s t g { g.laneDone [.pred p] with preds := preds } ∧
    (∀ q, q ≠ p → tget 0 preds q = tget 0 g.preds q) ∧
    (p = 7 → tget 0 preds 7 = tget 0 g.preds 7) ∧
    (p ≠ 7 → ∀ L, L < 32 → (tget 0 preds p).getLsbD L = if g.act.getLsbD L then b L else (tget 0 g.preds p).getLsbD L)

/-- Wherever the word issues it answers, having written `k` registers from `d` with the values `v`. -/
def LaneWrites (i : Instr) (d : RF) (k : Nat) (v : Group → Nat → Nat → Word) : Prop :=
  ∀ s g, Issues s g i → Answers i s fun t => Wrote s t g d k (v g)

/-- A word of one source register: lane by lane, `f` of it. -/
def Lane1 (i : Instr) (d a : RF) (f : Word → Word) : Prop := LaneWrites i d 1 fun g _ L => f (g.src a 0 L)

/-- A word of two source registers. -/
def Lane2 (i : Instr) (d a b : RF) (f : Word → Word → Word) : Prop :=
  LaneWrites i d 1 fun g _ L => f (g.src a 0 L) (g.src b 0 L)

/-- A word of two source registers that also reads its destination. -/
def Lane3 (i : Instr) (d a b : RF) (f : Word → Word → Word → Word) : Prop :=
  LaneWrites i d 1 fun g _ L => f (g.src a 0 L) (g.src b 0 L) (g.src d 0 L)

/-- A word that writes a lane predicate. -/
def LaneTests (i : Instr) (p : Fin 8) (b : Group → Nat → Bool) : Prop :=
  ∀ s g, Issues s g i → Answers i s fun t => WrotePred s t g p.val (b g)

/-- A control register is read into field `d`: every active lane of a lane register gets the value, a uniform register gets it whatever lanes
are active, and nothing else of the package changes but the group's place (R195, R203). -/
def ReadsOne (s t : State) (g : Group) (d : RF) (v : Word) : Prop :=
  ∃ regs uregs, OnlyGroup s t { g.onward with regs := regs, uregs := uregs } ∧ LaneRegs g d 1 (fun _ _ => v) regs ∧
    ∀ n, tget 0 uregs n = if 96 ≤ d.val ∧ d.val < 127 ∧ n = d.val - 96 then v else g.uni n

/-! ## Frames -/

/-- Groups `g` and `x` agree in everything that a program reads by register: lane and uniform registers, predicates, capabilities, FMT, WB,
masks, join stack and trap registers. -/
def Group.SameRegs (g x : Group) : Prop :=
  x.regs = g.regs ∧ x.uregs = g.uregs ∧ x.preds = g.preds ∧ x.upreds = g.upreds ∧ x.caps = g.caps ∧ x.fmt = g.fmt ∧ x.wb = g.wb ∧
    x.lanes.em = g.lanes.em ∧ x.lanes.live = g.lanes.live ∧ x.lanes.launch = g.lanes.launch ∧ x.lanes.helper = g.lanes.helper ∧
    x.join = g.join ∧ x.trap = g.trap

/-- Group `x` is `g` but for its lane and uniform registers, its predicates and its pending registers, flags and place: capabilities, FMT, WB,
masks, join stack and trap registers are as before. -/
def Group.SameControl (g x : Group) : Prop :=
  x.caps = g.caps ∧ x.fmt = g.fmt ∧ x.wb = g.wb ∧ x.lanes.em = g.lanes.em ∧ x.lanes.live = g.lanes.live ∧ x.lanes.launch = g.lanes.launch ∧
    x.lanes.helper = g.lanes.helper ∧ x.join = g.join ∧ x.trap = g.trap

/-- From `s` to `t` only group `n`, the operations in flight, the steps due, the counters and the cores' own state (command queues, L1, predictor)
change: device memory, every block, every other group, launches, courses, contexts, translations, the fabric and the links are as before. -/
def State.Around (s t : State) (n : Nat) : Prop :=
  t = { s with groups := s.groups.set n (t.grp n), ops := t.ops, nextOp := t.nextOp, agenda := t.agenda, cnt := t.cnt, cores := t.cores }

/-! ## Operations in flight -/

/-- The group has issued operation `o`: it marks its flag, its destinations are pending under its token, and the operation is in flight under the
next number. No register of the group changes yet, and nothing else of the package but what `State.Around` names. -/
def InFlight (s t : State) (g : Group) (i : Instr) (P : Op → Prop) : Prop :=
  ∃ o, tfind t.ops s.nextOp = some o ∧ o.instr = i ∧ o.gid = s.cur ∧ o.tok = g.nextTok ∧ o.flag = g.flagFor (i.cls g) ∧ P o ∧
    t.nextOp = s.nextOp + 1 ∧ (∀ k, k ≠ s.nextOp → tfind t.ops k = tfind s.ops k) ∧
    (t.grp s.cur).flags = (g.mark o.flag).flags ∧ (t.grp s.cur).pend = g.pend ++ o.dest.map (·, g.nextTok) ∧
    g.SameRegs (t.grp s.cur) ∧ s.Around t s.cur

/-- A lane's access at a displacement passes the core's checks of a global access (R215, R217, R218). -/
abbrev Group.reaches (g : Group) (c rights size disp : Nat) : Prop :=
  (g.cap c).allows rights = true ∧ disp + size ≤ (g.cap c).len ∧ ((g.cap c).base + disp) % size = 0

/-- A lane's window address passes the checks of R216. -/
abbrev State.windowReaches (s : State) (blk size w : Nat) : Prop :=
  w < 2 ^ 24 ∧ windowRank (s.blk blk).rank w < (s.lch (s.blk blk).launch).lr.bpc ∧
    windowOff w + size ≤ (s.lch (s.blk blk).launch).scr ∧ windowOff w % size = 0

/-- The address word `w` names a barrier of the group's own block, which is there (R285, R292). -/
abbrev State.ownBar (s : State) (g : Group) (w : Nat) : Prop :=
  w < 2 ^ 24 ∧ w % 32 = 0 ∧ w + 32 ≤ (s.glch s.cur).scr ∧ (s.blk g.blk).rank < (s.glch s.cur).lr.bpc ∧ s.peerGone g.blk = false ∧
    g.blk < s.blocks.length

/-- STAT of a barrier as a write of the barrier leaves it: BROKEN, INIT, COURSE, H0 and H1, and zero in the reserved bits (R6, R283). -/
def statBits (n : Nat) : Nat := n % 8 + 256 * (n / 256 % 4)

/-- Device memory and every block's bytes are as before. -/
def State.SameBytes (s t : State) : Prop := t.mem = s.mem ∧ t.blocks = s.blocks

/-- Every scratchpad byte outside `n` bytes at `off` of block `b` is as before, and so is device memory. -/
def State.KeepsOutside (s t : State) (b off n : Nat) : Prop :=
  t.mem = s.mem ∧ ∀ k x, k ≠ b ∨ x < off ∨ off + n ≤ x → t.sread k x 1 = s.sread k x 1

/-- The mailbox command has ended with a status: STATUS holds it and BUSY is clear (R464). -/
def Ended (t : State) (status : Nat) : Prop :=
  mget t.mg.mbox 4 = BitVec.ofNat 8 status ∧ (mget t.mg.mbox 3).getLsbD 7 = false

/-! ## Canonical memory -/

/-- Device memory is in its canonical form: addresses strictly rising, and no byte listed that reads as an unlisted one does. -/
def State.canonical (s : State) : Prop :=
  Memory.wf s.mem = true

end Sys2Proof.Machine
end

