-- ==== Sys2Proof/Laws/Issue.lean ====
section
/-! SUPPORT. What issuing a word, writing lane registers, taking a trap and having an operation in flight can do. -/

namespace Sys2Proof.Machine

/-! ## Groups -/

theorem grp_of_getElem? {s : State} {n : Nat} {g : Group} (h : s.groups[n]? = some g) : s.grp n = g := by
  simp [State.grp, List.getD_eq_getElem?_getD, h]

theorem lt_of_getElem? {s : State} {n : Nat} {g : Group} (h : s.groups[n]? = some g) : n < s.groups.length := by
  rw [List.getElem?_eq_some_iff] at h; exact h.1

theorem setGrp_getElem? {s : State} {n : Nat} {g : Group} (h : s.groups[n]? = some g) (x : Group) :
    (s.setGrp n x).groups[n]? = some x := by
  simp [lt_of_getElem? h]

theorem grp_setGrp_self {s : State} {n : Nat} {g : Group} (h : s.groups[n]? = some g) (x : Group) : (s.setGrp n x).grp n = x :=
  grp_of_getElem? (setGrp_getElem? h x)

theorem grp_setGrp_ne (s : State) {n k : Nat} (h : k ≠ n) (x : Group) : (s.setGrp n x).grp k = s.grp k := by
  simp [State.grp, List.getD_eq_getElem?_getD, List.getElem?_set_ne (Ne.symm h)]

/-! ## Issuing a word -/

/-- A word that issues is performed. -/
theorem issueWord_next {s : State} {g : Group} {i : Instr} (h : Issues s g i) (body : Nat → Group → State) :
    issueWord i s body = .next (body s.cur g) := by
  obtain ⟨⟨h1, h2⟩, h3, h4, h5⟩ := h
  simp [issueWord, issueChecked, h1, h2, Group.issueTrap, h3, h4, h5]

/-- A word whose own check passes is performed. -/
theorem issueChecked_next {s : State} {g : Group} {i : Instr} (h : Issues s g i) (pre : Group → Option Nat) (hp : pre g = none)
    (body : Nat → Group → State) : issueChecked pre i s body = .next (body s.cur g) := by
  obtain ⟨⟨h1, h2⟩, h3, h4, h5⟩ := h
  simp [issueChecked, h1, h2, Group.issueTrap, h3, h4, h5, hp]

/-- A word that fails a check traps where it stands. -/
theorem issueChecked_trap {s : State} {g : Group} {i : Instr} (h : AtIssue s g) (pre : Group → Option Nat) {t : Trap}
    (ht : g.issueTrap (pre g) i = some t) (body : Nat → Group → State) :
    issueChecked pre i s body = .next (s.trapHere s.cur t) := by
  obtain ⟨h1, h2⟩ := h
  simp [issueChecked, h1, h2, ht]

/-- The offset of the word at which a group stands. -/
theorem pc_of_atIssue {g : Group} (h : g.atIssue = true) : g.pc = g.clause.hdr + 4 * (g.idx + 1) := by
  unfold Group.atIssue at h
  unfold Group.pc Group.idx
  split at h
  · next i hp => simp [hp, Clause.at]
  · cases h

/-- Everything that issuing a word can do: fault without a group, trap, or be performed. -/
theorem issueChecked_cases (pre : Group → Option Nat) (i : Instr) (s : State) (body : Nat → Group → State) :
    issueChecked pre i s body = .fault .noGroup ∨
      ∃ g, AtIssue s g ∧ ((∃ t, g.issueTrap (pre g) i = some t ∧ issueChecked pre i s body = .next (s.trapHere s.cur t)) ∨
        (g.issueTrap (pre g) i = none ∧ issueChecked pre i s body = .next (body s.cur g))) := by
  unfold issueChecked
  split
  · exact .inl rfl
  · next g hg =>
    split
    · next ha =>
      right
      refine ⟨g, ⟨hg, ha⟩, ?_⟩
      split
      · next t ht => exact .inl ⟨t, ht, rfl⟩
      · next ht => exact .inr ⟨ht, rfl⟩
    · exact .inl rfl

/-! ## Lane registers and predicates -/

theorem mem_lanesOf {m : Mask} {L : Nat} : L ∈ lanesOf m ↔ m.getLsbD L = true := by
  simp only [lanesOf, List.mem_filter, List.mem_range]
  refine ⟨fun h => h.2, fun h => ⟨?_, h⟩⟩
  by_contra hl
  rw [BitVec.getLsbD_of_ge _ _ (by omega)] at h
  cases h

/-- Writing one register in a list of lanes. -/
theorem tget_fold_lanes (v : Nat → Word) (n : Nat) (l : List Nat) (hl : ∀ L ∈ l, L < 32) :
    ∀ (r : SMap Word) (k L : Nat), L < 32 →
      tget 0 (l.foldl (fun r L => tset 0 r (32 * n + L) (v L)) r) (32 * k + L) = if k = n ∧ L ∈ l then v L else tget 0 r (32 * k + L) := by
  induction l with
  | nil => intro r k L _; simp
  | cons a t ih =>
    intro r k L hL
    have ha := hl a (by simp)
    rw [List.foldl_cons, ih (fun x hx => hl x (by simp [hx])) _ _ _ hL, tget_tset]
    by_cases h1 : k = n ∧ L ∈ t
    · rw [if_pos h1, if_pos ⟨h1.1, by simp [h1.2]⟩]
    · rw [if_neg h1]
      by_cases h2 : k = n ∧ L = a
      · rw [if_pos (by rw [h2.1, h2.2]), if_pos ⟨h2.1, by simp [h2.2]⟩, h2.2]
      · rw [if_neg (by omega), if_neg]
        rintro ⟨h3, h4⟩
        rcases List.mem_cons.1 h4 with h5 | h5
        · exact h2 ⟨h3, h5⟩
        · exact h1 ⟨h3, h5⟩

theorem lanesOf_lt (m : Mask) : ∀ L ∈ lanesOf m, L < 32 := by
  intro L h
  simp only [lanesOf, List.mem_filter, List.mem_range] at h
  exact h.1

/-- `dst` changes register tables only. -/
theorem dst_eq (g : Group) (f : RF) (k : Nat) (v : Nat → Word) :
    g.dst f k v = { g with regs := (g.dst f k v).regs, uregs := (g.dst f k v).uregs } := by
  unfold Group.dst Group.setUni
  repeat' split
  all_goals rfl

theorem dsts_eq (g : Group) (d : RF) (v : Nat → Nat → Word) (l : List Nat) :
    ∀ x : Group, x = { g with regs := x.regs, uregs := x.uregs } →
      l.foldl (fun x j => x.dst d j (v j)) x =
        { g with regs := (l.foldl (fun x j => x.dst d j (v j)) x).regs, uregs := (l.foldl (fun x j => x.dst d j (v j)) x).uregs } := by
  induction l with
  | nil => exact fun _ h => h
  | cons a t ih =>
    intro x h
    rw [List.foldl_cons]
    refine ih _ ?_
    rw [dst_eq x d a, h]

/-- Lane registers after `k` registers are written. -/
theorem laneRegs_dsts (g : Group) (d : RF) (k : Nat) (v : Nat → Nat → Word) : LaneRegs g d k v (g.dsts d k v).regs := by
  induction k with
  | zero => intro n L hL; rw [if_neg (by omega)]; rfl
  | succ k ih =>
    intro n L hL
    have ih := ih n L hL
    simp only [Group.dsts, List.range_succ, List.foldl_append, List.foldl_cons, List.foldl_nil] at ih ⊢
    have hx := dsts_eq g d v (List.range k) g rfl
    generalize hy : (List.range k).foldl (fun x j => x.dst d j (v j)) g = x at ih hx ⊢
    have ha : x.act = g.act := by rw [hx]; rfl
    have hw : x.wb = g.wb := by rw [hx]
    by_cases hd : d.val < 96
    · simp only [Group.dst, if_pos hd, ha, hw]
      rw [tget_fold_lanes _ _ _ (lanesOf_lt _) _ _ _ hL]
      simp only [mem_lanesOf]
      by_cases hn : n = g.wb + d.val + k ∧ g.act.getLsbD L = true
      · rw [if_pos hn, if_pos ⟨hd, by omega, by omega, hn.2⟩, hn.1, show g.wb + d.val + k - (g.wb + d.val) = k by omega]
      · rw [if_neg hn, ih]
        by_cases hc : d.val < 96 ∧ g.wb + d.val ≤ n ∧ n < g.wb + d.val + k ∧ g.act.getLsbD L = true
        · rw [if_pos hc, if_pos ⟨hd, hc.2.1, by omega, hc.2.2.2⟩]
        · rw [if_neg hc, if_neg]
          rintro ⟨h1, h2, h3, h4⟩
          exact hc ⟨h1, h2, by have : n ≠ g.wb + d.val + k := fun e => hn ⟨e, h4⟩
                               omega, h4⟩
    · have hr : (x.dst d k (v k)).regs = x.regs := by
        simp only [Group.dst, if_neg hd]
        repeat' split
        all_goals rfl
      rw [hr, ih, if_neg (by omega), if_neg (by omega)]

/-- Uniform registers after `k` registers are written. -/
theorem uniRegs_dsts (g : Group) (d : RF) (k : Nat) (v : Nat → Nat → Word) : UniRegs g d k v (g.dsts d k v).uregs := by
  induction k with
  | zero =>
    intro n
    cases (lanesOf g.launchAct).head? with
    | none => rfl
    | some L => show _ = if _ then _ else _; rw [if_neg (by omega)]; rfl
  | succ k ih =>
    intro n
    have ih := ih n
    simp only [Group.dsts, List.range_succ, List.foldl_append, List.foldl_cons, List.foldl_nil] at ih ⊢
    have hx := dsts_eq g d v (List.range k) g rfl
    generalize hy : (List.range k).foldl (fun x j => x.dst d j (v j)) g = x at ih hx ⊢
    have ha : x.launchAct = g.launchAct := by rw [hx]; rfl
    by_cases hd : 96 ≤ d.val ∧ d.val < 127
    · have hd' : ¬ d.val < 96 := by omega
      simp only [Group.dst, if_neg hd', if_pos hd.2, ha]
      cases hl : (lanesOf g.launchAct).head? with
      | none => simpa [hl] using ih
      | some L =>
        rw [hl] at ih
        simp only [Group.setUni] at ih ⊢
        rw [tget_tset]
        by_cases hn : n = d.val - 96 + k
        · rw [if_pos hn, if_pos ⟨hd.1, hd.2, by omega, by omega⟩, hn, show d.val - 96 + k - (d.val - 96) = k by omega]
        · rw [if_neg hn, ih]
          by_cases hc : 96 ≤ d.val ∧ d.val < 127 ∧ d.val - 96 ≤ n ∧ n < d.val - 96 + k
          · rw [if_pos hc, if_pos ⟨hc.1, hc.2.1, hc.2.2.1, by omega⟩]
          · rw [if_neg hc, if_neg (by omega)]
    · have hr : (x.dst d k (v k)).uregs = x.uregs := by
        simp only [Group.dst, Group.setUni]
        repeat' split
        all_goals first | rfl | omega
      rw [hr, ih]
      cases (lanesOf g.launchAct).head? with
      | none => rfl
      | some L => show (if _ then _ else _) = if _ then _ else _; rw [if_neg (by omega), if_neg (by omega)]

/-- What a lane instruction does to the package once its registers are `x`. -/
theorem laneEnd_due (s : State) (g : Group) (rs : List PReg) (regs uregs : SMap Word) :
    LaneDue s (s.laneEnd s.cur { g with regs := regs, uregs := uregs } rs) g { g.laneDone rs with regs := regs, uregs := uregs } := rfl

theorem laneWrite_wrote {i : Instr} {s : State} {g : Group} (h : Issues s g i) (d : RF) (k : Nat) (v : Group → Nat → Nat → Word) :
    ∃ t, laneWrite i s d k v = .next t ∧ Wrote s t g d k (v g) := by
  refine ⟨_, issueWord_next h _, (g.dsts d k (v g)).regs, (g.dsts d k (v g)).uregs, ?_, laneRegs_dsts g d k (v g), uniRegs_dsts g d k (v g)⟩
  have hx : g.dsts d k (v g) = { g with regs := (g.dsts d k (v g)).regs, uregs := (g.dsts d k (v g)).uregs } :=
    dsts_eq g d (v g) (List.range k) g rfl
  have hz := laneEnd_due s g (g.destRegs d k) (g.dsts d k (v g)).regs (g.dsts d k (v g)).uregs
  rwa [← hx] at hz

theorem getLsbD_maskOf (p : Nat → Bool) (L : Nat) (h : L < 32) : (maskOf p).getLsbD L = p L := by
  have key : ∀ (l : List Nat) (m : Mask), (∀ k ∈ l, k < 32) →
      (l.foldl (fun m k => if p k then m ||| (1#32 <<< k) else m) m).getLsbD L = (m.getLsbD L || (decide (L ∈ l) && p L)) := by
    intro l
    induction l with
    | nil => intro m _; simp
    | cons a t ih =>
      intro m hl
      have ha : a < 32 := hl a (by simp)
      rw [List.foldl_cons, ih _ fun k hk => hl k (by simp [hk])]
      by_cases e : L = a
      · subst e
        by_cases hp : p L
        · simp [hp, h]
        · simp [hp]
      · have hb : ((1#32 <<< a).getLsbD L) = false := by
          simp only [BitVec.getLsbD_shiftLeft, BitVec.getLsbD_one]
          by_cases hlt : L < a
          · simp [hlt]
          · simp; omega
        split
        · simp [hb, e]
        · simp [e]
  rw [maskOf, key _ _ (by simp)]
  simp [h]

theorem lanePred_wrote {i : Instr} {s : State} {g : Group} (h : Issues s g i) (p : Fin 8) (b : Group → Nat → Bool) :
    ∃ t, lanePred i s p b = .next t ∧ WrotePred s t g p.val (b g) := by
  refine ⟨_, issueWord_next h _, (g.setPred p.val g.act (maskOf (b g))).preds, ?_, ?_, ?_, ?_⟩
  · simp only [Group.setPred]; split <;> rfl
  · intro q hq; simp only [Group.setPred]; split
    · rfl
    · exact tget_tset_ne _ _ _ _ _ hq
  · intro hp; simp [Group.setPred, hp]
  · intro hp L hL
    simp only [Group.setPred, if_neg hp, tget_tset_self, BitVec.getLsbD_or, BitVec.getLsbD_and, BitVec.getLsbD_not, getLsbD_maskOf _ _ hL]
    cases g.act.getLsbD L <;> simp [hL]

/-! ## Operations in flight -/

/-- What issuing an operation leaves: the operation is in flight with the mark of order of its group. -/
theorem issueOp_inFlight {s : State} {g : Group} {i : Instr} {o : Op} (hg : s.groups[s.cur]? = some g)
    (h1 : o.instr = i) (h2 : o.gid = s.cur) (h3 : o.tok = g.nextTok) (h4 : o.flag = g.flagFor (i.cls g)) (P : Op → Prop)
    (h5 : ∀ n, P { o with relTo := n }) : InFlight s (s.issueOp s.cur o) g i P := by
  have hs := grp_of_getElem? hg
  have hx : (s.issueOp s.cur o).grp s.cur =
      { ((((s.grp s.cur).mark o.flag).addPend o.dest o.tok).ordered o.instr s.nextOp).next with
        nextTok := ((((s.grp s.cur).mark o.flag).addPend o.dest o.tok).ordered o.instr s.nextOp).nextTok + 1 } :=
    grp_of_getElem? (setGrp_getElem? hg _)
  refine ⟨{ o with relTo := ((((s.grp s.cur).mark o.flag).addPend o.dest o.tok).ordered o.instr s.nextOp).relTo },
    ?_, h1, h2, h3, h4, h5 _, rfl, ?_, ?_, ?_, ?_, ?_⟩
  · simp [State.issueOp]
  · intro k hk; simp only [State.issueOp]; exact tfind_tins_ne _ _ _ _ hk
  · rw [hx, hs]; simp only [Group.mark]; split <;> rfl
  · rw [hx, hs]; simp only [Group.mark]; split <;> simp [Group.addPend, Group.next, Group.after, Group.ordered, h3]
  · rw [hx, hs]; simp only [Group.mark, Group.SameRegs]; split <;>
      exact ⟨rfl, rfl, rfl, rfl, rfl, rfl, rfl, rfl, rfl, rfl, rfl, rfl, rfl⟩
  · simp only [State.Around, hx]; rfl

end Sys2Proof.Machine
end

