-- ==== Sys2Proof/Laws/Words.lean ====
section
/-! SUPPORT. Every word without a check of its own before the allocation issues through the one shared operation. -/

namespace Sys2Proof.Machine

/-- Every word but TCINV, SWR and TRET is issued by `issueWord`, under its own checks of R50. -/
theorem exec_word (i : Instr) (s : State) (hw : i.isWord = true) (h1 : ∀ a, i ≠ .tcinv a) (h2 : ∀ a n, i ≠ .swr a n)
    (h3 : i ≠ .tret) : ∃ body, exec i s = issueWord i s body := by
  cases i
  case nop => exact ⟨_, by simp only [exec, execNop, groupWord]; rfl⟩
  case bra => exact ⟨_, by simp only [exec, execBra]; rfl⟩
  case brd => exact ⟨_, by simp only [exec, execBrd]; rfl⟩
  case pushj => exact ⟨_, by simp only [exec, execPushj]; rfl⟩
  case join => exact ⟨_, by simp only [exec, execJoin]; rfl⟩
  case call => exact ⟨_, by simp only [exec, execCall]; rfl⟩
  case ret => exact ⟨_, by simp only [exec, execRet]; rfl⟩
  case brx => exact ⟨_, by simp only [exec, execBrx]; rfl⟩
  case wbase => exact ⟨_, by simp only [exec, execWbase]; rfl⟩
  case mrd => exact ⟨_, by simp only [exec, execMrd, groupWord]; rfl⟩
  case mwr => exact ⟨_, by simp only [exec, execMwr, groupWord]; rfl⟩
  case mand => exact ⟨_, by simp only [exec, execMand, groupWord]; rfl⟩
  case hrd => exact ⟨_, by simp only [exec, execHrd, groupWord]; rfl⟩
  case fmts => exact ⟨_, by simp only [exec, execFmts]; rfl⟩
  case fmtr => exact ⟨_, by simp only [exec, execFmtr, groupWord]; rfl⟩
  case yield => exact ⟨_, by simp only [exec, execYield]; rfl⟩
  case exit => exact ⟨_, by simp only [exec, execExit]; rfl⟩
  case trap => exact ⟨_, by simp only [exec, execTrap]; rfl⟩
  case tret => exact absurd rfl h3
  case srd => exact ⟨_, by simp only [exec, execSrd]; rfl⟩
  case swr a n => exact absurd rfl (h2 a n)
  case ucmp => exact ⟨_, by simp only [exec, execUcmp, groupWord]; rfl⟩
  case tcinv a => exact absurd rfl (h1 a)
  case brk => exact ⟨_, by simp only [exec, execBrk]; rfl⟩
  case iadd => exact ⟨_, by simp only [exec, execIadd, lane2, laneWrite]; rfl⟩
  case isub => exact ⟨_, by simp only [exec, execIsub, lane2, laneWrite]; rfl⟩
  case imin => exact ⟨_, by simp only [exec, execImin, lane2, laneWrite]; rfl⟩
  case imax => exact ⟨_, by simp only [exec, execImax, lane2, laneWrite]; rfl⟩
  case iminu => exact ⟨_, by simp only [exec, execIminu, lane2, laneWrite]; rfl⟩
  case imaxu => exact ⟨_, by simp only [exec, execImaxu, lane2, laneWrite]; rfl⟩
  case iabsd => exact ⟨_, by simp only [exec, execIabsd, lane2, laneWrite]; rfl⟩
  case iadds => exact ⟨_, by simp only [exec, execIadds, lane2, laneWrite]; rfl⟩
  case isubs => exact ⟨_, by simp only [exec, execIsubs, lane2, laneWrite]; rfl⟩
  case imul => exact ⟨_, by simp only [exec, execImul, lane2, laneWrite]; rfl⟩
  case imulh => exact ⟨_, by simp only [exec, execImulh, lane2, laneWrite]; rfl⟩
  case imulhu => exact ⟨_, by simp only [exec, execImulhu, lane2, laneWrite]; rfl⟩
  case imad => exact ⟨_, by simp only [exec, execImad, lane3, laneWrite]; rfl⟩
  case and => exact ⟨_, by simp only [exec, execAnd, lane2, laneWrite]; rfl⟩
  case or => exact ⟨_, by simp only [exec, execOr, lane2, laneWrite]; rfl⟩
  case xor => exact ⟨_, by simp only [exec, execXor, lane2, laneWrite]; rfl⟩
  case andn => exact ⟨_, by simp only [exec, execAndn, lane2, laneWrite]; rfl⟩
  case orn => exact ⟨_, by simp only [exec, execOrn, lane2, laneWrite]; rfl⟩
  case xnor => exact ⟨_, by simp only [exec, execXnor, lane2, laneWrite]; rfl⟩
  case shl => exact ⟨_, by simp only [exec, execShl, lane2, laneWrite]; rfl⟩
  case shr => exact ⟨_, by simp only [exec, execShr, lane2, laneWrite]; rfl⟩
  case sar => exact ⟨_, by simp only [exec, execSar, lane2, laneWrite]; rfl⟩
  case rol => exact ⟨_, by simp only [exec, execRol, lane2, laneWrite]; rfl⟩
  case ror => exact ⟨_, by simp only [exec, execRor, lane2, laneWrite]; rfl⟩
  case popc => exact ⟨_, by simp only [exec, execPopc, lane1, laneWrite]; rfl⟩
  case clz => exact ⟨_, by simp only [exec, execClz, lane1, laneWrite]; rfl⟩
  case ctz => exact ⟨_, by simp only [exec, execCtz, lane1, laneWrite]; rfl⟩
  case brev => exact ⟨_, by simp only [exec, execBrev, lane1, laneWrite]; rfl⟩
  case bswap => exact ⟨_, by simp only [exec, execBswap, lane1, laneWrite]; rfl⟩
  case bfe => exact ⟨_, by simp only [exec, execBfe, lane2, laneWrite]; rfl⟩
  case bfeu => exact ⟨_, by simp only [exec, execBfeu, lane2, laneWrite]; rfl⟩
  case bfi => exact ⟨_, by simp only [exec, execBfi, lane3, laneWrite]; rfl⟩
  case icmp => exact ⟨_, by simp only [exec, execIcmp, lanePred]; rfl⟩
  case sel => exact ⟨_, by simp only [exec, execSel, laneWrite]; rfl⟩
  case mov => exact ⟨_, by simp only [exec, execMov, lane1, laneWrite]; rfl⟩
  case pmov => exact ⟨_, by simp only [exec, execPmov, laneWrite]; rfl⟩
  case movp => exact ⟨_, by simp only [exec, execMovp, lanePred]; rfl⟩
  case addi => exact ⟨_, by simp only [exec, execAddi, lane1, laneWrite]; rfl⟩
  case andi => exact ⟨_, by simp only [exec, execAndi, lane1, laneWrite]; rfl⟩
  case ori => exact ⟨_, by simp only [exec, execOri, lane1, laneWrite]; rfl⟩
  case xori => exact ⟨_, by simp only [exec, execXori, lane1, laneWrite]; rfl⟩
  case shli => exact ⟨_, by simp only [exec, execShli, lane1, laneWrite]; rfl⟩
  case shri => exact ⟨_, by simp only [exec, execShri, lane1, laneWrite]; rfl⟩
  case sari => exact ⟨_, by simp only [exec, execSari, lane1, laneWrite]; rfl⟩
  case icmpi => exact ⟨_, by simp only [exec, execIcmpi, lanePred]; rfl⟩
  case muli => exact ⟨_, by simp only [exec, execMuli, lane1, laneWrite]; rfl⟩
  case movi => exact ⟨_, by simp only [exec, execMovi, laneWrite]; rfl⟩
  case movhi => exact ⟨_, by simp only [exec, execMovhi, laneWrite]; rfl⟩
  case fadd => exact ⟨_, by simp only [exec, execFadd, lane2, laneWrite]; rfl⟩
  case fsub => exact ⟨_, by simp only [exec, execFsub, lane2, laneWrite]; rfl⟩
  case fmul => exact ⟨_, by simp only [exec, execFmul, lane2, laneWrite]; rfl⟩
  case ffma => exact ⟨_, by simp only [exec, execFfma, lane3, laneWrite]; rfl⟩
  case ffms => exact ⟨_, by simp only [exec, execFfms, lane3, laneWrite]; rfl⟩
  case fmin => exact ⟨_, by simp only [exec, execFmin, lane2, laneWrite]; rfl⟩
  case fmax => exact ⟨_, by simp only [exec, execFmax, lane2, laneWrite]; rfl⟩
  case fdiv => exact ⟨_, by simp only [exec, execFdiv, lane2, laneWrite]; rfl⟩
  case fabs => exact ⟨_, by simp only [exec, execFabs, lane1, laneWrite]; rfl⟩
  case fneg => exact ⟨_, by simp only [exec, execFneg, lane1, laneWrite]; rfl⟩
  case fcpys => exact ⟨_, by simp only [exec, execFcpys, lane2, laneWrite]; rfl⟩
  case fcmp => exact ⟨_, by simp only [exec, execFcmp, lanePred]; rfl⟩
  case frcp => exact ⟨_, by simp only [exec, execFrcp, lane1, laneWrite]; rfl⟩
  case frsq => exact ⟨_, by simp only [exec, execFrsq, lane1, laneWrite]; rfl⟩
  case fsqrt => exact ⟨_, by simp only [exec, execFsqrt, lane1, laneWrite]; rfl⟩
  case fexp2 => exact ⟨_, by simp only [exec, execFexp2, lane1, laneWrite]; rfl⟩
  case flog2 => exact ⟨_, by simp only [exec, execFlog2, lane1, laneWrite]; rfl⟩
  case fsinpi => exact ⟨_, by simp only [exec, execFsinpi, lane1, laneWrite]; rfl⟩
  case fcospi => exact ⟨_, by simp only [exec, execFcospi, lane1, laneWrite]; rfl⟩
  case ftanh => exact ⟨_, by simp only [exec, execFtanh, lane1, laneWrite]; rfl⟩
  case frne => exact ⟨_, by simp only [exec, execFrne, lane1, laneWrite]; rfl⟩
  case frtz => exact ⟨_, by simp only [exec, execFrtz, lane1, laneWrite]; rfl⟩
  case fflr => exact ⟨_, by simp only [exec, execFflr, lane1, laneWrite]; rfl⟩
  case fceil => exact ⟨_, by simp only [exec, execFceil, lane1, laneWrite]; rfl⟩
  case hadd2 => exact ⟨_, by simp only [exec, execHadd2, lanePacked]; rfl⟩
  case hmul2 => exact ⟨_, by simp only [exec, execHmul2, lanePacked]; rfl⟩
  case hfma2 => exact ⟨_, by simp only [exec, execHfma2, lanePacked]; rfl⟩
  case hmin2 => exact ⟨_, by simp only [exec, execHmin2, lanePacked]; rfl⟩
  case hmax2 => exact ⟨_, by simp only [exec, execHmax2, lanePacked]; rfl⟩
  case cvtfi => exact ⟨_, by simp only [exec, execCvtfi, lane1, laneWrite]; rfl⟩
  case cvtfu => exact ⟨_, by simp only [exec, execCvtfu, lane1, laneWrite]; rfl⟩
  case cvtif => exact ⟨_, by simp only [exec, execCvtif, laneWrite]; rfl⟩
  case cvtuf => exact ⟨_, by simp only [exec, execCvtuf, laneWrite]; rfl⟩
  case cvtfn => exact ⟨_, by simp only [exec, execCvtfn, laneConvert]; rfl⟩
  case cvtnf => exact ⟨_, by simp only [exec, execCvtnf, laneConvert]; rfl⟩
  case cvtnfh => exact ⟨_, by simp only [exec, execCvtnfh, laneConvert]; rfl⟩
  case cvtfc => exact ⟨_, by simp only [exec, execCvtfc, laneWrite]; rfl⟩
  case cvtcf => exact ⟨_, by simp only [exec, execCvtcf, lane2, laneWrite]; rfl⟩
  case cvtfnt => exact ⟨_, by simp only [exec, execCvtfnt, laneConvert]; rfl⟩
  case qswh => exact ⟨_, by simp only [exec, execQswh, laneExchange, laneWrite]; rfl⟩
  case qswv => exact ⟨_, by simp only [exec, execQswv, laneExchange, laneWrite]; rfl⟩
  case qswd => exact ⟨_, by simp only [exec, execQswd, laneExchange, laneWrite]; rfl⟩
  case qbc => exact ⟨_, by simp only [exec, execQbc, laneExchange, laneWrite]; rfl⟩
  case shfli => exact ⟨_, by simp only [exec, execShfli, laneExchange, laneWrite]; rfl⟩
  case shflu => exact ⟨_, by simp only [exec, execShflu, laneExchange, laneWrite]; rfl⟩
  case shfld => exact ⟨_, by simp only [exec, execShfld, laneExchange, laneWrite]; rfl⟩
  case shflx => exact ⟨_, by simp only [exec, execShflx, laneExchange, laneWrite]; rfl⟩
  case vany => exact ⟨_, by simp only [exec, execVany]; rfl⟩
  case vall => exact ⟨_, by simp only [exec, execVall]; rfl⟩
  case vbal => exact ⟨_, by simp only [exec, execVbal]; rfl⟩
  case rdadd => exact ⟨_, by simp only [exec, execRdadd, laneReduce, laneWrite]; rfl⟩
  case rdmin => exact ⟨_, by simp only [exec, execRdmin, laneReduce, laneWrite]; rfl⟩
  case rdmax => exact ⟨_, by simp only [exec, execRdmax, laneReduce, laneWrite]; rfl⟩
  case rdand => exact ⟨_, by simp only [exec, execRdand, laneReduce, laneWrite]; rfl⟩
  case rdor => exact ⟨_, by simp only [exec, execRdor, laneReduce, laneWrite]; rfl⟩
  case rdxor => exact ⟨_, by simp only [exec, execRdxor, laneReduce, laneWrite]; rfl⟩
  case rdfadd => exact ⟨_, by simp only [exec, execRdfadd, laneWrite]; rfl⟩
  case movxr => exact ⟨_, by simp only [exec, execMovxr]; rfl⟩
  case movxw => exact ⟨_, by simp only [exec, execMovxw]; rfl⟩
  case hmix => exact ⟨_, by simp only [exec, execHmix, lane2, laneWrite]; rfl⟩
  case prmt => exact ⟨_, by simp only [exec, execPrmt, lane3, laneWrite]; rfl⟩
  case addw => exact ⟨_, by simp only [exec, execAddw, laneWide, laneWrite]; rfl⟩
  case subw => exact ⟨_, by simp only [exec, execSubw, laneWide, laneWrite]; rfl⟩
  case mulw => exact ⟨_, by simp only [exec, execMulw, laneWide, laneWrite]; rfl⟩
  case mulwu => exact ⟨_, by simp only [exec, execMulwu, laneWide, laneWrite]; rfl⟩
  case shlw => exact ⟨_, by simp only [exec, execShlw, laneWide, laneWrite]; rfl⟩
  case shrw => exact ⟨_, by simp only [exec, execShrw, laneWide, laneWrite]; rfl⟩
  case ld => exact ⟨_, by simp only [exec, execLd, loadOp]; rfl⟩
  case lda => exact ⟨_, by simp only [exec, execLda, loadOp]; rfl⟩
  case st => exact ⟨_, by simp only [exec, execSt, storeOp]; rfl⟩
  case stl => exact ⟨_, by simp only [exec, execStl, storeOp]; rfl⟩
  case lds => exact ⟨_, by simp only [exec, execLds, loadOp]; rfl⟩
  case sts => exact ⟨_, by simp only [exec, execSts, storeOp]; rfl⟩
  case ldw => exact ⟨_, by simp only [exec, execLdw, loadOp]; rfl⟩
  case stw => exact ⟨_, by simp only [exec, execStw, storeOp]; rfl⟩
  case atom => exact ⟨_, by simp only [exec, execAtom, atomicOp]; rfl⟩
  case atoma => exact ⟨_, by simp only [exec, execAtoma, atomicOp]; rfl⟩
  case atoml => exact ⟨_, by simp only [exec, execAtoml, atomicOp]; rfl⟩
  case atomr => exact ⟨_, by simp only [exec, execAtomr, atomicOp]; rfl⟩
  case atoms => exact ⟨_, by simp only [exec, execAtoms, atomicOp]; rfl⟩
  case fence => exact ⟨_, by simp only [exec, execFence]; rfl⟩
  case capld => exact ⟨_, by simp only [exec, execCapld]; rfl⟩
  case capnar => exact ⟨_, by simp only [exec, execCapnar]; rfl⟩
  case caprd => exact ⟨_, by simp only [exec, execCaprd, groupWord]; rfl⟩
  case caprr => exact ⟨_, by simp only [exec, execCaprr]; rfl⟩
  case discard => exact ⟨_, by simp only [exec, execDiscard]; rfl⟩
  case pref => exact ⟨_, by simp only [exec, execPref]; rfl⟩
  case cpygs => exact ⟨_, by simp only [exec, execCpygs, copyIssue]; rfl⟩
  case cpysg => exact ⟨_, by simp only [exec, execCpysg, copyIssue]; rfl⟩
  case cpysw => exact ⟨_, by simp only [exec, execCpysw, copyIssue]; rfl⟩
  case cpygg => exact ⟨_, by simp only [exec, execCpygg, copyIssue]; rfl⟩
  case cpyx => exact ⟨_, by simp only [exec, execCpyx]; rfl⟩
  case barinit => exact ⟨_, by simp only [exec, execBarinit, barOp]; rfl⟩
  case bararr => exact ⟨_, by simp only [exec, execBararr, barOp]; rfl⟩
  case barwait => exact ⟨_, by simp only [exec, execBarwait, barOp]; rfl⟩
  case bartry => exact ⟨_, by simp only [exec, execBartry, barOp]; rfl⟩
  case monarm => exact ⟨_, by simp only [exec, execMonarm]; rfl⟩
  case monwait => exact ⟨_, by simp only [exec, execMonwait]; rfl⟩
  case monclr => exact ⟨_, by simp only [exec, execMonclr]; rfl⟩
  case mma => exact ⟨_, by simp only [exec, execMma]; rfl⟩
  case accz => exact ⟨_, by simp only [exec, execAccz]; rfl⟩
  case accld => exact ⟨_, by simp only [exec, execAccld, rowIssue]; rfl⟩
  case accst => exact ⟨_, by simp only [exec, execAccst, rowIssue]; rfl⟩
  case accss => exact ⟨_, by simp only [exec, execAccss, rowIssue]; rfl⟩
  case accxa => exact ⟨_, by simp only [exec, execAccxa]; rfl⟩
  case accxr => exact ⟨_, by simp only [exec, execAccxr]; rfl⟩
  case acccp => exact ⟨_, by simp only [exec, execAcccp]; rfl⟩
  case cbld => exact ⟨_, by simp only [exec, execCbld]; rfl⟩
  case ldsb => exact ⟨_, by simp only [exec, execLdsb]; rfl⟩
  case wset => exact ⟨_, by simp only [exec, execWset]; rfl⟩
  case wgo => exact ⟨_, by simp only [exec, execWgo]; rfl⟩
  case qpop => exact ⟨_, by simp only [exec, execQpop]; rfl⟩
  case wstop => exact ⟨_, by simp only [exec, execWstop]; rfl⟩
  case wstat => exact ⟨_, by simp only [exec, execWstat]; rfl⟩
  case sqres => exact ⟨_, by simp only [exec, execSqres, handleIssue, seqIssue]; rfl⟩
  case sqcom => exact ⟨_, by simp only [exec, execSqcom, handleIssue, seqIssue]; rfl⟩
  case sqapp => exact ⟨_, by simp only [exec, execSqapp, handleIssue, seqIssue]; rfl⟩
  case sqlen => exact ⟨_, by simp only [exec, execSqlen, handleIssue, seqIssue]; rfl⟩
  case sqrlen => exact ⟨_, by simp only [exec, execSqrlen, handleIssue, seqIssue]; rfl⟩
  case sqwlo => exact ⟨_, by simp only [exec, execSqwlo, handleIssue, seqIssue]; rfl⟩
  case sqmap => exact ⟨_, by simp only [exec, execSqmap, handleIssue, seqIssue]; rfl⟩
  case sqfork => exact ⟨_, by simp only [exec, execSqfork, handleIssue, seqIssue]; rfl⟩
  case sqnew => exact ⟨_, by simp only [exec, execSqnew, seqIssue]; rfl⟩
  case sqrel => exact ⟨_, by simp only [exec, execSqrel, handleIssue, seqIssue]; rfl⟩
  case sqwin => exact ⟨_, by simp only [exec, execSqwin, handleIssue, seqIssue]; rfl⟩
  case sqtake => exact ⟨_, by simp only [exec, execSqtake, handleIssue, seqIssue]; rfl⟩
  case sqseal => exact ⟨_, by simp only [exec, execSqseal, handleIssue, seqIssue]; rfl⟩
  case flpop => exact ⟨_, by simp only [exec, execFlpop, listIssue, seqIssue]; rfl⟩
  case flpush => exact ⟨_, by simp only [exec, execFlpush, listIssue, seqIssue]; rfl⟩
  case flcnt => exact ⟨_, by simp only [exec, execFlcnt, listIssue, seqIssue]; rfl⟩
  case mgmatch => exact ⟨_, by simp only [exec, execMgmatch, mergeIssue]; rfl⟩
  case mgmerge => exact ⟨_, by simp only [exec, execMgmerge, mergeIssue]; rfl⟩
  case mgsplit => exact ⟨_, by simp only [exec, execMgsplit]; rfl⟩
  case mgbias => exact ⟨_, by simp only [exec, execMgbias, mergeIssue]; rfl⟩
  case mgpop => exact ⟨_, by simp only [exec, execMgpop, stackIssue]; rfl⟩
  case mgstat => exact ⟨_, by simp only [exec, execMgstat, stackIssue]; rfl⟩
  case launch => exact ⟨_, by simp only [exec, execLaunch]; rfl⟩
  case lwait => exact ⟨_, by simp only [exec, execLwait, tokenIssue]; rfl⟩
  case lstat => exact ⟨_, by simp only [exec, execLstat, tokenIssue]; rfl⟩
  case rwri => exact ⟨_, by simp only [exec, execRwri, rmaIssue]; rfl⟩
  case rrd => exact ⟨_, by simp only [exec, execRrd, rmaIssue]; rfl⟩
  case clauseFetch => exact Bool.noConfusion hw
  case clauseAccept => exact Bool.noConfusion hw
  case deferredTrap => exact Bool.noConfusion hw
  case groupAged => exact Bool.noConfusion hw
  case pendingAgeSwap => exact Bool.noConfusion hw
  case swap => exact Bool.noConfusion hw
  case swapDone => exact Bool.noConfusion hw
  case waitEventWake => exact Bool.noConfusion hw
  case farCheckReport => exact Bool.noConfusion hw
  case loadDataReturn => exact Bool.noConfusion hw
  case atomicReturn => exact Bool.noConfusion hw
  case atomicResultLost => exact Bool.noConfusion hw
  case capldEntryReturn => exact Bool.noConfusion hw
  case fenceScComplete => exact Bool.noConfusion hw
  case tcinvComplete => exact Bool.noConfusion hw
  case prefArrival => exact Bool.noConfusion hw
  case reclaimComplete => exact Bool.noConfusion hw
  case copyComplete => exact Bool.noConfusion hw
  case seamCompletionMessage => exact Bool.noConfusion hw
  case seamCompletionAck => exact Bool.noConfusion hw
  case monitorReread => exact Bool.noConfusion hw
  case matrixCommandComplete => exact Bool.noConfusion hw
  case walkerReadReturn => exact Bool.noConfusion hw
  case probeTimeout => exact Bool.noConfusion hw
  case sequenceAnswer => exact Bool.noConfusion hw
  case mergeCommandComplete => exact Bool.noConfusion hw
  case packageTick => exact Bool.noConfusion hw
  case systemTick => exact Bool.noConfusion hw
  case rotation => exact Bool.noConfusion hw
  case spillComplete => exact Bool.noConfusion hw
  case predictorDecay => exact Bool.noConfusion hw
  case mappingBoundExceeded => exact Bool.noConfusion hw
  case recordAccept => exact Bool.noConfusion hw
  case launchComplete => exact Bool.noConfusion hw
  case blockRetire => exact Bool.noConfusion hw
  case dieFatalFailure => exact Bool.noConfusion hw
  case reserve => exact Bool.noConfusion hw
  case commit => exact Bool.noConfusion hw
  case refresh => exact Bool.noConfusion hw
  case replayPage => exact Bool.noConfusion hw
  case replayContext => exact Bool.noConfusion hw
  case status => exact Bool.noConfusion hw
  case ctxreg => exact Bool.noConfusion hw
  case seqarea => exact Bool.noConfusion hw
  case flset => exact Bool.noConfusion hw
  case objtab => exact Bool.noConfusion hw
  case faultseq => exact Bool.noConfusion hw
  case notetab => exact Bool.noConfusion hw
  case quantum => exact Bool.noConfusion hw
  case tclimset => exact Bool.noConfusion hw
  case domain => exact Bool.noConfusion hw
  case protdom => exact Bool.noConfusion hw
  case poisondel => exact Bool.noConfusion hw
  case cntread => exact Bool.noConfusion hw
  case logrot => exact Bool.noConfusion hw
  case logread => exact Bool.noConfusion hw
  case pwrlim => exact Bool.noConfusion hw
  case portrst => exact Bool.noConfusion hw
  case dieup => exact Bool.noConfusion hw
  case ctxrel => exact Bool.noConfusion hw
  case sqcreate => exact Bool.noConfusion hw
  case flfill => exact Bool.noConfusion hw
  case sqdel => exact Bool.noConfusion hw
  case registerWrite => exact Bool.noConfusion hw
  case hostApertureRead => exact Bool.noConfusion hw
  case hostApertureWrite => exact Bool.noConfusion hw
  case hostAtomicopReceived => exact Bool.noConfusion hw
  case getVersion => exact Bool.noConfusion hw
  case getCapabilities => exact Bool.noConfusion hw
  case negotiateAlgorithms => exact Bool.noConfusion hw
  case getDigests => exact Bool.noConfusion hw
  case getCertificate => exact Bool.noConfusion hw
  case challenge => exact Bool.noConfusion hw
  case getMeasurements => exact Bool.noConfusion hw
  case packageReset => exact Bool.noConfusion hw
  case selftestComplete => exact Bool.noConfusion hw
  case powerControl => exact Bool.noConfusion hw
  case thermalThrottle => exact Bool.noConfusion hw
  case dieOverheat => exact Bool.noConfusion hw
  case portCheck => exact Bool.noConfusion hw
  case faultReport => exact Bool.noConfusion hw
  case hbmReadComplete => exact Bool.noConfusion hw
  case farAtomic => exact Bool.noConfusion hw
  case hostAtomic => exact Bool.noConfusion hw
  case atomicopCompletion => exact Bool.noConfusion hw
  case sliceTcinv => exact Bool.noConfusion hw
  case sliceTcinvDrained => exact Bool.noConfusion hw
  case pcieCompletion => exact Bool.noConfusion hw
  case completionTimeout => exact Bool.noConfusion hw
  case pcieLinkDown => exact Bool.noConfusion hw
  case pcieLinkUp => exact Bool.noConfusion hw
  case linkTrained => exact Bool.noConfusion hw
  case discovery => exact Bool.noConfusion hw
  case flitReceived => exact Bool.noConfusion hw
  case nak => exact Bool.noConfusion hw
  case ackTimeout => exact Bool.noConfusion hw
  case lossOfSignal => exact Bool.noConfusion hw
  case retrainComplete => exact Bool.noConfusion hw
  case inboundRwri => exact Bool.noConfusion hw
  case inboundRrd => exact Bool.noConfusion hw
  case rwriAck => exact Bool.noConfusion hw
  case rrdData => exact Bool.noConfusion hw
  case channelRequest => exact Bool.noConfusion hw
  case slabRead => exact Bool.noConfusion hw
  case slabExclusive => exact Bool.noConfusion hw
  case slabDowngrade => exact Bool.noConfusion hw
  case slabTeardown => exact Bool.noConfusion hw
  case rd => exact Bool.noConfusion hw
  case xreq => exact Bool.noConfusion hw
  case srdSteeredRead => exact Bool.noConfusion hw
  case inv => exact Bool.noConfusion hw
  case tkeep => exact Bool.noConfusion hw
  case grant => exact Bool.noConfusion hw
  case data => exact Bool.noConfusion hw
  case ack => exact Bool.noConfusion hw
  case prune => exact Bool.noConfusion hw
  case jdone => exact Bool.noConfusion hw
  case leave => exact Bool.noConfusion hw
  case wb => exact Bool.noConfusion hw
  case wback => exact Bool.noConfusion hw
  case snoop => exact Bool.noConfusion hw
  case quiet => exact Bool.noConfusion hw
  case heldMessageRelease => exact Bool.noConfusion hw
  case wreq => exact Bool.noConfusion hw
  case wack => exact Bool.noConfusion hw
  case trainingEnd => exact Bool.noConfusion hw
  case frame => exact Bool.noConfusion hw
  case frameLockTimeout => exact Bool.noConfusion hw
  case wnak => exact Bool.noConfusion hw
  case romCheckComplete => exact Bool.noConfusion hw
  case slotMoveComplete => exact Bool.noConfusion hw
  case poolAllocationComplete => exact Bool.noConfusion hw
  case imageFillComplete => exact Bool.noConfusion hw
  case bankSwitchComplete => exact Bool.noConfusion hw
  case walkerCommandComplete => exact Bool.noConfusion hw
  case walkerEntryGenerate => exact Bool.noConfusion hw
  case residencyProbeAnswer => exact Bool.noConfusion hw
  case fixedLatencyComplete => exact Bool.noConfusion hw

end Sys2Proof.Machine
end

