-- ==== Sys2Proof/Certificates/Slice0/Obligations.lean ====
section
/-! DEFINITION. The statements for the provers. A statement that covers several families is the conjunction of claims named here first; each
docstring names the rules of spec/ that it formalises, and log entries where it rests on a choice of the model. -/

section

open Sys2Proof Sys2Proof.Machine

/-! ## Claims -/

/-- Walk `y` is walk `x` at the start of its next tile (R335, R336): of the eight lowest tiles not yet visited, the lowest in ascending order;
by residency the first that eight choices have passed over, else the first of the least rank, a tile that has not answered having rank 2. The
other candidates have been passed over once more. -/
def Sys2Proof.Claims.BeginsTile (x y : Walk) : Prop :=
  ∃ (k : Nat) (c : Nat × Nat), (x.tiles.take 8)[k]? = some c ∧
    (dOrder x.desc = false → k = 0) ∧
    (dOrder x.desc = true → (∃ e ∈ x.tiles.take 8, 8 ≤ e.2) → 8 ≤ c.2 ∧ ∀ j e, j < k → (x.tiles.take 8)[j]? = some e → e.2 < 8) ∧
    (dOrder x.desc = true → (∀ e ∈ x.tiles.take 8, e.2 < 8) → ∀ j e, (x.tiles.take 8)[j]? = some e →
      x.rank c.1 ≤ x.rank e.1 ∧ (j < k → x.rank c.1 < x.rank e.1)) ∧
    y = { x with
      tiles := ((x.tiles.take 8).filterMap fun e => if e.1 = c.1 then none else some (e.1, e.2 + 1)) ++ x.tiles.drop 8
      tile := some c.1, tagDue := dTagen x.desc, inner := 0, stream := (dStreams x.desc).headD 0, ranks := [], probed := false }

/-- A word of format F3: op, fn, d, a, b. -/
def Sys2Proof.Claims.f3 (op fn d a b : Nat) : Nat := 2 ^ 25 * op + 2 ^ 21 * fn + 2 ^ 14 * d + 2 ^ 7 * a + b

/-- A word of format FI: op, d, a, imm11. -/
def Sys2Proof.Claims.fi (op d a imm : Nat) : Nat := 2 ^ 25 * op + 2 ^ 18 * d + 2 ^ 11 * a + imm

/-- A word of format FL: op, d, imm18. -/
def Sys2Proof.Claims.fl (op d imm : Nat) : Nat := 2 ^ 25 * op + 2 ^ 18 * d + imm

/-- A word that names no instruction takes the illegal-instruction trap of R50 with the word as its value, when the choice falls on issuing
it. -/
def Sys2Proof.Claims.StepTrapsAnUnassignedWord : Prop :=
  ∀ (s : State) (g : Nat) (e : DecodeError), s.stuck = none → s.choose = .issue g →
    let t := s.advance.issueFor g
    t.link.wants = [] → t.deferredDue g = false → (t.grp g).skips = false → decodeWord (t.grp g).word.toNat = .error e →
      step s = .next (t.trapHere g ⟨0x01, (t.grp g).word, 0, (t.grp g).launchAct, []⟩)

/-- Every step that is due or enabled by a group's state is `exec` of a row of the opcode table. Taking it as a step is running that row on the
state it is due in, without it: the row's next state, where its agents at the homes met no line that a peer package holds or that an engine
keeps until it has written it, and its fault. A message for a mesh link that changes its width waits instead (R443). -/
def Sys2Proof.Claims.StepRunsTheDueEvent : Prop :=
  (∀ e : Event, ∃ i : Instr, i.isWord = false ∧ ∀ s, e.run s = exec i s) ∧
  (∀ (s : State) (e : Event), s.stuck = none → s.choose = .run e →
    (∀ u, e.run s.advance = .next u → u.link.wants = [] → step s = .next u) ∧ ∀ f, e.run s.advance = .fault f → step s = .fault f) ∧
  (∀ (s : State) (k : Nat) (e : Event), s.stuck = none → s.choose = .due k → s.advance.agenda[s.advance.inOrder k]? = some e →
    let t := { s.advance with agenda := s.advance.agenda.eraseIdx (s.advance.inOrder k) }
    let x := (t.noteActive e).noteFlits e
    (s.advance.widthWaits e = true → step s = .next (t.onLink e)) ∧
    (s.advance.widthWaits e = false →
      (∀ u, e.run x = .next u → u.link.wants = [] → step s = .next u) ∧ ∀ f, e.run x = .fault f → step s = .fault f))

/-- No instruction and no event is refused: every row of the opcode table has a meaning. -/
def Sys2Proof.Claims.NothingIsRefused : Prop := ∀ (i : Instr) (s : State) (r : Refusal), exec i s ≠ .refused r

/-- With a group at an issue every word has a next state, be it a trap; an event has one always. The machine's own faults are left: they come
from a missing group or from a state that is stuck already. -/
def Sys2Proof.Claims.EveryRowHasANextState : Prop :=
  ∀ (i : Instr) (s : State), ((∃ g, AtIssue s g) ∨ i.isWord = false) → Safe (exec i s)

/-- The checks of R50 in their order, for every instruction word: an illegal register kind traps first, with 0x01 and the word; then, for a
word without a privilege check, a register beyond the allocation, with 0x04 and that register; then a wrong multiple, with 0x05 and the field's
value. -/
def Sys2Proof.Claims.IssueChecksInOrder : Prop :=
  ∀ (i : Instr) (s : State) (g : Group), i.isWord = true → AtIssue s g → MayTrap s g →
    (i.wfAt g.fmt = false → Answers i s fun t => TrapsAtWord s t g 0x01 g.word 0) ∧
    (i.wfAt g.fmt = true → (∀ a, i ≠ .tcinv a) → (∀ a n, i ≠ .swr a n) → i ≠ .tret →
      (∀ n, i.beyondAlloc g.fmt g.wb g.alloc = some n → Answers i s fun t => TrapsAtWord s t g 0x04 (BitVec.ofNat 32 n) 0) ∧
      (∀ v, i.beyondAlloc g.fmt g.wb g.alloc = none → i.misaligned g.fmt = some v →
        Answers i s fun t => TrapsAtWord s t g 0x05 (BitVec.ofNat 32 v) 0))

/-- Privilege (R192, R196, R207): SWR and TRET outside handler mode and TCINV in a context that is not privileged trap with 0x03 and the
word; SWR to an index outside 17 to 21 is illegal before that. -/
def Sys2Proof.Claims.PrivilegedWordsTrap : Prop :=
  ∀ (s : State) (g : Group), AtIssue s g → MayTrap s g →
    Answers .tret s (fun t => TrapsAtWord s t g 0x03 g.word 0) ∧
    (∀ (a : RF) (n : Fin 30), (Instr.swr a n).wfAt g.fmt = true →
      Answers (.swr a n) s fun t => TrapsAtWord s t g (if 17 ≤ n.val ∧ n.val ≤ 21 then 0x03 else 0x01) g.word 0) ∧
    (∀ a : RF, (Instr.tcinv a).wfAt g.fmt = true → (g.src a 0 0).toNat < 2 ^ 12 → (g.src a 1 0).toNat < 2 ^ 24 →
      (s.ctx (s.glch s.cur).ctx).priv = false → Answers (.tcinv a) s fun t => TrapsAtWord s t g 0x03 g.word 0)

/-- Taking a trap (R187): with a handler to enter, the trap registers hold what the rule says, EM becomes the live lanes, the handler's
clause is to be fetched, TRAPS counts, and every other part of the group and of the package is as before. -/
def Sys2Proof.Claims.TrapEntrySavesAndTransfers : Prop :=
  ∀ (s : State) (g : Nat) (t : Trap) (pc : Nat) (c : Clause) (d : Bool), (s.grp g).trap.handler = false →
    (s.glch g).lr.handler ≠ 0xFFFFFFFF →
    s.takeTrap g t pc c d =
      { s with
        groups := s.groups.set g ((s.grp g).inHandler t pc c d (s.glch g).lr.handler)
        cnt := (s.count 1 (s.partOf g) 5 1).cnt }

/-- A trap in handler mode, or of a launch that names no handler, stops the group without entering a handler; the launch's status becomes 1
and, if this is its first such trap, its completion record keeps TCAUSE and TPC; memory is as before (R190). -/
def Sys2Proof.Claims.UnhandledTrapStopsTheGroup : Prop :=
  ∀ (s : State) (g : Nat) (t : Trap) (pc : Nat) (c : Clause) (d : Bool), g < s.groups.length →
    ((s.grp g).trap.handler = true ∨ (s.glch g).lr.handler = 0xFFFFFFFF) → (s.gblk g).launch < s.launches.length →
    (s.glch g).status = 0 →
      let u := s.takeTrap g t pc c d
      let l := u.lch (s.gblk g).launch
      (u.grp g).phase = .stopped ∧ (u.grp g).lanes.live = 0 ∧ l.status = 1 ∧ l.tcause = t.cause ∧ l.tpc = pc ∧ u.mem = s.mem

/-- TRAP and BRK enter the handler (R206): TPC is the offset of the clause that follows, TVAL the code or the offset of the BRK.
Completion (exec answers a next state with the effect) is stated of: trap, brk. -/
def Sys2Proof.Claims.TrapAndBreakpointEnterTheHandler : Prop :=
  ∀ (s : State) (g : Group), MayTrap s g →
    (∀ n : BitVec 18, Issues s g (.trap n) → Answers (.trap n) s fun t =>
      TakesTrap s t g ⟨0x19, n.setWidth 32, 0, g.launchAct, []⟩ ((g.clause.hdr + 4 * (g.clause.words.length + 1)) % 2 ^ 32) g.clause false) ∧
    (Issues s g .brk → Answers .brk s fun t =>
      TakesTrap s t g ⟨0x1A, BitVec.ofNat 32 (g.clause.hdr + 4 * (g.idx + 1)), 0, g.launchAct, []⟩
        ((g.clause.hdr + 4 * (g.clause.words.length + 1)) % 2 ^ 32) g.clause false)

/-- TRET (R192): handler mode ends and EM becomes TEM without exited lanes. A TPC that the handler did not write and that lies on a word of
the remembered clause resumes there once the clause's WAIT mask is met, the first word for the lanes of TFM only, or for every lane after a
deferred trap; any other TPC is fetched as a clause header.
Completion (exec answers a next state with the effect) is stated of: tret. -/
def Sys2Proof.Claims.TretLeavesTheHandler : Prop :=
  ∀ (s : State) (g : Group), Issues s g .tret → g.trap.handler = true →
    ((g.trap.tpcWritten = true ∨ g.trap.tpc.toNat ≤ g.trap.clause.hdr ∨
        g.trap.clause.hdr + 4 * (g.trap.clause.words.length + 1) ≤ g.trap.tpc.toNat) →
      Answers .tret s fun t => OnlyGroup s t
        { g with
          trap := { g.trap with handler := false }, phase := .fetch g.trap.tpc.toNat
          lanes := { g.lanes with em := g.trap.tem &&& g.lanes.live, only := some (BitVec.allOnes 32) } }) ∧
    (∀ k, g.trap.tpcWritten = false → k < g.trap.clause.words.length → g.trap.tpc.toNat = g.trap.clause.hdr + 4 * (k + 1) →
      Answers .tret s fun t => OnlyGroup s t
        { g with
          trap := { g.trap with handler := false }, clause := g.trap.clause, phase := .resume k
          lanes := { g.lanes with
            em := g.trap.tem &&& g.lanes.live, only := some (if g.trap.tdef = true then BitVec.allOnes 32 else g.trap.tfm) } })

/-- The encodings of R192 and R206. -/
def Sys2Proof.Claims.TrapEncodings : Prop :=
  (∀ n : BitVec 18, encode (.trap n) = some (Sys2Proof.Claims.fl 0x0D 0 n.toNat)) ∧ encode .brk = some 0x26000000 ∧ encode .tret = some 0x1C000000

/-- Transfers (R198, R199, R182, R200): what each does with the program counter, the join stack and s30. An offset counts words from the
header of the word's own clause (R42).
Completion (exec answers a next state with the effect) is stated of: nop, bra, pushj, call, ret, brx. -/
def Sys2Proof.Claims.TransfersReachTheirTargets : Prop :=
  ∀ (s : State) (g : Group),
    (Issues s g .nop → Answers .nop s fun t => OnlyGroup s t g.onward) ∧
    (∀ inv q o, Issues s g (.bra inv q o) → Answers (.bra inv q o) s fun t => OnlyGroup s t
      (g.toClause (if (g.upred q.val ^^ inv) = true then fbTarget g.clause.hdr o else g.clause.fall))) ∧
    (∀ o, Issues s g (.pushj o) → g.join.length ≠ 32 → Answers (.pushj o) s fun t => OnlyGroup s t
      { g.toClause g.clause.fall with join := ⟨false, fbTarget g.clause.hdr o, g.lanes.em, g.fmt⟩ :: g.join }) ∧
    (∀ o, Issues s g (.call o) → Answers (.call o) s fun t => OnlyGroup s t
      { g.toClause (fbTarget g.clause.hdr o) with uregs := tset 0 g.uregs 30 (BitVec.ofNat 32 g.clause.fall) }) ∧
    (∀ a, Issues s g (.ret a) → (g.usrc a).toNat % 4 = 0 → Answers (.ret a) s fun t => OnlyGroup s t (g.toClause (g.usrc a).toNat)) ∧
    (∀ a b, Issues s g (.brx a b) → (g.usrc a + 4 * g.usrc b).toNat % 4 = 0 → Answers (.brx a b) s fun t =>
      OnlyGroup s t (g.toClause (g.usrc a + 4 * g.usrc b).toNat))

/-- What a transfer refuses (R182, R183, R184, R200): a full join stack, an empty one, a target that is no multiple of 4. -/
def Sys2Proof.Claims.TransfersTrap : Prop :=
  ∀ (s : State) (g : Group), MayTrap s g →
    (∀ o, Issues s g (.pushj o) → g.join.length = 32 → Answers (.pushj o) s fun t => TrapsAtWord s t g 0x1E 32 0) ∧
    (Issues s g .join → g.join = [] → Answers .join s fun t => TrapsAtWord s t g 0x1E 0 0) ∧
    (∀ a, Issues s g (.ret a) → (g.usrc a).toNat % 4 ≠ 0 → Answers (.ret a) s fun t => TrapsAtWord s t g 0x05 (g.usrc a) 0) ∧
    (∀ n : BitVec 18, Issues s g (.wbase n) → g.alloc ≤ 8 * n.toNat → Answers (.wbase n) s fun t =>
      TrapsAtWord s t g 0x04 (BitVec.ofNat 32 (8 * n.toNat)) 0) ∧
    (∀ a, Issues s g (.fmts a) → 2 ^ 19 ≤ (g.usrc a).toNat → Answers (.fmts a) s fun t => TrapsAtWord s t g 0x01 g.word 0)

/-- BRD (R183): with every live active lane taken or none, nothing is deferred; otherwise the taken lanes run first and the others are
stacked with FMT, to be resumed at the clause that follows; a full join stack traps with 0x1E and 32.
Completion (exec answers a next state with the effect) is stated of: brd. -/
def Sys2Proof.Claims.BrdSplitsTheLanes : Prop :=
  ∀ (s : State) (g : Group) (inv : Bool) (p : Fin 8) (o : BitVec 21), Issues s g (.brd inv p o) →
    ∀ live taken : Mask, live = g.lanes.em &&& g.lanes.live →
      (∀ L, L < 32 → taken.getLsbD L = (live.getLsbD L && ((g.pred p.val).getLsbD L ^^ inv))) →
      (taken = live → Answers (.brd inv p o) s fun t => OnlyGroup s t (g.toClause (fbTarget g.clause.hdr o))) ∧
      (taken ≠ live → taken = 0 → Answers (.brd inv p o) s fun t => OnlyGroup s t (g.toClause g.clause.fall)) ∧
      (taken ≠ live → taken ≠ 0 → g.join.length ≠ 32 → Answers (.brd inv p o) s fun t => OnlyGroup s t
        { g.toClause (fbTarget g.clause.hdr o) with
          join := ⟨true, g.clause.fall, live &&& ~~~taken, g.fmt⟩ :: g.join
          lanes := { g.lanes with em := taken, only := none } }) ∧
      (taken ≠ live → taken ≠ 0 → g.join.length = 32 → MayTrap s g → Answers (.brd inv p o) s fun t => TrapsAtWord s t g 0x1E 32 0)

/-- JOIN and EXIT end a path (R184, R185): the next stacked entry that still has a live lane is resumed with its PC, its lanes and its FMT,
entries without one being passed over; EXIT first takes the active lanes out of the live lanes and of every entry. With no such entry the group
ends: its block is then to be looked at for its retirement, and no operation of another group leaves its flight.
Completion (exec answers a next state with the effect) is stated of: join, exit. -/
def Sys2Proof.Claims.JoinAndExitEndAPath : Prop :=
  ∀ (s : State) (g : Group),
    (∀ (dead : List JoinEntry) (e : JoinEntry) (rest : List JoinEntry), Issues s g .join → g.join = dead ++ e :: rest →
      (∀ x ∈ dead, x.em &&& g.lanes.live = 0) → e.em &&& g.lanes.live ≠ 0 →
      Answers .join s fun t => OnlyGroup s t
        { g.toClause e.pc with
          join := rest, fmt := e.fmt, lanes := { g.lanes with em := e.em &&& g.lanes.live, only := none } }) ∧
    (∀ (dead : List JoinEntry) (e : JoinEntry) (rest : List JoinEntry) (left : Mask), Issues s g .exit →
      left = g.lanes.live &&& ~~~g.lanes.em → g.join = dead ++ e :: rest → (∀ x ∈ dead, x.em &&& left = 0) → e.em &&& left ≠ 0 →
      Answers .exit s fun t => OnlyGroup s t
        { g.toClause e.pc with
          join := rest.map fun x => { x with em := x.em &&& left }, fmt := e.fmt
          lanes := { g.lanes with live := left, em := e.em &&& left, only := none } }) ∧
    (∀ i : Instr, i = .join ∧ g.join ≠ [] ∧ (∀ x ∈ g.join, x.em &&& g.lanes.live = 0) ∨
        i = .exit ∧ (∀ x ∈ g.join, x.em &&& (g.lanes.live &&& ~~~g.lanes.em) = 0) → Issues s g i → g.deferred = [] → Answers i s fun t =>
      (t.grp s.cur).phase = .exited ∧ (t.grp s.cur).lanes.live = 0 ∧ .blockRetire g.blk ∈ t.agenda ∧ t.mem = s.mem ∧
        (∀ e ∈ t.ops, e ∈ s.ops) ∧ ∀ e ∈ s.ops, (∀ d ∈ s.ops, d.1 = e.1 → d.2.gid ≠ s.cur) → e ∈ t.ops)

/-- YIELD (R201): with its flag clear it continues at its target; with its flag not clear it is descheduled until the flag is; without a
flag it continues at the target, and when a pending group of its partition is ready it asks for a voluntary swap.
Completion (exec answers a next state with the effect) is stated of: yield. -/
def Sys2Proof.Claims.YieldWaitsOnItsFlag : Prop :=
  ∀ (s : State) (g : Group) (o : BitVec 21), (s.glch s.cur).status ≠ 1 →
    (∀ f, Issues s g (.yield (some f) o) → g.flagOf f.val = 0 → Answers (.yield (some f) o) s fun t =>
      OnlyGroup s t (g.toClause (fbTarget g.clause.hdr o))) ∧
    (∀ f, Issues s g (.yield (some f) o) → g.flagOf f.val ≠ 0 → Answers (.yield (some f) o) s fun t =>
      t.groups = s.groups.set s.cur { g with phase := .waiting g.idx (.flag f.val) } ∧ t.mem = s.mem) ∧
    (Issues s g (.yield none o) → Answers (.yield none o) s fun t =>
      OnlyGroup s t { g.toClause (fbTarget g.clause.hdr o) with sched := { g.sched with leaving := (s.entering s.cur).isSome } })

/-- The encodings of the transfers (R182 to R185, R199, R200), with their offsets. -/
def Sys2Proof.Claims.ControlEncodings : Prop :=
  (∀ (inv : Bool) (q : Fin 8) (o : BitVec 21),
    encode (.bra inv q o) = some (2 ^ 25 * 0x01 + 2 ^ 24 * inv.toNat + 2 ^ 21 * q.val + o.toNat) ∧
    encode (.brd inv q o) = some (2 ^ 25 * 0x02 + 2 ^ 24 * inv.toNat + 2 ^ 21 * q.val + o.toNat) ∧
    encode (.pushj o) = some (2 ^ 25 * 0x03 + o.toNat) ∧ encode (.call o) = some (2 ^ 25 * 0x05 + o.toNat)) ∧
  encode .join = some 0x08000000 ∧ encode .exit = some 0x18000000

/-- The words that write the group's own control registers (R73, R196, R202 to R205): WBASE, MWR, MAND, FMTS, UCMP and SWR. A write to q7 is
discarded, and SWR shapes each trap register as R194 states.
Completion (exec answers a next state with the effect) is stated of: wbase, mwr, mand, fmts, ucmp, swr. -/
def Sys2Proof.Claims.ControlRegistersAreWritten : Prop :=
  ∀ (s : State) (g : Group),
    (∀ n : BitVec 18, Issues s g (.wbase n) → 8 * n.toNat < g.alloc → Answers (.wbase n) s fun t =>
      OnlyGroup s t { g.onward with wb := 8 * n.toNat }) ∧
    (∀ a, Issues s g (.mwr a) → Answers (.mwr a) s fun t => ∃ x, OnlyGroup s t x ∧
      x = { g.onward with lanes := { g.lanes with em := g.usrc a &&& g.lanes.live, only := none } }) ∧
    (∀ inv p, Issues s g (.mand inv p) → Answers (.mand inv p) s fun t => ∃ m, OnlyGroup s t
      { g.onward with lanes := { g.lanes with em := m, only := none } } ∧
      ∀ L, L < 32 → m.getLsbD L = (g.lanes.em.getLsbD L && ((g.pred p.val).getLsbD L ^^ inv))) ∧
    (∀ a, Issues s g (.fmts a) → (g.usrc a).toNat < 2 ^ 19 → Answers (.fmts a) s fun t =>
      OnlyGroup s t { g.onward with fmt := g.usrc a }) ∧
    (∀ c q a b, Issues s g (.ucmp c q a b) → Answers (.ucmp c q a b) s fun t => ∃ u, OnlyGroup s t { g.onward with upreds := u } ∧
      (∀ k, k ≠ q.val → tget false u k = tget false g.upreds k) ∧ (q.val = 7 → u = g.upreds) ∧
      (q.val ≠ 7 → tget false u q.val = c.holds (g.usrc a) (g.usrc b))) ∧
    (∀ a (n : Fin 30), Issues s g (.swr a n) → 17 ≤ n.val → n.val ≤ 21 → g.trap.handler = true → Answers (.swr a n) s fun t =>
      ∃ r : TrapRegs, OnlyGroup s t { g.onward with trap := r } ∧
        r.tem = (if n.val = 17 then g.usrc a &&& g.lanes.launch else g.trap.tem) ∧
        r.tfm = (if n.val = 18 then g.usrc a &&& g.lanes.launch else g.trap.tfm) ∧
        r.tpc = (if n.val = 19 then g.usrc a &&& 0xFFFFFFFC else g.trap.tpc) ∧
        r.tcause = (if n.val = 20 then g.usrc a &&& 0xFF else g.trap.tcause) ∧
        r.tval = (if n.val = 21 then g.usrc a else g.trap.tval) ∧
        r.tpcWritten = (n.val == 19 || g.trap.tpcWritten) ∧ r.tvalhi = g.trap.tvalhi ∧ r.tlane = g.trap.tlane ∧ r.handler = true)

/-- The words that read the group's own control registers (R195, R203, R204): MRD, HRD, FMTR and SRD give a lane destination the value in
every active lane and a uniform destination even with no active lane, but for a register that has a value for each lane. SRD of CLOCKLO latches the
upper half of the same reading, and SRD of TICK is a memory-class operation in flight.
Completion (exec answers a next state with the effect) is stated of: mrd, hrd, fmtr, srd. -/
def Sys2Proof.Claims.ControlRegistersAreRead : Prop :=
  ∀ (s : State) (g : Group),
    (∀ d, Issues s g (.mrd d) → Answers (.mrd d) s fun t => ReadsOne s t g d g.lanes.em) ∧
    (∀ d, Issues s g (.hrd d) → Answers (.hrd d) s fun t => ReadsOne s t g d g.lanes.helper) ∧
    (∀ d, Issues s g (.fmtr d) → Answers (.fmtr d) s fun t => ReadsOne s t g d g.fmt) ∧
    (∀ d (n : Fin 30), Issues s g (.srd d n) → n.val ≠ 0 → n.val ≠ 1 → n.val ≠ 23 → n.val ≠ 9 → n.val ≠ 11 →
      Answers (.srd d n) s fun t => ReadsOne s t g d (s.special s.cur n.val 0)) ∧
    (∀ d (n : Fin 30), Issues s g (.srd d n) → n.val = 0 ∨ n.val = 1 ∨ n.val = 23 → Answers (.srd d n) s fun t =>
      ∃ regs uregs, OnlyGroup s t { g.onward with regs := regs, uregs := uregs } ∧
        LaneRegs g d 1 (fun _ L => s.special s.cur n.val L) regs ∧ UniRegs g d 1 (fun _ L => s.special s.cur n.val L) uregs) ∧
    (∀ d (n : Fin 30), Issues s g (.srd d n) → n.val = 9 → Answers (.srd d n) s fun t =>
      ReadsOne { s with free := s.free + 1 } t { g with clockHi := (Config.freeClock s.free).extractLsb' 32 32 } d
        ((Config.freeClock s.free).extractLsb' 0 32)) ∧
    (∀ d (n : Fin 30), Issues s g (.srd d n) → n.val = 11 → Answers (.srd d n) s fun t =>
      InFlight s t g (.srd d n) (fun o => o.dest = g.destRegs d 1) ∧ .loadDataReturn s.nextOp ∈ t.agenda)

/-- The special registers of R194, by index: what SRD reads of the group, its launch, its course and its place. -/
def Sys2Proof.Claims.SpecialRegisterMap : Prop :=
  ∀ (s : State) (n L : Nat), L < 32 →
    let g := s.grp n
    let b := s.gblk n
    let c := s.crs b.course
    let l := s.glch n
    s.special n 0 L = BitVec.ofNat 32 L ∧ s.special n 1 L = BitVec.ofNat 32 (L / 4) ∧ s.special n 2 L = BitVec.ofNat 32 g.gid ∧
    s.special n 3 L = BitVec.ofNat 32 (c.num * l.lr.bpc + b.rank) ∧ s.special n 4 L = BitVec.ofNat 32 c.num ∧
    s.special n 5 L = BitVec.ofNat 32 l.token ∧ s.special n 10 L = g.clockHi ∧ s.special n 13 L = BitVec.ofNat 32 b.core ∧
    s.special n 12 L = BitVec.ofNat 32 (b.core / 56) ∧ s.special n 14 L = BitVec.ofNat 32 g.wb ∧ s.special n 17 L = g.trap.tem ∧
    s.special n 18 L = g.trap.tfm ∧ s.special n 19 L = g.trap.tpc ∧ s.special n 20 L = g.trap.tcause ∧
    s.special n 23 L = tget 0 g.trap.tlane L ∧ s.special n 24 L = g.lanes.helper ∧ s.special n 25 L = BitVec.ofNat 32 g.join.length ∧
    1 ≤ (s.special n 27 L).toNat ∧ (s.special n 27 L).toNat < 256 ∧ s.special n 28 L = 1 ∧
    (∀ i, i < 12 → (s.special n 16 L).getLsbD i = decide (g.flagOf i ≠ 0)) ∧ (s.special n 16 L).getLsbD 16 = g.trap.handler ∧
    (s.special n 16 L).getLsbD 17 = g.trap.tdef

/-- IALU and the IMUL family (R246, R247): the 32-bit result of each in every active lane, and nothing else written.
Completion (exec answers a next state with the effect) is stated of: iadd, isub, imin, imax, iminu, imaxu, iabsd, iadds, isubs, imul, imulh, imulhu,
imad. -/
def Sys2Proof.Claims.IntegerArithmeticResults : Prop :=
  ∀ d a b : RF,
    Lane2 (.iadd d a b) d a b (fun x y => BitVec.ofNat 32 (x.toNat + y.toNat)) ∧
    Lane2 (.isub d a b) d a b (fun x y => BitVec.ofInt 32 ((x.toNat : Int) - y.toNat)) ∧
    Lane2 (.imin d a b) d a b (fun x y => BitVec.ofInt 32 (min x.toInt y.toInt)) ∧
    Lane2 (.imax d a b) d a b (fun x y => BitVec.ofInt 32 (max x.toInt y.toInt)) ∧
    Lane2 (.iminu d a b) d a b (fun x y => BitVec.ofNat 32 (min x.toNat y.toNat)) ∧
    Lane2 (.imaxu d a b) d a b (fun x y => BitVec.ofNat 32 (max x.toNat y.toNat)) ∧
    Lane2 (.iabsd d a b) d a b (fun x y => BitVec.ofNat 32 (x.toInt - y.toInt).natAbs) ∧
    Lane2 (.iadds d a b) d a b (fun x y => BitVec.ofInt 32 (max (-(2 ^ 31)) (min (2 ^ 31 - 1) (x.toInt + y.toInt)))) ∧
    Lane2 (.isubs d a b) d a b (fun x y => BitVec.ofInt 32 (max (-(2 ^ 31)) (min (2 ^ 31 - 1) (x.toInt - y.toInt)))) ∧
    Lane2 (.imul d a b) d a b (fun x y => BitVec.ofInt 32 (x.toInt * y.toInt)) ∧
    Lane2 (.imulh d a b) d a b (fun x y => BitVec.ofInt 32 (x.toInt * y.toInt / 2 ^ 32)) ∧
    Lane2 (.imulhu d a b) d a b (fun x y => BitVec.ofNat 32 (x.toNat * y.toNat / 2 ^ 32)) ∧
    Lane3 (.imad d a b) d a b (fun x y z => BitVec.ofNat 32 (x.toNat * y.toNat + z.toNat))

/-- The immediate forms (R47, R252): sign extension for ADDI, MULI and MOVI, zero extension for ANDI, ORI and XORI.
Completion (exec answers a next state with the effect) is stated of: addi, andi, ori, xori, shli, shri, sari, muli, movi, movhi. -/
def Sys2Proof.Claims.ImmediateFormResults : Prop :=
  ∀ d a : RF,
    (∀ n : BitVec 11, Lane1 (.addi d a n) d a fun x => BitVec.ofInt 32 (x.toInt + n.toInt)) ∧
    (∀ n : BitVec 11, Lane1 (.andi d a n) d a fun x => x &&& BitVec.ofNat 32 n.toNat) ∧
    (∀ n : BitVec 11, Lane1 (.ori d a n) d a fun x => x ||| BitVec.ofNat 32 n.toNat) ∧
    (∀ n : BitVec 11, Lane1 (.xori d a n) d a fun x => x ^^^ BitVec.ofNat 32 n.toNat) ∧
    (∀ n : Fin 32, Lane1 (.shli d a n) d a fun x => BitVec.ofNat 32 (x.toNat * 2 ^ n.val)) ∧
    (∀ n : Fin 32, Lane1 (.shri d a n) d a fun x => BitVec.ofNat 32 (x.toNat / 2 ^ n.val)) ∧
    (∀ n : Fin 32, Lane1 (.sari d a n) d a fun x => BitVec.ofInt 32 (x.toInt / 2 ^ n.val)) ∧
    (∀ n : BitVec 11, Lane1 (.muli d a n) d a fun x => BitVec.ofInt 32 (x.toInt * n.toInt)) ∧
    (∀ n : BitVec 18, LaneWrites (.movi d n) d 1 fun _ _ _ => BitVec.ofInt 32 n.toInt) ∧
    (∀ n : BitVec 18, LaneWrites (.movhi d n) d 1 fun g _ L => BitVec.ofNat 32 (n.toNat * 2 ^ 14 + (g.src d 0 L).toNat % 2 ^ 14))

/-- WIDE (R45, R253): a register pair holds the low word in its first register, and each result is exact modulo 2^64.
Completion (exec answers a next state with the effect) is stated of: addw, subw, mulw, mulwu, shlw, shrw. -/
def Sys2Proof.Claims.WideResults : Prop :=
  ∀ d a b : RF,
    let pair := fun (g : Group) (r : RF) (L : Nat) => (g.src r 0 L).toNat + 2 ^ 32 * (g.src r 1 L).toNat
    let wide := fun (i : Instr) (v : Group → Nat → Nat) =>
      LaneWrites i d 2 fun g j L => BitVec.ofNat 32 (v g L / 2 ^ (32 * j))
    wide (.addw d a b) (fun g L => (pair g a L + pair g b L) % 2 ^ 64) ∧
    wide (.subw d a b) (fun g L => (((pair g a L : Int) - pair g b L) % 2 ^ 64).toNat) ∧
    wide (.mulw d a b) (fun g L => ((g.src a 0 L).toInt * (g.src b 0 L).toInt % 2 ^ 64).toNat) ∧
    wide (.mulwu d a b) (fun g L => (g.src a 0 L).toNat * (g.src b 0 L).toNat) ∧
    wide (.shlw d a b) (fun g L => if (g.src b 0 L).toNat < 64 then pair g a L * 2 ^ (g.src b 0 L).toNat % 2 ^ 64 else 0) ∧
    wide (.shrw d a b) (fun g L => if (g.src b 0 L).toNat < 64 then pair g a L / 2 ^ (g.src b 0 L).toNat else 0)

/-- The encodings of R246, R247, R252 and R253: the fields of each form, for every register and immediate. -/
def Sys2Proof.Claims.IntegerEncodings : Prop :=
  ∀ d a b : RF,
    (∀ e ∈ [(Instr.iadd d a b, 0x14, 0), (.isub d a b, 0x14, 1), (.imin d a b, 0x14, 2), (.imax d a b, 0x14, 3), (.iminu d a b, 0x14, 4),
        (.imaxu d a b, 0x14, 5), (.iabsd d a b, 0x14, 6), (.iadds d a b, 0x14, 7), (.isubs d a b, 0x14, 8), (.imul d a b, 0x15, 0),
        (.imulh d a b, 0x15, 1), (.imulhu d a b, 0x15, 2), (.imad d a b, 0x15, 3), (.addw d a b, 0x35, 0), (.subw d a b, 0x35, 1),
        (.mulw d a b, 0x35, 2), (.mulwu d a b, 0x35, 3), (.shlw d a b, 0x35, 4), (.shrw d a b, 0x35, 5)],
      encode e.1 = some (Sys2Proof.Claims.f3 e.2.1 e.2.2 d.val a.val b.val)) ∧
    (∀ n : BitVec 11, ∀ e ∈ [(Instr.addi d a n, 0x1D), (.andi d a n, 0x1E), (.ori d a n, 0x1F), (.xori d a n, 0x20), (.muli d a n, 0x25)],
      encode e.1 = some (Sys2Proof.Claims.fi e.2 d.val a.val n.toNat)) ∧
    (∀ n : Fin 32, ∀ e ∈ [(Instr.shli d a n, 0x21), (.shri d a n, 0x22), (.sari d a n, 0x23)],
      encode e.1 = some (Sys2Proof.Claims.fi e.2 d.val a.val n.val)) ∧
    (∀ n : BitVec 18, encode (.movi d n) = some (Sys2Proof.Claims.fl 0x26 d.val n.toNat) ∧ encode (.movhi d n) = some (Sys2Proof.Claims.fl 0x27 d.val n.toNat))

/-- LOGIC and SHIFT (R248): the bits of each result. A shift takes the whole of its count: 32 or more gives 0, or the sign for SAR; a
rotation takes it modulo 32.
Completion (exec answers a next state with the effect) is stated of: and, or, xor, andn, orn, xnor, shl, shr, sar, rol, ror. -/
def Sys2Proof.Claims.LogicAndShiftResults : Prop :=
  ∀ d a b : RF,
    (∃ f, Lane2 (.and d a b) d a b f ∧ ∀ x y i, i < 32 → (f x y).getLsbD i = (x.getLsbD i && y.getLsbD i)) ∧
    (∃ f, Lane2 (.or d a b) d a b f ∧ ∀ x y i, i < 32 → (f x y).getLsbD i = (x.getLsbD i || y.getLsbD i)) ∧
    (∃ f, Lane2 (.xor d a b) d a b f ∧ ∀ x y i, i < 32 → (f x y).getLsbD i = (x.getLsbD i ^^ y.getLsbD i)) ∧
    (∃ f, Lane2 (.andn d a b) d a b f ∧ ∀ x y i, i < 32 → (f x y).getLsbD i = (x.getLsbD i && !y.getLsbD i)) ∧
    (∃ f, Lane2 (.orn d a b) d a b f ∧ ∀ x y i, i < 32 → (f x y).getLsbD i = (x.getLsbD i || !y.getLsbD i)) ∧
    (∃ f, Lane2 (.xnor d a b) d a b f ∧ ∀ x y i, i < 32 → (f x y).getLsbD i = !(x.getLsbD i ^^ y.getLsbD i)) ∧
    Lane2 (.shl d a b) d a b (fun x y => if y.toNat < 32 then BitVec.ofNat 32 (x.toNat * 2 ^ y.toNat) else 0) ∧
    Lane2 (.shr d a b) d a b (fun x y => if y.toNat < 32 then BitVec.ofNat 32 (x.toNat / 2 ^ y.toNat) else 0) ∧
    Lane2 (.sar d a b) d a b (fun x y =>
      if y.toNat < 32 then BitVec.ofInt 32 (x.toInt / 2 ^ y.toNat) else if x.getLsbD 31 then BitVec.allOnes 32 else 0) ∧
    (∃ f, Lane2 (.rol d a b) d a b f ∧ ∀ x y i, i < 32 → (f x y).getLsbD ((i + y.toNat) % 32) = x.getLsbD i) ∧
    (∃ f, Lane2 (.ror d a b) d a b f ∧ ∀ x y i, i < 32 → (f x y).getLsbD i = x.getLsbD ((i + y.toNat) % 32))

/-- BITS (R248): counts of one bits and of leading and trailing zeros, and the reversals of bits and bytes.
Completion (exec answers a next state with the effect) is stated of: popc, clz, ctz, brev, bswap. -/
def Sys2Proof.Claims.BitCountsAndReversals : Prop :=
  ∀ d a : RF,
    Lane1 (.popc d a) d a (fun x => BitVec.ofNat 32 ((List.range 32).filter fun i => x.getLsbD i).length) ∧
    (∃ f, Lane1 (.clz d a) d a f ∧ f 0 = 32 ∧ ∀ x : Word, x ≠ 0 → (f x).toNat < 32 ∧ x.getLsbD (31 - (f x).toNat) = true ∧
      ∀ i, i < (f x).toNat → x.getLsbD (31 - i) = false) ∧
    (∃ f, Lane1 (.ctz d a) d a f ∧ f 0 = 32 ∧ ∀ x : Word, x ≠ 0 → (f x).toNat < 32 ∧ x.getLsbD (f x).toNat = true ∧
      ∀ i, i < (f x).toNat → x.getLsbD i = false) ∧
    (∃ f, Lane1 (.brev d a) d a f ∧ ∀ x i, i < 32 → (f x).getLsbD i = x.getLsbD (31 - i)) ∧
    (∃ f, Lane1 (.bswap d a) d a f ∧ ∀ x i, i < 32 → (f x).getLsbD i = x.getLsbD (8 * (3 - i / 8) + i % 8))

/-- Bit fields, selects, moves and integer comparisons (R249, R250, R251). The field of a control word has the position of its bits [4:0]
and the lesser of its bits [13:8] and 32 less the position as its length.
Completion (exec answers a next state with the effect) is stated of: bfe, bfeu, bfi, icmp, sel, mov, pmov, movp, icmpi. -/
def Sys2Proof.Claims.FieldsSelectsAndComparisons : Prop :=
  ∀ d a b : RF,
    (∃ f, Lane2 (.bfe d a b) d a b f ∧ ∀ x y i, i < 32 → (f x y).getLsbD i =
      (let pos := y.toNat % 32; let n := min (y.toNat / 256 % 64) (32 - pos)
        decide (n ≠ 0) && (if i < n then x.getLsbD (pos + i) else x.getLsbD (pos + n - 1)))) ∧
    (∃ f, Lane2 (.bfeu d a b) d a b f ∧ ∀ x y i, i < 32 → (f x y).getLsbD i =
      (let pos := y.toNat % 32; let n := min (y.toNat / 256 % 64) (32 - pos); decide (i < n) && x.getLsbD (pos + i))) ∧
    (∃ f, Lane3 (.bfi d a b) d a b f ∧ ∀ x y z i, i < 32 → (f x y z).getLsbD i =
      (let pos := y.toNat % 32; let n := min (y.toNat / 256 % 64) (32 - pos)
        if pos ≤ i ∧ i < pos + n then x.getLsbD (i - pos) else z.getLsbD i)) ∧
    (∀ c p, LaneTests (.icmp c p a b) p fun g L => c.holds (g.src a 0 L) (g.src b 0 L)) ∧
    (∀ c p (n : BitVec 7), LaneTests (.icmpi p a c n) p fun g L => c.holds (g.src a 0 L) (BitVec.ofInt 32 n.toInt)) ∧
    (∀ p : Fin 8, LaneWrites (.sel p d a b) d 1 fun g _ L => if (g.pred p.val).getLsbD L then g.src a 0 L else g.src b 0 L) ∧
    Lane1 (.mov d a) d a (fun x => x) ∧
    (∀ p : Fin 8, LaneWrites (.pmov d p) d 1 fun g _ L => if (g.pred p.val).getLsbD L then 1 else 0) ∧
    (∀ p, LaneTests (.movp p a) p fun g L => decide (g.src a 0 L ≠ 0))

/-- The encodings of R248 to R251. -/
def Sys2Proof.Claims.BitEncodings : Prop :=
  ∀ d a b : RF,
    (∀ e ∈ [(Instr.and d a b, 0x16, 0), (.or d a b, 0x16, 1), (.xor d a b, 0x16, 2), (.andn d a b, 0x16, 3), (.orn d a b, 0x16, 4),
        (.xnor d a b, 0x16, 5), (.shl d a b, 0x17, 0), (.shr d a b, 0x17, 1), (.sar d a b, 0x17, 2), (.rol d a b, 0x17, 3), (.ror d a b, 0x17, 4),
        (.bfe d a b, 0x19, 0), (.bfeu d a b, 0x19, 1), (.bfi d a b, 0x19, 2)],
      encode e.1 = some (Sys2Proof.Claims.f3 e.2.1 e.2.2 d.val a.val b.val)) ∧
    (∀ e ∈ [(Instr.popc d a, 0x18, 0), (.clz d a, 0x18, 1), (.ctz d a, 0x18, 2), (.brev d a, 0x18, 3), (.bswap d a, 0x18, 4), (.mov d a, 0x1C, 0)],
      encode e.1 = some (Sys2Proof.Claims.f3 e.2.1 e.2.2 d.val a.val 0)) ∧
    (∀ p : Fin 8, encode (.sel p d a b) = some (Sys2Proof.Claims.f3 0x1B p.val d.val a.val b.val) ∧
      encode (.pmov d p) = some (Sys2Proof.Claims.f3 0x1C 1 d.val p.val 0) ∧ encode (.movp p a) = some (Sys2Proof.Claims.f3 0x1C 2 p.val a.val 0)) ∧
    (∀ (c : ICond) (p : Fin 8) (n : BitVec 7), encode (.icmp c p a b) = some (Sys2Proof.Claims.f3 0x1A c.code p.val a.val b.val) ∧
      encode (.icmpi p a c n) = some (Sys2Proof.Claims.fi 0x24 p.val a.val (2 ^ 7 * c.code + n.toNat))) ∧
    (∀ w, w < 2 ^ 32 → w / 2 ^ 25 = 0x1A → 10 ≤ w / 2 ^ 21 % 2 ^ 4 → ∀ i, decodeWord w ≠ .ok i) ∧
    (∀ w, w < 2 ^ 32 → w / 2 ^ 25 = 0x24 → 10 ≤ w / 2 ^ 7 % 2 ^ 4 → ∀ i, decodeWord w ≠ .ok i)

/-- FP32 arithmetic, comparison, functions and integral rounding (R74, R79, R254 to R257): each result is the exact one rounded once to
nearest even; a NaN result is 0x7FC00000; FABS, FNEG and FCPYS move sign bits. The functions of R79 are the model's (log entry 13).
Completion (exec answers a next state with the effect) is stated of: fadd, fsub, fmul, ffma, ffms, fmin, fmax, fdiv, fabs, fneg, fcpys, fcmp, frcp,
frsq, fsqrt, fexp2, flog2, fsinpi, fcospi, ftanh, frne, frtz, fflr, fceil. -/
def Sys2Proof.Claims.FloatResults : Prop :=
  ∀ d a b : RF,
    Lane2 (.fadd d a b) d a b (fun x y => word32 ((val32 x).add (val32 y))) ∧
    Lane2 (.fsub d a b) d a b (fun x y => word32 ((val32 x).add (val32 y).negate)) ∧
    Lane2 (.fmul d a b) d a b (fun x y => word32 ((val32 x).mul (val32 y))) ∧
    Lane3 (.ffma d a b) d a b (fun x y z => word32 (((val32 x).mul (val32 y)).add (val32 z))) ∧
    Lane3 (.ffms d a b) d a b (fun x y z => word32 (((val32 x).mul (val32 y)).add (val32 z).negate)) ∧
    Lane2 (.fmin d a b) d a b (fun x y => BitVec.ofNat 32 (fminmaxF fp32 false x.toNat y.toNat)) ∧
    Lane2 (.fmax d a b) d a b (fun x y => BitVec.ofNat 32 (fminmaxF fp32 true x.toNat y.toNat)) ∧
    Lane2 (.fdiv d a b) d a b (fun x y => BitVec.ofNat 32 ((val32 x).div32 (val32 y))) ∧
    Lane1 (.fabs d a) d a (fun x => if 0x7F800000 < x.toNat % 2 ^ 31 then 0x7FC00000 else x &&& 0x7FFFFFFF) ∧
    Lane1 (.fneg d a) d a (fun x => if 0x7F800000 < x.toNat % 2 ^ 31 then 0x7FC00000 else x ^^^ 0x80000000) ∧
    Lane2 (.fcpys d a b) d a b
      (fun x y => if 0x7F800000 < x.toNat % 2 ^ 31 then 0x7FC00000 else (x &&& 0x7FFFFFFF) ||| (y &&& 0x80000000)) ∧
    (∀ c p, LaneTests (.fcmp c p a b) p fun g L => c.holds (fcompareF fp32 (g.src a 0 L).toNat (g.src b 0 L).toNat)) ∧
    Lane1 (.frcp d a) d a frcp ∧ Lane1 (.frsq d a) d a frsq ∧ Lane1 (.fsqrt d a) d a fsqrt ∧ Lane1 (.fexp2 d a) d a fexp2 ∧
    Lane1 (.flog2 d a) d a flog2 ∧ Lane1 (.fsinpi d a) d a fsinpi ∧ Lane1 (.fcospi d a) d a fcospi ∧ Lane1 (.ftanh d a) d a ftanh ∧
    Lane1 (.frne d a) d a (frnd .rne) ∧ Lane1 (.frtz d a) d a (frnd .rtz) ∧ Lane1 (.fflr d a) d a (frnd .rdn) ∧
    Lane1 (.fceil d a) d a (frnd .rup)

/-- FMIN, FMAX, FRNE and the special values of the reciprocals (R79, R254, R257), on the encodings that the rules name: −0 is below +0, one
NaN gives the other operand, two give the canonical NaN, FCEIL of −0.5 is −0, FRNE of 2.5 is 2.0, FRCP of a zero is an infinity. -/
def Sys2Proof.Claims.FloatSpecialValues : Prop :=
  fminmaxF fp32 false 0x00000000 0x80000000 = 0x80000000 ∧ fminmaxF fp32 true 0x80000000 0x00000000 = 0x00000000 ∧
  (∀ x y : Nat, fp32.isNan x = true → fp32.isNan y = false → fminmaxF fp32 false x y = y ∧ fminmaxF fp32 true x y = y ∧
    fminmaxF fp32 false y x = y ∧ fminmaxF fp32 true y x = y) ∧
  (∀ x y : Nat, fp32.isNan x = true → fp32.isNan y = true → fminmaxF fp32 false x y = 0x7FC00000 ∧ fminmaxF fp32 true x y = 0x7FC00000) ∧
  frnd .rup 0xBF000000 = 0x80000000 ∧ frnd .rne 0x40200000 = 0x40000000 ∧ frcp 0x00000000 = 0x7F800000 ∧ frcp 0x80000000 = 0xFF800000 ∧
  (val32 0x3F800000).div32 (val32 0x00000000) = 0x7F800000 ∧ (val32 0x00000000).div32 (val32 0x80000000) = 0x7FC00000

/-- Packed 16-bit arithmetic (R60, R258): with BF16 or FP16 in FMT.AF each half of the result is that format's operation on the halves of
the sources; any other AF traps with 0x17 and FMT.
Completion (exec answers a next state with the effect) is stated of: hadd2, hmul2, hfma2, hmin2, hmax2. -/
def Sys2Proof.Claims.PackedResults : Prop :=
  ∀ (d a b : RF) (s : State) (g : Group),
    let half := fun (r : RF) (L k : Nat) => (g.src r 0 L).toNat / 65536 ^ k % 65536
    let packed := fun (i : Instr) (f : FltFmt → Nat → Nat → Nat → Nat) => Issues s g i →
      (fmtAF g.fmt < 2 → Answers i s fun t => Wrote s t g d 1 fun _ L =>
        let F := if fmtAF g.fmt = 0 then bf16 else fp16
        BitVec.ofNat 32 (f F (half a L 0) (half b L 0) (half d L 0) + 65536 * f F (half a L 1) (half b L 1) (half d L 1))) ∧
      (2 ≤ fmtAF g.fmt → MayTrap s g → Answers i s fun t => TrapsAtWord s t g 0x17 g.fmt 0)
    packed (.hadd2 d a b) (fun F x y _ => faddF F x y) ∧ packed (.hmul2 d a b) (fun F x y _ => fmulF F x y) ∧
    packed (.hfma2 d a b) ffmaF ∧ packed (.hmin2 d a b) (fun F x y _ => fminmaxF F false x y) ∧
    packed (.hmax2 d a b) (fun F x y _ => fminmaxF F true x y)

/-- Conversions (R77, R78, R259 to R263): between FP32 and integers, the element formats of FMT.AF and scales; a format that the form does
not take traps with 0x17 and FMT.
Completion (exec answers a next state with the effect) is stated of: cvtfi, cvtfu, cvtif, cvtuf, cvtfn, cvtnf, cvtnfh, cvtfc, cvtcf, cvtfnt. -/
def Sys2Proof.Claims.ConversionResults : Prop :=
  ∀ (d a b : RF) (s : State) (g : Group),
    let writes := fun (i : Instr) (v : Nat → Word) => Issues s g i → Answers i s fun t => Wrote s t g d 1 fun _ L => v L
    let formed := fun (i : Instr) (ok : Bool) (v : Nat → Word) => Issues s g i →
      (ok = true → Answers i s fun t => Wrote s t g d 1 fun _ L => v L) ∧
      (ok = false → MayTrap s g → Answers i s fun t => TrapsAtWord s t g 0x17 g.fmt 0)
    let af := fmtAF g.fmt
    let book := (s.gblk s.cur).book (fmtCSA g.fmt)
    (∀ m, writes (.cvtfi d a m) fun L => BitVec.ofInt 32 ((val32 (g.src a 0 L)).toInt m (-(2 ^ 31)) (2 ^ 31 - 1))) ∧
    (∀ m, writes (.cvtfu d a m) fun L => BitVec.ofInt 32 ((val32 (g.src a 0 L)).toInt m 0 (2 ^ 32 - 1))) ∧
    writes (.cvtif d a) (fun L => BitVec.ofNat 32 ((Val.ofInt (g.src a 0 L).toInt 0).round fp32 (fmtRND g.fmt) false)) ∧
    writes (.cvtuf d a) (fun L => BitVec.ofNat 32 ((Val.fin false (g.src a 0 L).toNat 0).round fp32 (fmtRND g.fmt) false)) ∧
    writes (.cvtfc d a) (fun L => BitVec.ofNat 32 (toE8m0 (val32 (g.src a 0 L)) (fmtSAT g.fmt))) ∧
    writes (.cvtcf d a b) (fun L => word32 (e8m0 ((g.src a 0 L).toNat / 2 ^ (8 * ((g.src b 0 L).toNat % 4)) % 256))) ∧
    formed (.cvtfn d a b) (af ≤ 3 || af == 5 || af == 6) (fun L =>
      BitVec.ofNat 32 (toElem af (val32 (g.src a 0 L)) (fmtRND g.fmt) (fmtSAT g.fmt) +
        2 ^ elemBits af * toElem af (val32 (g.src b 0 L)) (fmtRND g.fmt) (fmtSAT g.fmt))) ∧
    formed (.cvtfnt d a b) (decide (af ≤ 3)) (fun L =>
      BitVec.ofNat 32 (toElem af (val32 (g.src a 0 L)) .rtz (fmtSAT g.fmt) + 2 ^ elemBits af * toElem af (val32 (g.src b 0 L)) .rtz (fmtSAT g.fmt))) ∧
    formed (.cvtnf d a b) (decide (af ≤ 6)) (fun L =>
      BitVec.ofNat 32 ((elemVal af book (elem af (g.src a 0 L).toNat ((g.src b 0 L).toNat % (32 / elemBits af)))).round fp32 .rne false)) ∧
    formed (.cvtnfh d a b) (af ≤ 6 && decide (fmtBF g.fmt ≤ 1)) (fun L =>
      let F := if fmtBF g.fmt = 0 then bf16 else fp16
      let e := fun j => (elemVal af book (elem af (g.src a 0 L).toNat (2 * ((g.src b 0 L).toNat % (32 / elemBits af / 2)) + j))).round F
        (fmtRND g.fmt) (fmtSAT g.fmt)
      BitVec.ofNat 32 (e 0 + 65536 * e 1))

/-- Exchanges (R264 to R266): an active lane takes the present value of its source lane, active or not, within its quad or across the group;
a SHFLU or SHFLD that would leave the group keeps the lane's own. HMIX and PRMT (R271, R272) work lane by lane.
Completion (exec answers a next state with the effect) is stated of: qswh, qswv, qswd, qbc, shfli, shflu, shfld, shflx, hmix, prmt. -/
def Sys2Proof.Claims.ExchangeResults : Prop :=
  ∀ d a b : RF,
    let takes := fun (i : Instr) (k : Group → Nat → Nat) => LaneWrites i d 1 fun g _ L => g.src a 0 (k g L)
    takes (.qswh d a) (fun _ L => if L % 2 = 0 then L + 1 else L - 1) ∧
    takes (.qswv d a) (fun _ L => if L % 4 < 2 then L + 2 else L - 2) ∧
    takes (.qswd d a) (fun _ L => 4 * (L / 4) + (3 - L % 4)) ∧
    (∀ n : Fin 4, takes (.qbc d a n) fun _ L => 4 * (L / 4) + n.val) ∧
    takes (.shfli d a b) (fun g L => (g.src b 0 L).toNat % 32) ∧
    takes (.shflu d a b) (fun g L => if L < (g.src b 0 L).toNat then L else L - (g.src b 0 L).toNat) ∧
    takes (.shfld d a b) (fun g L => if 31 < L + (g.src b 0 L).toNat then L else L + (g.src b 0 L).toNat) ∧
    takes (.shflx d a b) (fun g L => L ^^^ (g.src b 0 L).toNat % 32) ∧
    Lane2 (.hmix d a b) d a b (fun x y =>
      let h := (x ^^^ y.rotateLeft 16) * 0x9B4F2C35
      let h := h ^^^ (h >>> 15)
      let h := (h + y) * 0x6D2AE58B
      h ^^^ (h >>> 13)) ∧
    Lane3 (.prmt d a b) d a b prmt ∧ prmt 0x44332211 0x88776655 0x00005140 = 0x66225511

/-- Votes and reductions over the present lanes, the active launch lanes (R267, R268): VANY is false and VALL true without one; a reduction
starts from its identity, and RDFADD adds along the fixed tree of R84.
Completion (exec answers a next state with the effect) is stated of: vany, vall, vbal, rdadd, rdmin, rdmax, rdand, rdor, rdxor, rdfadd. -/
def Sys2Proof.Claims.VoteAndReductionResults : Prop :=
  (∀ (s : State) (g : Group) (q : Fin 8) (inv : Bool) (p : Fin 8) (present : Mask), present = g.launchAct →
    let agree := fun L => (g.pred p.val).getLsbD L ^^ inv
    (Issues s g (.vany q inv p) → Answers (.vany q inv p) s fun t => ∃ u, LaneDue s t g { g.laneDone [.upred q.val] with upreds := u } ∧
      (q.val ≠ 7 → (tget false u q.val = true ↔ ∃ L, L < 32 ∧ present.getLsbD L = true ∧ agree L = true)) ∧
      ∀ k, k ≠ q.val ∨ k = 7 → tget false u k = tget false g.upreds k) ∧
    (Issues s g (.vall q inv p) → Answers (.vall q inv p) s fun t => ∃ u, LaneDue s t g { g.laneDone [.upred q.val] with upreds := u } ∧
      (q.val ≠ 7 → (tget false u q.val = true ↔ ∀ L, L < 32 → present.getLsbD L = true → agree L = true)) ∧
      ∀ k, k ≠ q.val ∨ k = 7 → tget false u k = tget false g.upreds k) ∧
    (∀ d, Issues s g (.vbal d inv p) → Answers (.vbal d inv p) s fun t => ∃ m : Mask, Wrote s t g d 1 (fun _ _ => m) ∧
      ∀ L, L < 32 → m.getLsbD L = (present.getLsbD L && agree L))) ∧
  (∀ d a : RF,
    let folds := fun (i : Instr) (f : Word → Word → Word) (e : Word) =>
      LaneWrites i d 1 fun g _ _ => ((lanesOf g.launchAct).map fun L => g.src a 0 L).foldl f e
    folds (.rdadd d a) (fun x y => x + y) 0 ∧ folds (.rdmin d a) (fun x y => if x.toInt ≤ y.toInt then x else y) 0x7FFFFFFF ∧
    folds (.rdmax d a) (fun x y => if x.toInt ≤ y.toInt then y else x) 0x80000000 ∧ folds (.rdand d a) (fun x y => x &&& y) 0xFFFFFFFF ∧
    folds (.rdor d a) (fun x y => x ||| y) 0 ∧ folds (.rdxor d a) (fun x y => x ^^^ y) 0 ∧
    LaneWrites (.rdfadd d a) d 1 fun g _ _ =>
      BitVec.ofNat 32 (treeSum ((List.range 32).map fun L => if g.launchAct.getLsbD L then some (g.src a 0 L).toNat else none)))

/-- The encodings of R265 and R266. -/
def Sys2Proof.Claims.ExchangeEncodings : Prop :=
  ∀ d a b : RF,
    (∀ e ∈ [(Instr.qswh d a, 0), (.qswv d a, 1), (.qswd d a, 2)], encode e.1 = some (Sys2Proof.Claims.f3 0x2E e.2 d.val a.val 0)) ∧
    (∀ n : Fin 4, encode (.qbc d a n) = some (Sys2Proof.Claims.f3 0x2E 3 d.val a.val n.val)) ∧
    (∀ e ∈ [(Instr.shfli d a b, 0), (.shflu d a b, 1), (.shfld d a b, 2), (.shflx d a b, 3)],
      encode e.1 = some (Sys2Proof.Claims.f3 0x2F e.2 d.val a.val b.val))

/-- A load issues when its lanes pass the core's checks (R215, R217 to R219): the operation in flight has one access for each active lane, at the
address that the displacement and the capability, the scratchpad offset or the window address name, its destination registers are pending, and
nothing is written.
Completion (exec answers a next state with the effect) is stated of: ld, lda, lds, ldw. -/
def Sys2Proof.Claims.LoadsGoIntoFlight : Prop :=
  ∀ (s : State) (g : Group) (h : Bool) (z : LSize) (d a b : RF) (c : Fin 16) (k : Scope),
    let cap := g.cap c.val
    let disp := fun L => (g.src a 0 L).toNat
    let off := fun L => (g.src a 0 L + g.usrc b).toNat
    let flies := fun (i : Instr) (blk : Nat → Option Nat) (adr : Nat → Nat) => Answers i s fun t => InFlight s t g i fun o =>
      o.dest = g.destRegs d z.regs ∧
      (o.accs.map fun x => (x.lane, x.blk, x.adr, x.size)) = (lanesOf g.act).map fun L => (L, blk L, adr L, z.bytes)
    g.act ≠ 0 →
    (Issues s g (.ld h z d a c) → (∀ L ∈ lanesOf g.act, g.reaches c.val rightR z.bytes (disp L)) →
      flies (.ld h z d a c) (fun _ => none) fun L => cap.obj * 2 ^ 40 + (cap.base + disp L) % 2 ^ 40) ∧
    (Issues s g (.lda h z d a k c) → (∀ L ∈ lanesOf g.act, g.reaches c.val rightR z.bytes (disp L)) →
      flies (.lda h z d a k c) (fun _ => none) fun L => cap.obj * 2 ^ 40 + (cap.base + disp L) % 2 ^ 40) ∧
    (Issues s g (.lds h z d a b) →
      (∀ L ∈ lanesOf g.act, off L + z.bytes ≤ (s.glch s.cur).scr ∧ off L % z.bytes = 0 ∧ (s.blk g.blk).markedAt (off L) z.bytes = false) →
      flies (.lds h z d a b) (fun _ => some g.blk) off) ∧
    (Issues s g (.ldw h z d a) → (∀ L ∈ lanesOf g.act, s.windowReaches g.blk z.bytes (disp L)) →
      flies (.ldw h z d a) (fun L => some (s.peer g.blk (windowRank (s.blk g.blk).rank (disp L)))) fun L => windowOff (disp L))

/-- A store issues in the active launch lanes (R166, R218, R220): each access carries the low bytes of its lane's data registers. A store whose
lines the core's L1 all holds for writing is performed at once, which another statement says.
Completion (exec answers a next state with the effect) is stated of: st, stl, stw. -/
def Sys2Proof.Claims.StoresGoIntoFlight : Prop :=
  ∀ (s : State) (g : Group) (h : Bool) (z : SSize) (d a : RF) (c : Fin 16) (k : Scope),
    let cap := g.cap c.val
    let disp := fun L => (g.src a 0 L).toNat
    let adr := fun L => cap.obj * 2 ^ 40 + (cap.base + disp L) % 2 ^ 40
    let flies := fun (i : Instr) (blk : Nat → Option Nat) (at_ : Nat → Nat) => Answers i s fun t => InFlight s t g i fun o =>
      o.dest = [] ∧ (o.accs.map fun x => (x.lane, x.blk, x.adr, x.size, x.data)) =
        (lanesOf g.launchAct).map fun L => (L, blk L, at_ L, z.bytes, g.dataOf d z.regs z.bytes L)
    let waits := ∃ L ∈ lanesOf g.launchAct, (s.line (s.gblk s.cur).core 0 (lineOf (adr L))).writeHit = false
    (Issues s g (.st h z d a c) → (∀ L ∈ lanesOf g.launchAct, g.reaches c.val rightW z.bytes (disp L)) → waits →
      flies (.st h z d a c) (fun _ => none) adr) ∧
    (Issues s g (.stl h z d a k c) → (∀ L ∈ lanesOf g.launchAct, g.reaches c.val rightW z.bytes (disp L)) → waits →
      flies (.stl h z d a k c) (fun _ => none) adr) ∧
    (Issues s g (.stw h z d a) → g.launchAct ≠ 0 → (∀ L ∈ lanesOf g.launchAct, s.windowReaches g.blk z.bytes (disp L)) →
      flies (.stw h z d a) (fun L => some (s.peer g.blk (windowRank (s.blk g.blk).rank (disp L)))) fun L => windowOff (disp L))

/-- An atomic issues in the active launch lanes and needs R, W and A (R218, R224, R226); what it returns is written to the registers from d. One
whose lines the core's L1 all holds for writing may be performed at once, which another statement says.
Completion (exec answers a next state with the effect) is stated of: atom, atoma, atoml, atomr. -/
def Sys2Proof.Claims.AtomicsGoIntoFlight : Prop :=
  ∀ (s : State) (g : Group) (f : AtomOp) (d a : RF) (c : Fin 16) (k : Scope),
    let cap := g.cap c.val
    let disp := fun L => (g.src a 0 L).toNat
    let adr := fun L => cap.obj * 2 ^ 40 + (cap.base + disp L) % 2 ^ 40
    let flies := fun (i : Instr) => Issues s g i →
      (∃ L ∈ lanesOf g.launchAct, (s.line (s.gblk s.cur).core 0 (lineOf (adr L))).writeHit = false) →
      (∀ L ∈ lanesOf g.launchAct, g.reaches c.val (rightR + rightW + rightA) f.bytes (disp L)) →
      Answers i s fun t => InFlight s t g i fun o => o.dest = g.destRegs d f.results ∧
        (o.accs.map fun x => (x.lane, x.blk, x.adr, x.size)) =
          (lanesOf g.launchAct).map fun L => (L, none, adr L, f.bytes)
    flies (.atom f d a c) ∧ flies (.atoma f d a k c) ∧ flies (.atoml f d a k c) ∧ flies (.atomr f d a k c)

/-- With a capability that does not allow the access, a load or store whose active lanes are all launch lanes traps at its word with 0x07 in
every lane (R215, R218, R241): TVAL is the lowest lane's displacement, TFM the active lanes, TLANE each lane's displacement. -/
def Sys2Proof.Claims.AccessWithoutTheRightTraps : Prop :=
  ∀ (s : State) (g : Group) (h : Bool) (d a : RF) (c : Fin 16) (L : Nat) (rest : List Nat), MayTrap s g → g.act = g.launchAct →
    lanesOf g.act = L :: rest →
    let traps := fun (t : State) => ∃ lanes, TakesTrap s t g ⟨0x07, g.src a 0 L, 0, g.launchAct, lanes⟩ (g.clause.hdr + 4 * (g.idx + 1)) g.clause false ∧
      ∀ k, g.act.getLsbD k = true → tget 0 lanes k = g.src a 0 k
    (∀ z, Issues s g (.ld h z d a c) → (g.cap c.val).allows rightR = false → Answers (.ld h z d a c) s traps) ∧
    (∀ z, Issues s g (.st h z d a c) → (g.cap c.val).allows rightW = false → Answers (.st h z d a c) s traps)

/-- A store or atomic to the group's own scratchpad, in a group with nothing in flight, is performed at once (R218, R220, R226, R227): with one
active launch lane its bytes are the data, or what the operation makes of them; every byte outside the stored ones, and all of device memory, is
as before.
Completion (exec answers a next state with the effect) is stated of: sts, atoms. -/
def Sys2Proof.Claims.ScratchpadStoresAndAtomics : Prop :=
  ∀ (s : State) (g : Group) (d a b : RF) (L : Nat), s.ops = [] → g.blk < s.blocks.length → lanesOf g.launchAct = [L] →
    let off := (g.src a 0 L + g.usrc b).toNat
    (∀ h z, Issues s g (.sts h z d a b) → off + z.bytes ≤ (s.glch s.cur).scr → off % z.bytes = 0 →
      Answers (.sts h z d a b) s fun t => t.mem = s.mem ∧ t.ops = [] ∧ t.sread g.blk off z.bytes = g.dataOf d z.regs z.bytes L ∧
        ∀ x, x < off ∨ off + z.bytes ≤ x → t.sread g.blk x 1 = s.sread g.blk x 1) ∧
    (∀ f, Issues s g (.atoms f d a b) → off + f.op.bytes ≤ (s.glch s.cur).scr → off % f.op.bytes = 0 →
      (s.blk g.blk).markedAt off f.op.bytes = false →
      Answers (.atoms f d a b) s fun t => ∃ o, tfind t.ops s.nextOp = some o ∧ o.instr = .atoms f d a b ∧ o.dest = g.destRegs d f.op.results ∧
        (o.accs.map fun x => (x.lane, x.st)) = [(L, .done (s.sread g.blk off f.op.bytes))] ∧ .atomicReturn s.nextOp ∈ t.agenda ∧
        t.mem = s.mem ∧
        t.sread g.blk off f.op.bytes =
          (f.op.apply (s.sread g.blk off f.op.bytes) (g.dataOf d f.op.regs (4 * f.op.regs) L % 2 ^ 32)
            (g.dataOf d f.op.regs (4 * f.op.regs) L / 2 ^ 32)).1 % 2 ^ (8 * f.op.bytes) ∧
        ∀ x, x < off ∨ off + f.op.bytes ≤ x → t.sread g.blk x 1 = s.sread g.blk x 1)

/-- A store, or an atomic that may be performed near, whose one active launch lane finds its line in the core's L1 in M, in a group with nothing in
flight, is performed at once (R170, R218, R220, R225, R226, R236, R418): ST and STL are over, an ATOM has its old value and is due to return it; every
byte of device memory outside the operand's is as before.
Completion (exec answers a next state with the effect) is stated of: st, stl, atom, atoma, atoml, atomr. -/
def Sys2Proof.Claims.StoresAndAtomicsThatHit : Prop :=
  ∀ (s : State) (g : Group) (h : Bool) (z : SSize) (f : AtomOp) (d a : RF) (c : Fin 16) (k : Scope) (L : Nat), s.ops = [] → lanesOf g.launchAct = [L] →
    let cap := g.cap c.val
    let ctx := (s.glch s.cur).ctx
    let core := (s.gblk s.cur).core
    let adr := cap.obj * 2 ^ 40 + (cap.base + (g.src a 0 L).toNat) % 2 ^ 40
    let x := s.line core 0 (lineOf adr)
    let pa := x.pa + adr % 256
    let stored := fun (t : State) (n v : Nat) => mread t.mem pa n = v ∧ (∀ b, b < pa ∨ pa + n ≤ b → mget t.mem b = mget s.mem b) ∧
      t.blocks = s.blocks ∧ g.SameRegs (t.grp s.cur)
    x.st = .M → x.ctx = ctx → x.mt = 0 → s.poisonedPage ctx (adr / 2 ^ 40) (adr % 2 ^ 40 / 65536) = false →
    (pa + z.bytes ≤ memBytes → g.reaches c.val rightW z.bytes (g.src a 0 L).toNat → ∀ i ∈ [Instr.st h z d a c, .stl h z d a k c],
      Issues s g i → Answers i s fun t => stored t z.bytes (g.dataOf d z.regs z.bytes L) ∧ t.ops = []) ∧
    (pa + f.bytes ≤ memBytes → g.reaches c.val (rightR + rightW + rightA) f.bytes (g.src a 0 L).toNat → f ≠ .xadd →
      oAfar (s.objRaw ctx (adr / 2 ^ 40)) = false → tget 0 (s.core core).pred (predKey (lineOf adr)) < 2 → s.poisonedSector adr = false →
      ∀ i ∈ [Instr.atom f d a c, .atoma f d a k c, .atoml f d a k c, .atomr f d a k c], Issues s g i → Answers i s fun t =>
        let v := g.dataOf d f.regs (4 * f.regs) L
        let old := mread s.mem pa f.bytes
        stored t f.bytes ((f.apply old (v % 2 ^ (8 * f.bytes)) (v / 2 ^ (8 * f.bytes))).1 % 2 ^ (8 * f.bytes)) ∧
        (∃ o, t.ops = [(s.nextOp, o)] ∧ o.instr = i ∧ (o.accs.map fun y => (y.lane, y.st)) = [(L, .done (f.apply old 0 0).2)]) ∧
        .atomicReturn s.nextOp ∈ t.agenda)

/-- The data of a load returns (R44, R219): every ready lane's destination registers get the words of its value, extended by the load's size,
every other register and all else of the package that `State.Around` does not name stay, and the operation is over.
Completion (exec answers a next state with the effect) is stated of: loadDataReturn. -/
def Sys2Proof.Claims.LoadDataReturns : Prop :=
  ∀ (s : State) (op : Nat) (p : Op) (g : Group) (n : Nat), s.ops = [(op, p)] → s.groups[p.gid]? = some g →
    p.instr.isLoad = true → p.stage = .cleared → p.dest = ((List.range p.instr.lsize.regs).map fun k => .lane (n + k)) →
    (∀ x ∈ p.accs, x.st = .ready ∧ x.lane < 32) → (p.accs.map fun x => x.lane).Nodup →
    Answers (.loadDataReturn op) s fun t => tfind t.ops op = none ∧ s.Around t p.gid ∧ g.SameControl (t.grp p.gid) ∧
      (∀ x ∈ p.accs, ∀ k, k < p.instr.lsize.regs →
        (t.grp p.gid).phys (n + k) x.lane = p.instr.lsize.word (s.accRead x) k) ∧
      (∀ r L, L < 32 → (∀ x ∈ p.accs, x.lane ≠ L) ∨ r < n ∨ n + p.instr.lsize.regs ≤ r → (t.grp p.gid).phys r L = g.phys r L) ∧
      (t.grp p.gid).preds = g.preds ∧ (t.grp p.gid).upreds = g.upreds ∧ (t.grp p.gid).uregs = g.uregs

/-- The word of a loaded value (R217): bytes and halfwords are extended by sign or with zeros, a wide value gives its words from the low end. -/
def Sys2Proof.Claims.LoadedWords : Prop :=
  ∀ v : Nat, LSize.bz.word v 0 = BitVec.ofNat 32 (v % 256) ∧ LSize.hz.word v 0 = BitVec.ofNat 32 (v % 65536) ∧
    (∀ i, i < 32 → (LSize.b.word v 0).getLsbD i = v.testBit (min i 7)) ∧ (∀ i, i < 32 → (LSize.h.word v 0).getLsbD i = v.testBit (min i 15)) ∧
    (∀ k i, i < 32 → (LSize.d.word v k).getLsbD i = v.testBit (32 * k + i) ∧ (LSize.q.word v k).getLsbD i = v.testBit (32 * k + i))

/-- CAPLD of handle 0, CAPNAR, CAPRR and CAPRD (R23, R210 to R213): a null capability at once; the narrowed range; the rights anded; the
128-bit value in four registers, in every active lane or in a uniform run whatever lanes are active.
Completion (exec answers a next state with the effect) is stated of: capld, capnar, caprd, caprr. -/
def Sys2Proof.Claims.CapabilityResults : Prop :=
  ∀ (s : State) (g : Group) (e : Fin 16) (a d : RF) (c : Fin 16),
    let x := g.cap c.val
    let p := fun k => (g.src a k 0).toNat
    let off := p 1 * 2 ^ 32 + p 0
    let len := p 3 * 2 ^ 32 + p 2
    let value := x.obj % 2 ^ 24 + 2 ^ 24 * (x.base % 2 ^ 40) + 2 ^ 64 * (x.len % 2 ^ 40) + 2 ^ 104 * (x.rights % 256) +
      2 ^ 112 * (x.kind % 16) + 2 ^ 116 * (x.gen % 4096)
    let word := fun k (_ : Nat) => BitVec.ofNat 32 (value / 2 ^ (32 * k))
    (Issues s g (.capld e a) → g.usrc a = 0 → Answers (.capld e a) s fun t =>
      OnlyGroup s t { g.onward with caps := tset .null g.caps e.val .null }) ∧
    (Issues s g (.capld e a) → g.usrc a ≠ 0 → (g.usrc a).toNat < 2 ^ 24 → Answers (.capld e a) s fun t =>
      InFlight s t g (.capld e a) (fun o => o.dest = [.cap e.val] ∧ o.ps = [(g.usrc a).toNat]) ∧ .capldEntryReturn s.nextOp ∈ t.agenda) ∧
    (Issues s g (.capnar e a c) → p 1 < 256 → p 3 < 256 → x.obj ≠ 0 → 1 ≤ x.kind → x.kind ≤ 3 → off + len ≤ x.len →
      Answers (.capnar e a c) s fun t =>
        OnlyGroup s t { g.onward with caps := tset .null g.caps e.val { x with base := x.base + off, len := len } }) ∧
    (Issues s g (.caprr e a c) → (g.usrc a).toNat < 256 → Answers (.caprr e a c) s fun t =>
      OnlyGroup s t { g.onward with caps := tset .null g.caps e.val { x with rights := x.rights &&& (g.usrc a).toNat } }) ∧
    (Issues s g (.caprd d c) → Answers (.caprd d c) s fun t => ∃ regs uregs,
      OnlyGroup s t { g.onward with regs := regs, uregs := uregs } ∧ LaneRegs g d 4 word regs ∧
      ∀ n, tget 0 uregs n = if 96 ≤ d.val ∧ d.val < 127 ∧ d.val - 96 ≤ n ∧ n < d.val - 96 + 4 then word (n - (d.val - 96)) 0 else g.uni n)

/-- What the capability instructions refuse (R209 to R211): a length or offset of 2^40 or more is an illegal word, a capability that is null or
of another kind traps with 0x07, a range beyond the capability's with 0x06 and the offset. -/
def Sys2Proof.Claims.CapabilityTraps : Prop :=
  ∀ (s : State) (g : Group) (e : Fin 16) (a : RF) (c : Fin 16), MayTrap s g →
    let x := g.cap c.val
    let p := fun k => (g.src a k 0).toNat
    (Issues s g (.capld e a) → 2 ^ 24 ≤ (g.usrc a).toNat → Answers (.capld e a) s fun t => TrapsAtWord s t g 0x01 g.word 0) ∧
    (Issues s g (.capnar e a c) → 256 ≤ p 1 ∨ 256 ≤ p 3 → Answers (.capnar e a c) s fun t => TrapsAtWord s t g 0x01 g.word 0) ∧
    (Issues s g (.capnar e a c) → p 1 < 256 → p 3 < 256 → x.obj = 0 ∨ x.kind = 0 ∨ 3 < x.kind →
      Answers (.capnar e a c) s fun t => TrapsAtWord s t g 0x07 0 0) ∧
    (Issues s g (.capnar e a c) → p 1 < 256 → p 3 < 256 → x.obj ≠ 0 → 1 ≤ x.kind → x.kind ≤ 3 →
      x.len < p 1 * 2 ^ 32 + p 0 + (p 3 * 2 ^ 32 + p 2) →
      Answers (.capnar e a c) s fun t => TrapsAtWord s t g 0x06 (g.src a 0 0) (g.src a 1 0)) ∧
    (Issues s g (.caprr e a c) → 256 ≤ (g.usrc a).toNat → Answers (.caprr e a c) s fun t => TrapsAtWord s t g 0x01 g.word 0)

/-- The object entry that CAPLD asked for returns (R210): a valid entry gives the capability of the whole object with the entry's rights, kind
and generation, and the register is no longer pending; otherwise the group traps with 0x09 and the handle.
Completion (exec answers a next state with the effect) is stated of: capldEntryReturn. -/
def Sys2Proof.Claims.CapabilityEntryReturns : Prop :=
  ∀ (s : State) (op : Nat) (p : Op) (g : Group) (e : Fin 16) (a : RF), s.ops = [(op, p)] → s.groups[p.gid]? = some g →
    p.instr = .capld e a →
    (∀ c, s.capLoad (s.glch p.gid).ctx (p.ps.getD 0 0) = some c → Answers (.capldEntryReturn op) s fun t =>
      tfind t.ops op = none ∧ s.Around t p.gid ∧ (t.grp p.gid).cap e.val = c ∧ (∀ k, k ≠ e.val → (t.grp p.gid).cap k = g.cap k) ∧
      (t.grp p.gid).regs = g.regs ∧ (t.grp p.gid).uregs = g.uregs ∧ (t.grp p.gid).preds = g.preds ∧
      (t.grp p.gid).pend = g.pend.filter fun r => r.2 != p.tok) ∧
    (s.capLoad (s.glch p.gid).ctx (p.ps.getD 0 0) = none → g.trap.handler = false → (s.glch p.gid).lr.handler ≠ 0xFFFFFFFF →
      g.phase ≠ .stopped → g.phase ≠ .exited → Answers (.capldEntryReturn op) s fun t =>
        tfind t.ops op = none ∧ (t.grp p.gid).caps = g.caps ∧ (t.grp p.gid).phase = .fetch (s.glch p.gid).lr.handler ∧
        (t.grp p.gid).trap.tcause = 0x09 ∧ (t.grp p.gid).trap.tval = BitVec.ofNat 32 (p.ps.getD 0 0) ∧ (t.grp p.gid).trap.tfm = p.mask ∧
        (t.grp p.gid).trap.tpc = BitVec.ofNat 32 (p.clause.hdr + 4 * (p.idx + 1)))

/-- FENCE (R103, R105): in a group with nothing in flight an acq, rel or acq-rel fence is over at once; an sc fence is over at the second tick
after it, at system scope the second multiple of eight ticks, and not before.
Completion (exec answers a next state with the effect) is stated of: fence, fenceScComplete. -/
def Sys2Proof.Claims.FencesComplete : Prop :=
  (∀ (s : State) (g : Group) (r : Order) (k : Scope), s.ops = [] → Issues s g (.fence r k) →
    Answers (.fence r k) s fun t => s.Around t s.cur ∧ g.SameRegs (t.grp s.cur) ∧ (t.grp s.cur).phase = g.onward.phase ∧
      (r ≠ .sc → t.ops = []) ∧
      (r = .sc → ∃ o, t.ops = [(s.nextOp, o)] ∧ o.stage = .tick (if k = .system then 8 * (s.tick / 8 + 2) else s.tick + 2))) ∧
  (∀ (s : State) (op : Nat) (p : Op) (n : Nat), s.ops = [(op, p)] → p.stage = .tick n →
    (n ≤ s.tick → Answers (.fenceScComplete op) s fun t => t.ops = [] ∧ s.SameBytes t) ∧
    (s.tick < n → Answers (.fenceScComplete op) s fun t => t = s))

/-- DISCARD and PREF issue (R234, R235): DISCARD names whole pages of its object and is checked at the port of the first line; PREF names a
range and a barrier of the block, and marks no flag.
Completion (exec answers a next state with the effect) is stated of: discard, pref. -/
def Sys2Proof.Claims.DiscardAndPrefetchIssue : Prop :=
  ∀ (s : State) (g : Group) (a : RF) (c : Fin 16),
    let x := g.cap c.val
    let p := fun k => (g.src a k 0).toNat
    (Issues s g (.discard a c) → p 0 < 2 ^ 24 → 1 ≤ p 1 → p 1 ≤ 2 ^ 24 → x.allows rightD = true → x.base ≤ p 0 * 65536 →
      (p 0 + p 1) * 65536 ≤ x.base + x.len → Answers (.discard a c) s fun t =>
        InFlight s t g (.discard a c) (fun o => (o.accs.map fun y => (y.adr, y.size)) = [(x.obj * 2 ^ 40 + p 0 * 65536, p 1 * 65536)]) ∧
        .portCheck s.nextOp ((x.obj * 2 ^ 40 + p 0 * 65536) / 256) ∈ t.agenda) ∧
    (Issues s g (.pref a c) → x.allows rightR = true → p 0 + p 1 ≤ x.len → p 2 % 32 = 0 → p 2 + 32 ≤ (s.glch s.cur).scr →
      Answers (.pref a c) s fun t =>
        InFlight s t g (.pref a c) (fun o => o.flag = 15 ∧ o.cap1 = x ∧ o.ps = [p 0, p 1, p 2]) ∧ .prefArrival s.nextOp ∈ t.agenda)

/-- A PREF with no line to fill (of no bytes, or of lines that L2 holds or that are skipped) makes its one arrival without bytes at its barrier
(R235, R286), and is over. A write of the barrier writes the
reserved bits of STAT as zero (R6, R283).
Completion (exec answers a next state with the effect) is stated of: prefArrival. -/
def Sys2Proof.Claims.PrefetchArrives : Prop :=
  ∀ (s : State) (op : Nat) (p : Op) (a : RF) (c : Fin 16) (off : Nat), s.ops = [(op, p)] → p.instr = .pref a c →
    (∀ l ∈ linesOf (p.cap1.obj * 2 ^ 40 + p.cap1.base + p.ps.getD 0 0) (p.ps.getD 1 0), ∃ k,
      s.prefLine op l = (s, some k) ∧ (k < 2 ∨ (s.inL2 l 0 = true ∧ s.inL2 l 1 = true))) →
    p.ps.getD 2 0 = off → p.gid < s.groups.length → (s.grp p.gid).blk < s.blocks.length →
    let x := s.bar (s.grp p.gid).blk off
    x.broken = false → x.h0 = false → 2 ≤ x.rem → Answers (.prefArrival op) s fun t =>
      t.ops = [] ∧
        t.bar (s.grp p.gid).blk off = { x with rem := x.rem - 1, stat := statBits x.stat } ∧ s.KeepsOutside t (s.grp p.gid).blk off 24

/-- Fetching a clause (R37, R39): once header and words are read and their placement is legal the group holds the clause: WAIT, SETA, SETB and its
words are those read, and its first word may be accepted. A header with bits that are not assigned, or a transfer before the last word, traps with
0x02 at the header.
Completion (exec answers a next state with the effect) is stated of: clauseFetch. -/
def Sys2Proof.Claims.ClauseFetchHoldsTheClause : Prop :=
  ∀ (s : State) (n pc : Nat), (s.grp n).phase = .fetch pc → (s.glch n).status ≠ 1 →
    let s0 := (s.withFetchOp n).1
    let o := (s.withFetchOp n).2
    ∀ (s1 s2 : State) (h : Nat) (ws : List Nat), s0.fetchWords n o pc 1 = (s1, .words [h]) →
      s1.fetchWords n o pc (fld h 7 5 + 2) = (s2, .words (h :: ws)) → n < s2.groups.length →
      (headerLegal h = true → misplaced 1 ws = none → Answers (.clauseFetch n) s fun t =>
        (t.grp n).phase = .fetched ∧ (t.grp n).clause = ⟨pc, fld h 20 12, fld h 16 4, fld h 12 4, ws⟩ ∧ (s2.grp n).SameRegs (t.grp n) ∧
        s2.SameBytes t) ∧
      (headerLegal h = false → (s2.grp n).trap.handler = false → (s2.glch n).lr.handler ≠ 0xFFFFFFFF → Answers (.clauseFetch n) s fun t =>
        (t.grp n).phase = .fetch (s2.glch n).lr.handler ∧ (t.grp n).trap.tcause = 0x02 ∧ (t.grp n).trap.tval = BitVec.ofNat 32 h ∧
        (t.grp n).trap.tpc = BitVec.ofNat 32 pc) ∧
      (∀ k w, headerLegal h = true → misplaced 1 ws = some (k, w) → (s2.grp n).trap.handler = false →
        (s2.glch n).lr.handler ≠ 0xFFFFFFFF → Answers (.clauseFetch n) s fun t =>
        (t.grp n).phase = .fetch (s2.glch n).lr.handler ∧ (t.grp n).trap.tcause = 0x02 ∧ (t.grp n).trap.tval = BitVec.ofNat 32 w ∧
        (t.grp n).trap.tvalhi = BitVec.ofNat 32 k)

/-- A fetch outside the code object traps (R37): without the right X with 0x07, beyond its end with 0x06, TPC being the header's offset and TFM the
launch lanes. A group of a stopped launch stops at this boundary (R158). -/
def Sys2Proof.Claims.ClauseFetchChecks : Prop :=
  ∀ (s : State) (n pc : Nat) (g : Group), s.groups[n]? = some g → s.ops = [] → g.phase = .fetch pc →
    let c := (s.glch n).codeCap
    ((s.glch n).status = 1 → Answers (.clauseFetch n) s fun t => (t.grp n).phase = .stopped ∧ .blockRetire g.blk ∈ t.agenda) ∧
    ((s.glch n).status ≠ 1 → g.trap.handler = false → (s.glch n).lr.handler ≠ 0xFFFFFFFF →
      let traps := fun (cause val : Nat) => Answers (.clauseFetch n) s fun t =>
        (t.grp n).phase = .fetch (s.glch n).lr.handler ∧ (t.grp n).trap.tcause = BitVec.ofNat 32 cause ∧
        (t.grp n).trap.tval = BitVec.ofNat 32 val ∧ (t.grp n).trap.tpc = BitVec.ofNat 32 pc ∧ (t.grp n).trap.tfm = g.launchAct ∧ s.SameBytes t
      (c.rights &&& rightX = 0 → traps 0x07 pc) ∧
      (c.rights &&& rightX ≠ 0 → c.len < pc + 4 → traps 0x06 (max pc (c.len / 4 * 4))))

/-- A fetched clause, or the clause that a TRET goes back to, is accepted when every flag of its WAIT mask is clear, and not before (R18, R192).
Completion (exec answers a next state with the effect) is stated of: clauseAccept. -/
def Sys2Proof.Claims.ClauseAcceptWaits : Prop :=
  ∀ (s : State) (n : Nat) (g : Group), s.groups[n]? = some g →
    let met := ∀ f, f < 12 → fld g.clause.wait f 1 = 1 → tget 0 g.flags f = 0
    (met → g.phase = .fetched → (s.glch n).status ≠ 1 → Answers (.clauseAccept n) s fun t =>
      t = { s with groups := s.groups.set n { g with phase := .issue 0 } }) ∧
    (∀ k, met → g.phase = .resume k → Answers (.clauseAccept n) s fun t =>
      t = { s with groups := s.groups.set n { g with phase := .issue k } }) ∧
    (¬ met → Answers (.clauseAccept n) s fun t => t = s)

/-- The earliest deferred trap is taken at the word that would issue next, TPC its offset and TDEF set (R191): never in handler mode, nor while
an older access is not cleared.
Completion (exec answers a next state with the effect) is stated of: deferredTrap. -/
def Sys2Proof.Claims.DeferredTrapIsTaken : Prop :=
  ∀ (s : State) (n : Nat) (g : Group) (d : Trap) (rest : List Trap), s.groups[n]? = some g → g.deferred = d :: rest →
    (s.deferredDue n = true → (s.glch n).lr.handler ≠ 0xFFFFFFFF → Answers (.deferredTrap n) s fun t =>
      t = { s with
        groups := s.groups.set n (({ g with deferred := rest }).inHandler d (g.clause.hdr + 4 * (g.idx + 1)) g.clause true
          (s.glch n).lr.handler)
        cnt := (s.count 1 (s.partOf n) 5 1).cnt }) ∧
    (g.trap.handler = true ∨ s.uncleared n = true → Answers (.deferredTrap n) s fun t => t = s)

/-- A wait ends when its object has had its event (R177): the group tests its word again by issuing it, and a stalled group that stalls on its object
no longer is descheduled no more; a wait that is not over goes on.
Completion (exec answers a next state with the effect) is stated of: waitEventWake. -/
def Sys2Proof.Claims.WaitsEndAtTheirEvent : Prop :=
  ∀ (s : State) (n : Nat) (g : Group) (k : Nat), s.groups[n]? = some g →
    (∀ f, g.phase = .waiting k (.flag f) →
      (tget 0 g.flags f = 0 → Answers (.waitEventWake n) s fun t => t = { s with groups := s.groups.set n { g with phase := .issue k } }) ∧
      (tget 0 g.flags f ≠ 0 → Answers (.waitEventWake n) s fun t => t = s)) ∧
    (∀ m v, g.phase = .waiting k (.monitor m) →
      (tget .idle g.mons m = .fired v → Answers (.waitEventWake n) s fun t =>
        t = { s with groups := s.groups.set n { g with phase := .issue k } }) ∧
      (∀ f c a, tget .idle g.mons m = .armed f c a v → Answers (.waitEventWake n) s fun t => t = s)) ∧
    ((∀ i w, g.phase ≠ .waiting i w) → g.sched.sv ≠ none →
      (s.stallObject n ≠ g.sched.sv → Answers (.waitEventWake n) s fun t =>
        t = { s with groups := s.groups.set n { g with sched := { g.sched with sv := none } } }) ∧
      (s.stallObject n = g.sched.sv → Answers (.waitEventWake n) s fun t => t = s)) ∧
    (∀ b off w, g.phase = .waiting k (.barrier b off w) → (s.bar b off).broken = true → Answers (.waitEventWake n) s fun t =>
      t = { s with groups := s.groups.set n { g with phase := .issue k } })

/-- BARINIT (R285, R286, R288): an uninitialised barrier of the group's own block takes the counts beside what it has; an initialised one takes
them for its next phase; a broken one stays as it is, and between the halves of a seam course the update is held (R287). A write of a barrier writes the
reserved bits of STAT as zero (R6, R283). While an older operation of the group keeps it back (R96, R103), it is in flight.
Completion (exec answers a next state with the effect) is stated of: barinit. -/
def Sys2Proof.Claims.BarrierInitialisation : Prop :=
  ∀ (s : State) (g : Group) (a : RF), Issues s g (.barinit a) →
    let p := fun k => (g.src a k 0).toNat
    let x := s.bar g.blk (p 0)
    s.ownBar g (p 0) → 1 ≤ p 1 → p 1 < 2 ^ 31 → p 2 < 2 ^ 31 →
      (s.actsNow s.cur (.barinit a) = false → Answers (.barinit a) s fun t =>
        InFlight s t g (.barinit a) fun o => o.ps = [g.blk, p 0, p 1, p 2, 0, p 0]) ∧
      (s.actsNow s.cur (.barinit a) = true → x.broken = true → Answers (.barinit a) s fun t => OnlyGroup s t g.onward) ∧
      (s.actsNow s.cur (.barinit a) = true → x.broken = false → x.h0 = true → Answers (.barinit a) s fun t =>
        (t.blk g.blk).held = (s.blk g.blk).held ++ [⟨p 0, true, p 1, p 2, false, none⟩] ∧ t.grp s.cur = g.onward ∧
          s.KeepsOutside t g.blk (p 0) 0) ∧
      (s.actsNow s.cur (.barinit a) = true → x.broken = false → x.h0 = false → x.init = false → x.rem + p 1 < 2 ^ 32 → x.bal + p 2 < 2 ^ 32 →
        Answers (.barinit a) s fun t => t.bar g.blk (p 0) = ⟨x.rem + p 1, x.bal + p 2, x.phase, p 1, p 2, statBits x.stat + 2⟩ ∧
          t.grp s.cur = g.onward ∧ s.KeepsOutside t g.blk (p 0) 24) ∧
      (s.actsNow s.cur (.barinit a) = true → x.broken = false → x.h0 = false → x.init = true → Answers (.barinit a) s fun t =>
        t.bar g.blk (p 0) = { x with arr0 := p 1, byt0 := p 2, stat := statBits x.stat } ∧ t.grp s.cur = g.onward ∧
          s.KeepsOutside t g.blk (p 0) 24)

/-- BARARR (R286, R289), in a group with nothing in flight: an arrival takes one from REM and adds the declared bytes to BAL; the arrival that
brings both to zero completes the phase: PHASE rises, the counts are set anew, and every group that waits on the barrier is woken.
Completion (exec answers a next state with the effect) is stated of: bararr. -/
def Sys2Proof.Claims.BarrierArrival : Prop :=
  ∀ (s : State) (g : Group) (a : RF), Issues s g (.bararr a) → s.ops = [] →
    let p := fun k => (g.src a k 0).toNat
    let x := s.bar g.blk (p 0)
    s.ownBar g (p 0) → p 1 < 2 ^ 31 → (∀ h ∈ (s.blk g.blk).held, h.op ≠ some s.nextOp) →
      x.broken = false → x.h0 = false → x.course = false →
      (2 ≤ x.rem → x.bal + p 1 < 2 ^ 32 → Answers (.bararr a) s fun t =>
        t.bar g.blk (p 0) = { x with rem := x.rem - 1, bal := x.bal + p 1, stat := statBits x.stat } ∧ (t.grp s.cur).phase = g.onward.phase ∧
          g.SameRegs (t.grp s.cur) ∧ s.KeepsOutside t g.blk (p 0) 24 ∧ t.ops = []) ∧
      (x.init = true → x.rem = 1 → x.bal = 0 → p 1 = 0 → fld x.stat 9 1 = 0 → Answers (.bararr a) s fun t =>
        t.bar g.blk (p 0) = { x with rem := x.arr0, bal := x.byt0, phase := (x.phase + 1) % 2 ^ 32, stat := statBits x.stat } ∧
        t.ops = [] ∧ s.KeepsOutside t g.blk (p 0) 24 ∧
        ∀ k i n, (s.grp k).phase = .waiting i (.barrier g.blk (p 0) n) → k < s.groups.length → k ≠ s.cur → .waitEventWake k ∈ t.agenda)

/-- The halves of a seam course (R287): at the completion message the groups of the other half that wait on the barrier go on with q = 0, as
acquires, and the message is answered; at the answer the phase of the barrier rises and its counts are set anew. A barrier that was broken in
between ignores both (R293).
Completion (exec answers a next state with the effect) is stated of: seamCompletionMessage, seamCompletionAck. -/
def Sys2Proof.Claims.SeamPhasesComplete : Prop :=
  ∀ (s : State) (b off : Nat),
   ((s.bar b off).h0 = false ∨ (s.bar b off).broken = true →
    Answers (.seamCompletionMessage b off) s (fun t => t = s) ∧ Answers (.seamCompletionAck b off) s fun t => t = s) ∧
   (b < s.blocks.length → (s.bar b off).h0 = true → (s.bar b off).broken = false →
    let x := s.bar b off
    Answers (.seamCompletionMessage b off) s (fun t =>
      t = { s with groups := t.groups, agenda := s.agenda ++ [.seamCompletionAck b off] } ∧
      ∀ k, k < s.groups.length →
        let g := s.grp k
        let waits := (∃ i n, g.phase = .waiting i (.barrier b off n)) ∧ (s.blk g.blk).rank / 4 ≠ (s.blk b).rank / 4
        (∀ q a, waits → g.nextInstr = .barwait q a → t.grp k = { g.onward.setUpred q.val false with acqTo := s.nextOp }) ∧
        (¬ waits → t.grp k = g)) ∧
    ((s.blk b).held = [] → Answers (.seamCompletionAck b off) s fun t =>
      (t.bar b off).phase = (x.phase + 1) % 2 ^ 32 ∧ (t.bar b off).rem = x.arr0 ∧ (t.bar b off).bal = x.byt0 ∧ (t.bar b off).h0 = false ∧
      s.KeepsOutside t b off 24))

/-- BARWAIT and BARTRY (R290, R291): a broken barrier gives true, or 2, or the trap 0x0D with the address word when BARTRY asks for it; a phase
beyond n gives false, or 1, as an acquire of that phase; otherwise BARWAIT deschedules the group and BARTRY gives 0. A BARTRY that an older
operation of the group keeps back (R96, R103) is in flight.
Completion (exec answers a next state with the effect) is stated of: barwait, bartry. -/
def Sys2Proof.Claims.BarrierTests : Prop :=
  ∀ (s : State) (g : Group) (q : Fin 8) (a d : RF),
    let p := fun k => (g.src a k 0).toNat
    let x := s.bar g.blk (p 0)
    let beyond := 1 ≤ (x.phase + 2 ^ 32 - p 1) % 2 ^ 32 ∧ (x.phase + 2 ^ 32 - p 1) % 2 ^ 32 < 2 ^ 31
    s.ownBar g (p 0) →
      (Issues s g (.barwait q a) →
        (x.broken = true → Answers (.barwait q a) s fun t => OnlyGroup s t (g.onward.setUpred q.val true)) ∧
        (x.broken = false → beyond → Answers (.barwait q a) s fun t => OnlyGroup s t { g.onward.setUpred q.val false with acqTo := s.nextOp }) ∧
        (x.broken = false → ¬ beyond → (s.glch s.cur).status ≠ 1 → Answers (.barwait q a) s fun t =>
          t = { s with
            groups := s.groups.set s.cur { g with phase := .waiting g.idx (.barrier g.blk (p 0) (p 1)) }
            cnt := (s.count 1 (s.partOf s.cur) 4 1).cnt })) ∧
      (∀ trap, Issues s g (.bartry d a trap) → s.actsNow s.cur (.bartry d a trap) = false → Answers (.bartry d a trap) s fun t =>
        InFlight s t g (.bartry d a trap) fun o => o.ps = [g.blk, p 0, p 1, p 0] ∧ o.dest = g.destRegs d 1) ∧
      (∀ trap, Issues s g (.bartry d a trap) → s.actsNow s.cur (.bartry d a trap) = true →
        (x.broken = true → trap = false → Answers (.bartry d a trap) s fun t => OnlyGroup s t (g.onward.udst d 0 2)) ∧
        (x.broken = true → trap = true → MayTrap s g → Answers (.bartry d a trap) s fun t => TrapsAtWord s t g 0x0D (g.src a 0 0) 0) ∧
        (x.broken = false → Answers (.bartry d a trap) s fun t =>
          ∃ v : Word, OnlyGroup s t { g.onward.udst d 0 v with acqTo := if v = 1 then s.nextOp else g.acqTo } ∧ (beyond → v = 1) ∧
            (¬ beyond → v = 0)))

/-- bar_addr (R285): an address word with bits [30:24] set is an illegal word, a barrier beyond the scratchpad traps with 0x06, one that is not a
multiple of 32 with 0x05; each with the address word. -/
def Sys2Proof.Claims.BarrierAddressesTrap : Prop :=
  ∀ (s : State) (g : Group) (q : Fin 8) (a : RF), Issues s g (.barwait q a) → MayTrap s g →
    let w := (g.src a 0 0).toNat
    (w / 2 ^ 24 % 2 ^ 7 ≠ 0 → Answers (.barwait q a) s fun t => TrapsAtWord s t g 0x01 g.word 0) ∧
    (w < 2 ^ 24 → (s.glch s.cur).scr < w + 32 → Answers (.barwait q a) s fun t => TrapsAtWord s t g 0x06 (g.src a 0 0) 0) ∧
    (w < 2 ^ 24 → (s.blk g.blk).rank < (s.glch s.cur).lr.bpc → w + 32 ≤ (s.glch s.cur).scr → w % 32 ≠ 0 →
      Answers (.barwait q a) s fun t => TrapsAtWord s t g 0x05 (g.src a 0 0) 1)

/-- The copies issue (R21, R273, R275 to R277, R280): their parameter block with the barrier they count on, their capabilities and their flag go into
flight, the command enters its queue, and the oldest command of a queue is taken up. `copyCheck` and `cpyxCheck` are the checks of R277 and R281.
Completion (exec answers a next state with the effect) is stated of: cpygs, cpysg, cpysw, cpygg, cpyx. -/
def Sys2Proof.Claims.CopiesEnterTheirQueue : Prop :=
  ∀ (s : State) (g : Group) (q : Fin 8) (a : RF) (c e : Fin 16),
    let core := (s.gblk s.cur).core
    let enters := fun (i : Instr) (k : Nat) (cc ce : Cap) (check : CopyCheck) => ∀ bar, Issues s g i → check = .ok bar → Answers i s fun t =>
      InFlight s t g i (fun o => o.ps = g.params a k ++ (match bar with | some x => [x.1, x.2] | none => []) ∧ o.cap1 = cc ∧ o.cap2 = ce) ∧
      tget [] (t.core core).cq q.val = tget [] (s.core core).cq q.val ++ [s.nextOp] ∧
      (tget [] (s.core core).cq q.val = [] → .copyComplete s.nextOp ∈ t.agenda)
    enters (.cpygs q a c) 4 (g.cap c.val) .null (s.copyCheck s.cur .gs (g.params a 4) (g.cap c.val) .null) ∧
    enters (.cpysg q e a) 4 .null (g.cap e.val) (s.copyCheck s.cur .sg (g.params a 4) .null (g.cap e.val)) ∧
    enters (.cpysw q a) 4 .null .null (s.copyCheck s.cur .sw (g.params a 4) .null .null) ∧
    enters (.cpygg q e a c) 4 (g.cap c.val) (g.cap e.val) (s.copyCheck s.cur .gg (g.params a 4) (g.cap c.val) (g.cap e.val)) ∧
    enters (.cpyx q a c) 6 (g.cap c.val) .null (s.cpyxCheck s.cur (g.params a 6) (g.cap c.val))

/-- The checks of a copy to scratchpad (R277, R301): lengths to 2^24, R and M on the source, ranges inside, multiples of 16, in this order; the
barrier's address word fails with the cause that bar_addr gives it, at that cause's place in the order. -/
def Sys2Proof.Claims.CopyChecks : Prop :=
  ∀ (s : State) (n p0 p1 len w : Nat) (c : Cap),
    let check := s.copyCheck n .gs [p0, p1, len, w] c .null
    let bar := s.copyBar n w
    (2 ^ 24 < len → check = .error (0x01, (s.grp n).word.toNat, 0)) ∧
    (∀ e, len ≤ 2 ^ 24 → bar.bad 0x01 = some e → check = .error e) ∧
    (len ≤ 2 ^ 24 → bar.bad 0x01 = none → c.allows (rightR + rightM) = false → check = .error (0x07, p0, 0)) ∧
    (len ≤ 2 ^ 24 → bar.bad 0x01 = none → c.allows (rightR + rightM) = true →
      (c.len < p0 + len → check = .error (0x06, p0, 0)) ∧
      (p0 + len ≤ c.len → (s.glch n).scr < p1 + len → check = .error (0x06, p1, 0)) ∧
      (∀ e, p0 + len ≤ c.len → p1 + len ≤ (s.glch n).scr → bar.bad 0x06 = some e → check = .error e) ∧
      (p0 + len ≤ c.len → p1 + len ≤ (s.glch n).scr → bar.bad 0x06 = none →
        (p0 % 16 ≠ 0 → check = .error (0x05, p0, 1)) ∧ (p0 % 16 = 0 → p1 % 16 ≠ 0 → check = .error (0x05, p1, 1)) ∧
        (p0 % 16 = 0 → p1 % 16 = 0 → len % 16 ≠ 0 → check = .error (0x05, len, 1)) ∧
        (p0 % 16 = 0 → p1 % 16 = 0 → len % 16 = 0 → check = bar ∧ (w = 0xFFFFFFFF → check = .ok none))))

/-- A copy within the course window (R216, R274, R275, R277, R300): the bytes of the source are at the destination, every other byte is as before,
and the command is over.
Completion (exec answers a next state with the effect) is stated of: copyComplete. -/
def Sys2Proof.Claims.CopyMovesItsBytes : Prop :=
  ∀ (s : State) (op : Nat) (p : Op) (q : Fin 8) (a : RF) (p0 p1 n dst : Nat), s.ops = [(op, p)] → p.instr = .cpysw q a →
    p.ps = [p0, p1, n, 0xFFFFFFFF] → s.copyHead op = true → p.stage ≠ .parts 3 → n % 16 = 0 →
    let b := (s.grp p.gid).blk
    dst = s.peer b (windowRank (s.blk b).rank p1) → dst < s.blocks.length → s.peerGone dst = false →
      (b = dst → p0 + n ≤ windowOff p1 ∨ windowOff p1 + n ≤ p0) → Answers (.copyComplete op) s fun t =>
        t.mem = s.mem ∧ t.ops = [] ∧ ∀ k x, t.sread k x 1 =
          if k = dst ∧ windowOff p1 ≤ x ∧ x < windowOff p1 + n then s.sread b (p0 + (x - windowOff p1)) 1 else s.sread k x 1

/-- Matrix commands issue (R21, R306, R310 to R312, R317 to R326): parameters and values read at issue go into flight behind the group's earlier
commands. MMA takes A from the latch when it is full and leaves A there when r asks for it; ACCXA and ACCXR need every launch lane's cell inside
the region; CBLD and LDSB need R and M, the range inside, and CBLD a multiple of 32. `mmaCheck` and `rowCheck` are the checks of R311 and R326.
Completion (exec answers a next state with the effect) is stated of: mma, accz, accld, accst, accss, accxa, accxr, acccp, cbld, ldsb. -/
def Sys2Proof.Claims.MatrixCommandsEnterTheirQueue : Prop :=
  ∀ (s : State) (g : Group) (d a b : RF) (m z t_ r : Bool) (f : MemForm) (c : Fin 16),
    let enters := fun (i : Instr) (P : Op → Prop) => Answers i s fun t => InFlight s t g i P ∧
      tget [] (t.core (s.gblk s.cur).core).matq s.cur = tget [] (s.core (s.gblk s.cur).core).matq s.cur ++ [s.nextOp] ∧
      (tget [] (s.core (s.gblk s.cur).core).matq s.cur = [] → .matrixCommandComplete s.nextOp ∈ t.agenda)
    let p := fun k => (g.src a k 0).toNat
    let rows := (s.glch s.cur).accRows
    (Issues s g (.mma r z t_ d a b) → s.mmaCheck s.cur g t_ (g.usrc d).toNat (g.params b 3) = none →
      enters (.mma r z t_ d a b) (fun o => o.ps = (g.usrc d).toNat :: g.params b 3 ∧ o.vals = g.latch.getD (g.aVals a)) ∧
      Answers (.mma r z t_ d a b) s fun t => (t.grp s.cur).latch = if r then some (g.latch.getD (g.aVals a)) else none) ∧
    (Issues s g (.accz a) → 1 ≤ p 1 → p 1 ≤ 16384 → p 0 + p 1 ≤ rows → enters (.accz a) fun o => o.ps = [p 0, p 1]) ∧
    (Issues s g (.acccp a) → 1 ≤ p 2 → p 2 ≤ 16384 → p 0 + p 2 ≤ rows → p 1 + p 2 ≤ rows →
      enters (.acccp a) fun o => o.ps = [p 0, p 1, p 2]) ∧
    (Issues s g (.accld a f) → s.rowCheck s.cur g .ld f (g.params a 4) = none → enters (.accld a f) fun o => o.ps = [p 0, p 1, p 2, p 3]) ∧
    (Issues s g (.accst a f) → s.rowCheck s.cur g .st f (g.params a 4) = none → enters (.accst a f) fun o => o.ps = [p 0, p 1, p 2, p 3]) ∧
    (Issues s g (.accss a f) → s.rowCheck s.cur g .ss f (g.params a 4) = none → enters (.accss a f) fun o => o.ps = [p 0, p 1, p 2, p 3]) ∧
    (Issues s g (.accxa d a m) →
      (∀ L ∈ lanesOf g.launchAct, (g.src d 0 L).toNat < 2 * rows ∧ (m = true → (g.src a 0 L).toNat < 2 * rows)) →
      enters (.accxa d a m) fun o => o.vals = g.keep [d, a]) ∧
    (Issues s g (.accxr d a m) → (∀ L ∈ lanesOf g.launchAct, (g.src a 0 L).toNat < 2 * rows) →
      enters (.accxr d a m) fun o => o.vals = g.keep [a] ∧ o.dest = g.destRegs d 1) ∧
    (∀ n : Fin 8, Issues s g (.cbld n a c) → (g.cap c.val).allows (rightR + rightM) = true → p 0 + 32 ≤ (g.cap c.val).len → p 0 % 32 = 0 →
      enters (.cbld n a c) fun o => o.ps = [p 0] ∧ o.cap1 = g.cap c.val) ∧
    (∀ n : Fin 16, Issues s g (.ldsb n d a c) → (fmtAF g.fmt = 2 ∨ fmtAF g.fmt = 3 ∨ fmtAF g.fmt = 4) → fmtSCL g.fmt = 1 →
      (g.cap c.val).allows (rightR + rightM) = true →
      (∀ L ∈ lanesOf g.launchAct, (g.src a 0 L).toNat + (n.val + 1) * (if fmtAF g.fmt = 4 then 17 else 33) ≤ (g.cap c.val).len) →
      enters (.ldsb n d a c) fun o => o.cap1 = g.cap c.val ∧ o.vals = g.keep [a] ∧
        o.dest = if d.val = 127 then [] else (ldsbOffs g.fmt n.val).map fun k => .lane (g.wb + d.val + k))

/-- What matrix commands refuse at issue (R311, R321, R324, R326): no rows or more than 16384, rows beyond the region (0x18), a cell beyond the
region with each lane's index, a format that LDSB does not take. -/
def Sys2Proof.Claims.MatrixChecks : Prop :=
  ∀ (s : State) (g : Group) (d a : RF) (m : Bool) (c : Fin 16), MayTrap s g →
    let p := fun k => (g.src a k 0).toNat
    (Issues s g (.accz a) → p 1 = 0 ∨ 16384 < p 1 → Answers (.accz a) s fun t => TrapsAtWord s t g 0x01 g.word 0) ∧
    (Issues s g (.accz a) → 1 ≤ p 1 → p 1 ≤ 16384 → (s.glch s.cur).accRows < p 0 + p 1 → Answers (.accz a) s fun t =>
      TrapsAtWord s t g 0x18 (g.src a 0 0) 0) ∧
    (∀ L rest, Issues s g (.accxr d a m) → lanesOf g.launchAct = L :: rest → 2 * (s.glch s.cur).accRows ≤ (g.src a 0 L).toNat →
      Answers (.accxr d a m) s fun t => ∃ lanes, TakesTrap s t g ⟨0x18, g.src a 0 L, 0, g.launchAct, lanes⟩
        (g.clause.hdr + 4 * (g.idx + 1)) g.clause false ∧ ∀ k, g.launchAct.getLsbD k = true → tget 0 lanes k = g.src a 0 k) ∧
    (∀ n : Fin 16, Issues s g (.ldsb n d a c) → fmtAF g.fmt < 2 ∨ 4 < fmtAF g.fmt ∨ fmtSCL g.fmt ≠ 1 →
      Answers (.ldsb n d a c) s fun t => TrapsAtWord s t g 0x17 g.fmt 0)

/-- MMA performed (R304, R308, R310): every cell of the rows of the active lanes gets its new value, computed from the operands and the cell as
they were, and no other byte of the region changes. With integer formats the new value is the old one plus the sum of the products, modulo
2^32; z starts from 0. -/
def Sys2Proof.Claims.MmaAddsProducts : Prop :=
  (∀ (s : State) (op : Nat) (p : Op) (r z t_ : Bool) (d a b : RF) (ch w row0 : Nat) (lw : List Nat), s.ops = [(op, p)] → s.matHead op = true →
    p.instr = .mma r z t_ d a b → p.ps = row0 :: lw → p.mask ≠ 0 → mmaShape p.fmt t_ = some (ch, w) →
    let bl := (s.grp p.gid).blk
    let tgt := s.peer bl (windowRank (s.blk bl).rank (fld (lw.getD 0 0) 0 24))
    bl < s.blocks.length → s.peerGone tgt = false → Answers (.matrixCommandComplete op) s fun t => t.ops = [] ∧ t.mem = s.mem ∧
      (∀ L n, p.mask.getLsbD L = true → n < 32 → (t.blk bl).cell4 (row0 + L) n = s.mmaCell p tgt z t_ ch w L n % 2 ^ 32) ∧
      ∀ x, (∀ L, p.mask.getLsbD L = true → x < 128 * (row0 + L) ∨ 128 * (row0 + L) + 128 ≤ x) → mget (t.blk bl).acc x = mget (s.blk bl).acc x) ∧
  (∀ (s : State) (p : Op) (tgt L n : Nat) (z t_ : Bool), fmtAF p.fmt = 5 → fmtBF p.fmt = 5 → fmtSCL p.fmt = 0 →
    let byte := fun v => if v < 128 then (v : Int) else (v : Int) - 256
    let a := fun k => byte (aElem p.vals 8 k L)
    let b := fun k => byte (s.bAt tgt (p.ps.drop 1) t_ 8 k n)
    let old := if z then 0 else (s.gblk p.gid).cell4 (p.ps.getD 0 0 + L) n
    s.mmaCell p tgt z t_ 2 8 L n = ((old + ((List.range 64).map fun k => a k * b k).sum) % 2 ^ 32).toNat)

/-- The exact cell (R67, R68): a cell of zeros reads as +0, no addend is lost however small beside the cell's value, and adding a finite value and
then its negative leaves the cell at 0 again. -/
def Sys2Proof.Claims.ExactCellsAreExact : Prop :=
  xcRound 0 = 0 ∧ xcRound (xcAdd (xcAdd 0 0x7F7FFFFF) 0x00000001) = 0x7F7FFFFF ∧
  xcRound (xcAdd (xcAdd (xcAdd 0 0x7F7FFFFF) 0x00000001) 0xFF7FFFFF) = 0x00000001 ∧
  (∀ x : Word, x.toNat % 2 ^ 31 < 0x7F800000 → xcAdd (xcAdd 0 x) (x ^^^ 0x80000000) = 0)

/-- The walker's commands issue (R337 to R339, R342, R343): WSET names 128 bytes of the scratchpad at a multiple of 16; WGO needs a descriptor in
its slot, a free place and capabilities that can be read, and lists its walk with every tile still to be visited; QPOP needs an entry in its queue,
or a walk that will push one and is not held back by the full queue of its next entry.
Completion (exec answers a next state with the effect) is stated of: wset, wgo, qpop, wstop, wstat. -/
def Sys2Proof.Claims.WalkerCommandsIssue : Prop :=
  ∀ (s : State) (g : Group) (n : Bool) (a d : RF) (q : Fin 4),
    let issues := fun (i : Instr) (P : Op → Prop) => Answers i s fun t => InFlight s t g i P ∧ .walkerCommandComplete s.nextOp ∈ t.agenda
    let slot := tget [] g.walk.slots n.toNat
    let off := (g.usrc a).toNat
    (Issues s g (.wset n a) → off + 128 ≤ (s.glch s.cur).scr → off % 16 = 0 → issues (.wset n a) fun o => o.ps = [off]) ∧
    (Issues s g (.wgo n) → slot ≠ [] → g.walk.walks.length < 2 →
      (∀ k ∈ dStreams slot, (g.cap (dStream slot k 0 % 16)).allows rightR = true) →
      issues (.wgo n) (fun o => o.stage = .cleared) ∧ Answers (.wgo n) s fun t => ∃ w, (t.grp s.cur).walk.walks = g.walk.walks ++ [w] ∧
        w.desc = slot ∧ w.lanes = g.act ∧ w.tiles = ((List.range (dCnt slot (dNlev slot))).map fun k => (k, 0)) ∧ w.tile = none ∧
        (g.walk.walks = [] → .walkerEntryGenerate s.cur ∈ t.agenda)) ∧
    (Issues s g .wstop → issues .wstop fun o => o.stage = .cleared) ∧
    (Issues s g (.wstat d) → issues (.wstat d) fun o => o.dest = g.destRegs d 1) ∧
    (Issues s g (.qpop q d) → (g.walk.queue q.val ≠ [] ∨ g.walk.willPush q.val = true ∧ g.walk.blocked = false) → issues (.qpop q d) fun o => o.dest = g.destRegs d 1 ∧ o.ps = [q.val])

/-- What the walker's instructions refuse (R338, R339, R343): a descriptor beyond the scratchpad or misaligned; an empty slot and a third walk (0x15);
a stream whose capability cannot be read (0x07 and the lowest such stream); a QPOP of an empty queue that no walk will push to (0x16), or
that the full queue of the walk's next entry holds back (0x16, TVALHI 1). -/
def Sys2Proof.Claims.WalkerChecks : Prop :=
  ∀ (s : State) (g : Group) (n : Bool) (a d : RF) (q : Fin 4), MayTrap s g →
    let slot := tget [] g.walk.slots n.toNat
    let off := (g.usrc a).toNat
    let readable := fun k => (g.cap (dStream slot k 0 % 16)).allows rightR
    let underflow := fun (k : Nat) => Answers (.qpop q d) s fun t =>
      (t.grp s.cur).trap.tcause = 0x16 ∧ (t.grp s.cur).trap.tval = BitVec.ofNat 32 q.val ∧ (t.grp s.cur).trap.tvalhi = BitVec.ofNat 32 k ∧
      (t.grp s.cur).phase = .fetch (s.glch s.cur).lr.handler
    (Issues s g (.wset n a) → (s.glch s.cur).scr < off + 128 → Answers (.wset n a) s fun t => TrapsAtWord s t g 0x06 (g.usrc a) 0) ∧
    (Issues s g (.wset n a) → off + 128 ≤ (s.glch s.cur).scr → off % 16 ≠ 0 → Answers (.wset n a) s fun t =>
      TrapsAtWord s t g 0x05 (g.usrc a) 1) ∧
    (Issues s g (.wgo n) → slot = [] → Answers (.wgo n) s fun t => TrapsAtWord s t g 0x15 (if n then 1 else 0) 0) ∧
    (Issues s g (.wgo n) → slot ≠ [] → 2 ≤ g.walk.walks.length → Answers (.wgo n) s fun t => TrapsAtWord s t g 0x15 2 0) ∧
    (∀ k ∈ dStreams slot, Issues s g (.wgo n) → slot ≠ [] → g.walk.walks.length < 2 → readable k = false →
      (∀ j ∈ dStreams slot, j < k → readable j = true) → Answers (.wgo n) s fun t => TrapsAtWord s t g 0x07 (BitVec.ofNat 32 k) 0) ∧
    (Issues s g (.qpop q d) → g.walk.queue q.val = [] →
      (g.walk.willPush q.val = false → underflow 0) ∧ (g.walk.willPush q.val = true → g.walk.blocked = true → underflow 1))

/-- The walker's commands are performed (R334, R337, R338, R342, R343): a WSET whose descriptor is legal fills its slot, another makes a deferred trap
0x15 with the offset of the word; WGO has listed its walk and is over; WSTOP empties walks and queues; WSTAT gives the state of walks and queues;
QPOP takes the words, or the trap, of the head entry once it has entered its queue, every entry before it in walk order having done so (R340), and
waits before that.
Completion (exec answers a next state with the effect) is stated of: walkerCommandComplete. -/
def Sys2Proof.Claims.WalkerCommandsArePerformed : Prop :=
  ∀ (s : State) (op : Nat) (p : Op) (g : Group), s.ops = [(op, p)] → s.groups[p.gid]? = some g →
    let done := fun (t : State) => t.ops = [] ∧ s.Around t p.gid ∧ g.SameControl (t.grp p.gid)
    (∀ n a, p.instr = .wset n a →
      let d := (List.range 32).map fun k => s.sread g.blk (p.ps.getD 0 0 + 4 * k) 4
      (dBad d = none → Answers (.walkerCommandComplete op) s fun t => done t ∧
        g.SameRegs (t.grp p.gid) ∧
        (t.grp p.gid).walk = { g.walk with slots := tset [] g.walk.slots n.toNat d }) ∧
      (∀ off, dBad d = some off → g.phase ≠ .stopped → g.phase ≠ .exited → Answers (.walkerCommandComplete op) s fun t => done t ∧ g.SameRegs (t.grp p.gid) ∧
        (t.grp p.gid).walk = g.walk ∧
        (t.grp p.gid).deferred = g.deferred ++ [⟨0x15, BitVec.ofNat 32 off, BitVec.ofNat 32 n.toNat, p.mask, []⟩])) ∧
    (∀ n, p.instr = .wgo n → p.stage = .cleared → Answers (.walkerCommandComplete op) s fun t => done t ∧ g.SameRegs (t.grp p.gid) ∧
      (t.grp p.gid).walk = g.walk) ∧
    (p.instr = .wstop → p.stage = .cleared → Answers (.walkerCommandComplete op) s fun t => done t ∧ g.SameRegs (t.grp p.gid) ∧
      (t.grp p.gid).walk = { g.walk with walks := [], queues := [] }) ∧
    (∀ d, p.instr = .wstat d → Answers (.walkerCommandComplete op) s fun t => done t ∧ ∃ v : Nat,
      (t.grp p.gid).uregs = (g.udst d 0 (BitVec.ofNat 32 v)).uregs ∧ (t.grp p.gid).regs = (g.udst d 0 (BitVec.ofNat 32 v)).regs ∧
      v % 4 = (match g.walk.walks with
        | [] => 0
        | x :: _ => if x.stopped = true then 2 else if ∃ e ∈ g.walk.flying, e.pages ≠ [] then 3 else 1) ∧
      (v.testBit 2 = true ↔ 2 ≤ g.walk.walks.length) ∧
      ∀ q, q < 4 → (v.testBit (4 + q) = true ↔ g.walk.entered q ≠ []) ∧ (v.testBit (8 + q) = true ↔ g.walk.willPush q = true) ∧
        (v.testBit (12 + q) = true ↔ 8 ≤ (g.walk.entered q).length)) ∧
    (∀ (q : Fin 4) d n e rest, p.instr = .qpop q d → p.dest = [.lane n] → g.walk.queue q.val = e :: rest →
      ((g.walk.entered q.val).head? ≠ some e → Answers (.walkerCommandComplete op) s fun t =>
        t.groups = s.groups ∧ s.SameBytes t ∧ ∃ c, t.ops = [(op, { p with cls := c })]) ∧
      ((g.walk.entered q.val).head? = some e → e.fail = none → Answers (.walkerCommandComplete op) s fun t => done t ∧
        (t.grp p.gid).walk.queue q.val = rest ∧ (∀ k, k ≠ q.val → (t.grp p.gid).walk.queue k = g.walk.queue k) ∧
        .walkerEntryGenerate p.gid ∈ t.agenda ∧ ∀ L, L < 32 → (t.grp p.gid).phys n L =
          if (p.mask ||| p.helpers).getLsbD L = true then tget 0 e.words L else g.phys n L) ∧
      (∀ f, (g.walk.entered q.val).head? = some e → e.fail = some f → g.phase ≠ .stopped → g.phase ≠ .exited → g.trap.handler = false →
        (s.glch p.gid).lr.handler ≠ 0xFFFFFFFF → Answers (.walkerCommandComplete op) s fun t => t.ops = [] ∧ s.Around t p.gid ∧
          (t.grp p.gid).walk = g.walk ∧ (t.grp p.gid).trap.tcause = BitVec.ofNat 32 f.cause ∧ (t.grp p.gid).trap.tfm = f.mask))

/-- A walk generates its entries in order (R329, R331, R335, R336, R339, R340). The walk of its partition whose turn it is generates one entry, at the
start of its next tile when it stands between two: a tag entry holds the tile's number in every lane; a stream entry holds each lane's
displacement, its reads are due, and the walk goes on behind it. Another walk of the partition waits for its turn, and the full queue of its
next entry holds a walk back. A walk by residency first sends a probe for every candidate; a walk with nothing left to generate or to return leaves
the list, and the chained one begins.
Completion (exec answers a next state with the effect) is stated of: walkerEntryGenerate. -/
def Sys2Proof.Claims.WalksGenerateEntries : Prop :=
  ∀ (s : State) (n : Nat) (g : Group) (x : Walk) (rest : List Walk), s.groups[n]? = some g → g.walk.walks = x :: rest →
    let q := x.nextQueue
    let idle := s.resident n = true ∧ x.stopped = false ∧ ∀ e ∈ g.walk.flying, e.pages = []
    let last := fun (t : State) => s.Around t n ∧ g.SameRegs (t.grp n)
    (s.generates n = true → s.walkTurn n ≠ n → Answers (.walkerEntryGenerate n) s fun t => .walkerEntryGenerate n ∈ t.agenda ∧ t.grp n = g) ∧
    (∀ y tl, s.generates n = true → s.walkTurn n = n → (x.tile = none → Sys2Proof.Claims.BeginsTile x y) → (x.tile ≠ none → y = x) → y.tile = some tl →
      (y.tagDue = true → Answers (.walkerEntryGenerate n) s fun t => last t ∧ .walkerEntryGenerate n ∈ t.agenda ∧
        (t.grp n).walk.walks = { y with tagDue := false } :: rest ∧ ∃ e, (t.grp n).walk.queue q = g.walk.queue q ++ [e] ∧
          (∀ L, L < 32 → tget 0 e.words L = BitVec.ofNat 32 tl) ∧ e.inFlight = false ∧ e.fail = none ∧ e.id = g.walk.nextId) ∧
      (y.tagDue = false → Answers (.walkerEntryGenerate n) s fun t => last t ∧ .walkerReadReturn n g.walk.nextId ∈ t.agenda ∧
        .walkerEntryGenerate n ∈ t.agenda ∧
        (∃ e, (t.grp n).walk.queue q = g.walk.queue q ++ [e] ∧ e.inFlight = true ∧ e.id = g.walk.nextId ∧
          ∀ L, L < 32 → x.lanes.getLsbD L = true → tget 0 e.words L = BitVec.ofNat 32 (walkDisp x.desc q L tl y.inner)) ∧
        ∃ z, (t.grp n).walk.walks = z :: rest ∧ z = { y.advance with stopped := z.stopped } ∧
          ((∀ L ∈ lanesOf (x.lanes &&& ~~~x.helpers),
              let c := tget .null x.caps q
              let disp := walkDisp x.desc q L tl y.inner
              disp + 4 ≤ c.len ∧ (c.base + disp) % 4 = 0) → z.stopped = false))) ∧
    (idle → (x.tiles ≠ [] ∨ x.tile ≠ none) → 8 ≤ (g.walk.queue q).length → Answers (.walkerEntryGenerate n) s fun t =>
      t = { s with cnt := (s.count 5 (s.partOf n) 3 1).cnt }) ∧
    (idle → x.tiles ≠ [] → x.tile = none → x.probed = false → (g.walk.queue q).length < 8 → dOrder x.desc = true → x.lanes ≠ 0 →
      Answers (.walkerEntryGenerate n) s fun t => last t ∧ (t.grp n).walk.walks = { x with probed := true, ranks := [] } :: rest ∧
        .probeTimeout n ∈ t.agenda ∧ ∀ c ∈ x.tiles.take 8, ∃ k, .residencyProbeAnswer n c.1 k ∈ t.agenda) ∧
    (idle → x.tiles = [] → x.tile = none → g.walk.flying = [] → Answers (.walkerEntryGenerate n) s fun t => last t ∧
      (t.grp n).walk = { g.walk with walks := rest } ∧ (rest ≠ [] → .walkerEntryGenerate n ∈ t.agenda))

/-- walk_disp (R331), word for word: base, lane, and for each level its index times its stride, modulo 2^32. -/
def Sys2Proof.Claims.WalkDisplacements : Prop :=
  ∀ (d : List Nat) (q L tile k : Nat),
    (dNlev d = 0 → walkDisp d q L tile k = (dStream d q 1 + L * dStream d q 2 + tile * dStream d q 3) % 2 ^ 32) ∧
    (dNlev d = 1 → k < dCnt d 0 → walkDisp d q L tile k =
      (dStream d q 1 + L * dStream d q 2 + k * dStream d q 3 + tile * dStream d q 4) % 2 ^ 32) ∧
    (dNlev d = 2 → ∀ i0 i1, i0 < dCnt d 0 → i1 < dCnt d 1 → k = i0 + dCnt d 0 * i1 → walkDisp d q L tile k =
      (dStream d q 1 + L * dStream d q 2 + i0 * dStream d q 3 + i1 * dStream d q 4 + tile * dStream d q 5) % 2 ^ 32)

/-- The choice of a tile by residency (R335): an answer gives its candidate a rank; with the last one missing, or at the time-out, the walk begins
the tile that is chosen, a tile that eight choices have passed over before any other.
Completion (exec answers a next state with the effect) is stated of: probeTimeout, residencyProbeAnswer. -/
def Sys2Proof.Claims.TilesAreChosenByResidency : Prop :=
  ∀ (s : State) (n : Nat) (g : Group) (x : Walk) (rest : List Walk), s.groups[n]? = some g → g.walk.walks = x :: rest →
    x.probed = true → x.tile = none → x.tiles ≠ [] →
    let begun := fun (x : Walk) (t : State) => s.Around t n ∧ g.SameRegs (t.grp n) ∧ .walkerEntryGenerate n ∈ t.agenda ∧
      ∃ y, (t.grp n).walk.walks = y :: rest ∧ Sys2Proof.Claims.BeginsTile x y
    (∀ c ∈ x.tiles.take 8, ∀ rank : Nat, (∀ r ∈ x.ranks, r.1 ≠ c.1) →
      let z := { x with ranks := x.ranks ++ [(c.1, min rank 2)] }
      ((∃ d ∈ x.tiles.take 8, ∀ r ∈ z.ranks, r.1 ≠ d.1) → Answers (.residencyProbeAnswer n c.1 rank) s fun t =>
        s.Around t n ∧ g.SameRegs (t.grp n) ∧ (t.grp n).walk = { g.walk with walks := z :: rest }) ∧
      ((∀ d ∈ x.tiles.take 8, ∃ r ∈ z.ranks, r.1 = d.1) → Answers (.residencyProbeAnswer n c.1 rank) s (begun z))) ∧
    Answers (.probeTimeout n) s (begun x)

/-- The reads of an entry return (R340, R341). With every lane's word in L1 the entry is complete, its words the lanes' words, and its reads are over; with
every lane's displacement beyond its capability's end the entry is failed with that trap, 0x06, and the walk stops. The reads of an entry that
WSTOP has discarded are over once they have returned (R342).
Completion (exec answers a next state with the effect) is stated of: walkerReadReturn. -/
def Sys2Proof.Claims.WalkerReadsReturn : Prop :=
  ∀ (s : State) (n ent o : Nat) (p : Op), s.entryOp n ent = some (o, p) → tfind s.ops o = some p → p.gid = n → s.resident n = true → n < s.groups.length →
    let w := (s.grp n).walk
    let q := p.ps.getD 0 0
    let disp := fun L => (tget 0 p.vals L).toNat
    (∀ e : QEntry, (w.queue q).find? (fun x => x.id == ent) = some e → e.inFlight = true → e.pages = [] → s.walkMay o = true →
      (∀ L, tget 0 p.vals (64 + L) = 0) →
      (∀ v : Nat → Nat,
        (∀ L ∈ lanesOf (p.mask ||| p.helpers), disp L + 4 ≤ p.cap1.len ∧ (p.cap1.base + disp L) % 4 = 0 ∧
          s.l1Word n (p.cap1.obj * 2 ^ 40 + (p.cap1.base + disp L) % 2 ^ 40) = some (v L)) →
        Answers (.walkerReadReturn n ent) s fun t => s.SameBytes t ∧ tfind t.ops o = none ∧ ∃ y ∈ (t.grp n).walk.queue q, y.id = ent ∧ y.inFlight = false ∧
          y.fail = none ∧ ∀ L ∈ lanesOf (p.mask ||| p.helpers), tget 0 y.words L = BitVec.ofNat 32 (v L)) ∧
      (∀ (L : Nat) (x : Walk) (rest : List Walk), p.helpers = 0 → (lanesOf p.mask).head? = some L → w.walks = x :: rest →
        (∀ k ∈ lanesOf p.mask, p.cap1.len < disp k + 4 ∧ tget 0 e.words k = tget 0 p.vals k) →
        Answers (.walkerReadReturn n ent) s fun t => s.SameBytes t ∧ tfind t.ops o = none ∧ (t.grp n).walk.walks = { x with stopped := true } :: rest ∧
          ∃ y ∈ (t.grp n).walk.queue q, y.id = ent ∧ y.inFlight = false ∧
            ∃ f, y.fail = some f ∧ f.cause = 0x06 ∧ f.mask = p.mask ∧ f.val = BitVec.ofNat 32 (disp L))) ∧
    ((w.queue q).find? (fun x => x.id == ent) = none → (∀ L ∈ lanesOf (p.mask ||| p.helpers), tget 0 p.vals (64 + L) = 1) →
      Answers (.walkerReadReturn n ent) s fun t => s.SameBytes t ∧ tfind t.ops o = none)

/-- The sequence and free-list instructions issue (R21, R356, R359 to R372): the parameter block goes to the instance with the capability that the
handle or list word names in its bits [27:24], which must be of brick-pool kind with S; the destinations are pending; the answer is due.
Completion (exec answers a next state with the effect) is stated of: sqres, sqcom, sqapp, sqlen, sqrlen, sqwlo, sqmap, sqfork, sqnew, sqrel, sqwin,
sqtake, sqseal, flpop, flpush, flcnt. -/
def Sys2Proof.Claims.SequenceOperationsIssue : Prop :=
  ∀ (s : State) (g : Group) (d a b : RF),
    let p := fun k => (g.src a k 0).toNat
    let cap := g.cap (p 0 / 2 ^ 24 % 16)
    let sends := fun (i : Instr) (n : Nat) (legal : Prop) (dest : List PReg) => Issues s g i → p 0 < 2 ^ 28 → legal → cap.kind = 3 →
      cap.rights &&& rightS ≠ 0 → Answers i s fun t => InFlight s t g i (fun o => o.ps = g.params a n ∧ o.cap1 = cap ∧ o.dest = dest) ∧
        .sequenceAnswer s.nextOp ∈ t.agenda
    let handle := p 0 / 2 ^ 20 % 16 = 0
    let list := p 0 / 2 ^ 6 % 2 ^ 18 = 0
    sends (.sqres d a) 3 (handle ∧ 1 ≤ p 1 ∧ p 1 ≤ 256) (g.destRegs d 4) ∧
    sends (.sqcom a) 4 (handle ∧ p 2 < 256 ∧ 1 ≤ p 3 ∧ p 3 ≤ 256) [] ∧
    sends (.sqapp d a b) 2 (handle ∧ 1 ≤ p 1 ∧ p 1 ≤ 32) (g.destRegs d 2 ++ g.destRegs b 2) ∧
    sends (.sqlen d a) 1 handle (g.destRegs d 2) ∧ sends (.sqrlen d a) 1 handle (g.destRegs d 2) ∧
    sends (.sqwlo d a) 1 handle (g.destRegs d 2) ∧ sends (.sqmap d a b) 3 (handle ∧ p 2 < 256) (g.destRegs d 1) ∧
    sends (.sqfork d a) 4 (handle ∧ p 2 < 256 ∧ p 3 < 2 ^ 20) (g.destRegs d 1) ∧
    sends (.sqnew d a) 3 (handle ∧ newLegal (p 1) (p 2) = true ∧ p 1 / 2 ^ 22 % 2 = 0) (g.destRegs d 1) ∧
    sends (.sqrel a) 1 handle [] ∧ sends (.sqwin a) 2 (handle ∧ p 1 ≠ 0) [] ∧
    sends (.sqtake d a) 2 (handle ∧ 1 ≤ p 1 ∧ p 1 ≤ 256) (g.destRegs d 2) ∧ sends (.sqseal a) 1 handle [] ∧
    sends (.flpop d a) 1 list (g.destRegs d 1) ∧ sends (.flpush a) 2 list [] ∧ sends (.flcnt d a) 1 list (g.destRegs d 1)

/-- What they refuse at issue (R356, R378): a word with reserved bits set, and a capability of another kind or without S, in that order. -/
def Sys2Proof.Claims.SequenceChecksAtIssue : Prop :=
  ∀ (s : State) (g : Group) (d a : RF), Issues s g (.sqlen d a) → MayTrap s g →
    let w := (g.src a 0 0).toNat
    let cap := g.cap (w / 2 ^ 24 % 16)
    (2 ^ 28 ≤ w ∨ w / 2 ^ 20 % 16 ≠ 0 → Answers (.sqlen d a) s fun t => TrapsAtWord s t g 0x01 g.word 0) ∧
    (w < 2 ^ 28 → w / 2 ^ 20 % 16 = 0 → cap.kind ≠ 3 ∨ cap.rights &&& rightS = 0 → Answers (.sqlen d a) s fun t =>
      TrapsAtWord s t g 0x07 (BitVec.ofNat 32 (w / 2 ^ 24 % 16)) 0)

/-- LAUNCH, LWAIT, LSTAT, RWRI and RRD issue (R160 to R162, R459): LAUNCH needs R on a capability of data kind, its 128 bytes inside and at a
multiple of 16, and holds the group until phase 1 ends; the others go on. `rmaCheck` is the check of R459.
Completion (exec answers a next state with the effect) is stated of: launch, lwait, lstat, rwri, rrd. -/
def Sys2Proof.Claims.LaunchAndLinkCommandsIssue : Prop :=
  ∀ (s : State) (g : Group) (d a : RF) (c : Fin 16),
    let off := (g.src a 1 0).toNat
    let issues := fun (i : Instr) (P : Op → Prop) => Answers i s fun t => InFlight s t g i P ∧ .sequenceAnswer s.nextOp ∈ t.agenda
    (Issues s g (.launch d a c) → (g.cap c.val).kind = 1 → (g.cap c.val).allows rightR = true → off + 128 ≤ (g.cap c.val).len → off % 16 = 0 →
      issues (.launch d a c) (fun o => o.ps = [(g.src a 0 0).toNat, off] ∧ o.cap1 = g.cap c.val ∧ o.dest = g.destRegs d 1) ∧
      Answers (.launch d a c) s fun t => (t.grp s.cur).phase = .held g.idx s.nextOp) ∧
    (Issues s g (.lwait d a) → issues (.lwait d a) fun o => o.ps = [(g.usrc a).toNat] ∧ o.dest = g.destRegs d 1) ∧
    (Issues s g (.lstat d a) → issues (.lstat d a) fun o => o.ps = [(g.usrc a).toNat] ∧ o.dest = g.destRegs d 1) ∧
    (Issues s g (.rwri a c) → s.rmaCheck s.cur true (g.params a 4) (g.cap c.val) = .ok none →
      issues (.rwri a c) fun o => o.ps = g.params a 4 ∧ o.cap1 = g.cap c.val) ∧
    (∀ b, Issues s g (.rrd a c) → s.rmaCheck s.cur false (g.params a 4) (g.cap c.val) = .ok b →
      issues (.rrd a c) fun o => o.ps.take 4 = g.params a 4 ∧ o.cap1 = g.cap c.val)

/-- The answers of an instance about a sequence it holds (R357, R363, R370), its reads having passed their port (R406): SQLEN, SQRLEN and SQWLO give CLEN, RLEN and WLO; SQTAKE gives the cursor
and how many records it took, or waits while nothing is committed beyond the cursor of a sequence that is not sealed. Nothing else of the group
changes, and the operation is over.
Completion (exec answers a next state with the effect) is stated of: sequenceAnswer. -/
def Sys2Proof.Claims.SequenceAnswers : Prop :=
  ∀ (s : State) (op : Nat) (p : Op) (g : Group) (w d : Nat), s.ops = [(op, p)] → s.groups[p.gid]? = some g → p.stage = .issued →
    p.ps.getD 0 0 = w → d + 1 < 31 → p.dest = [.uni d, .uni (d + 1)] →
    let c := (s.glch p.gid).ctx
    let h := w % 2 ^ 20
    let v := s.noteReads c (s.seqSectors c h (s.seqGet c h) p)
    let q := v.seqGet c h
    s.seqValid c h = true → (s.seqGet c h).pool = p.cap1.obj → v.firstPoisoned (v.seqSectors c h q p) = none →
    let gives := fun (lo hi : Nat) (mem : SMap Byte) => Answers (.sequenceAnswer op) s fun t => t.ops = [] ∧
      (t.grp p.gid).uni d = BitVec.ofNat 32 lo ∧ (t.grp p.gid).uni (d + 1) = BitVec.ofNat 32 hi ∧
      (∀ k, k ≠ d → k ≠ d + 1 → (t.grp p.gid).uni k = g.uni k) ∧ (t.grp p.gid).regs = g.regs ∧ (t.grp p.gid).preds = g.preds ∧
      (t.grp p.gid).upreds = g.upreds ∧ g.SameControl (t.grp p.gid) ∧ t.mem = mem ∧ t.blocks = s.blocks
    (∀ e a, p.instr = .sqlen e a → gives q.clen (q.clen / 2 ^ 32) v.mem) ∧
    (∀ e a, p.instr = .sqrlen e a → gives q.rlen (q.rlen / 2 ^ 32) v.mem) ∧
    (∀ e a, p.instr = .sqwlo e a → gives q.wlo (q.wlo / 2 ^ 32) v.mem) ∧
    (∀ e a, p.instr = .sqtake e a → q.lq = 0 → q.cur < q.clen →
      let m := min (p.ps.getD 1 0) (q.clen - q.cur)
      gives q.cur (q.cur / 2 ^ 32 + 256 * m) (v.seqPut c h { q with cur := q.cur + m }).mem) ∧
    (∀ e a, p.instr = .sqtake e a → q.lq = 0 → q.clen ≤ q.cur → q.st ≠ 2 → Answers (.sequenceAnswer op) s fun t =>
      t.mem = v.mem ∧ t.blocks = s.blocks ∧ t.groups = s.groups ∧ t.ops = [(op, { p with stage := .seqWait })] ∧ t.seqWait = s.seqWait ++ [(c, h, op)])

/-- What an instance refuses (R357, R370, R378): no such sequence with 0x09, another pool with 0x07, a take from a launch queue with 0x07; each with the
handle word. -/
def Sys2Proof.Claims.SequenceAnswersRefuse : Prop :=
  ∀ (s : State) (op : Nat) (p : Op) (g : Group) (e a : RF), s.ops = [(op, p)] → s.groups[p.gid]? = some g → p.stage = .issued →
    p.instr = .sqtake e a → g.phase ≠ .stopped → g.phase ≠ .exited → g.trap.handler = false → (s.glch p.gid).lr.handler ≠ 0xFFFFFFFF →
    let c := (s.glch p.gid).ctx
    let h := p.ps.getD 0 0 % 2 ^ 20
    let q := s.seqGet c h
    let v := s.noteReads c (s.seqSectors c h q p)
    let traps := fun (cause : Word) => Answers (.sequenceAnswer op) s fun t => t.ops = [] ∧ (t.grp p.gid).uregs = g.uregs ∧
      (t.grp p.gid).phase = .fetch (s.glch p.gid).lr.handler ∧ (t.grp p.gid).trap.tcause = cause ∧
      (t.grp p.gid).trap.tval = BitVec.ofNat 32 (p.ps.getD 0 0) ∧ (t.grp p.gid).trap.tfm = p.mask
    (s.seqValid c h = false → traps 0x09) ∧
    (s.seqValid c h = true → q.pool ≠ p.cap1.obj → traps 0x07) ∧
    (s.seqValid c h = true → q.pool = p.cap1.obj → (v.seqGet c h).lq = 1 → traps 0x07)

/-- The answers about a free list of the pool that the capability names (R351, R372): FLCNT gives its count; FLPOP gives the head brick's displacement
and makes its successor the head, or gives 0xFFFFFFFF for an empty list; FLPUSH makes a brick the head. -/
def Sys2Proof.Claims.FreeListAnswers : Prop :=
  ∀ (s : State) (op : Nat) (p : Op) (g : Group) (d : Nat), s.ops = [(op, p)] → s.groups[p.gid]? = some g → p.stage = .issued → d < 31 →
    let c := (s.glch p.gid).ctx
    let f := p.ps.getD 0 0 % 2 ^ 6
    let u := s.noteReads c [s.areaAt c (flAt f)]
    let x := u.flGet c f
    let sound := fun (as : List Nat) => u.firstPoisoned (u.areaAt c (flAt f) :: as) = none
    let at_ := p.ps.getD 1 0
    x.pool ≠ 0 → x.pool = p.cap1.obj →
    let gives := fun (v : Option Nat) (mem : SMap Byte) => Answers (.sequenceAnswer op) s fun t => t.ops = [] ∧
      (∀ k, (t.grp p.gid).uni k = match v with | some v => if k = d then BitVec.ofNat 32 v else g.uni k | none => g.uni k) ∧
      (t.grp p.gid).regs = g.regs ∧ (t.grp p.gid).preds = g.preds ∧ (t.grp p.gid).upreds = g.upreds ∧ g.SameControl (t.grp p.gid) ∧
      t.mem = mem ∧ t.blocks = s.blocks
    (∀ e a, p.instr = .flcnt e a → p.dest = [.uni d] → sound [] → gives (some x.count) u.mem) ∧
    (∀ e a, p.instr = .flpop e a → p.dest = [.uni d] → x.count = 0 → sound [] → gives (some 0xFFFFFFFF) u.mem) ∧
    (∀ e a, p.instr = .flpop e a → p.dest = [.uni d] → 0 < x.count → p.cap1.base ≤ x.head → x.head - p.cap1.base + 2 ^ x.bszl ≤ p.cap1.len →
      sound (u.popped c f 1) →
      let b := u.brGet c x.pool x.head
      gives (some (x.head - p.cap1.base)) ((u.flPut c f { x with head := b.link, hv := b.lv, count := x.count - 1 }).brPut c x.pool x.head
        { b with link := 0, lv := 0 }).mem) ∧
    (∀ a, p.instr = .flpush a → p.dest = [] → at_ + 2 ^ x.bszl ≤ p.cap1.len → (p.cap1.base + at_) % 2 ^ x.bszl = 0 → sound [] →
      gives none ((u.brPut c x.pool (p.cap1.base + at_) { Brick.zero with link := x.head, lv := x.hv }).flPut c f
        { x with head := p.cap1.base + at_, hv := 1, count := x.count + 1 }).mem)

/-- LSTAT and LWAIT answer a token (R132, R161, R162): 3 for the refused token, 0 for one without a counter, ERR when the counter has completed its
target, else 2, for which LWAIT waits.
Completion (exec answers a next state with the effect) is stated of: sequenceAnswer. -/
def Sys2Proof.Claims.TokensAreTested : Prop :=
  ∀ (s : State) (op : Nat) (p : Op) (g : Group) (d a : RF) (n k : Nat), s.ops = [(op, p)] → s.groups[p.gid]? = some g → p.dest = [.uni n] →
    k = p.ps.getD 0 0 → k < 2 ^ 32 →
    let c := s.cctr (s.glch p.gid).ctx (k / 2 ^ 24 % 2 ^ 7)
    let reached := (c % 2 ^ 24 + 2 ^ 24 - k % 2 ^ 24) % 2 ^ 24 < 2 ^ 23
    let answers := fun (v : Word) => Answers (.sequenceAnswer op) s fun t => t.ops = [] ∧ s.SameBytes t ∧
      (t.grp p.gid).uregs = (g.setUni n v).uregs ∧ (t.grp p.gid).regs = g.regs ∧ (t.grp p.gid).preds = g.preds ∧
      (t.grp p.gid).upreds = g.upreds ∧ g.SameControl (t.grp p.gid)
    p.instr = .lstat d a ∨ p.instr = .lwait d a →
      (k = 0x7FFFFFFF → answers 3) ∧ (k ≠ 0x7FFFFFFF → k < 2 ^ 31 → answers 0) ∧
      (2 ^ 31 ≤ k → reached → answers (BitVec.ofNat 32 (c / 2 ^ 24 % 2))) ∧
      (2 ^ 31 ≤ k → ¬ reached → p.instr = .lstat d a → answers 2) ∧
      (2 ^ 31 ≤ k → ¬ reached → p.instr = .lwait d a → g.phase ≠ .stopped → Answers (.sequenceAnswer op) s fun t =>
        t = { s with ops := [(op, { p with stage := .seqWait })] })

/-- The merge commands issue (R21, R380, R384 to R393, R397): with a legal parameter block, every region inside the scratchpad, none written that
meets another, and each at its multiple, the command joins its core's engine; a command of a map stack needs its 256-byte header. `matchPlan`,
`mergePlan`, `splitPlan` and `biasPlan` name the regions of R384, R386, R390 and R392.
Completion (exec answers a next state with the effect) is stated of: mgmatch, mgmerge, mgsplit, mgbias, mgpop, mgstat. -/
def Sys2Proof.Claims.MergeCommandsEnterTheirQueue : Prop :=
  ∀ (s : State) (g : Group) (d a : RF) (rs ws : List Reg),
    let core := (s.gblk s.cur).core
    let scr := (s.glch s.cur).scr
    let enters := fun (i : Instr) (n : Nat) (dest : List PReg) => Answers i s fun t =>
      InFlight s t g i (fun o => o.ps = g.params a n ∧ o.dest = dest) ∧ (t.core core).mq = (s.core core).mq ++ [s.nextOp] ∧
      ((s.core core).mq = [] → .mergeCommandComplete s.nextOp ∈ t.agenda)
    let sb := (g.src a 0 0).toNat
    (Issues s g (.mgmatch d a) → matchPlan (g.params a 5) = some (rs, ws) → regTrap scr rs ws = none → enters (.mgmatch d a) 5 (g.destRegs d 1)) ∧
    (Issues s g (.mgmerge d a) → mergePlan (g.params a 13) = some (rs, ws) → regTrap scr rs ws = none →
      enters (.mgmerge d a) 13 (g.destRegs d 1)) ∧
    (Issues s g (.mgsplit a) → splitPlan (g.params a 6) = some (rs, ws) → regTrap scr rs ws = none → sb + 256 ≤ scr → sb % 16 = 0 →
      enters (.mgsplit a) 6 []) ∧
    (Issues s g (.mgbias a) → biasPlan (g.params a 3) = some (rs, ws) → regTrap scr rs ws = none → enters (.mgbias a) 3 []) ∧
    (Issues s g (.mgpop a) → sb + 256 ≤ scr → sb % 16 = 0 → enters (.mgpop a) 1 []) ∧
    (Issues s g (.mgstat d a) → sb + 256 ≤ scr → sb % 16 = 0 → enters (.mgstat d a) 1 (g.destRegs d 1))

/-- The merge commands refuse at issue (R384, R391, R393, R397): a header that is not whole in the scratchpad at a multiple of 16, an illegal block, a region beyond the scratchpad, a written region that meets an
earlier one, a region off its multiple, in this order. -/
def Sys2Proof.Claims.MergeChecks : Prop :=
  (∀ (s : State) (g : Group) (d a : RF), Issues s g (.mgmatch d a) → MayTrap s g → matchPlan (g.params a 5) = none →
    Answers (.mgmatch d a) s fun t => TrapsAtWord s t g 0x01 g.word 0) ∧
  (∀ (s : State) (g : Group) (d a : RF), MayTrap s g →
    let sb := g.src a 0 0
    ((s.glch s.cur).scr < sb.toNat + 256 ∨ sb.toNat % 16 ≠ 0) →
      (Issues s g (.mgpop a) → Answers (.mgpop a) s fun t => TrapsAtWord s t g 0x06 sb 0) ∧
      (Issues s g (.mgstat d a) → Answers (.mgstat d a) s fun t => TrapsAtWord s t g 0x06 sb 0)) ∧
  (∀ (scr : Nat) (x y : Reg),
    (scr < x.off + x.len → regTrap scr [x] [y] = some (0x06, x.off, 0)) ∧
    (x.off + x.len ≤ scr → scr < y.off + y.len → regTrap scr [x] [y] = some (0x06, y.off, 0)) ∧
    (x.off + x.len ≤ scr → y.off + y.len ≤ scr →
      (x.off < y.off + y.len → y.off < x.off + x.len → regTrap scr [x] [y] = some (0x06, y.off, 0)) ∧
      (y.off + y.len ≤ x.off ∨ x.off + x.len ≤ y.off →
        (x.off % x.align ≠ 0 → regTrap scr [x] [y] = some (0x05, x.off, 1)) ∧
        (x.off % x.align = 0 → y.off % y.align ≠ 0 → regTrap scr [x] [y] = some (0x05, y.off, 1)) ∧
        (x.off % x.align = 0 → y.off % y.align = 0 → regTrap scr [x] [y] = none))))

/-- The ends of launches, blocks and dies (R114, R155, R156, R159): a draining launch of which nothing is in flight completes, or waits while its
completion sequence has no room; a block whose groups have all ended and have nothing in flight is released, its scratchpad with it, or, under HOLD,
retires with its scratchpad while a block of its course goes on; a failed die is out of service, and a live block on it of a running course without
an image is lost.
Completion (exec answers a next state with the effect) is stated of: launchComplete, blockRetire, dieFatalFailure. -/
def Sys2Proof.Claims.LaunchesAndBlocksEnd : Prop :=
  (∀ (s : State) (k : Nat) (l : Launch), s.launches[k]? = some l →
    (l.st ≠ .draining → Answers (.launchComplete k) s fun t => t = s) ∧
    (l.st = .draining → (∀ e ∈ s.ops, (s.gblk e.2.gid).launch ≠ k) →
      (∀ u, s.finishLaunch k = some u → Answers (.launchComplete k) s fun t => t = u ∧ (t.lch k).st = .complete) ∧
      (s.finishLaunch k = none → Answers (.launchComplete k) s fun t => t = s.launchWaits k) ∧
      (l.broken = false → l.status ≠ 3 → l.flag 5 = false → l.lr.cctr < 128 → Answers (.launchComplete k) s fun t =>
        t = { s with launches := s.launches.set k { l with st := .complete } }))) ∧
  (∀ (s : State) (b : Nat) (x : Block), s.blocks[b]? = some x → x.st = .live →
    let ended := fun (g : Group) => g.phase = .exited ∨ g.phase = .stopped
    ((∃ g ∈ s.groups, g.blk = b ∧ ¬ ended g) → Answers (.blockRetire b) s fun t => t = s) ∧
    ((∀ g ∈ s.groups, g.blk = b → ended g) → (∀ e ∈ s.ops, (s.grp e.2.gid).blk ≠ b) →
      ((s.lch x.launch).flag 2 = false → Answers (.blockRetire b) s fun t =>
        (t.blk b).st = .released ∧ (t.blk b).scr = [] ∧ (t.blk b).acc = [] ∧
          ((∀ y ∈ s.blocks, y.held = []) → t.mem = s.mem ∧ t.groups = s.groups)) ∧
      ((s.lch x.launch).flag 2 = true → (∃ y ∈ (s.crs x.course).blocks, y ≠ b ∧ (s.blk y).st = .live) → Answers (.blockRetire b) s fun t =>
        (t.blk b).st = .retired ∧ (t.blk b).scr = x.scr ∧ (t.blk b).acc = [] ∧
          ((∀ y ∈ s.blocks, y.held = []) → t.mem = s.mem ∧ t.groups = s.groups)))) ∧
  (∀ (s : State) (die : Nat), die < 8 → die ∉ s.le.deadDies → (∀ c ∈ s.courses, c.st ≠ .placed) → Answers (.dieFatalFailure die) s fun t =>
    let u := ({ s with le := { s.le with deadDies := s.le.deadDies ++ [die] } } : State).logErr 2 die 7 2 0 0 none 0
    t.le.deadDies = s.le.deadDies ++ [die] ∧
      (∀ e ∈ s.cores, dieOf e.1 = die → (t.core e.1).cq = [] ∧ (t.core e.1).mq = [] ∧ (t.core e.1).matq = []) ∧
      ((∀ b, dieOf (s.blk b).core = die → (s.blk b).st = .released ∨ (s.blk b).st = .lost) →
        t.mg.log = u.mg.log ∧ t.groups = s.groups ∧ t.courses = s.courses)) ∧
  (∀ (s : State) (die : Nat), 8 ≤ die ∨ die ∈ s.le.deadDies → Answers (.dieFatalFailure die) s fun t => t = s) ∧
  (∀ (s : State) (die c b : Nat), (s.crs c).st = .running → (s.crs c).image = none → b ∈ (s.crs c).blocks → b < s.blocks.length →
    dieOf (s.blk b).core = die → (s.blk b).st = .live → s.launches[(s.blk b).launch]? ≠ none →
    let t := s.failCourse die c
    (t.blk b).st = .lost ∧ (t.blk b).scr = [] ∧ (t.lch (s.blk b).launch).broken = true ∧ ∀ g x, s.groups[g]? = some x → x.blk = b → (t.grp g).phase = .exited)

/-- RECLAIM_COMPLETE completes (R236, R238, R239) when, of the lines of L1 that are to go, none has a fill or an access to be performed and no request
is in flight: a line goes when as many lines of its set as L1 keeps ways were used later than it, the ways lent being as many as the pool leaves. Such
lines are in L1 no longer, what they hold dirty goes home as a write-back, and every other line stays; nothing of the core's pool is claimed any
more for the waiting blocks, and each of them is to be allocated. Before that it waits, and with no block waiting it changes nothing.
Completion (exec answers a next state with the effect) is stated of: reclaimComplete. -/
def Sys2Proof.Claims.ReclaimReturnsLentWays : Prop :=
  ∀ (s : State) (core : Nat),
    let c := s.core core
    let keep := min c.lent (s.lendable core)
    let goes := fun l => (s.line core 0 l).st ≠ .I ∧ 16 + keep ≤
      (c.lines.filter fun f => decide (f.1 % 4 = 0 ∧ f.2.st ≠ .I ∧ f.1 / 4 % 64 = l % 64 ∧ (s.line core 0 l).use < f.2.use)).length
    let free := fun l => fld (s.line core 0 l).pending 0 3 = 0 ∧ s.lineBusy core l = false
    (c.reclaim = [] → Answers (.reclaimComplete core) s fun t => t = s) ∧
    (c.reclaim ≠ [] → (c.lines.map Prod.fst).Nodup →
      ((∀ l, goes l → free l) → Answers (.reclaimComplete core) s fun t =>
        (t.core core).reclaim = [] ∧ (t.core core).lent = keep ∧
        (∀ l, goes l → (t.line core 0 l).st = .I ∧ ((s.line core 0 l).dirty ≠ 0 → ∃ m, .wb m ∈ t.agenda ∧ m.core = core)) ∧
        (∀ l, ¬ goes l → t.line core 0 l = s.line core 0 l) ∧
        (∀ b ∈ c.reclaim, .poolAllocationComplete b ∈ t.agenda) ∧ s.SameBytes t ∧ t.groups = s.groups ∧ t.ops = s.ops) ∧
      ((∃ l, goes l ∧ ¬ free l) → Answers (.reclaimComplete core) s fun t => t = { s with agenda := s.agenda ++ [.reclaimComplete core] }))

/-- Slots (R134 to R137): a queue on its way to a slot is mapped, ME or MW as it has work; a rotation takes a queue whose tenure has reached its
quantum back to wait; a wait past its bound is logged once.
Completion (exec answers a next state with the effect) is stated of: slotMoveComplete, rotation, mappingBoundExceeded. -/
def Sys2Proof.Claims.QueueSlotsMove : Prop :=
  ∀ (s : State) (ctx qn : Nat), qn < 1024 →
    let q := s.queue ctx qn
    (q.moving = true → s.hasWork ctx q = true → Answers (.slotMoveComplete ctx qn) s fun t =>
      t.queue ctx qn = { q with st := .mw, moving := false, bound := false, mostW := 0, leastS := 0, tenure := s.tick } ∧ .recordAccept ctx qn ∈ t.agenda) ∧
    (q.moving = true → s.hasWork ctx q = false → Answers (.slotMoveComplete ctx qn) s fun t =>
      t.queue ctx qn = { q with st := .me, moving := false, bound := false, mostW := 0, leastS := 0, tenure := s.tick }) ∧
    (q.moving = false → Answers (.slotMoveComplete ctx qn) s fun t => t = s) ∧
    (s.rotates q = true → Answers (.rotation ctx qn) s fun t => t = (s.setQueue ctx qn { q with st := .iw, since := s.tick, bound := false, mostW := 0, leastS := 0 }).grants) ∧
    (s.rotates q = false → Answers (.rotation ctx qn) s fun t => t = s) ∧
    (s.pastBound q = true → Answers (.mappingBoundExceeded ctx qn) s fun t => t = (s.setQueue ctx qn { q with bound := true }).logErr 6 0 3 1 0 ctx none qn) ∧
    (s.pastBound q = false → Answers (.mappingBoundExceeded ctx qn) s fun t => t = s)

/-- The ticks and the replays (R35, R105, R231, R415, R419): a package tick counts, every eighth brings the system tick and every 64th the decay of the
predictors, and then, in READY, come the sc fences that are due, the launch engine and the interrupt bindings; a system tick ends the sc fences that
are due; a decay lowers every counter by one; a replay lets the operations that wait for its page go on, and forgets the page's fault.
Completion (exec answers a next state with the effect) is stated of: packageTick, systemTick, predictorDecay, replayPage, replayContext. -/
def Sys2Proof.Claims.TicksAndReplays : Prop :=
  (∀ s : State,
    let u := { s with
      tick := s.tick + 1
      agenda := s.agenda ++ (if (s.tick + 1) % 8 = 0 then [.systemTick] else []) ++ (if (s.tick + 1) % 64 = 0 then [.predictorDecay] else []) }
    (s.mg.boot ≠ .ready → Answers .packageTick s fun t => t = u) ∧
    (s.mg.boot = .ready → Answers .packageTick s fun t => t = u.tickFences.tickLaunch.tickIrqs.serveAtomics) ∧
    (s.launches = [] → s.le.queues = [] → s.cores = [] → s.link.irqDue = [] → s.link.waiting = [] →
      ((∀ e ∈ s.ops, ∀ n, e.2.stage ≠ .tick n) → Answers .packageTick s fun t => t = u) ∧
      (s.mg.boot = .ready → ∀ e ∈ s.ops, ∀ r k n, e.2.instr = .fence r k → e.2.stage = .tick n → n ≤ s.tick + 1 → Answers .packageTick s fun t =>
        .fenceScComplete e.1 ∈ t.agenda ∧ t.ops = s.ops ∧ t.tick = s.tick + 1))) ∧
  (∀ s : State, Answers .systemTick s fun t => t.ops = s.ops ∧ s.SameBytes t ∧ t.groups = s.groups ∧
    ∀ e ∈ s.ops, ∀ r k n, e.2.instr = .fence r k → e.2.stage = .tick n → n ≤ s.tick → .fenceScComplete e.1 ∈ t.agenda) ∧
  (∀ s : State, (s.cores.map fun e => e.1).Nodup → (∀ e ∈ s.cores, (e.2.pred.map fun x => x.1).Nodup) → Answers .predictorDecay s fun t =>
    ∀ c k, tget 0 (t.core c).pred k = tget 0 (s.core c).pred k - 1) ∧
  (∀ (s : State) (ctx obj page op : Nat) (p : Op), s.ops = [(op, p)] → (s.glch p.gid).ctx = ctx →
    let forgets := fun (t : State) => ∀ m f, f ∈ (t.slice m).faults → f ∈ (s.slice m).faults ∧ (f.ctx = ctx → ¬ (f.obj = obj ∧ f.page = page))
    let goes := fun (t : State) => t.ops = [(op, { p with stage := .cleared })] ∧ p.again op ∈ t.agenda ∧ forgets t
    let checked := fun (t : State) => t.ops = [(op, { p with accs := p.accs.map fun a => if a.st == .page then { a with st := .need } else a })] ∧
      (∀ a ∈ p.accs, a.st = .page → a.blk = none → .portCheck op (lineOf a.adr) ∈ t.agenda) ∧ forgets t
    (p.stage = .page obj page → p.accs = [] → Answers (.replayPage ctx obj page) s goes ∧ Answers (.replayContext ctx) s goes) ∧
    ((∃ a ∈ p.accs, a.st = .page ∧ a.adr / 2 ^ 40 = obj ∧ a.adr % 2 ^ 40 / 65536 = page) →
      Answers (.replayPage ctx obj page) s checked ∧ Answers (.replayContext ctx) s checked)) ∧
  (∀ (s : State) (ctx obj page pc : Nat) (g : Group), s.ops = [] → s.groups = [g] → g.mons = [] → g.walk.queues = [] → g.phase = .parkedFetch pc page →
    (s.glch 0).ctx = ctx → (s.glch 0).codeCap.obj = obj → Answers (.replayPage ctx obj page) s fun t => t.groups = [{ g with phase := .fetch pc }])

/-- Boot, reset and power (R159, R443, R463, R472, R473).
Completion (exec answers a next state with the effect) is stated of: packageReset, romCheckComplete, selftestComplete, powerControl,
thermalThrottle, dieOverheat. -/
def Sys2Proof.Claims.BootAndPower : Prop :=
  ∀ s : State,
    Answers .packageReset s (fun t => t.mem = s.mem ∧ t.mg = State.reset.mg ∧ t.groups = [] ∧ t.launches = [] ∧ t.ctxs = [] ∧ t.cnt = [] ∧ t.tick = 0) ∧
    (s.mg.boot = .rom → Answers (.romCheckComplete true) s (fun t => t = { s with mg := { s.mg with boot := .selftest } }) ∧
      Answers (.romCheckComplete false) s fun t => t = { s with mg := { s.mg with boot := .safe, code := 0x10 } }) ∧
    (∀ n, s.mg.boot = .selftest → Answers (.selftestComplete 0 n) s (fun t => t.mg.boot = .ready ∧ t.mg.code = 0 ∧ t.mg.repaired = n) ∧
      ∀ k, 0x11 ≤ k → k ≤ 0x14 → Answers (.selftestComplete k n) s fun t => t.mg.boot = .safe ∧ t.mg.code = k) ∧
    (∀ i mhz mv, i < 32 → 600 ≤ mhz → mhz ≤ 1750 → mhz % 25 = 0 → Answers (.powerControl [⟨i, mhz, mv⟩] []) s fun t =>
      (tget .empty t.mg.islands i).mhz = mhz ∧ (∀ k, k ≠ i → tget .empty t.mg.islands k = tget .empty s.mg.islands k) ∧ t.mem = s.mem) ∧
    (∀ l w, l < 2560 → w ≤ 2 → (s.mlink l).st = .steady → (s.mlink l).width ≠ w → Answers (.powerControl [] [⟨l, w⟩]) s fun t =>
      t = (s.setMlink l { s.mlink l with st := .asked, target := w }).push (.wreq l w)) ∧
    (∀ i, i < 32 → (tget .empty s.mg.islands i).throttled = false → Answers (.thermalThrottle i) s fun t =>
      (tget .empty t.mg.islands i).throttled = true ∧ (tget .empty t.mg.islands i).mhz = max 600 ((tget .empty s.mg.islands i).mhz - 25) ∧
      t.mg.log.next = s.mg.log.next + 1) ∧
    (∀ d, d < 8 → Answers (.dieOverheat d) s fun t => .dieFatalFailure d ∈ t.agenda ∧ t.mem = s.mem ∧
      ∀ k, k < 4 → (tget .empty t.mg.islands (4 * d + k)).outOf = true)

/-- Attestation over PCI Express messages (R467), in the order that log entry 14 presumes: each request is answered once the connection is ready for it, and
before that with an error; the codes are the model's.
Completion (exec answers a next state with the effect) is stated of: getVersion, getCapabilities, negotiateAlgorithms, getDigests, getCertificate,
challenge, getMeasurements. -/
def Sys2Proof.Claims.AttestationAnswers : Prop :=
  ∀ s : State,
    let at_ := s.spdmAt 0
    let tells := fun (i : Instr) (need code : Nat) (next : Nat) (P : List Nat → Prop) =>
      (need ≤ at_ → Answers i s fun t => t.mem = s.mem ∧ t.spdmAt 0 = next ∧ ∃ b, t.link.out = s.link.out ++ [.spdm 0 code b] ∧ P b) ∧
      (at_ < need → Answers i s fun t => t = { s with link := { s.link with out := s.link.out ++ [.spdm 0 0x7F [4, 0]] } })
    tells (.getVersion 0) 0 0x04 1 (fun b => b = [0x13]) ∧ tells (.getCapabilities 0) 1 0x61 2 (fun b => b.length = 4) ∧
    (∀ sigs hashes : List Nat, 3072 ∈ sigs → 256 ∈ hashes → tells (.negotiateAlgorithms 0 sigs hashes) 2 0x63 3 fun b => b = [4, 1]) ∧
    tells (.getDigests 0) 3 0x01 at_ (fun b => b.length = 32) ∧
    (∀ off len, tells (.getCertificate 0 0 off len) 3 0x02 at_ fun b => b.length = len) ∧
    (∀ nonce, tells (.challenge 0 0 nonce) 3 0x03 at_ fun b => b.length = 384) ∧
    (∀ nonce, tells (.getMeasurements 0 3 nonce) 3 0x60 at_ fun b => b.take 8 = toBytes 4 s.mg.code ++ toBytes 4 s.mg.repaired)

/-- Leaving a tree (R417, R431, R432, R434, R437, R441, R442, R445): a child or agent that is gone leaves its entry, and an entry left with nobody goes and
tells its parent; a write-back goes from router to router, its sectors are in L2 before they are acknowledged, and poisoned when their data is
uncorrectable, and it clears the root's OWN when it is the owner's; a snoop's holder supplies the line and becomes O; a held message is handled afresh;
quiet reports travel to the launch engine's router, which then completes the launches of the tag that drained before the wave began.
Completion (exec answers a next state with the effect) is stated of: prune, leave, wb, wback, snoop, heldMessageRelease, quiet. -/
def Sys2Proof.Claims.LeavingAndQuietMessages : Prop :=
  (∀ (s : State) (m : TMsg),
    let e := s.ent m
    let root := s.rootOf m
    let w := State.writerAt m
    let up := TMsg.step { m with excl := false } e.par
    (e.st ≠ .invalid → fld e.acks m.arr 1 = 0 → bitClr e.ch m.arr ≠ 0 → Answers (.prune m) s fun t =>
      (t.ent m).ch = bitClr e.ch m.arr ∧ (t.ent m).own = (if e.own = m.arr + 1 ∧ e.st ≠ .tearing then 0 else e.own) ∧ t.agenda = s.agenda) ∧
    (e.st = .stable → fld e.acks m.arr 1 = 0 → bitClr e.ch m.arr = 0 → e.loc = 0 → e.par ≠ 4 → Answers (.prune m) s fun t =>
      (t.ent m).st = .invalid ∧ .prune up ∈ t.agenda) ∧
    (s.holdsNone m m.core m.agent = false → Answers (.leave m) s fun t => t = s) ∧
    (e.st = .stable → s.holdsNone m m.core m.agent = true →
      (∀ l ∈ State.linesIn { m with sector := 0 }, fld (s.line m.core m.agent l).pending 0 3 = 0) →
      (e.ch ≠ 0 → Answers (.leave m) s fun t => (t.ent m).loc = bitClr e.loc m.agent ∧ t.agenda = s.agenda) ∧
      (e.ch = 0 → bitClr e.loc m.agent = 0 → e.par ≠ 4 → Answers (.leave m) s fun t => (t.ent m).st = .invalid ∧ .prune up ∈ t.agenda)) ∧
    (m.router ≠ root → Answers (.wb m) s fun t => t = (s.countRouter m.router 4).push (.wb (State.onward m root))) ∧
    (m.router = root → m.slab = false → Answers (.wb m) s fun t => .wback { m with excl := false, dirty := 0, arr := 4 } ∈ t.agenda ∧
      t.blocks = s.blocks ∧ t.groups = s.groups ∧
      (m.excl = false → ∀ k, k < 2 → fld m.dirty k 1 = 1 → (m.agent = State.routerAgent ∨ k = 1 ∨ fld m.dirty 1 1 = 0) → t.inL2 m.key k = true) ∧
      (m.excl = true → e.own ≠ downToward m.router w + 1 →
        t = (s.poisonBack m.key m.dirty m.ctx m.evict).push (.wback { m with excl := false, dirty := 0, arr := 4 })) ∧
      (m.excl = true → s.mg.log.obj = 0 ∨ (m.key / 2 ^ 32 ≠ s.mg.log.obj ∧ s.mg.log.size ≤ 2 ^ 40) → ∀ k, k < 2 → fld m.dirty k 1 = 1 → t.poisonedSector (256 * m.key + 128 * k) = true) ∧
      (m.excl = false → m.dirty = 0 → e.st = .stable → e.own = downToward m.router w + 1 → s.owned m.key = false → (t.ent m).own = 0)) ∧
    (m.router ≠ w → Answers (.wback m) s fun t => t = (s.countRouter m.router 4).push (.wback (State.onward m w))) ∧
    (m.router = w → m.agent ≠ State.routerAgent → Answers (.wback m) s fun t => t = s.push (.leave { m with arr := 4, sector := 0 })) ∧
    (m.router = w → m.agent = State.routerAgent → e.st = .pruning → e.par ≠ 4 → Answers (.wback m) s fun t => (t.ent m).st = .invalid ∧
      (if e.merged then Event.ack { up with dirty := 0 } else .prune { up with dirty := 0 }) ∈ t.agenda) ∧
    (Answers (.snoop m) s fun t => (∀ k ∈ State.kids e, .snoop (m.step k) ∈ t.agenda) ∧ s.SameBytes t ∧
      ∀ c a, coreAt m.router = some c → a < 4 → fld e.loc a 1 = 1 → (s.line c a m.line).owner = true →
        (∀ b, b < a → fld e.loc b 1 = 1 → (s.line c b m.line).owner = false) →
        (t.line c a m.line).st = .O ∧ .data { m with excl := false, arr := 4 } ∈ t.agenda)) ∧
  (∀ (s : State) (r key : Nat) (slab : Bool) (k : HKind) (m : TMsg),
    let mine := fun (e : Nat × HKind × TMsg) => e.1 == r && e.2.2.key == key && e.2.2.slab == slab
    let u := { s with fab := { s.fab with held := s.fab.held.eraseP mine } }
    let goes := fun (i : Instr) => Answers (.heldMessageRelease r key slab) s fun t => Sys2Proof.Machine.exec i u = .next t
    s.fab.held.find? mine = some (r, k, m) →
      (k = .rd → goes (.rd m)) ∧ (k = .xreq → goes (.xreq m)) ∧
      (k = .srd → (u.ent m).st ≠ .invalid ∨ m.arr = toward m.router (u.rootOf m) → goes (.srdSteeredRead m)) ∧
      (k = .srd → (u.ent m).st = .invalid → m.arr ≠ toward m.router (u.rootOf m) →
        Answers (.heldMessageRelease r key slab) s fun t => t = u.restart m)) ∧
  (∀ (s : State) (tag r : Nat),
    let l := tget [] s.fab.quiet tag
    let act := tget [] s.fab.active tag
    let up := nbr r (toward r launchRouter)
    let seen := fun (l : List Nat) (k : Nat) => k ∈ l ∨ 1000 + k ∈ l
    let ok := (∀ k ∈ quietKids r, k ∈ l) ∧ s.tagAt r tag = false ∧ r ∉ act
    (seen l r ∨ (∃ k ∈ quietKids r, ¬ seen l k) → Answers (.quiet tag r) s fun t => t = s) ∧
    (¬ seen l r → (∀ k ∈ quietKids r, seen l k) →
      (∀ n, r ≠ launchRouter → (ok → n = r) → (¬ ok → n = 1000 + r) → Answers (.quiet tag r) s fun t => tget [] t.fab.quiet tag = l ++ [n] ∧
        r ∉ tget [] t.fab.active tag ∧ s.SameBytes t ∧ ((∀ k ∈ quietKids up, seen (l ++ [n]) k) → .quiet tag up ∈ t.agenda)) ∧
      (r = launchRouter → ¬ ok → Answers (.quiet tag r) s fun t => tget [] t.fab.quiet tag = [] ∧ t.fab.waves = s.fab.waves ∧ t.agenda = s.agenda) ∧
      (r = launchRouter → ok → Answers (.quiet tag r) s fun t => tget [] t.fab.quiet tag = [] ∧ tget 0 t.fab.waves tag = tget 0 s.fab.waves tag + 1 ∧
        ∀ k, k < s.launches.length → (s.lch k).st = .draining → (s.lch k).tag = tag →
          (s.lch k).wave ≤ tget 0 s.fab.waves tag + 1 → .launchComplete k ∈ t.agenda)))

/-- A change of a mesh link's width (R443, R447): the handshake, the retraining and the lock; a frame without lock is answered by WNAK, and the fourth
failure leaves both ends at quarter width, and is logged.
Completion (exec answers a next state with the effect) is stated of: wreq, wack, trainingEnd, frame, frameLockTimeout, wnak. -/
def Sys2Proof.Claims.LinkWidthsChange : Prop :=
  ∀ (s : State) (k w : Nat),
    let x := s.mlink k
    (Answers (.wreq k w) s fun t => t = (s.setMlink k { x with st := .answered, target := w }).push (.wack k)) ∧
    (x.st = .answered → Answers (.wack k) s fun t => t = (s.setMlink k { x with st := .training }).push (.trainingEnd k)) ∧
    (x.st = .training → Answers (.trainingEnd k) s fun t => t = (s.setMlink k { x with st := .framing }).push (.frame k)) ∧
    (x.st = .framing → Answers (.frame k) s fun t => t.mlink k = ⟨x.target, 0, .steady, 0⟩ ∧ t.cnt = (s.count 9 (k / 4) 5 1).cnt) ∧
    (x.st = .framing → Answers (.frameLockTimeout k) s fun t => .wnak k ∈ t.agenda ∧ .frame k ∉ t.agenda ∧ t.mlink k = x) ∧
    (x.st = .framing → x.fails < 3 → Answers (.wnak k) s fun t => t = (s.setMlink k { x with st := .training, fails := x.fails + 1 }).push (.trainingEnd k)) ∧
    (x.st = .framing → 3 ≤ x.fails → Answers (.wnak k) s fun t => t.mlink k = ⟨2, 0, .steady, 0⟩ ∧ t.mg.log.next = s.mg.log.next + 1)

/-- The port's check of a load's access (R170, R228, R402, R406, R416, R433): what the port refuses fails the access with its cause; in
device memory a sector that L1 holds is ready and the check is reported, and another sector is asked for. `portCheck` is R406.
Completion (exec answers a next state with the effect) is stated of: portCheck. -/
def Sys2Proof.Claims.LoadsPassTheirPort : Prop :=
  ∀ (s u : State) (op : Nat) (p : Op) (h : Bool) (z : LSize) (d a : RF) (c : Fin 16) (x : Acc), s.ops = [(op, p)] → p.instr = .ld h z d a c →
    p.accs = [x] → x.st = .need → x.blk = none → s.resident p.gid = true →
    let core := (s.gblk p.gid).core
    let line := lineOf x.adr
    (∀ k, s.portCheck (s.glch p.gid).ctx x.adr (some p.cap1.gen) .read = (u, .fail k) → Answers (.portCheck op line) s fun t =>
      t.ops = [(op, { p with accs := [x.fails k] })] ∧ .farCheckReport op ∈ t.agenda ∧ t.mem = u.mem) ∧
    (∀ pa pol o, s.portCheck (s.glch p.gid).ctx x.adr (some p.cap1.gen) .read = (u, .ok pa 0 false pol o) → u.poisonedSector x.adr = false →
      ((u.line core 0 line).readHit (x.adr / 128 % 2) = true → Answers (.portCheck op line) s fun t =>
        t.ops = [(op, { p with accs := [{ x with pa := pa, mt := 0, st := .ready }] })] ∧ .farCheckReport op ∈ t.agenda ∧ t.mem = u.mem) ∧
      ((u.line core 0 line).readHit (x.adr / 128 % 2) = false → (u.line core 0 line).pending = 0 → Answers (.portCheck op line) s fun t =>
        t.ops = [(op, { p with accs := [{ x with pa := pa, mt := 0, st := .clear }] })] ∧ t.mem = u.mem ∧
        .rd (agentMsg core 0 line (x.adr / 128 % 2) (s.glch p.gid).tag) ∈ t.agenda)) ∧
    (∀ pa pol o, s.portCheck (s.glch p.gid).ctx x.adr (some p.cap1.gen) .read = (u, .ok pa 4 false pol o) → Answers (.portCheck op line) s fun t =>
      t.ops = [(op, { p with accs := [({ x with pa := pa, mt := 4 } : Acc).fails 0x07], cls := max p.cls 7 })] ∧ .farCheckReport op ∈ t.agenda)

/-- Faults of pages and errors of memory (R401, R413, R416): a page's fault is recorded once, in its context's fault sequence; a sector read from memory goes
to the agents that wait for it, and is logged when it was corrected; one that cannot be corrected is poisoned and logged.
Completion (exec answers a next state with the effect) is stated of: faultReport, hbmReadComplete. -/
def Sys2Proof.Claims.FaultsAndSectorsAreReported : Prop :=
  (∀ (s : State) (r : FaultRec),
    let m := homeSlice (lineOf (r.obj * 2 ^ 40 + r.page * 65536))
    let f : PageFault := ⟨r.ctx, r.obj, r.page⟩
    (f ∈ (s.slice m).faults → Answers (.faultReport r) s fun t => t = s.count 8 r.port 3 1) ∧
    (∀ h u l, f ∉ (s.slice m).faults → (s.ctx r.ctx).faultSeq = some h → s.seqValid r.ctx h = true →
      s.appendRec r.ctx h s.nextOp (s.reportBytes r m (s.waitingOn r.ctx r.obj r.page)) = (u, .got l) → Answers (.faultReport r) s fun t =>
        (t.slice m).faults = (u.slice m).faults ++ [f] ∧ t.mem = u.mem)) ∧
  (∀ (s : State) (l k : Nat), k < 2 →
    (Answers (.hbmReadComplete l k .clean) s fun t => s.SameBytes t ∧
      (∀ c a, a < 4 → fld (s.line c a l).pending k 1 = 1 → .data (s.fillMsg c a l k) ∈ t.agenda) ∧
      ((∀ c a, a < 4 → fld (s.line c a l).pending k 1 = 1 → fld (s.line c a l).pending 4 1 = 0) → t.inL2 l k = true)) ∧
    (s.ops = [] → s.mg.log.obj = 0 ∨ (l / 2 ^ 32 ≠ s.mg.log.obj ∧ s.mg.log.size ≤ 2 ^ 40) → Answers (.hbmReadComplete l k .uncorrectable) s fun t =>
      t.poisonedSector (256 * l + 128 * k) = true ∧ t.mg.log.next = s.mg.log.next + 1) ∧
    exec (.hbmReadComplete l k .corrected) s = exec (.hbmReadComplete l k .clean) (s.logErr 1 (homeSlice l) 0 1 (256 * l + 128 * k) 0 none 0))

/-- The atomic unit of a home slice (R225, R226, R418, R420): it reads, applies the operation and writes, and no byte outside the operand's changes.
Completion (exec answers a next state with the effect) is stated of: farAtomic. -/
def Sys2Proof.Claims.FarAtomicsAreApplied : Prop :=
  ∀ (s : State) (op : Nat) (p : Op) (f : AtomOp) (a : Acc), s.ops = [(op, p)] → p.instr.atomOp = some f → p.accs = [a] → a.st = .clear → a.blk = none →
    a.mt = 0 → a.size = f.bytes → s.engineIn a.adr a.size = false → tget [] s.fab.roots (lineOf a.adr) = [] → s.recall a.adr true = none → s.poisonedSector a.adr = false → a.pa + f.bytes ≤ memBytes → Answers (.farAtomic op a.lane) s fun t =>
      mread t.mem a.pa f.bytes = (f.apply (mread s.mem a.pa f.bytes) a.data a.data2).1 % 256 ^ f.bytes ∧
      (∀ x, x < a.pa ∨ a.pa + f.bytes ≤ x → mget t.mem x = mget s.mem x) ∧ t.blocks = s.blocks ∧
      t.ops = [(op, { p with accs := [{ a with st := .done (f.apply (mread s.mem a.pa f.bytes) a.data a.data2).2 }] })] ∧
      .farCheckReport op ∈ t.agenda

/-- R225 and R227: the value that each atomic leaves and the value that it returns. -/
def Sys2Proof.Claims.AtomicOperations : Prop :=
  ∀ old x y : Nat, old < 2 ^ 32 → x < 2 ^ 32 → y < 2 ^ 32 →
    AtomOp.add.apply old x y = ((old + x) % 2 ^ 32, old) ∧
    AtomOp.minu.apply old x y = (min old x, old) ∧ AtomOp.maxu.apply old x y = (max old x, old) ∧
    ((BitVec.ofNat 32 old).toInt < (BitVec.ofNat 32 x).toInt → AtomOp.min.apply old x y = (old, old) ∧ AtomOp.max.apply old x y = (x, old)) ∧
    ((BitVec.ofNat 32 x).toInt < (BitVec.ofNat 32 old).toInt → AtomOp.min.apply old x y = (x, old) ∧ AtomOp.max.apply old x y = (old, old)) ∧
    AtomOp.and.apply old x y = (old &&& x, old) ∧ AtomOp.or.apply old x y = (old ||| x, old) ∧ AtomOp.xor.apply old x y = (old ^^^ x, old) ∧
    AtomOp.exch.apply old x y = (x, old) ∧ AtomOp.cas.apply old old y = (y, old) ∧ (old ≠ x → AtomOp.cas.apply old x y = (old, old)) ∧
    AtomOp.casw.apply old old y = (y, old) ∧ AtomOp.addw.apply old x y = (old + x, old)

/-- Atomics on host memory (R421 to R423): with its line's lock an atomic that PCI Express has leaves as an AtomicOp; another falls back to a read where the object
allows it and is refused with 0x0E where not; the completion gives the old value and frees the lock; without one in time the result is lost (0x0F).
Completion (exec answers a next state with the effect) is stated of: hostAtomic, atomicopCompletion, completionTimeout. -/
def Sys2Proof.Claims.HostAtomics : Prop :=
  ∀ (s : State) (op : Nat) (p : Op) (f : AtomOp) (a : Acc), s.ops = [(op, p)] → p.instr.atomOp = some f → p.accs = [a] →
    let l := a.pa / 256
    (a.st = .clear → tget [] s.link.locks l = [] → s.link.hostUp = true → s.link.fallback.contains (a.pa / 65536) = false →
      (∀ k z, aopOf f = some (k, z) → Answers (.hostAtomic op a.lane) s fun t => t.link.out = s.link.out ++ [.atomicOp op a.lane a.pa k z a.data a.data2] ∧
        tget [] t.link.locks l = [(op, a.lane)] ∧ t.ops = [(op, { p with accs := [{ a with st := .sent }] })] ∧ s.SameBytes t) ∧
      (aopOf f = none → s.afbOf p a = true → Answers (.hostAtomic op a.lane) s fun t => .memRead op a.lane a.pa a.size ∈ t.link.out ∧
        tget [] t.link.locks l = [(op, a.lane)] ∧ t.ops = [(op, { p with accs := [{ a with st := .sent }] })]) ∧
      (aopOf f = none → s.afbOf p a = false → Answers (.hostAtomic op a.lane) s fun t => t.ops = [(op, { p with accs := [a.fails 0x0E] })] ∧
        tget [] t.link.locks l = [] ∧ .farCheckReport op ∈ t.agenda)) ∧
    (∀ v, a.st = .sent → tget [] s.link.locks l = [(op, a.lane)] → Answers (.atomicopCompletion op a.lane .success v) s fun t =>
      t.ops = [(op, { p with accs := [{ a with st := .done v }] })] ∧ .farCheckReport op ∈ t.agenda ∧ tget [] t.link.locks l = [] ∧ s.SameBytes t) ∧
    (∀ v, a.st = .sent → s.afbOf p a = true → Answers (.atomicopCompletion op a.lane .unsupported v) s fun t =>
      .memRead op a.lane a.pa a.size ∈ t.link.out ∧ t.ops = [(op, { p with accs := [{ a with st := .sent }] })]) ∧
    (∀ v, a.st = .sent → tget [] s.link.locks l = [(op, a.lane)] → Answers (.atomicopCompletion op a.lane .poisoned v) s fun t =>
      t.ops = [(op, { p with accs := [a.fails 0x0F] })] ∧ .farCheckReport op ∈ t.agenda ∧ tget [] t.link.locks l = [] ∧ s.SameBytes t) ∧
    (a.st = .sent → s.sentAtomic op a.lane = true → p.instr.isAccess = true → Answers (.completionTimeout op a.lane) s fun t =>
      t.ops = [(op, { p with accs := [a.fails 0x0F] })] ∧ .farCheckReport op ∈ t.agenda ∧ s.SameBytes t)

/-- Reads through the bridge (R452): a completion gives a lane of a load the bytes that it asked for in the sector read, and one that fails is a link error, 0x1B.
Completion (exec answers a next state with the effect) is stated of: pcieCompletion, completionTimeout. -/
def Sys2Proof.Claims.BridgeReadsReturn : Prop :=
  ∀ (s : State) (op v : Nat) (p : Op) (h : Bool) (z : LSize) (d a : RF) (c : Fin 16) (x : Acc), s.ops = [(op, p)] → p.instr = .ld h z d a c → p.accs = [x] →
    x.st = .sent →
    (x.mt = 1 → Answers (.pcieCompletion op x.lane .success v) s fun t => s.SameBytes t ∧ .farCheckReport op ∈ t.agenda ∧
      t.ops = [(op, { p with accs := [{ x with st := .done (v / 2 ^ (8 * (x.pa % 128)) % 2 ^ (8 * x.size)) }] })]) ∧
    (x.mt = 3 → Answers (.pcieCompletion op x.lane .success v) s fun t => s.SameBytes t ∧ .farCheckReport op ∈ t.agenda ∧
      t.ops = [(op, { p with accs := [{ x with st := .done (v % 2 ^ (8 * x.size)) }] })]) ∧
    (∀ st, st ≠ .success → x.mt = 1 ∨ x.mt = 3 → Answers (.pcieCompletion op x.lane st v) s fun t =>
      s.SameBytes t ∧ .farCheckReport op ∈ t.agenda ∧ t.ops = [(op, { p with accs := [x.fails 0x1B] })]) ∧
    (Answers (.completionTimeout op x.lane) s fun t => s.SameBytes t ∧ .farCheckReport op ∈ t.agenda ∧ t.ops = [(op, { p with accs := [x.fails 0x1B] })])

/-- The link layer (R453 to R455): a good flit in sequence counts and its message is due, but for one that a remote port does not carry; any other is
answered with NAK and dropped; a NAK or a time-out resends every unacknowledged flit, with the acknowledgement of the other direction, and a flit that was
resent eight times takes the port out of UP.
Completion (exec answers a next state with the effect) is stated of: flitReceived, nak, ackTimeout. -/
def Sys2Proof.Claims.FlitsAreDeliveredInOrder : Prop :=
  ∀ (s : State) (p : Nat),
    let x := s.port p
    (∀ n ack ok msg, s.carries p = true → ok = false ∨ n ≠ x.rxSeq ∨ x.accepts msg = false → Answers (.flitReceived p n ack ok msg) s fun t =>
      t = s.setPort p { x with naks := x.naks ++ [(x.rxSeq + 4095) % 4096] }) ∧
    (∀ ack st tag d ch m r, p < 12 → x.st = .up → ∀ e ∈ [(LinkMsg.rwri r, Event.inboundRwri p r), (.rrd r, .inboundRrd p r), (.rwriAck tag st, .rwriAck tag st),
        (.rrdData tag st d, .rrdData tag st d), (.channel ch, .channelRequest p ch), (.mgmt 0x84 [], .getVersion (p + 1)), (.slabRead m, .slabRead p m),
        (.slabExclusive m, .slabExclusive p m), (.slabDowngrade m, .slabDowngrade p m), (.slabTeardown m, .slabTeardown p m)],
      Answers (.flitReceived p x.rxSeq ack true e.1) s fun t => (t.port p).rxSeq = (x.rxSeq + 1) % 4096 ∧ s.SameBytes t ∧
        (x.isDomain = true ∨ domainOnly e.1 = false → e.2 ∈ t.agenda) ∧ (x.isDomain = false → domainOnly e.1 = true → t.agenda = s.agenda)) ∧
    (∀ last k m rest, s.carries p = true → x.unacked = (last, k, m) :: rest → rest.length < 512 → (∀ f ∈ rest, f.2.1 < 8) → Answers (.nak p last) s fun t =>
      (t.port p).unacked = (rest.map fun f => (f.1, f.2.1 + 1, f.2.2)) ∧ (t.port p).sent = x.sent ++ rest.map fun f => (f.1, (x.rxSeq + 4095) % 4096, f.2.2)) ∧
    (s.carries p = true → x.unacked.length ≤ 512 → (∀ f ∈ x.unacked, f.2.1 < 8) → Answers (.ackTimeout p) s fun t =>
      (t.port p).unacked = (x.unacked.map fun f => (f.1, f.2.1 + 1, f.2.2)) ∧
      (t.port p).sent = x.sent ++ x.unacked.map fun f => (f.1, (x.rxSeq + 4095) % 4096, f.2.2)) ∧
    (∀ f rest, p < 12 → x.st = .up → x.unacked = f :: rest → 8 ≤ f.2.1 → Answers (.ackTimeout p) s fun t =>
      (t.port p).st = .retrain ∧ (t.port p).unacked = [])

/-- The states of a port (R454, R455): training leads to discovery, the peer's discovery to UP, a lost signal to retraining, and the fourth retraining within ten
seconds to FAILED. A port that is UP begins to verify its peer, and what the peer attested holds no longer when UP is left (R461; that the chain begins
there is the model's, log entry 14).
Completion (exec answers a next state with the effect) is stated of: linkTrained, discovery, lossOfSignal, retrainComplete. -/
def Sys2Proof.Claims.PortStatesChange : Prop :=
  ∀ (s : State) (p : Nat),
    let x := s.port p
    let hello := LinkMsg.discovery ⟨1, s.link.domId, s.link.domPkg, s.link.domSize, p⟩
    (p < 12 → x.st = .down → Answers (.linkTrained p) s fun t => (t.port p).st = .discover ∧ (t.port p).unacked = x.unacked ++ [(x.txSeq, 0, hello)]) ∧
    (∀ m : DiscMsg, x.st = .discover → m.version ≠ 0 → Answers (.discovery p m) s fun t => t = (s.setPort p { x with
      st := .up, pkg := m.package, isDomain := (m.domain == s.link.domId && m.size == s.link.domSize && m.package != s.link.domPkg) }).linkSend p
        (.mgmt 0x84 [])) ∧
    (∀ m : DiscMsg, x.st ≠ .discover ∨ m.version = 0 → Answers (.discovery p m) s fun t => t = s) ∧
    (x.st = .up → Answers (.lossOfSignal p) s fun t => (t.port p).st = .retrain ∧ (t.port p).unacked = [] ∧ (t.port p).attested = false) ∧
    (x.st ≠ .up → Answers (.lossOfSignal p) s fun t => t = s) ∧
    (x.st = .retrain →
      let recent := (x.retrains.filter fun t => decide (s.tick < t + tenSeconds)).length
      (recent < 3 → Answers (.retrainComplete p) s fun t => (t.port p).st = .discover) ∧
      (3 ≤ recent → Answers (.retrainComplete p) s fun t => (t.port p).st = .failed))

/-- Host writes to BAR0 (R123, R415, R449, R464): CDB and RPLY do what their event does; a command word with BUSY starts its command, and while one runs another is
ignored and counted; in SAFE only the mailbox and the MSI-X structures take writes.
Completion (exec answers a next state with the effect) is stated of: registerWrite. -/
def Sys2Proof.Claims.HostRegisterWrites : Prop :=
  ∀ (s : State) (v : Nat),
    (s.mg.boot ≠ .safe → v < 2 ^ 33 →
      (fld v 0 2 = 0 → exec (.registerWrite 0x1000 8 v) s = exec (.reserve (fld v 12 12) (fld v 2 10) (fld v 24 9)) s) ∧
      (fld v 0 2 = 1 → exec (.registerWrite 0x1000 8 v) s = exec (.commit (fld v 12 12) (fld v 2 10) (fld v 24 9)) s) ∧
      (fld v 0 2 = 2 → exec (.registerWrite 0x1000 8 v) s = exec (.refresh (fld v 12 12) (fld v 2 10)) s)) ∧
    (s.mg.boot ≠ .safe → v < 2 ^ 61 →
      (fld v 60 1 = 0 → exec (.registerWrite 0x1100 8 v) s = exec (.replayPage (fld v 0 12) (fld v 12 24) (fld v 36 24)) s) ∧
      (fld v 60 1 = 1 → exec (.registerWrite 0x1100 8 v) s = exec (.replayContext (fld v 0 12)) s)) ∧
    (s.mg.boot ≠ .safe → 2 ^ 61 ≤ v → v < 2 ^ 64 → Answers (.registerWrite 0x1100 8 v) s fun t => t = s.count 8 3 4 1) ∧
    (∀ k e, v = 2 ^ 31 + k → k < 2 ^ 16 → mboxEvent k = some e → (mget s.mg.mbox 3).toNat < 128 → Answers (.registerWrite 0x4000 4 v) s fun t =>
      e ∈ t.agenda ∧ mread t.mg.mbox 0 4 = v ∧ t.mem = s.mem) ∧
    (128 ≤ (mget s.mg.mbox 3).toNat → Answers (.registerWrite 0x4000 4 v) s fun t => t.agenda = s.agenda ∧ t.mg = s.mg ∧ t.cnt = (s.count 12 0 0 1).cnt) ∧
    (∀ off n, 0x10 ≤ off → off + n ≤ 0x1000 → Answers (.registerWrite (0x4000 + off) n v) s fun t =>
      mread t.mg.mbox off n = v % 256 ^ n ∧ t.agenda = s.agenda ∧ t.mem = s.mem) ∧
    (∀ off n, s.mg.boot = .safe → (off < 0x4000 ∨ 0x5000 ≤ off) → (off < 0x8000 ∨ 0x8800 ≤ off) → Answers (.registerWrite off n v) s fun t => t = s)

/-- Apertures and the PCI Express link (R448, R450, R452): what an aperture refuses is logged, counted, and answered with Unsupported Request or dropped; a read or write of one piece
moves the bytes that the object's translation names; an AtomicOp of the host is refused; when the link goes down a load that waits for an answer through it fails with link error.
Completion (exec answers a next state with the effect) is stated of: hostApertureRead, hostApertureWrite, hostAtomicopReceived, pcieLinkUp,
pcieLinkDown. -/
def Sys2Proof.Claims.AperturesAndHostLink : Prop :=
  ∀ s : State,
    (∀ off n, s.apertureAt off n false = none → Answers (.hostApertureRead off n) s fun t => t = (s.hostRefused off).pcie (.cplUnsupported 0)) ∧
    (∀ off bs, s.apertureAt off bs.length true = none → Answers (.hostApertureWrite off bs) s fun t => t = s.hostRefused off) ∧
    (∀ off n ctx a u pa, s.apertureAt off n false = some (ctx, a) → pieces a n = [(a, n)] →
      s.hostPort ctx a n .read = (u, some (pa, false)) → u.poisonedSector a = false → Answers (.hostApertureRead off n) s fun t =>
        t.mem = u.mem ∧ t.link.out = u.link.out ++ [.cplData n (mread u.mem pa n)]) ∧
    (∀ off bs ctx a u pa, s.apertureAt off bs.length true = some (ctx, a) → pieces a bs.length = [(a, bs.length)] →
      s.hostPort ctx a bs.length .write = (u, some (pa, false)) → pa + bs.length ≤ memBytes → (∀ b ∈ bs, b < 256) → Answers (.hostApertureWrite off bs) s fun t =>
        t.mem = mwrite u.mem pa bs.length (ofBytes bs)) ∧
    (∀ tag, Answers (.hostAtomicopReceived tag) s fun t => t = { s with link := { s.link with out := s.link.out ++ [.cplUnsupported tag] } }) ∧
    (Answers .pcieLinkUp s fun t => t = { s with link := { s.link with hostUp := true } }) ∧
    (s.ops = [] → Answers .pcieLinkDown s fun t =>
      t = { (if s.link.hostUp then s.count 11 0 2 1 else s : State) with link := { s.link with hostUp := false, locks := [] } }) ∧
    (∀ op p x h z d a c, s.ops = [(op, p)] → p.instr = .ld h z d a c → p.accs = [x] → x.st = .sent → x.blk = none → x.mt = 1 ∨ x.mt = 3 →
      Answers .pcieLinkDown s fun t => t.link.hostUp = false ∧ t.ops = [(op, { p with accs := [x.fails 0x1B] })] ∧ .farCheckReport op ∈ t.agenda ∧ s.SameBytes t)

/-! ## Obligations -/

/-- Decoding the word of an instruction gives the instruction back, with every operand at every value its field admits (R41, R48): no bit of
an encoding is dropped. -/
def Obligations.DecodeOfEncode : Prop :=
  ∀ i : Instr, i.isWord = true → ∃ w, encode i = some w ∧ decodeWord w = .ok i ∧ decodeTableWord 32 w = some i

/-- A word that decodes is the word of its instruction: no two words name one instruction, and a word with a bit set that its form does not
assign is refused (R48). -/
def Obligations.EncodeOfDecode : Prop :=
  ∀ w i, w < 2 ^ 32 → decodeWord w = .ok i → encode i = some w

/-- Words that spec/ prints beside their assembly text, of every family of the opcode table, decode to the instructions that the text names. -/
def Obligations.ExampleWordsDecode : Prop :=
  ∀ e ∈ ([
      (0x00000000, .nop), (0x023FFFFE, .bra false 1 0x1ffffe#21), (0x04200005, .brd false 1 0x000005#21), (0x0600000D, .pushj 0x00000d#21),
      (0x08000000, .join), (0x0A000014, .call 0x000014#21), (0x0C003F00, .ret 126), (0x0E003469, .brx 104 105), (0x10000020, .wbase 0x00020#18),
      (0x12008000, .mrd 2), (0x12203280, .mwr 101), (0x14003200, .fmts 100), (0x16600004, .yield (some 3) 0x000004#21), (0x18000000, .exit),
      (0x1A000005, .trap 0x00005#18), (0x1C000000, .tret), (0x1E000000, .srd 0 0), (0x20036013, .swr 108 19), (0x22407364, .ucmp .lt 1 102 100),
      (0x24003200, .tcinv 100), (0x26000000, .brk), (0x28004103, .iadd 1 2 3), (0x29004103, .isubs 1 2 3), (0x2A204103, .imulh 1 2 3),
      (0x2C404103, .xor 1 2 3), (0x2E404103, .sar 1 2 3), (0x30004100, .popc 1 2), (0x32404103, .bfi 1 2 3), (0x34C04103, .icmp .ltu 1 2 3),
      (0x36404103, .sel 2 1 2 3), (0x3800B280, .mov 2 101), (0x3A040880, .addi 1 1 0x080#11), (0x48040108, .icmpi 1 0 .lt 0x08#7),
      (0x4C040000, .movi 1 0x00000#18), (0x4E04FE00, .movhi 1 0x0fe00#18), (0x6A008206, .addw 2 4 6), (0x6A408205, .mulw 2 4 5),
      (0x50004103, .fadd 1 2 3), (0x50604103, .ffma 1 2 3), (0x53404103, .fcmp .un 1 2 3), (0x54404100, .fsqrt 1 2), (0x58404103, .hfma2 1 2 3),
      (0x5A004101, .cvtfi 1 2 .rtz), (0x5E604103, .shflx 1 2 3), (0x60204500, .vall 1 true 2), (0x62D90100, .rdfadd 100 2),
      (0x64010108, .movxr 4 2 8), (0x8080C082, .ld false .w 3 1 2), (0x82804222, .lda false .w 1 4 .course 2),
      (0x868081B2, .stl false .w 2 3 .device 2), (0x888181E4, .lds false .w 6 3 100), (0x8A8081E4, .sts false .w 2 3 100),
      (0x8C824300, .ldw false .w 9 6), (0x90008082, .atom .add 2 1 2), (0x972200B3, .atomr .cas 8 1 .device 3), (0x9A000002, .fence .acq .course),
      (0x9C013400, .capld 4 104), (0x9E203802, .pref 112 2), (0xA0003C02, .cpygs 0 120 2), (0xA4003400, .barinit 104),
      (0xA47A7D80, .bartry 105 123 false), (0xB4603602, .cbld 3 108 2), (0xB01A0864, .mma false false false 104 16 100),
      (0xB2203602, .accld 108 (.glob 2)), (0xC0003400, .wset false 104), (0xC4010000, .qpop 0 4), (0xC81A3200, .sqres 104 100),
      (0xCA003600, .sqcom 108), (0xD47AB600, .sqtake 106 108), (0xD61A7600, .flpop 105 108), (0xD81A7800, .mgmatch 105 112),
      (0xDA1AB800, .mgmerge 106 112), (0xE01A3205, .launch 104 100 5), (0xE03A7400, .lwait 105 104), (0xE2003805, .rwri 112 5),
      (0xE2203805, .rrd 112 5)] : List (Nat × Instr)), decodeWord e.1 = .ok e.2

/-- When the choice falls on issuing for a group, and neither a deferred trap nor a skipped word comes first, the step is `exec` of the
instruction its word decodes to, at the state in which the choice has been made: its next state, where its agents at the homes met no line that
a peer package holds or that an engine keeps until it has written it, and its fault; such a line is asked for first, and the word issues again
(`State.orRecall`; R30, R108). What the step does around `exec`
changes the scheduling record of groups, the counters, the rotation and the current group, and nothing that a program sees (R168), except that
data a write-back found uncorrectable are reported (R417). -/
def Obligations.StepRunsTheDecodedWord : Prop :=
  ∀ (s : State) (g : Nat) (i : Instr), s.stuck = none → s.choose = .issue g →
    let t := s.advance.issueFor g
    t.deferredDue g = false → (t.grp g).skips = false → decodeWord (t.grp g).word.toNat = .ok i →
      step s = s.advance.orRecall none (exec i t) ∧
      (∀ u, exec i t = .next u → u.link.wants = [] → step s = .next u) ∧ (∀ f, exec i t = .fault f → step s = .fault f) ∧ t.cur = g ∧
      ((∀ e ∈ s.slices, e.2.lost = []) →
        t.mem = s.mem ∧ t.ops = s.ops ∧ t.blocks = s.blocks ∧ t.agenda = s.agenda ∧ ∀ k, ∃ c, t.grp k = { s.grp k with sched := c })

/-- A step traps an unassigned word and runs the event that is due: `StepTrapsAnUnassignedWord`, `StepRunsTheDueEvent`. -/
def Obligations.StepRunsOtherChoices : Prop :=
  Sys2Proof.Claims.StepTrapsAnUnassignedWord ∧ Sys2Proof.Claims.StepRunsTheDueEvent

/-- No row is refused, and every row has a next state: `NothingIsRefused`, `EveryRowHasANextState`. -/
def Obligations.EveryRowHasAMeaning : Prop :=
  Sys2Proof.Claims.NothingIsRefused ∧ Sys2Proof.Claims.EveryRowHasANextState

/-- The checks of a word at issue, in their order, and privilege: `IssueChecksInOrder`, `PrivilegedWordsTrap`. -/
def Obligations.WordChecksAtIssue : Prop :=
  Sys2Proof.Claims.IssueChecksInOrder ∧ Sys2Proof.Claims.PrivilegedWordsTrap

/-- Taking a trap, the unhandled trap, TRAP and BRK, and TRET: `TrapEntrySavesAndTransfers`, `UnhandledTrapStopsTheGroup`, `TrapAndBreakpointEnterTheHandler`, `TretLeavesTheHandler`, `TrapEncodings`. -/
def Obligations.TrapsAndTheirReturn : Prop :=
  Sys2Proof.Claims.TrapEntrySavesAndTransfers ∧ Sys2Proof.Claims.UnhandledTrapStopsTheGroup ∧
  Sys2Proof.Claims.TrapAndBreakpointEnterTheHandler ∧ Sys2Proof.Claims.TretLeavesTheHandler ∧ Sys2Proof.Claims.TrapEncodings

/-- Transfers, divergence, joins, exits and yields: `TransfersReachTheirTargets`, `TransfersTrap`, `BrdSplitsTheLanes`, `JoinAndExitEndAPath`, `YieldWaitsOnItsFlag`, `ControlEncodings`. -/
def Obligations.ControlFlow : Prop :=
  Sys2Proof.Claims.TransfersReachTheirTargets ∧ Sys2Proof.Claims.TransfersTrap ∧ Sys2Proof.Claims.BrdSplitsTheLanes ∧
  Sys2Proof.Claims.JoinAndExitEndAPath ∧ Sys2Proof.Claims.YieldWaitsOnItsFlag ∧ Sys2Proof.Claims.ControlEncodings

/-- Reads and writes of the group's control and special registers: `ControlRegistersAreWritten`, `ControlRegistersAreRead`, `SpecialRegisterMap`. -/
def Obligations.ControlRegisters : Prop :=
  Sys2Proof.Claims.ControlRegistersAreWritten ∧ Sys2Proof.Claims.ControlRegistersAreRead ∧ Sys2Proof.Claims.SpecialRegisterMap

/-- Integer, immediate and wide arithmetic: `IntegerArithmeticResults`, `ImmediateFormResults`, `WideResults`, `IntegerEncodings`. -/
def Obligations.IntegerResults : Prop :=
  Sys2Proof.Claims.IntegerArithmeticResults ∧ Sys2Proof.Claims.ImmediateFormResults ∧ Sys2Proof.Claims.WideResults ∧
  Sys2Proof.Claims.IntegerEncodings

/-- Logic, shifts, bit counts, bit fields, comparisons, selects and moves: `LogicAndShiftResults`, `BitCountsAndReversals`, `FieldsSelectsAndComparisons`, `BitEncodings`. -/
def Obligations.BitResults : Prop :=
  Sys2Proof.Claims.LogicAndShiftResults ∧ Sys2Proof.Claims.BitCountsAndReversals ∧ Sys2Proof.Claims.FieldsSelectsAndComparisons ∧
  Sys2Proof.Claims.BitEncodings

/-- FP32 arithmetic, comparison and functions, with their special values: `FloatResults`, `FloatSpecialValues`. -/
def Obligations.FloatResultsAndSpecials : Prop :=
  Sys2Proof.Claims.FloatResults ∧ Sys2Proof.Claims.FloatSpecialValues

/-- Packed half-precision words and conversions: `PackedResults`, `ConversionResults`. -/
def Obligations.PackedAndConvertedResults : Prop :=
  Sys2Proof.Claims.PackedResults ∧ Sys2Proof.Claims.ConversionResults

/-- Lane exchanges, votes and reductions: `ExchangeResults`, `VoteAndReductionResults`, `ExchangeEncodings`. -/
def Obligations.ExchangesAndReductions : Prop :=
  Sys2Proof.Claims.ExchangeResults ∧ Sys2Proof.Claims.VoteAndReductionResults ∧ Sys2Proof.Claims.ExchangeEncodings

/-- Register indexing (R269, R270): MOVXR reads and MOVXW writes physical register WB + b + a(L) of each active lane; an index that is negative
or reaches ALLOC in an active launch lane traps with 0x04, in every lane. The end of a fixed latency clears the pending bits of its token and
nothing else (R243).
Completion (exec answers a next state with the effect) is stated of: movxr, movxw, fixedLatencyComplete. -/
def Obligations.IndexedMovesAndLatency : Prop :=
  (∀ (s : State) (g : Group) (d a b : RF),
    (∀ L, L < 32 → g.act.getLsbD L = true → 0 ≤ (g.src a 0 L).toInt ∧ g.wb + b.val + (g.src a 0 L).toNat < g.alloc) →
      (Issues s g (.movxr d a b) → Answers (.movxr d a b) s fun t => ∃ v : Nat → Nat → Word, Wrote s t g d 1 v ∧
        ∀ L, L < 32 → g.act.getLsbD L = true → v 0 L = g.phys (g.wb + b.val + (g.src a 0 L).toNat) L) ∧
      (Issues s g (.movxw d a b) → Answers (.movxw d a b) s fun t => ∃ rs regs, LaneDue s t g { g.laneDone rs with regs := regs } ∧
        ∀ n L, L < 32 → tget 0 regs (32 * n + L) =
          if g.act.getLsbD L = true ∧ n = g.wb + b.val + (g.src a 0 L).toNat then g.src d 0 L else g.phys n L)) ∧
  (∀ (s : State) (g : Group) (d a b : RF) (L : Nat), MayTrap s g → L < 32 → g.launchAct.getLsbD L = true →
    (∀ k, k < L → g.launchAct.getLsbD k = true → 0 ≤ (g.src a 0 k).toInt ∧ g.wb + b.val + (g.src a 0 k).toNat < g.alloc) →
    ((g.src a 0 L).toInt < 0 ∨ g.alloc ≤ g.wb + b.val + (g.src a 0 L).toNat) →
      let traps := fun (t : State) => ∃ lanes, TakesTrap s t g
        ⟨0x04, g.src a 0 L, BitVec.ofNat 32 (g.wb + b.val), g.launchAct, lanes⟩ (g.clause.hdr + 4 * (g.idx + 1)) g.clause false
      (Issues s g (.movxr d a b) → Answers (.movxr d a b) s traps) ∧ (Issues s g (.movxw d a b) → Answers (.movxw d a b) s traps)) ∧
  (∀ (s : State) (n tok : Nat), Answers (.fixedLatencyComplete n tok) s fun t =>
    t = { s with groups := s.groups.set n { s.grp n with pend := (s.grp n).pend.filter fun e => e.2 != tok } })

/-- Loads, stores and atomics issue into flight, and what they refuse: `LoadsGoIntoFlight`, `StoresGoIntoFlight`, `AtomicsGoIntoFlight`, `AccessWithoutTheRightTraps`. -/
def Obligations.AccessesGoIntoFlight : Prop :=
  Sys2Proof.Claims.LoadsGoIntoFlight ∧ Sys2Proof.Claims.StoresGoIntoFlight ∧ Sys2Proof.Claims.AtomicsGoIntoFlight ∧
  Sys2Proof.Claims.AccessWithoutTheRightTraps

/-- Stores and atomics in the scratchpad and in lines that L1 holds: `ScratchpadStoresAndAtomics`, `StoresAndAtomicsThatHit`. -/
def Obligations.ScratchpadStoresAndAtomics : Prop :=
  Sys2Proof.Claims.ScratchpadStoresAndAtomics ∧ Sys2Proof.Claims.StoresAndAtomicsThatHit

/-- Load data return to their registers: `LoadDataReturns`, `LoadedWords`. -/
def Obligations.LoadsReturn : Prop :=
  Sys2Proof.Claims.LoadDataReturns ∧ Sys2Proof.Claims.LoadedWords

/-- The capability instructions: `CapabilityResults`, `CapabilityTraps`, `CapabilityEntryReturns`. -/
def Obligations.Capabilities : Prop :=
  Sys2Proof.Claims.CapabilityResults ∧ Sys2Proof.Claims.CapabilityTraps ∧ Sys2Proof.Claims.CapabilityEntryReturns

/-- Fences, DISCARD and PREF: `FencesComplete`, `DiscardAndPrefetchIssue`, `PrefetchArrives`. -/
def Obligations.FencesDiscardsAndPrefetches : Prop :=
  Sys2Proof.Claims.FencesComplete ∧ Sys2Proof.Claims.DiscardAndPrefetchIssue ∧ Sys2Proof.Claims.PrefetchArrives

/-- What comes back to the load/store engine: a far check of window loads clears the operation and its data is due (R170, R228); an atomic's
old values reach its registers (R226); the registers of an atomic whose responses were lost stay and the group has a deferred trap 0x0F (R191,
R420).
Completion (exec answers a next state with the effect) is stated of: farCheckReport, atomicReturn, atomicResultLost. -/
def Obligations.AccessReportsAndReturns : Prop :=
  (∀ (s : State) (op : Nat) (p : Op), s.ops = [(op, p)] → p.instr.isLoad = true → p.stage = .issued → p.accs ≠ [] →
    (∀ x ∈ p.accs, x.st = .need ∧ ∃ b, x.blk = some b ∧ s.peerGone b = false ∧ (s.blk b).markedAt x.adr x.size = false) →
    Answers (.farCheckReport op) s fun t => s.SameBytes t ∧ t.groups = s.groups ∧ .loadDataReturn op ∈ t.agenda ∧
      t.ops = [(op, { p with stage := .cleared, accs := p.accs.map fun x => { x with st := .ready } })]) ∧
  (∀ (s : State) (op : Nat) (p : Op) (g : Group) (f : AtomOp) (n : Nat), s.ops = [(op, p)] → s.groups[p.gid]? = some g →
    p.instr.atomOp = some f → p.stage = .cleared → p.dest = ((List.range f.results).map fun k => .lane (n + k)) →
    (∀ x ∈ p.accs, x.lane < 32 ∧ ∃ v, x.st = .done v) → (p.accs.map fun x => x.lane).Nodup →
    Answers (.atomicReturn op) s (fun t => t.ops = [] ∧ s.Around t p.gid ∧ g.SameControl (t.grp p.gid) ∧
      (∀ x ∈ p.accs, ∀ v k, x.st = .done v → k < f.results → (t.grp p.gid).phys (n + k) x.lane = BitVec.ofNat 32 (v / 2 ^ (32 * k))) ∧
      ∀ r L, L < 32 → (∀ x ∈ p.accs, x.lane ≠ L) ∨ r < n ∨ n + f.results ≤ r → (t.grp p.gid).phys r L = g.phys r L) ∧
    ((∀ x ∈ p.accs, x.blk = none) → p.accs ≠ [] → g.phase ≠ .stopped → g.phase ≠ .exited →
      Answers (.atomicResultLost op) s fun t => t.ops = [] ∧ s.SameBytes t ∧ (t.grp p.gid).regs = g.regs ∧
        ∃ d, (t.grp p.gid).deferred = g.deferred ++ [d] ∧ d.cause = 0x0F))

/-- Clause fetch: `ClauseFetchHoldsTheClause`, `ClauseFetchChecks`. -/
def Obligations.ClausesAreFetched : Prop :=
  Sys2Proof.Claims.ClauseFetchHoldsTheClause ∧ Sys2Proof.Claims.ClauseFetchChecks

/-- Clause acceptance, deferred traps and the ends of waits: `ClauseAcceptWaits`, `DeferredTrapIsTaken`, `WaitsEndAtTheirEvent`. -/
def Obligations.ClausesWaitsAndDeferredTraps : Prop :=
  Sys2Proof.Claims.ClauseAcceptWaits ∧ Sys2Proof.Claims.DeferredTrapIsTaken ∧ Sys2Proof.Claims.WaitsEndAtTheirEvent

/-- Membership of a partition's active set (R172 to R174). An active group that has waited 256 issues is aged; a pending group that has waited as long
takes the place of the group longest in the active set, or a free place where no group can leave; SWAP brings in the oldest ready pending group, in
a free place or for a group that may leave, while no pending group has waited 256 issues. A swap holds its groups and is counted when it begins;
when it is done the one group is active and the other pending.
Completion (exec answers a next state with the effect) is stated of: groupAged, pendingAgeSwap, swap, swapDone. -/
def Obligations.SwapsChangeTheActiveSet : Prop :=
  ∀ s : State,
  let begun := fun (t : State) (inn : Nat) (out : Option Nat) =>
    t = { s with groups := t.groups, cnt := (s.count 1 (s.partOf inn) 2 1).cnt, agenda := s.agenda ++ [.swapDone inn out] } ∧
    ∀ k, t.grp k = if k = inn ∨ out = some k then { s.grp k with sched := { (s.grp k).sched with swapping := true } } else s.grp k
  let done := fun (x : Group) =>
    { x with sched := { x.sched with active := true, swapping := false, entered := s.turn, waited := 0, aged := false } }
  let left := fun (x : Group) =>
    { x with sched := { x.sched with active := false, swapping := false, leaving := false, waited := 0, aged := false } }
  (∀ (n : Nat) (g : Group), s.groups[n]? = some g →
    let may := fun k => k ∈ s.activeOf n ∧ (s.grp k).sched.swapping = false
    (g.sched.active = true → 256 ≤ g.sched.waited → s.ready n = true → Answers (.groupAged n) s fun t =>
      t = { s with groups := s.groups.set n { g with sched := { g.sched with aged := true } } }) ∧
    (g.sched.waited < 256 → Answers (.groupAged n) s fun t => t = s) ∧
    (g.sched.active = false → 256 ≤ g.sched.waited → s.wantsPlace n = true →
      (∀ j, may j → Answers (.pendingAgeSwap n) s fun t => ∃ k, may k ∧ begun t n (some k) ∧ ∀ i, may i →
        (s.grp k).sched.entered < (s.grp i).sched.entered ∨
          ((s.grp k).sched.entered = (s.grp i).sched.entered ∧ (s.grp k).sched.age ≤ (s.grp i).sched.age)) ∧
      ((∀ j, ¬ may j) → s.placesTaken n < 8 → Answers (.pendingAgeSwap n) s fun t => begun t n none))) ∧
  (∀ (inn : Nat) (out : Option Nat), inn < s.groups.length → s.entering inn = some inn →
    (s.pendingAged inn = true → Answers (.swap inn out) s fun t => t = s) ∧
    (s.pendingAged inn = false → (out = none ∧ s.placesTaken inn < 8 ∨ ∃ k, out = some k ∧ s.maySwapOut k = true ∧ k ∈ s.mates inn) →
      Answers (.swap inn out) s fun t => begun t inn out)) ∧
  (∀ (inn : Nat) (g : Group), s.groups[inn]? = some g → g.phase ≠ .exited → g.phase ≠ .stopped →
    Answers (.swapDone inn none) s (fun t => t = { s with groups := s.groups.set inn (done g) }) ∧
    ∀ (out : Nat) (x : Group), s.groups[out]? = some x → inn ≠ out → Answers (.swapDone inn (some out)) s fun t =>
      t = { s with groups := (s.groups.set out (left x)).set inn (done g) })

/-- Barriers are initialised and arrived at, and seam phases end: `BarrierInitialisation`, `BarrierArrival`, `SeamPhasesComplete`. -/
def Obligations.BarriersCount : Prop :=
  Sys2Proof.Claims.BarrierInitialisation ∧ Sys2Proof.Claims.BarrierArrival ∧ Sys2Proof.Claims.SeamPhasesComplete

/-- Barrier tests and waits, and barrier address checks: `BarrierTests`, `BarrierAddressesTrap`. -/
def Obligations.BarriersAreTested : Prop :=
  Sys2Proof.Claims.BarrierTests ∧ Sys2Proof.Claims.BarrierAddressesTrap

/-- Monitors (R294 to R298). MONARM of a global word or of one in the course window goes into flight, its read being checked where the word lies; on a
word of the block's own scratchpad it arms the monitor with the compare value, and the monitor has fired already when the word differs; MONWAIT goes on at an idle monitor, waits at an armed one, and takes the value of one that fired, which is then idle; MONCLR makes it
idle; a reread of a scratchpad word fires it when the word differs and leaves it otherwise.
Completion (exec answers a next state with the effect) is stated of: monarm, monwait, monclr, monitorReread. -/
def Obligations.MonitorsWatchWords : Prop :=
  (∀ (s : State) (g : Group) (i : Fin 4) (a : RF), (tget .idle g.mons i.val ≠ .idle ∨ s.monsOn (s.gblk s.cur).core < 64) →
    let w := (g.src a 0 0).toNat
    (∀ c : Fin 16, Issues s g (.monarm i a (.glob c)) → g.reaches c.val rightR 4 w →
      let adr := (g.cap c.val).obj * 2 ^ 40 + ((g.cap c.val).base + w) % 2 ^ 40
      Answers (.monarm i a (.glob c)) s fun t =>
        InFlight s t g (.monarm i a (.glob c)) (fun o => o.cap1 = g.cap c.val ∧ (o.accs.map fun x => (x.adr, x.size, x.st)) = [(adr, 4, .need)]) ∧
        .portCheck s.nextOp (adr / 256) ∈ t.agenda) ∧
    (Issues s g (.monarm i a .window) → s.windowReaches g.blk 4 w →
      Answers (.monarm i a .window) s fun t =>
        InFlight s t g (.monarm i a .window) (fun o => (o.accs.map fun x => (x.blk, x.adr, x.size, x.st)) =
          [(some (s.peer g.blk (windowRank (s.blk g.blk).rank w)), windowOff w, 4, .need)]) ∧
        .farCheckReport s.nextOp ∈ t.agenda)) ∧
  (∀ (s : State) (g : Group) (i : Fin 4) (a : RF), Issues s g (.monarm i a .scratch) → s.ops = [] →
    let off := (g.src a 0 0).toNat
    let cmp := (g.src a 1 0).toNat
    let v := s.sread g.blk off 4
    off + 4 ≤ (s.glch s.cur).scr → off % 4 = 0 → (s.blk g.blk).markedAt off 4 = false → (tget .idle g.mons i.val ≠ .idle ∨ s.monsOn (s.gblk s.cur).core < 64) →
      Answers (.monarm i a .scratch) s fun t => s.Around t s.cur ∧ g.SameRegs (t.grp s.cur) ∧ (t.grp s.cur).phase = g.onward.phase ∧
        tget .idle (t.grp s.cur).mons i.val =
          if v = cmp then .armed .scratch .null (g.blk * 2 ^ 32 + off) cmp else .fired v) ∧
  (∀ (s : State) (g : Group) (d : RF) (i : Fin 4), Issues s g (.monwait d i) →
    (tget .idle g.mons i.val = .idle → Answers (.monwait d i) s fun t => OnlyGroup s t g.onward) ∧
    (∀ f c m v, tget .idle g.mons i.val = .armed f c m v → (s.glch s.cur).status ≠ 1 → Answers (.monwait d i) s fun t =>
      (t.grp s.cur).phase = .waiting g.idx (.monitor i.val) ∧ s.SameBytes t) ∧
    (∀ v, tget .idle g.mons i.val = .fired v → Answers (.monwait d i) s fun t =>
      OnlyGroup s t ((g.onward.setMon i.val .idle).udst d 0 (BitVec.ofNat 32 v)))) ∧
  (∀ (s : State) (g : Group) (i : Fin 4), Issues s g (.monclr i) → Answers (.monclr i) s fun t =>
    tget .idle (t.grp s.cur).mons i.val = .idle ∧ (∀ k, k ≠ i.val → tget .idle (t.grp s.cur).mons k = tget .idle g.mons k) ∧
    (t.grp s.cur).phase = g.onward.phase ∧ g.SameRegs (t.grp s.cur) ∧ s.SameBytes t) ∧
  (∀ (s : State) (n : Nat) (g : Group) (i b off cmp : Nat) (c : Cap), s.groups[n]? = some g → s.resident n = true →
    tget .idle g.mons i = .armed .scratch c (b * 2 ^ 32 + off) cmp → off < 2 ^ 32 → b < 2 ^ 32 → s.peerGone b = false →
    (s.blk b).markedAt off 4 = false →
    Answers (.monitorReread n i) s fun t => s.Around t n ∧ t.ops = s.ops ∧
      tget .idle (t.grp n).mons i = if s.sread b off 4 = cmp then tget .idle g.mons i else .fired (s.sread b off 4))

/-- Copies issue, are checked and move their bytes: `CopiesEnterTheirQueue`, `CopyChecks`, `CopyMovesItsBytes`. -/
def Obligations.CopiesMoveBytes : Prop :=
  Sys2Proof.Claims.CopiesEnterTheirQueue ∧ Sys2Proof.Claims.CopyChecks ∧ Sys2Proof.Claims.CopyMovesItsBytes

/-- Matrix commands issue and are checked: `MatrixCommandsEnterTheirQueue`, `MatrixChecks`. -/
def Obligations.MatrixCommandsIssue : Prop :=
  Sys2Proof.Claims.MatrixCommandsEnterTheirQueue ∧ Sys2Proof.Claims.MatrixChecks

/-- What the oldest matrix command of a group does when it is performed (R303, R310, R312, R320, R321, R324, R325): every byte of the accumulator
region that the command does not name is as before, and the command is over.
Completion (exec answers a next state with the effect) is stated of: matrixCommandComplete. -/
def Obligations.MatrixCommandsArePerformed : Prop :=
  ∀ (s : State) (op : Nat) (p : Op) (a d : RF) (k first : Nat), s.ops = [(op, p)] → s.matHead op = true →
    let b := (s.grp p.gid).blk
    b < s.blocks.length →
    let acc := fun (s : State) x => mget (s.blk b).acc x
    let done := fun (t : State) => t.ops = [] ∧ t.mem = s.mem
    (p.instr = .accz a → p.ps = [first, k] → Answers (.matrixCommandComplete op) s fun t => done t ∧
      ∀ x, acc t x = if 128 * first ≤ x ∧ x < 128 * (first + k) then 0 else acc s x) ∧
    (∀ dst, p.instr = .acccp a → p.ps = [first, dst, k] → Answers (.matrixCommandComplete op) s fun t => done t ∧
      ∀ x, acc t x = if 128 * dst ≤ x ∧ x < 128 * (dst + k) then acc s (128 * first + (x - 128 * dst)) else acc s x) ∧
    (∀ off st, p.instr = .accld a .scratch → p.ps = [first, k, off, st] → s.peerGone b = false → Answers (.matrixCommandComplete op) s fun t =>
      done t ∧ ∀ x, acc t x = if 128 * first ≤ x ∧ x < 128 * (first + k)
        then mget (s.blk b).scr (off + (x / 128 - first) * st + x % 128) else acc s x) ∧
    (∀ off st, p.instr = .accst a .scratch → p.ps = [first, 1, off, st] → s.peerGone b = false → Answers (.matrixCommandComplete op) s fun t =>
      done t ∧ (∀ x, acc t x = acc s x) ∧ ∀ x, mget (t.blk b).scr x =
        if off ≤ x ∧ x < off + 128 then acc s (128 * first + (x - off)) else mget (s.blk b).scr x) ∧
    (∀ L c, p.instr = .accxa d a false → lanesOf p.mask = [L] → (tget 0 p.vals L).toNat = c → Answers (.matrixCommandComplete op) s fun t =>
      done t ∧ (t.blk b).xc c = xcAdd ((s.blk b).xc c) (tget 0 p.vals (32 + L)) % 2 ^ 512 ∧
      ∀ x, x < 64 * c ∨ 64 * c + 64 ≤ x → acc t x = acc s x) ∧
    (∀ n, p.instr = .accxr d a false → p.dest = [.lane n] → Answers (.matrixCommandComplete op) s fun t => done t ∧
      (∀ x, acc t x = acc s x) ∧ (p.gid < s.groups.length → ∀ L, L < 32 → (t.grp p.gid).phys n L =
        if (p.mask ||| p.helpers).getLsbD L = true then
          (if 64 * (tget 0 p.vals L).toNat < (s.glch p.gid).accRows * 128 then xcRound ((s.blk b).xc (tget 0 p.vals L).toNat) else 0)
        else (s.grp p.gid).phys n L))

/-- MMA adds products, and exact cells are exact: `MmaAddsProducts`, `ExactCellsAreExact`. -/
def Obligations.ProductsAreExact : Prop :=
  Sys2Proof.Claims.MmaAddsProducts ∧ Sys2Proof.Claims.ExactCellsAreExact

/-- Walker commands: `WalkerCommandsIssue`, `WalkerChecks`, `WalkerCommandsArePerformed`. -/
def Obligations.WalkerCommands : Prop :=
  Sys2Proof.Claims.WalkerCommandsIssue ∧ Sys2Proof.Claims.WalkerChecks ∧ Sys2Proof.Claims.WalkerCommandsArePerformed

/-- Walks: their order, displacements, tiles and reads: `WalksGenerateEntries`, `WalkDisplacements`, `TilesAreChosenByResidency`, `WalkerReadsReturn`. -/
def Obligations.WalksGenerateAndRead : Prop :=
  Sys2Proof.Claims.WalksGenerateEntries ∧ Sys2Proof.Claims.WalkDisplacements ∧ Sys2Proof.Claims.TilesAreChosenByResidency ∧
  Sys2Proof.Claims.WalkerReadsReturn

/-- Sequence, free-list, launch and link commands issue and are checked: `SequenceOperationsIssue`, `SequenceChecksAtIssue`, `LaunchAndLinkCommandsIssue`. -/
def Obligations.SequenceAndLaunchCommandsIssue : Prop :=
  Sys2Proof.Claims.SequenceOperationsIssue ∧ Sys2Proof.Claims.SequenceChecksAtIssue ∧ Sys2Proof.Claims.LaunchAndLinkCommandsIssue

/-- Sequences, free lists and launch tokens answer: `SequenceAnswers`, `SequenceAnswersRefuse`, `FreeListAnswers`, `TokensAreTested`. -/
def Obligations.SequencesAndTokensAnswer : Prop :=
  Sys2Proof.Claims.SequenceAnswers ∧ Sys2Proof.Claims.SequenceAnswersRefuse ∧ Sys2Proof.Claims.FreeListAnswers ∧
  Sys2Proof.Claims.TokensAreTested

/-- Merge commands issue and are checked: `MergeCommandsEnterTheirQueue`, `MergeChecks`. -/
def Obligations.MergeCommandsIssue : Prop :=
  Sys2Proof.Claims.MergeCommandsEnterTheirQueue ∧ Sys2Proof.Claims.MergeChecks

/-- Merge commands are performed (R388, R390 to R393, R397): MGPOP takes one from DEPTH and changes no other byte; MGBIAS writes the logarithm of each
size; MGSTAT gives DEPTH and SSAT; an MGMERGE on a full stack gives 0xFFFFFFFF and writes nothing; an empty stack makes a deferred trap 0x13.
Completion (exec answers a next state with the effect) is stated of: mergeCommandComplete. -/
def Obligations.MergeCommandsArePerformed : Prop :=
  ∀ (s : State) (op : Nat) (p : Op) (g : Group) (d a : RF), s.ops = [(op, p)] → s.groups[p.gid]? = some g → g.blk < s.blocks.length →
    (s.core (s.gblk p.gid).core).mq.head? = some op →
    let b := g.blk
    let byte := fun (s : State) x => mget (s.blk b).scr x
    let done := fun (t : State) => t.ops = [] ∧ t.mem = s.mem
    (∀ sb, p.instr = .mgpop a → p.ps = [sb] → s.headerLost b sb = false → s.depthAt b sb ≠ 0 → Answers (.mergeCommandComplete op) s fun t =>
      done t ∧ t.depthAt b sb = s.depthAt b sb - 1 ∧ ∀ x, x < sb ∨ sb + 4 ≤ x → byte t x = byte s x) ∧
    (∀ sb, p.instr = .mgpop a → p.ps = [sb] → s.headerLost b sb = false → s.depthAt b sb = 0 → g.phase ≠ .stopped → g.phase ≠ .exited →
      Answers (.mergeCommandComplete op) s fun t => done t ∧ s.SameBytes t ∧
        (t.grp p.gid).deferred = g.deferred ++ [⟨0x13, BitVec.ofNat 32 sb, 0, p.mask, []⟩]) ∧
    (∀ at_ n out, p.instr = .mgbias a → p.ps = [at_, n, out] → (s.blk b).marked = [] →
      Answers (.mergeCommandComplete op) s fun t => done t ∧ (∀ i, i < n → t.sread b (out + 4 * i) 4 =
          (flog2 (BitVec.ofNat 32 ((Val.fin false (s.sread b (at_ + 2 * i) 2) 0).round fp32 .rne false))).toNat) ∧
        ∀ x, x < out ∨ out + 4 * n ≤ x → byte t x = byte s x) ∧
    (∀ sb k, p.instr = .mgstat d a → p.ps = [sb] → p.dest = [.uni k] → s.headerLost b sb = false → s.depthAt b sb = 0 →
      Answers (.mergeCommandComplete op) s fun t => done t ∧ s.SameBytes t ∧ (t.grp p.gid).uni k = BitVec.ofNat 32 (256 * (s.blk b).ssat) ∧
        ∀ j, j ≠ k → (t.grp p.gid).uni j = g.uni j) ∧
    (∀ k n pr x y, p.instr = .mgmerge d a → p.dest = [.uni k] → countsOf (p.ps.getD 0 0) = some (n, pr) →
      toks (p.ps.getD 2 0) (p.ps.getD 3 0) = some x → toks (p.ps.getD 4 0) (p.ps.getD 5 0) = some y →
      s.headerLost b (p.ps.getD 11 0) = false → s.depthAt b (p.ps.getD 11 0) = 8 → Answers (.mergeCommandComplete op) s fun t =>
        done t ∧ s.SameBytes t ∧ (t.grp p.gid).uni k = 0xFFFFFFFF)

/-- The commit doorbell (R121, R124, R134): RESERVE and COMMIT of no record or more than 256, of a queue that is not the host's, and of more than is
reserved report their status; a RESERVE gives its first position and how many, or reports a full window or an empty free list; a COMMIT commits the oldest positions that the host
has reserved; and a REFRESH takes the queue's entry over: OFF when it is bad or disabled. Which status comes first where several apply is the model's choice (log entry 56).
Completion (exec answers a next state with the effect) is stated of: reserve, commit, refresh. -/
def Obligations.DoorbellCommands : Prop :=
  ∀ (s : State) (ctx qn n : Nat),
    let q := s.queue ctx qn
    let d := s.seqGet ctx q.seq
    (n = 0 ∨ 256 < n → Answers (.reserve ctx qn n) s (fun t => t = s.bellFail 4) ∧ Answers (.commit ctx qn n) s fun t => t = s.bellFail 4) ∧
    (1 ≤ n → n ≤ 256 → s.hostQueue ctx qn = false →
      Answers (.reserve ctx qn n) s (fun t => t = s.bellFail 1) ∧ Answers (.commit ctx qn n) s fun t => t = s.bellFail 1) ∧
    (∀ k p ps u, 1 ≤ n → n ≤ 256 → s.hostQueue ctx qn = true → d.st = 1 → d.rlen < d.clen + 256 → s.behind ctx q.seq s.nextOp = false →
      k = s.resCount ctx q.seq (min n (256 - (d.rlen - d.clen))) 0 → s.reserveAll ctx q.seq (List.replicate k 0) = (u, .got (p :: ps)) →
      Answers (.reserve ctx qn n) s fun t => t.le.cdbr0 = p.pos + 2 ^ 40 * (ps.length + 1) ∧ t.le.cdbr1 = d.slotAt p.brk p.slot ∧
        (t.queue ctx qn).hostRes = q.hostRes ++ (p :: ps).map fun x => x.pos) ∧
    (∀ k u, 1 ≤ n → n ≤ 256 → s.hostQueue ctx qn = true → d.st = 1 → k = s.resCount ctx q.seq (min n (max (256 - (d.rlen - d.clen)) 1)) 0 →
      (s.reserveAll ctx q.seq (List.replicate k 0) = (u, .wait) → Answers (.reserve ctx qn n) s fun t => t = s.bellFail 5) ∧
      ∀ f need, s.reserveAll ctx q.seq (List.replicate k 0) = (u, .empty f need) → Answers (.reserve ctx qn n) s fun t => t = s.bellFail 2) ∧
    (1 ≤ n → n ≤ 256 → s.hostQueue ctx qn = true → q.hostRes.length < n → Answers (.commit ctx qn n) s fun t => t = s.bellFail 3) ∧
    (1 ≤ n → n ≤ 256 → s.hostQueue ctx qn = true → n ≤ q.hostRes.length → Answers (.commit ctx qn n) s fun t =>
      t.le.cdbr0 = 2 ^ 40 * n ∧ t.le.cdbr1 = 0 ∧ (t.queue ctx qn).hostRes = q.hostRes.drop n ∧
      t.mem = ((q.hostRes.take n).foldl (fun u p => u.commitAt ctx q.seq p 1) (s.setQueue ctx qn { q with hostRes := q.hostRes.drop n })).mem) ∧
    (let v := s.noteRead ctx ((s.ctx ctx).launchArea * 2 ^ 40 + 0x400 + 8 * qn)
      let e := v.oread ctx (v.ctx ctx).launchArea (0x400 + 8 * qn) 8
      let x := v.seqGet ctx (fld e 0 20)
      (s.ctx ctx).reg = true → qn < 1024 →
      (fld e 24 40 ≠ 0 ∨ v.seqValid ctx (fld e 0 20) = false ∨ x.lq ≠ 1 ∨ x.recSize ≠ 128 → Answers (.refresh ctx qn) s fun t =>
        (t.queue ctx qn).st = .off ∧ t.le.cdbr0 = 2 ^ 49) ∧
      (fld e 24 40 = 0 → v.seqValid ctx (fld e 0 20) = true → x.lq = 1 → x.recSize = 128 →
        (fld e 22 1 = 0 → Answers (.refresh ctx qn) s fun t => (t.queue ctx qn).st = .off ∧ t.le.cdbr0 = 0) ∧
        (fld e 22 1 = 1 → Answers (.refresh ctx qn) s fun t => (t.queue ctx qn).st ≠ .off ∧ (t.queue ctx qn).seq = fld e 0 20 ∧
          (t.queue ctx qn).cls = fld e 20 2 ∧ (t.queue ctx qn).host = (fld e 23 1 == 1) ∧ t.le.cdbr0 = 0)))

/-- A mapped queue accepts its next record (R126, R128, R130): a valid record without a counter becomes a launch that waits behind the queue's others,
in the lower of its class and the queue's; a record of another version is passed over and counted; a queue that is not mapped with work, or has 64 launches waiting, accepts none. What the engine reads passes its port, which sets A (R406).
Completion (exec answers a next state with the effect) is stated of: recordAccept. -/
def Obligations.RecordsAreAccepted : Prop :=
  ∀ (s : State) (ctx qn x : Nat),
    let q := s.queue ctx qn
    let d := s.seqGet ctx q.seq
    let r := LRec.ofBits x
    let v := (s.noteReads ctx (s.brickSectors ctx d (s.brickAt ctx d q.cursor).toList)).noteReads ctx (s.recSectors ctx d q.cursor)
    (q.st ≠ .mw ∨ 64 ≤ q.waiting.length → Answers (.recordAccept ctx qn) s fun t => t = s) ∧
    (s.ops = [] → q.st = .mw → q.waiting.length < 64 → s.seqValid ctx q.seq = true → q.cursor < d.clen → s.recAt ctx d q.cursor = some x →
      (r.ver ≠ 1 → Answers (.recordAccept ctx qn) s fun t => t.launches = s.launches ∧ (t.queue ctx qn).cursor = q.cursor + 1 ∧
        t.cnt = (v.count 0 0 4 1).cnt ∧ v.SameBytes t) ∧
      (r.ver = 1 → r.cctr < 128 → v.recValid ctx r = true → Answers (.recordAccept ctx qn) s fun t => ∃ l, t.launches = s.launches ++ [l] ∧
        l.ctx = ctx ∧ l.qn = qn ∧ l.pos = q.cursor ∧ l.lr = { r with cls := min r.cls q.cls } ∧ l.token = 0 ∧ l.st = .accepted ∧
        l.accTick = s.tick % 2 ^ 32 ∧ (t.queue ctx qn).waiting = q.waiting ++ [s.launches.length] ∧ (t.queue ctx qn).cursor = q.cursor + 1 ∧
        v.SameBytes t))

/-- Blocks, launches and dies end, and lent ways return: `LaunchesAndBlocksEnd`, `ReclaimReturnsLentWays`. -/
def Obligations.LaunchesAndBlocksEnd : Prop :=
  Sys2Proof.Claims.LaunchesAndBlocksEnd ∧ Sys2Proof.Claims.ReclaimReturnsLentWays

/-- Launch queue slots, ticks and replays: `QueueSlotsMove`, `TicksAndReplays`. -/
def Obligations.QueueSlotsAndTicks : Prop :=
  Sys2Proof.Claims.QueueSlotsMove ∧ Sys2Proof.Claims.TicksAndReplays

/-- Courses start, leave and come back (R140, R145, R149, R153, R164): the allocation of a block's pool makes its groups, each to fetch the entry
clause with the record's s0 to s15 and the lanes of R164, and the course runs when its last block is allocated; an image is complete when nothing it
waits for is left; a word whose saved copy is uncorrectable is restored marked and logged (R396); a filled image waits for the bank switch, which
begins the outgoing course's image and starts the incoming one's slice.
Completion (exec answers a next state with the effect) is stated of: poolAllocationComplete, spillComplete, imageFillComplete, bankSwitchComplete. -/
def Obligations.CoursesComeAndGo : Prop :=
  (∀ (s : State) (b : Nat) (x : Block), s.blocks[b]? = some x →
    let l := s.lch x.launch
    let c := s.crs x.course
    let total := if l.lr.nlanes = 0 then l.lr.ncourse * l.lr.bpc * l.lr.gpb * 32 else l.lr.nlanes
    (x.st ≠ .allocating → Answers (.poolAllocationComplete b) s fun t => t = s) ∧
    (x.st = .allocating → (∃ y ∈ c.blocks, y ≠ b ∧ (s.blk y).st = .allocating) →
      Answers (.poolAllocationComplete b) s fun t => ∃ gs, t.groups = s.groups ++ gs ∧ gs.length = l.lr.gpb ∧ (t.blk b).st = .live ∧
        ∀ i g, gs[i]? = some g → g.blk = b ∧ g.gid = i ∧ g.phase = .fetch l.lr.entry ∧ g.alloc = 8 * (l.lr.part % 256) ∧
          (∀ k, k < 16 → g.uni k = BitVec.ofNat 32 (l.lr.s.getD k 0)) ∧
          (∀ L, L < 32 →
            let n := 32 * (((c.num * l.lr.bpc + x.rank) * l.lr.gpb) + i) + L
            (g.lanes.launch.getLsbD L = true ↔ n < total) ∧
            (g.lanes.helper.getLsbD L = true ↔ total ≤ n ∧ n < (total + 3) / 4 * 4))) ∧
    (x.st = .allocating → x.course < s.courses.length → c.st = .placed → (∀ y ∈ c.blocks, y ≠ b → (s.blk y).st ≠ .allocating) → c.outs = [] →
      s.third x.course = false → c.image = none → Answers (.poolAllocationComplete b) s fun t => (t.crs x.course).st = .running ∧ (t.crs x.course).sliceStart = s.tick ∧
        (t.blk b).st = .live ∧ t.groups.length = s.groups.length + l.lr.gpb)) ∧
  (∀ (s : State) (c : Nat) (x : Course), s.courses[c]? = some x →
    (x.st ≠ .spilling → Answers (.spillComplete c) s fun t => t = s) ∧
    (x.st = .spilling → s.spillWaits c = true → Answers (.spillComplete c) s fun t =>
      t = (if s.holdsSwitch c then s.stretch c else s).later (.spillComplete c)) ∧
    (x.st = .spilling → s.spillWaits c = false →
      Answers (.spillComplete c) s fun t => t.crs c = { x with st := .saved, complete := true, waitSince := some s.tick } ∧ t.groups = s.groups) ∧
    (x.st ≠ .filling → ∀ bad, Answers (.imageFillComplete c bad) s fun t => t = s) ∧
    (x.st = .filling → x.outs ≠ [] → (∀ b ∈ x.blocks, b ∉ (s.core (s.blk b).core).reclaim) → Answers (.imageFillComplete c []) s fun t =>
      t = { s with courses := s.courses.set c { x with st := .switching }, agenda := s.agenda ++ [.bankSwitchComplete c] }) ∧
    (∀ b w, x.st = .filling → x.outs ≠ [] → x.blocks = [b] → b < s.blocks.length →
      b ∉ (s.core (s.blk b).core).reclaim → w % 4 = 0 → w + 4 ≤ (s.lch (s.blk b).launch).scr → w ∉ (s.blk b).marked →
      Answers (.imageFillComplete c [(0, w)]) s fun t => (t.blk b).marked = (s.blk b).marked ++ [w] ∧ t.mg.log.next = s.mg.log.next + 1) ∧
    (x.st ≠ .switching → Answers (.bankSwitchComplete c) s fun t => t = s) ∧
    (∀ o a y, s.courses[o]? = some y → c ≠ o → x.st = .switching → x.outs = [o] → x.image = none → y.st = .running → s.imageAt o = some a →
      s.holdsSwitch o = false → s.third c = false → (s.swapOut o).matrixBusy o = false → Answers (.bankSwitchComplete c) s fun t =>
        t = ((s.swapOut o).count 0 0 0 1).startCourse c ∧ (t.crs c).st = .running ∧ (t.crs c).sliceStart = s.tick ∧ (t.crs o).st = .spilling ∧
        (t.crs o).image = some a ∧ .spillComplete o ∈ t.agenda))

/-- The mailbox commands that set up a context (R120, R348, R351, R403, R413, R458, R465, R466): in READY, with no other bit of ARGS set, each
checks what the rules say, takes over its arguments, and ends with status 0 and BUSY clear.
Completion (exec answers a next state with the effect) is stated of: ctxreg, seqarea, flset, objtab, faultseq, notetab, ctxrel. -/
def Obligations.ContextCommands : Prop :=
  ∀ (s : State) (c : Nat), s.mg.boot = .ready → c = s.argCtx →
    let x := s.ctx c
    let a := fun k => s.arg k 4
    (s.argsClean [(0, 0, 25), (4, 0, 24), (8, 0, 24)] = true → x.reg = false → x.tbl = true → s.objIn c (a 4) = true → s.objIn c (a 8) = true →
      x.aliasCtx ≠ c ∨ fld (a 0) 24 1 = 1 → oKind (s.objRaw c (a 4)) = 1 → 9216 ≤ oSize (s.objRaw c (a 4)) → Answers .ctxreg s fun t =>
        Ended t 0 ∧ t.mem = s.mem ∧ t.ctx c = { x with
          reg := true, tenant := fld (a 0) 12 12, priv := (fld (a 0) 24 1 == 1), launchArea := a 4, saveObj := a 8 }) ∧
    (s.argsClean [(0, 0, 12), (4, 0, 24), (8, 0, 24)] = true → x.reg = true → x.seq = false → s.objIn c (a 4) = true → s.objIn c (a 8) = true →
      0x1040 ≤ oSize (s.objRaw c (a 4)) → oSize (s.objRaw c (a 4)) % 64 = 0 → oSize (s.objRaw c (a 8)) % 256 = 0 →
      s.allPages c (a 4) = true → s.allPages c (a 8) = true → Answers .seqarea s fun t => Ended t 0 ∧ t.ctx c = { x with
        seq := true, seqArea := a 4, mapPool := a 8, nseq := min ((oSize (s.objRaw c (a 4)) - 0x1000) / 64) (2 ^ 20) }) ∧
    (s.argsClean [(0, 0, 12), (0, 16, 6), (4, 0, 24), (8, 0, 5)] = true → 8 ≤ a 8 → a 8 ≤ 20 → x.reg = true → x.seq = true →
      s.objIn c (a 4) = true → s.allPages c (a 4) = true → (s.flGet c (fld (a 0) 16 6)).count = 0 → Answers .flset s fun t =>
        Ended t 0 ∧ t.mem = (s.flPut c (fld (a 0) 16 6) ⟨a 4, a 8, 0, 0, 0⟩).mem) ∧
    (s.argsClean [(0, 0, 12), (8, 0, 52), (0x10, 0, 32), (0x18, 0, 52), (0x20, 0, 40), (0x28, 0, 12), (0x2C, 0, 24)] = true →
      s.arg 8 8 % 32 = 0 → 2 ≤ a 0x10 → a 0x10 ≤ 2 ^ 24 → s.arg 0x18 8 % 65536 = 0 → s.arg 0x20 8 % 65536 = 0 → s.arg 0x18 8 ≤ s.arg 8 8 →
      s.arg 8 8 + 32 * a 0x10 ≤ s.arg 0x18 8 + s.arg 0x20 8 → s.arg 0x18 8 + s.arg 0x20 8 ≤ memBytes →
      (if (s.ctx (a 0x28)).reg = true then (s.ctx (a 0x28)).priv = true else a 0x28 = c) → Answers .objtab s fun t =>
        Ended t 0 ∧ t.mem = s.mem ∧ t.ctx c = { x with
          tbl := true, tblBase := s.arg 8 8, tblN := a 0x10, regBase := s.arg 0x18 8, regLen := s.arg 0x20 8, aliasCtx := a 0x28, aliasObj := a 0x2C }) ∧
    (s.argsClean [(0, 0, 12), (4, 0, 20)] = true → x.reg = true → s.seqValid c (a 4) = true → (s.seqGet c (a 4)).recSize = 32 →
      Answers .faultseq s fun t => Ended t 0 ∧ t.mem = s.mem ∧ t.ctx c = { x with faultSeq := some (a 4) }) ∧
    (∀ k, k < 13 → s.argsClean [(0, 0, 12), (4, 0, 24), (8, 0, 32)] = true → a 8 = 2 ^ k → x.reg = true → s.objIn c (a 4) = true →
      8 * 2 ^ k ≤ oSize (s.objRaw c (a 4)) → Answers .notetab s fun t =>
        Ended t 0 ∧ t.mem = s.mem ∧ t.ctx c = { x with noteObj := a 4, noteN := 2 ^ k }) ∧
    (s.argsClean [(0, 0, 12)] = true → x.reg = true → (∀ l ∈ s.launches, l.ctx = c → l.st = .complete) → Answers .ctxrel s fun t =>
      Ended t 0 ∧ t.mem = s.mem ∧ (t.ctx c).reg = false ∧ (t.ctx c).seq = false ∧ ∀ qn, qn < 1024 → (t.queue c qn).st = .off)

/-- The mailbox commands on sequences and on the machine (R136, R159, R368, R372, R417, R446, R454, R455, R461, R466, R470, R471, R473).
Completion (exec answers a next state with the effect) is stated of: quantum, tclimset, domain, protdom, poisondel, logrot, pwrlim, portrst, dieup,
sqcreate, flfill, sqdel. -/
def Obligations.MachineCommands : Prop :=
  ∀ (s : State) (c : Nat), s.mg.boot = .ready → c = s.argCtx →
    let x := s.ctx c
    let a := fun k => s.arg k 4
    (s.argsClean [(0, 0, 2), (4, 0, 32)] = true → 1 ≤ a 4 → a 4 ≤ 1000 → Answers .quantum s fun t => Ended t 0 ∧ t.mem = s.mem ∧
      t.quantum (a 0) = a 4 ∧ t.arg 8 4 = s.quantum (a 0) % 2 ^ 32 ∧ ∀ k, k ≠ a 0 → t.quantum k = s.quantum k) ∧
    (s.argsClean [(0, 0, 5), (0, 8, 5), (4, 0, 17)] = true → fld (a 0) 8 5 ≤ 19 → Answers .tclimset s fun t =>
      Ended t 0 ∧ tget 0 t.fab.tclim (routerAt (fld (a 0) 0 5) (fld (a 0) 8 5)) = a 4) ∧
    (s.argsClean [(0, 0, 32), (4, 0, 5)] = true → 1 ≤ fld (a 4) 2 3 → fld (a 4) 2 3 ≤ 4 →
      (∀ e ∈ s.link.ports, e.2.isDomain = true → e.2.st ≠ .up) → Answers .domain s fun t => Ended t 0 ∧ t.mem = s.mem ∧
        t.link.domId = a 0 ∧ t.link.domPkg = fld (a 4) 0 2 ∧ t.link.domSize = fld (a 4) 2 3) ∧
    (∀ n (rs : List Region), n = fld (a 0) 8 5 → n ≤ 16 → s.argsClean ([(0, 0, 6), (0, 8, 5)] ++
        (List.range n).flatMap fun r => [(0x10 + 16 * r, 0, 52), (0x18 + 16 * r, 0, 40), (0x18 + 16 * r, 62, 2)]) = true →
      rs = (List.range n).map (fun r => ⟨s.arg (0x10 + 16 * r) 8, fld (s.arg (0x18 + 16 * r) 8) 0 40, fld (s.arg (0x18 + 16 * r) 8) 62 1 == 1,
        fld (s.arg (0x18 + 16 * r) 8) 63 1 == 1⟩) →
      (∀ e ∈ rs, e.base % 65536 = 0 ∧ e.len % 65536 = 0) → fld (a 0) 0 4 ≤ 11 → (s.port (fld (a 0) 0 4)).attested = true →
      Answers .protdom s fun t => Ended t 0 ∧ t.mem = s.mem ∧ tget [] t.link.prot (4 * fld (a 0) 0 4 + fld (a 0) 4 2) = rs) ∧
    (s.argsClean [(0, 0, 12), (4, 0, 24), (8, 0, 24)] = true → x.reg = true → s.objIn c (a 4) = true → Answers .poisondel s fun t =>
      Ended t 0 ∧ t.mem = s.mem ∧ ∀ e ∈ t.slices, (c, a 4, a 8) ∉ e.2.poison) ∧
    (s.argsClean [(0, 0, 12), (4, 0, 24)] = true → x.reg = true → s.objIn c (a 4) = true → oKind (s.objRaw c (a 4)) = 1 →
      oSize (s.objRaw c (a 4)) % 32 = 0 → 64 ≤ oSize (s.objRaw c (a 4)) → s.allPages c (a 4) = true → s.everLog (a 4) = false → a 4 ≠ 0 →
      Answers .logrot s fun t => Ended t 0 ∧ t.mg.log.ctx = c ∧ t.mg.log.obj = a 4 ∧ t.mg.log.first = s.mg.log.next ∧
        t.mg.log.next = s.mg.log.next + 1 ∧ t.arg 8 8 = s.mg.log.next % 2 ^ 64) ∧
    (s.argsClean [(0, 0, 32)] = true →
      (1000 ≤ a 0 → a 0 ≤ 4500 → Answers .pwrlim s fun t => Ended t 0 ∧ t.mem = s.mem ∧ t.mg.pwrlim = a 0 ∧ t.arg 4 4 = s.mg.pwrlim % 2 ^ 32) ∧
      (a 0 ≤ 11 → (s.port (a 0)).st = .failed → Answers .portrst s fun t => Ended t 0 ∧ t.mem = s.mem ∧ (t.port (a 0)).st = .down) ∧
      (a 0 ≤ 7 → Answers .dieup s fun t => Ended t 0 ∧ t.mem = s.mem ∧ t.le.deadDies = s.le.deadDies.filter (· != a 0))) ∧
    (∀ u n, s.argsClean [(0, 0, 12), (4, 0, 20), (8, 0, 32), (0x0C, 0, 32)] = true → newLegal (a 8) (a 0x0C) = true → x.reg = true → x.seq = true →
      s.seqNew c (a 4) (a 8) (a 0x0C) none = (u, .status n) → Answers .sqcreate s fun t =>
        Ended t 0 ∧ t.mem = u.mem ∧ t.arg 0x10 4 = n % 2 ^ 32) ∧
    (∀ f n at_ u, s.argsClean [(0, 0, 12), (0, 16, 6), (8, 0, 40), (0x10, 0, 32)] = true → f = fld (a 0) 16 6 → at_ = s.arg 8 8 → n = a 0x10 →
      1 ≤ n → n ≤ 2 ^ 20 → x.reg = true → x.seq = true → (s.flGet c f).pool ≠ 0 → at_ % 2 ^ (s.flGet c f).bszl = 0 →
      at_ + n * 2 ^ (s.flGet c f).bszl ≤ oSize (s.objRaw c (s.flGet c f).pool) →
      s.pagesIn c (s.flGet c f).pool at_ (n * 2 ^ (s.flGet c f).bszl) = true →
      u = (List.range n).foldl (fun t i => t.flGive c f (at_ + i * 2 ^ (s.flGet c f).bszl)) s →
      Answers .flfill s fun t => Ended t 0 ∧ t.mem = u.mem ∧ t.arg 0x14 4 = (u.flGet c f).count % 2 ^ 32) ∧
    (s.argsClean [(0, 0, 12), (4, 0, 20)] = true → x.reg = true → s.seqValid c (a 4) = true → Answers .sqdel s fun t =>
      Ended t 0 ∧ t.mem = (s.seqRelease c (a 4)).mem)

/-- STATUS, CNTREAD and LOGREAD in any boot state, and what every command refuses (R463, R464, R466): outside READY another command ends with status
3, and a bit of ARGS that its row does not assign with status 2, having changed nothing.
Completion (exec answers a next state with the effect) is stated of: status, cntread, logread. -/
def Obligations.MailboxAnswers : Prop :=
  ∀ s : State,
    let a := fun k => s.arg k 4
    (s.argsClean [] = true → Answers .status s fun t => Ended t 0 ∧ t.mem = s.mem ∧ t.arg 4 4 = s.mg.repaired % 2 ^ 32 ∧
      t.arg 0 4 = ((match s.mg.boot with | .rom => 0 | .selftest => 1 | .ready => 2 | .safe => 3) + 256 * s.mg.code) % 2 ^ 32) ∧
    (∀ b i k n, s.argsClean [(0, 0, 8), (0, 16, 16), (4, 0, 32), (8, 0, 32)] = true → b = fld (a 0) 0 8 → i = fld (a 0) 16 16 → k = a 4 → n = a 8 →
      i < (counterTable.getD b (0, 0)).2 → 1 ≤ n → n ≤ 500 → k + n ≤ (counterTable.getD b (0, 0)).1 → Answers .cntread s fun t =>
        Ended t 0 ∧ t.mem = s.mem ∧ ∀ j, j < n → timed b (k + j) = false →
          t.arg (0x10 + 8 * j) 8 = tget 0 s.cnt ((b * 65536 + i) * 64 + k + j) % 2 ^ 64) ∧
    (s.argsClean [(0, 0, 64), (8, 0, 32)] = true → a 8 ≤ 126 → Answers .logread s fun t => Ended t 0 ∧ t.mem = s.mem ∧
      t.arg 0 4 = s.mg.log.ctx % 2 ^ 32 ∧ t.arg 4 4 = s.mg.log.obj % 2 ^ 32 ∧ t.arg 8 8 = s.mg.log.committed % 2 ^ 64 ∧
      t.arg 0x18 8 = s.mg.log.first % 2 ^ 64) ∧
    (s.mg.boot ≠ .ready → ∀ i ∈ [Instr.ctxreg, .seqarea, .flset, .objtab, .faultseq, .notetab, .quantum, .tclimset, .domain, .protdom, .poisondel,
      .logrot, .pwrlim, .portrst, .dieup, .ctxrel, .sqcreate, .flfill, .sqdel], Answers i s fun t => t = s.mboxEnd 3 ∧ Ended t 3) ∧
    (∀ e ∈ [(Instr.ctxreg, [(0, 0, 25), (4, 0, 24), (8, 0, 24)]), (.seqarea, [(0, 0, 12), (4, 0, 24), (8, 0, 24)]),
        (.flset, [(0, 0, 12), (0, 16, 6), (4, 0, 24), (8, 0, 5)]),
        (.objtab, [(0, 0, 12), (8, 0, 52), (0x10, 0, 32), (0x18, 0, 52), (0x20, 0, 40), (0x28, 0, 12), (0x2C, 0, 24)]),
        (.faultseq, [(0, 0, 12), (4, 0, 20)]), (.notetab, [(0, 0, 12), (4, 0, 24), (8, 0, 32)]), (.quantum, [(0, 0, 2), (4, 0, 32)]),
        (.tclimset, [(0, 0, 5), (0, 8, 5), (4, 0, 17)]), (.domain, [(0, 0, 32), (4, 0, 5)]), (.poisondel, [(0, 0, 12), (4, 0, 24), (8, 0, 24)]),
        (.logrot, [(0, 0, 12), (4, 0, 24)]), (.pwrlim, [(0, 0, 32)]), (.portrst, [(0, 0, 32)]), (.dieup, [(0, 0, 32)]), (.ctxrel, [(0, 0, 12)]),
        (.sqcreate, [(0, 0, 12), (4, 0, 20), (8, 0, 32), (0x0C, 0, 32)]), (.flfill, [(0, 0, 12), (0, 16, 6), (8, 0, 40), (0x10, 0, 32)]),
        (.sqdel, [(0, 0, 12), (4, 0, 20)])],
      s.mg.boot = .ready → s.argsClean e.2 = false → Answers e.1 s fun t => t = s.mboxEnd 2 ∧ Ended t 2) ∧
    (∀ e ∈ [(Instr.status, []), (.cntread, [(0, 0, 8), (0, 16, 16), (4, 0, 32), (8, 0, 32)]), (.logread, [(0, 0, 64), (8, 0, 32)])],
      s.argsClean e.2 = false → Answers e.1 s fun t => t = s.mboxEnd 2 ∧ Ended t 2)

/-- Boot, power and attestation: `BootAndPower`, `AttestationAnswers`. -/
def Obligations.BootPowerAndAttestation : Prop :=
  Sys2Proof.Claims.BootAndPower ∧ Sys2Proof.Claims.AttestationAnswers

/-- Reads in a tree (R431 to R434, R441, R442): a read that meets no entry installs one that joins and goes on, or is supplied at the root, from L2 or
after memory is read; it waits at an entry that is torn down, and is steered from one that stands. A bounced read goes to the root, which steers it
along OWN. A slab's read goes to its proxy root, which asks the holder or the slab's home. A holder supplies its sector, M becoming O and E becoming S;
DATA goes from router to router, the requester holds the sector then, and JDONE makes the entries on its way stable. A message whose hold buffer is
full stays on its link (R431); an engine that is about to write the line supplies it after the write (R108).
Completion (exec answers a next state with the effect) is stated of: rd, srdSteeredRead, data, jdone. -/
def Obligations.ReadMessages : Prop :=
  ∀ (s : State) (m : TMsg),
    let e := s.ent m
    let root := s.rootOf m
    let at_ := agentRouter m.core
    let x := s.line m.core m.agent m.line
    let takes := s.holdFull .rd m = false ∧ m.excl = false
    (s.holdFull .rd m = true → Answers (.rd m) s fun t => t = s.onLink (.rd m)) ∧
    (s.holdFull .srd m = true → Answers (.srdSteeredRead m) s fun t => t = s.onLink (.srdSteeredRead m)) ∧
    (takes → (e.st = .tearing ∨ e.st = .pruning) → Answers (.rd m) s fun t => t = s.hold .rd m) ∧
    (takes → e.st = .invalid → (s.victimAt m.router m.key).1 = true → m.router ≠ root → Answers (.rd m) s fun t =>
      (t.ent m).st = .joining ∧ (t.ent m).par = toward m.router root ∧ .rd (State.onward m root) ∈ t.agenda ∧ s.SameBytes t) ∧
    (takes → m.slab = false → e.st = .invalid → (s.victimAt m.router m.key).1 = true → m.router = root →
      (s.inL2 m.key m.sector = true → Answers (.rd m) s fun t =>
        .data { m with excl := true, top := if m.top = 0 then root + 1 else m.top } ∈ t.agenda) ∧
      (s.inL2 m.key m.sector = false → fld (tget L2Line.none (s.slice (homeSlice m.key)).l2 m.key).filling m.sector 1 = 0 →
        Answers (.rd m) s fun t => .hbmReadComplete m.key m.sector .clean ∈ t.agenda)) ∧
    (takes → m.slab = false → (e.st = .stable ∨ e.st = .joining) → m.router ≠ root → Answers (.rd m) s fun t =>
      .srdSteeredRead { m with top := m.router + 1 } ∈ t.agenda ∧ (m.arr < 4 → fld (t.ent m).ch m.arr 1 = 1) ∧ s.SameBytes t) ∧
    (s.holdFull .rd m = false → m.excl = true →
      (m.router ≠ root → Answers (.rd m) s fun t => t = s.push (.rd (State.onward m root))) ∧
      (m.router = root → (e.st = .stable ∨ e.st = .joining) → 1 ≤ e.own → e.own ≤ 4 → Answers (.rd m) s fun t =>
        .srdSteeredRead { m.step (e.own - 1) with excl := false } ∈ t.agenda)) ∧
    (takes → m.slab = true → e.st = .stable →
      (m.router ≠ root → Answers (.rd m) s fun t => .rd (State.onward m root) ∈ t.agenda) ∧
      (m.router = root → fld x.pending 0 2 ≠ 0 → s.dirtyInMesh m.line = false →
        (e.pst = 2 → s.owned m.line = true → Answers (.rd m) s fun t => ∀ k ∈ State.kids (State.joinAt e m), .snoop (m.step k) ∈ t.agenda) ∧
        (∀ p, e.pst ≠ 2 → s.slabPort (x.pa / 65536 % 4) m.key = some p → Answers (.rd m) s fun t =>
          t.link.ports = (s.linkSend p (.slabRead ⟨m.key, m.line % 16, s.link.domPkg, x.ctx, s.tenantOf x.ctx (256 * m.line), false,
            State.agentTag m.core m.agent false, none, []⟩)).link.ports))) ∧
    (s.holdFull .srd m = false → e.st = .invalid → Answers (.srdSteeredRead m) s fun t => .rd { m with excl := true } ∈ t.agenda) ∧
    (s.holdFull .srd m = false → (e.st = .tearing ∨ e.st = .pruning) → Answers (.srdSteeredRead m) s fun t => t = s.hold .srd m) ∧
    (s.holdFull .srd m = false → e.st = .stable → coreAt m.router = none →
      (1 ≤ e.own → e.own ≤ 4 → e.own - 1 ≠ m.arr → Answers (.srdSteeredRead m) s fun t => .srdSteeredRead (m.step (e.own - 1)) ∈ t.agenda) ∧
      ∀ d, e.own = 0 → State.nearest e m = some d → Answers (.srdSteeredRead m) s fun t => .srdSteeredRead (m.step d) ∈ t.agenda) ∧
    (∀ c a, s.holdFull .srd m = false → m.slab = false → (a = 0 ∨ s.engineKeeps (256 * m.key) 256 (s.engineRank m.core m.agent) = false) → e.st = .stable →
      coreAt m.router = some c → c < 448 → a < 4 → fld e.loc a 1 = 1 → (∀ b, b < a → fld e.loc b 1 = 0) → (s.line c a m.key).st ≠ .I →
      fld (s.line c a m.key).pending 2 1 = 0 → fld (s.line c a m.key).valid m.sector 1 = 1 → Answers (.srdSteeredRead m) s fun t =>
        .data { m with excl := false, arr := 4 } ∈ t.agenda ∧
        ((s.line c a m.key).st = .M → (t.line c a m.key).st = .O) ∧ ((s.line c a m.key).st = .E → (t.line c a m.key).st = .S)) ∧
    (m.router ≠ at_ → Answers (.data m) s fun t => .data (State.onward m at_) ∈ t.agenda ∧ s.SameBytes t) ∧
    (m.router = at_ → m.slab = false → m.core < 448 → fld x.pending m.sector 1 = 1 → fld x.pending 3 1 = 0 → s.ops = [] → Answers (.data m) s fun t =>
      fld (t.line m.core m.agent m.key).valid m.sector 1 = 1 ∧ .jdone { m with router := at_, arr := 4, hops := 0, excl := false } ∈ t.agenda ∧
      (t.line m.core m.agent m.key).st = (if x.st = .I then (if m.excl then .E else .S) else x.st) ∧ s.SameBytes t) ∧
    (m.router = at_ → m.slab = false → fld x.pending m.sector 1 = 0 → Answers (.data m) s fun t => t = s) ∧
    (e.st = .joining → tget 0 s.fab.tclim m.router = 0 → Answers (.jdone m) s fun t => (t.ent m).st = .stable ∧
      (m.router ≠ root → m.router + 1 ≠ m.top → .jdone { State.onward m root with hops := m.hops + 1 } ∈ t.agenda))

/-- Ownership (R432, R435, R438, R441): a request goes to the root, which serves one at a time, a slab's once the slab is exclusive here; INV goes
down every branch but the one that is kept, whose router gets TKEEP; acknowledgements are collected upward, with the dirty sectors they bring; GRANT
leaves stable entries with OWN toward the requester, which then holds the line in M. A teardown waits for an engine's write in progress (R108) and for
packages that hold the line; a request whose hold buffer is full stays on its link (R431).
Completion (exec answers a next state with the effect) is stated of: xreq, inv, tkeep, grant, ack. -/
def Obligations.OwnershipMessages : Prop :=
  ∀ (s : State) (m : TMsg),
    let e := s.ent m
    let root := s.rootOf m
    let q := s.rootQ m.rootKey
    let d := downToward m.router (agentRouter m.core)
    let x := s.line m.core m.agent m.line
    let serves := s.holdFull .xreq m = false ∧ m.router = root ∧ q = [] ∧ e.st = .stable
    let down := s.recallWaits m = false ∧ s.linkRecall m = none
    let free := tget 0 s.fab.tclim m.router = 0
    (s.holdFull .xreq m = true → Answers (.xreq m) s fun t => t = s.onLink (.xreq m)) ∧
    (s.holdFull .xreq m = false → m.router ≠ root → e.st = .invalid → (s.victimAt m.router m.key).1 = true → Answers (.xreq m) s fun t =>
      (t.ent m).st = .joining ∧ .xreq (State.onward m root) ∈ t.agenda ∧ s.SameBytes t) ∧
    (s.holdFull .xreq m = false → m.router = root → q ≠ [] → Answers (.xreq m) s fun t => t.rootQ m.rootKey = q ++ [⟨m⟩] ∧ t.agenda = s.agenda) ∧
    (serves → m.slab = false ∨ (e.pst = 2 ∧ s.holdersOf m.line ≠ []) → Answers (.xreq m) s fun t =>
      (∀ k ∈ State.kids (State.joinAt e m), k ≠ d → .inv { m.step k with dirty := 0, excl := false } ∈ t.agenda) ∧
      (d ∈ State.kids (State.joinAt e m) → .tkeep { m.step d with dirty := 0, excl := false } ∈ t.agenda) ∧
      (m.slab = false → coreAt m.router = none → t.rootQ m.rootKey = [⟨m⟩])) ∧
    (∀ p, serves → m.slab = true → e.pst ≠ 2 → s.slabPort (x.pa / 65536 % 4) m.key = some p → Answers (.xreq m) s fun t =>
      t.link.ports = (s.linkSend p (.slabExclusive ⟨m.key, m.line % 16, s.link.domPkg, x.ctx, s.tenantOf x.ctx (256 * m.line), false,
        State.agentTag m.core m.agent false, none, []⟩)).link.ports) ∧
    (s.recallWaits m = true → Answers (.inv m) s (fun t => t = s.later (.inv m)) ∧ Answers (.tkeep m) s fun t => t = s.later (.tkeep m)) ∧
    (∀ u, s.recallWaits m = false → s.linkRecall m = some u →
      Answers (.inv m) s (fun t => t = u.later (.inv m)) ∧ Answers (.tkeep m) s fun t => t = u.later (.tkeep m)) ∧
    (down → e.st = .invalid → Answers (.inv m) s fun t => t = s.push (.ack { m.step m.arr with dirty := 0, excl := false })) ∧
    (down → m.slab = false → e.st = .stable → Answers (.inv m) s fun t =>
      (∀ k ∈ State.kids e, .inv { m.step k with dirty := 0, excl := false } ∈ t.agenda) ∧
      (e.ch = 0 → e.loc < 16 → ∃ y, .ack { m.step m.arr with dirty := y, excl := false } ∈ t.agenda) ∧
      (coreAt m.router = none → t.mem = s.mem) ∧ t.blocks = s.blocks ∧ t.groups = s.groups) ∧
    (down → m.slab = false → e.st = .stable → e.ch ≠ 0 → Answers (.tkeep m) s fun t =>
      (∀ k ∈ State.kids e, k ≠ d → .inv { m.step k with dirty := 0, excl := false } ∈ t.agenda) ∧
      (d ∈ State.kids e → .tkeep { m.step d with dirty := 0, excl := false } ∈ t.agenda) ∧
      (coreAt m.router = none → t.mem = s.mem) ∧ t.blocks = s.blocks ∧ t.groups = s.groups) ∧
    (m.slab = false → e.st = .tearing → fld e.acks m.arr 1 = 1 →
      (bitClr e.acks m.arr ≠ 0 → Answers (.ack m) s fun t => (t.ent m).acks = bitClr e.acks m.arr ∧ (t.ent m).dirty = e.dirty ||| m.dirty ∧ t.agenda = s.agenda) ∧
      (∀ r rs, bitClr e.acks m.arr = 0 → m.router = root → q = r :: rs → Answers (.ack m) s fun t =>
        .grant { r.m with router := m.router, dirty := e.dirty ||| m.dirty, arr := 4, excl := false } ∈ t.agenda) ∧
      (bitClr e.acks m.arr = 0 → m.router ≠ root → free → Answers (.ack m) s fun t =>
        ∃ y, .ack { m.step e.par with dirty := e.dirty ||| m.dirty, excl := y } ∈ t.agenda)) ∧
    (m.slab = true → (s.tent root true m.key).pst ≠ 2 → Answers (.grant m) s fun t => t = s) ∧
    (m.slab = false → free → (e.st = .invalid → (s.victimAt m.router m.key).1 = true) →
      (d < 4 → Answers (.grant m) s fun t => (t.ent m).st = .stable ∧ (t.ent m).own = d + 1 ∧ .grant (m.step d) ∈ t.agenda) ∧
      (d = 4 → m.core < 448 → s.ops = [] → q.length ≤ 1 → Answers (.grant m) s fun t => (t.ent m).st = .stable ∧ (t.ent m).own = 5 ∧
        (t.line m.core m.agent m.key).st = .M ∧ (t.line m.core m.agent m.key).valid = 3 ∧ s.SameBytes t))

/-- Leaving a tree, quiet waves and link widths: `LeavingAndQuietMessages`, `LinkWidthsChange`. -/
def Obligations.LeavingQuietAndWidths : Prop :=
  Sys2Proof.Claims.LeavingAndQuietMessages ∧ Sys2Proof.Claims.LinkWidthsChange

/-- TCINV (R207, R410): in a privileged context it holds the group and asks each of the sixteen slices; a slice uses the named translations no more, tears
down the named lines homed there once nothing translated is left, no engine is about to write one and peers hold none, and acknowledges; with the last
acknowledgement the group goes on.
Completion (exec answers a next state with the effect) is stated of: tcinv, sliceTcinv, sliceTcinvDrained, tcinvComplete. -/
def Obligations.TranslationsAreInvalidated : Prop :=
  (∀ (s : State) (g : Group) (a : RF), Issues s g (.tcinv a) → (g.src a 0 0).toNat < 2 ^ 12 → (g.src a 1 0).toNat < 2 ^ 24 →
    (s.ctx (s.glch s.cur).ctx).priv = true → Answers (.tcinv a) s fun t =>
      InFlight s t g (.tcinv a) (fun o => o.ps = g.params a 3 ∧ o.stage = .parts 16) ∧ (t.grp s.cur).phase = .held g.idx s.nextOp ∧
      ∀ m, m < 16 → .sliceTcinv s.nextOp m ∈ t.agenda) ∧
  (∀ (s : State) (op m : Nat) (p : Op), s.ops = [(op, p)] →
    (Answers (.sliceTcinv op m) s fun t => (t.slice m).tcinv = (s.slice m).tcinv ++ [op] ∧ .sliceTcinvDrained op m ∈ t.agenda ∧ t.ops = s.ops ∧
      s.SameBytes t ∧ ∀ e ∈ (t.slice m).pages, ¬ (e.1 = p.ps.getD 0 0 ∧ e.2.1 = p.ps.getD 1 0 ∧ (p.ps.getD 2 0 = 0xFFFFFFFF ∨ e.2.2.1 = p.ps.getD 2 0))) ∧
    (let ls := s.listedLines.eraseDups.filter fun l => named p.ps l && homeSlice l == m
      let busy := fun (l : Nat) => s.engineIn (256 * l) 256 = true ∨ tget [] s.fab.roots l ≠ []
      ((∃ l ∈ ls, busy l) → Answers (.sliceTcinvDrained op m) s fun t => t = s.later (.sliceTcinvDrained op m)) ∧
      ((∀ l ∈ ls, ¬ busy l) → (∃ l ∈ ls, (s.slabHolder (l / 16)).isSome) → Answers (.sliceTcinvDrained op m) s fun t =>
        t = (ls.foldl (fun u l => (u.recall (256 * l) true).getD u) s).later (.sliceTcinvDrained op m)) ∧
      (∀ n, p.stage = .parts n → (∀ l ∈ ls, ¬ busy l ∧ s.slabHolder (l / 16) = none) → Answers (.sliceTcinvDrained op m) s fun t =>
        t.ops = [(op, { p with stage := .parts (n - 1) })] ∧ s.SameBytes t ∧
        (n ≤ 1 → .tcinvComplete op ∈ t.agenda) ∧ op ∉ (t.slice m).tcinv ∧
        ∀ c a l, a < 4 → named p.ps l = true → homeSlice l = m → (t.line c a l).st = .I))) ∧
  (∀ (s : State) (op i : Nat) (p : Op) (g : Group), s.ops = [(op, p)] → s.groups[p.gid]? = some g → p.stage = .parts 0 → g.phase = .held i op →
    Answers (.tcinvComplete op) s fun t => t.ops = [] ∧ s.SameBytes t ∧ (t.grp p.gid).phase = (g.after i).phase ∧ g.SameRegs (t.grp p.gid))

/-- Memory ports, fault reports and poisoned sectors: `LoadsPassTheirPort`, `FaultsAndSectorsAreReported`. -/
def Obligations.PortsAndFaults : Prop :=
  Sys2Proof.Claims.LoadsPassTheirPort ∧ Sys2Proof.Claims.FaultsAndSectorsAreReported

/-- Atomic operations, and far atomics: `FarAtomicsAreApplied`, `AtomicOperations`. -/
def Obligations.FarAtomicsAreApplied : Prop :=
  Sys2Proof.Claims.FarAtomicsAreApplied ∧ Sys2Proof.Claims.AtomicOperations

/-- Atomics and reads of host memory: `HostAtomics`, `BridgeReadsReturn`. -/
def Obligations.HostAtomicsAndReads : Prop :=
  Sys2Proof.Claims.HostAtomics ∧ Sys2Proof.Claims.BridgeReadsReturn

/-- Flits, and the states of a link port: `FlitsAreDeliveredInOrder`, `PortStatesChange`. -/
def Obligations.FlitsAndPorts : Prop :=
  Sys2Proof.Claims.FlitsAreDeliveredInOrder ∧ Sys2Proof.Claims.PortStatesChange

/-- Slabs (R440, R441, R456): a peer's request is refused as its port's check says, or waits while the link agent takes the lines, or is answered with the
line's bytes (zeros of a dead page, R409) and noted in PKG and OWN; an answer makes the access that waited ready or fails it, or goes as DATA to the agent
that asked; a downgrade lowers PST, a teardown empties the package of the slab, each after the commands that are about to write there, and the home's
entry keeps what is awaited.
Completion (exec answers a next state with the effect) is stated of: slabRead, slabExclusive, slabDowngrade, slabTeardown. -/
def Obligations.SlabMessages : Prop :=
  ∀ (s : State) (p : Nat) (m : SlabMsg),
    let x := s.port p
    let root := portRouter p
    let e := s.tent root true m.slab
    let adr := 4096 * m.slab + 256 * m.line
    let sends := fun (u t : State) (y : LinkMsg) => (t.port p).unacked = (u.port p).unacked ++ [((u.port p).txSeq, 0, y)]
    let waits := s.slabMoving m.slab = true ∨ s.slabKept m.slab = true
    (m.reply = false →
      (∀ u r, (u.port p).st = .up → s.peerCheck m.ctx m.tenant adr .read = (u, .error r) →
        Answers (.slabRead p m) s fun t => sends u t (.slabRead { m with reply := true, refused := some r }) ∧ t.mem = u.mem) ∧
      (∀ u r, (u.port p).st = .up → s.peerCheck m.ctx m.tenant adr .write = (u, .error r) →
        Answers (.slabExclusive p m) s fun t => sends u t (.slabExclusive { m with reply := true, refused := some r }) ∧ t.mem = u.mem) ∧
      (∀ u pa dead, (u.port p).st = .up → u.slabHolder m.slab = none → u.poisonedSector adr = false → u.poisonedSector (adr + 128) = false →
        let bytes := if dead = true then List.replicate 256 0 else mbytes u.mem pa 256
        (s.peerCheck m.ctx m.tenant adr .read = (u, .ok (pa, dead)) →
          (u.linkTake p m false pa = none → Answers (.slabRead p m) s fun t =>
            sends u t (.slabRead { m with reply := true, data := bytes }) ∧ t.mem = u.mem ∧ fld (t.tent root true m.slab).pkg m.pkg 1 = 1) ∧
          ∀ v, u.linkTake p m false pa = some v → Answers (.slabRead p m) s fun t => t = v.waitAtRoot p (.slabRead m)) ∧
        (s.peerCheck m.ctx m.tenant adr .write = (u, .ok (pa, dead)) →
          (u.linkTake p m true pa = none → Answers (.slabExclusive p m) s fun t =>
            sends u t (.slabExclusive { m with reply := true, data := bytes }) ∧ t.mem = u.mem ∧
            (t.tent root true m.slab).pkg = 2 ^ m.pkg ∧ (t.tent root true m.slab).own = 6) ∧
          ∀ v, u.linkTake p m true pa = some v → Answers (.slabExclusive p m) s fun t => t = v.waitAtRoot p (.slabExclusive m))) ∧
      (waits → Answers (.slabDowngrade p m) s (fun t => t = s.later (.slabDowngrade p m)) ∧
        Answers (.slabTeardown p m) s fun t => t = s.later (.slabTeardown p m)) ∧
      (¬ waits → e.pst ≠ 0 → Answers (.slabDowngrade p m) s fun t => (t.tent root true m.slab).pst = 1 ∧ t.mem = s.mem ∧ (x.st = .up →
        ∃ f ∈ (t.port p).unacked, f.2.2 = .slabDowngrade { m with reply := true, pkg := s.link.domPkg, refused := none, data := [] })) ∧
      (¬ waits → Answers (.slabTeardown p m) s fun t => t.mem = s.mem ∧ (∀ c a l, a < 4 → l / 16 = m.slab → (t.line c a l).st = .I) ∧ (x.st = .up →
        ∃ f ∈ (t.port p).unacked, f.2.2 = .slabTeardown { m with reply := true, pkg := s.link.domPkg, refused := none, data := [] }))) ∧
    (m.reply = true →
      (∀ q h z d a c y, m.tag < 2 ^ 60 → s.ops = [(m.tag, q)] → q.instr = .ld h z d a c → q.accs = [y] → y.st = .sent → y.blk = none → y.mt = 2 →
        lineOf y.adr = 16 * m.slab + m.line →
        (∀ r, m.refused = some r → Answers (.slabRead p m) s fun t => ∃ tr, t.ops = [(m.tag, { q with accs := [{ y with st := .failed tr }] })] ∧
          tr.cause = statusCause r ∧ .farCheckReport m.tag ∈ t.agenda) ∧
        (m.refused = none → Answers (.slabRead p m) s fun t => t.ops = [(m.tag, { q with accs := [{ y with st := .ready }] })] ∧
          .farCheckReport m.tag ∈ t.agenda)) ∧
      (∀ core agent, core < 2 ^ 30 → agent < 8 → m.tag = State.agentTag core agent false → m.refused = none → Answers (.slabRead p m) s fun t =>
        let y := s.line core agent (16 * m.slab + m.line)
        .data { slabMsg core agent (16 * m.slab + m.line) y.tag y.ctx (root + 1) with router := root, arr := 4 } ∈ t.agenda ∧ t.mem = s.mem) ∧
      (m.data = [] → m.tag ≠ 1 → s.slabHolder m.slab = some p → bitClr e.acks m.pkg ≠ 0 → e.st = .tearing →
        (e.pkg ≠ 0 → Answers (.slabDowngrade p m) s fun t =>
          (t.tent root true m.slab).acks = bitClr e.acks m.pkg ∧ (t.tent root true m.slab).pkg = e.pkg) ∧
        (bitClr e.pkg m.pkg ≠ 0 → Answers (.slabTeardown p m) s fun t =>
          (t.tent root true m.slab).acks = bitClr e.acks m.pkg ∧ (t.tent root true m.slab).pkg = bitClr e.pkg m.pkg)))

/-- Remote writes, reads and channels (R457 to R461): an answer ends the command, a read's bytes being in the scratchpad, or makes a deferred trap with the
answer's cause; a request is refused as R457 says, or performed with its notification; a channel request is answered only from a region that permits it.
Completion (exec answers a next state with the effect) is stated of: inboundRwri, inboundRrd, rwriAck, rrdData, channelRequest. -/
def Obligations.RemoteRequests : Prop :=
  (∀ (s : State) (op : Nat) (p : Op) (g : Group) (a : RF) (c : Fin 16), s.ops = [(op, p)] → s.groups[p.gid]? = some g → p.stage = .parts 1 →
    (p.instr = .rwri a c →
      Answers (.rwriAck op .done) s (fun t => t.ops = [] ∧ s.SameBytes t) ∧
      ∀ st, st ≠ .done → g.phase ≠ .stopped → g.phase ≠ .exited → Answers (.rwriAck op st) s fun t => t.ops = [] ∧ s.SameBytes t ∧
        ∃ d, (t.grp p.gid).deferred = g.deferred ++ [d] ∧ d.cause = statusCause st) ∧
    (∀ st data, p.instr = .rrd a c → st ≠ .done → g.phase ≠ .stopped → g.phase ≠ .exited → Answers (.rrdData op st data) s fun t =>
      t.ops = [] ∧ s.SameBytes t ∧ ∃ d, (t.grp p.gid).deferred = g.deferred ++ [d] ∧ d.cause = statusCause st) ∧
    (∀ data : List Nat, p.instr = .rrd a c → p.bar 4 = none → g.blk < s.blocks.length → data.length = p.ps.getD 1 0 → (∀ b ∈ data, b < 256) →
      Answers (.rrdData op .done data) s fun t => t.ops = [] ∧ t.mem = s.mem ∧
        ∀ x, mget (t.blk g.blk).scr x = if p.ps.getD 2 0 ≤ x ∧ x < p.ps.getD 2 0 + data.length
          then BitVec.ofNat 8 (data.getD (x - p.ps.getD 2 0) 0) else mget (s.blk g.blk).scr x)) ∧
  (∀ (s : State) (p : Nat) (r : RmaReq),
    let a := r.tobj * 2 ^ 40 + r.off
    let sends := fun (s t : State) (y : LinkMsg) => t.mem = s.mem ∧ ((s.port p).st = .up → (t.port p).unacked = (s.port p).unacked ++ [((s.port p).txSeq, 0, y)])
    (∀ e, s.rmaRefusal r true = some e → Answers (.inboundRwri p r) s fun t => sends (s.rmaRefused p r) t (.rwriAck r.tag e)) ∧
    (∀ e, s.rmaRefusal r false = some e → Answers (.inboundRrd p r) s fun t => sends (s.rmaRefused p r) t (.rrdData r.tag e [])) ∧
    (∀ e u, s.rmaRefusal r true = none → s.rmaPorts r .write = (u, some e) → Answers (.inboundRwri p r) s fun t =>
      sends (u.rmaRefused p r) t (.rwriAck r.tag e)) ∧
    (∀ e u, s.rmaRefusal r false = none → s.rmaPorts r .read = (u, some e) → Answers (.inboundRrd p r) s fun t =>
      sends (u.rmaRefused p r) t (.rrdData r.tag e [])) ∧
    (∀ u v h, s.rmaRefusal r true = none → s.rmaPorts r .write = (u, none) →
      v = ((u.count 10 p 3 1).engPuts none r.tctx a (r.data.take r.count)).noteBinding r.tctx r.tobj → v.binding r.tctx r.tobj = some h →
      (∀ w l, v.appendRec r.tctx h v.nextOp (v.noteRecord p r) = (w, .got l) → Answers (.inboundRwri p r) s fun t => sends w t (.rwriAck r.tag .done)) ∧
      ∀ w, v.appendRec r.tctx h v.nextOp (v.noteRecord p r) = (w, .wait) → Answers (.inboundRwri p r) s fun t =>
        sends (v.logErr 5 p 6 4 a r.tctx none 0) t (.rwriAck r.tag .appendFailed)) ∧
    (∀ u, s.rmaRefusal r false = none → s.rmaPorts r .read = (u, none) → Answers (.inboundRrd p r) s fun t =>
      sends u t (.rrdData r.tag .done (pieceBytes (pieces r.off r.count) ((pieces r.off r.count).map fun e => u.oread r.tctx r.tobj e.1 e.2))))) ∧
  (∀ (s : State) (p : Nat) (r : ChanReq),
    let x := s.port p
    let answers := fun (t : State) (ok : Bool) (bs : List Nat) => x.st = .up → (t.port p).unacked = x.unacked ++ [(x.txSeq, 0, .channelAnswer r.channel ok bs)]
    let permits := fun (y : Region) => y.base ≤ r.addr ∧ r.addr + r.count ≤ y.base + y.len ∧ (if r.write = true then y.wr = true else y.rd = true)
    let rs := tget [] s.link.prot (4 * p + r.channel)
    ((r.channel ≥ 4 ∨ s.inLog r.addr r.count = true ∨ ∀ y ∈ rs, ¬ permits y) → Answers (.channelRequest p r) s fun t =>
      answers t false [] ∧ t.mg.log.next = s.mg.log.next + 1) ∧
    (r.channel < 4 → s.inLog r.addr r.count = false → (∃ y ∈ rs, permits y) →
      (r.write = false → s.poisonAt r.addr r.count = [] → Answers (.channelRequest p r) s fun t => t.mem = s.mem ∧
        answers t true (mbytes s.mem r.addr r.count)) ∧
      (r.write = false → s.poisonAt r.addr r.count ≠ [] → Answers (.channelRequest p r) s fun t => t.mem = s.mem ∧ answers t false []) ∧
      (r.write = true → r.addr + r.count ≤ memBytes → Answers (.channelRequest p r) s fun t =>
        t.mem = mwrite s.mem r.addr r.count (ofBytes (r.data.take r.count)) ∧ answers t true [])))

/-- Host register writes, apertures and the PCI Express link: `HostRegisterWrites`, `AperturesAndHostLink`. -/
def Obligations.HostWritesAndApertures : Prop :=
  Sys2Proof.Claims.HostRegisterWrites ∧ Sys2Proof.Claims.AperturesAndHostLink

/-- The package right after reset (R134, R454, R463): the boot ROM runs, no context is registered, every queue is OFF, every counter is zero, every port is down, the
tick is zero, nothing is in flight; and memory, of which nothing is listed, is in its canonical form. -/
def Obligations.ResetState : Prop :=
  State.reset.mg.boot = .rom ∧ State.reset.tick = 0 ∧ State.reset.groups = [] ∧ State.reset.blocks = [] ∧ State.reset.launches = [] ∧
  State.reset.ops = [] ∧ State.reset.agenda = [] ∧ (∀ c, (State.reset.ctx c).reg = false) ∧ (∀ c q, (State.reset.queue c q).st = .off) ∧
  (∀ b i k n, tget 0 (State.reset.count b i k n).cnt ((b * 65536 + i) * 64 + k) = min n (2 ^ 64 - 1)) ∧ (∀ p, (State.reset.port p).st = .down) ∧
  State.reset.canonical

/-- Every step keeps device memory in its canonical form, from every state, reached or not: addresses strictly rising, no byte listed that reads as an unlisted
one does (a law of the model's memory, log entry 2). -/
def Obligations.StepsKeepMemoryCanonical : Prop := ∀ s t : State, s.canonical → step s = .next t → t.canonical

end
end

