-- ==== Sys2Proof/Laws/PerInstr.lean ====
section
/-! SUPPORT. Statements made for every instruction, one lemma a constructor. EncodeFits: what has a word is an instruction word, and its
word has 32 bits. -/

namespace Sys2Proof.Laws.EncodeFits

/-- What has a word is an instruction word, and its word has 32 bits (R36, R41). -/
def Statement (i : Instr) : Prop := ∀ w, encode i = some w → i.isWord = true ∧ w < 2 ^ 32

theorem icond_lt (c : ICond) : c.code < 10 := by cases c <;> decide
theorem fcond_lt (c : FCond) : c.code < 12 := by cases c <;> decide
theorem atomOp_lt (f : AtomOp) : f.code < 14 := by cases f <;> decide
theorem atomSOp_lt (f : AtomSOp) : f.code < 11 := by cases f <;> decide
theorem scope_lt (k : Scope) : k.code < 5 := by cases k <;> decide
theorem lsize_lt (z : LSize) : z.code < 7 := by cases z <;> decide
theorem ssize_lt (z : SSize) : z.code < 7 := by cases z <;> decide
theorem order_lt (r : Order) : r.code < 4 := by cases r <;> decide
theorem rmode_lt (m : RMode) : m.code < 4 := by cases m <;> decide
theorem memForm_lt (f : MemForm) : memFormCode f < 33 := by cases f <;> simp only [memFormCode] <;> omega
theorem yieldFlag_lt (c : Option (Fin 12)) : yieldFlagCode c < 16 := by cases c <;> simp only [yieldFlagCode] <;> omega
theorem bool_lt (b : Bool) : b.toNat < 2 := by cases b <;> decide

theorem nop : Statement (.nop) := by
  intro w h; cases h; exact ⟨rfl, by omega⟩
theorem bra (i : Bool) (q : Fin 8) (o : BitVec 21) : Statement (.bra i q o) := by
  intro w h; cases h; have := bool_lt i; have := q.isLt; have := o.isLt; exact ⟨rfl, by omega⟩
theorem brd (i : Bool) (p : Fin 8) (o : BitVec 21) : Statement (.brd i p o) := by
  intro w h; cases h; have := bool_lt i; have := p.isLt; have := o.isLt; exact ⟨rfl, by omega⟩
theorem pushj (o : BitVec 21) : Statement (.pushj o) := by
  intro w h; cases h; have := o.isLt; exact ⟨rfl, by omega⟩
theorem join : Statement (.join) := by
  intro w h; cases h; exact ⟨rfl, by omega⟩
theorem call (o : BitVec 21) : Statement (.call o) := by
  intro w h; cases h; have := o.isLt; exact ⟨rfl, by omega⟩
theorem ret (a : RF) : Statement (.ret a) := by
  intro w h; cases h; have := a.isLt; exact ⟨rfl, by omega⟩
theorem brx (a : RF) (b : RF) : Statement (.brx a b) := by
  intro w h; cases h; have := a.isLt; have := b.isLt; exact ⟨rfl, by omega⟩
theorem wbase (i : BitVec 18) : Statement (.wbase i) := by
  intro w h; cases h; have := i.isLt; exact ⟨rfl, by omega⟩
theorem mrd (d : RF) : Statement (.mrd d) := by
  intro w h; cases h; have := d.isLt; exact ⟨rfl, by omega⟩
theorem mwr (a : RF) : Statement (.mwr a) := by
  intro w h; cases h; have := a.isLt; exact ⟨rfl, by omega⟩
theorem mand (i : Bool) (p : Fin 8) : Statement (.mand i p) := by
  intro w h; cases h; have := bool_lt i; have := p.isLt; exact ⟨rfl, by omega⟩
theorem hrd (d : RF) : Statement (.hrd d) := by
  intro w h; cases h; have := d.isLt; exact ⟨rfl, by omega⟩
theorem fmts (a : RF) : Statement (.fmts a) := by
  intro w h; cases h; have := a.isLt; exact ⟨rfl, by omega⟩
theorem fmtr (d : RF) : Statement (.fmtr d) := by
  intro w h; cases h; have := d.isLt; exact ⟨rfl, by omega⟩
theorem yield (c : Option (Fin 12)) (o : BitVec 21) : Statement (.yield c o) := by
  intro w h; cases h; have := yieldFlag_lt c; have := o.isLt; exact ⟨rfl, by omega⟩
theorem exit : Statement (.exit) := by
  intro w h; cases h; exact ⟨rfl, by omega⟩
theorem trap (i : BitVec 18) : Statement (.trap i) := by
  intro w h; cases h; have := i.isLt; exact ⟨rfl, by omega⟩
theorem tret : Statement (.tret) := by
  intro w h; cases h; exact ⟨rfl, by omega⟩
theorem srd (d : RF) (i : Fin 30) : Statement (.srd d i) := by
  intro w h; cases h; have := d.isLt; have := i.isLt; exact ⟨rfl, by omega⟩
theorem swr (a : RF) (i : Fin 30) : Statement (.swr a i) := by
  intro w h; cases h; have := a.isLt; have := i.isLt; exact ⟨rfl, by omega⟩
theorem ucmp (c : ICond) (q : Fin 8) (a : RF) (b : RF) : Statement (.ucmp c q a b) := by
  intro w h; cases h; have := icond_lt c; have := q.isLt; have := a.isLt; have := b.isLt; exact ⟨rfl, by omega⟩
theorem tcinv (a : RF) : Statement (.tcinv a) := by
  intro w h; cases h; have := a.isLt; exact ⟨rfl, by omega⟩
theorem brk : Statement (.brk) := by
  intro w h; cases h; exact ⟨rfl, by omega⟩
theorem iadd (d : RF) (a : RF) (b : RF) : Statement (.iadd d a b) := by
  intro w h; cases h; have := d.isLt; have := a.isLt; have := b.isLt; exact ⟨rfl, by omega⟩
theorem isub (d : RF) (a : RF) (b : RF) : Statement (.isub d a b) := by
  intro w h; cases h; have := d.isLt; have := a.isLt; have := b.isLt; exact ⟨rfl, by omega⟩
theorem imin (d : RF) (a : RF) (b : RF) : Statement (.imin d a b) := by
  intro w h; cases h; have := d.isLt; have := a.isLt; have := b.isLt; exact ⟨rfl, by omega⟩
theorem imax (d : RF) (a : RF) (b : RF) : Statement (.imax d a b) := by
  intro w h; cases h; have := d.isLt; have := a.isLt; have := b.isLt; exact ⟨rfl, by omega⟩
theorem iminu (d : RF) (a : RF) (b : RF) : Statement (.iminu d a b) := by
  intro w h; cases h; have := d.isLt; have := a.isLt; have := b.isLt; exact ⟨rfl, by omega⟩
theorem imaxu (d : RF) (a : RF) (b : RF) : Statement (.imaxu d a b) := by
  intro w h; cases h; have := d.isLt; have := a.isLt; have := b.isLt; exact ⟨rfl, by omega⟩
theorem iabsd (d : RF) (a : RF) (b : RF) : Statement (.iabsd d a b) := by
  intro w h; cases h; have := d.isLt; have := a.isLt; have := b.isLt; exact ⟨rfl, by omega⟩
theorem iadds (d : RF) (a : RF) (b : RF) : Statement (.iadds d a b) := by
  intro w h; cases h; have := d.isLt; have := a.isLt; have := b.isLt; exact ⟨rfl, by omega⟩
theorem isubs (d : RF) (a : RF) (b : RF) : Statement (.isubs d a b) := by
  intro w h; cases h; have := d.isLt; have := a.isLt; have := b.isLt; exact ⟨rfl, by omega⟩
theorem imul (d : RF) (a : RF) (b : RF) : Statement (.imul d a b) := by
  intro w h; cases h; have := d.isLt; have := a.isLt; have := b.isLt; exact ⟨rfl, by omega⟩
theorem imulh (d : RF) (a : RF) (b : RF) : Statement (.imulh d a b) := by
  intro w h; cases h; have := d.isLt; have := a.isLt; have := b.isLt; exact ⟨rfl, by omega⟩
theorem imulhu (d : RF) (a : RF) (b : RF) : Statement (.imulhu d a b) := by
  intro w h; cases h; have := d.isLt; have := a.isLt; have := b.isLt; exact ⟨rfl, by omega⟩
theorem imad (d : RF) (a : RF) (b : RF) : Statement (.imad d a b) := by
  intro w h; cases h; have := d.isLt; have := a.isLt; have := b.isLt; exact ⟨rfl, by omega⟩
theorem and (d : RF) (a : RF) (b : RF) : Statement (.and d a b) := by
  intro w h; cases h; have := d.isLt; have := a.isLt; have := b.isLt; exact ⟨rfl, by omega⟩
theorem or (d : RF) (a : RF) (b : RF) : Statement (.or d a b) := by
  intro w h; cases h; have := d.isLt; have := a.isLt; have := b.isLt; exact ⟨rfl, by omega⟩
theorem xor (d : RF) (a : RF) (b : RF) : Statement (.xor d a b) := by
  intro w h; cases h; have := d.isLt; have := a.isLt; have := b.isLt; exact ⟨rfl, by omega⟩
theorem andn (d : RF) (a : RF) (b : RF) : Statement (.andn d a b) := by
  intro w h; cases h; have := d.isLt; have := a.isLt; have := b.isLt; exact ⟨rfl, by omega⟩
theorem orn (d : RF) (a : RF) (b : RF) : Statement (.orn d a b) := by
  intro w h; cases h; have := d.isLt; have := a.isLt; have := b.isLt; exact ⟨rfl, by omega⟩
theorem xnor (d : RF) (a : RF) (b : RF) : Statement (.xnor d a b) := by
  intro w h; cases h; have := d.isLt; have := a.isLt; have := b.isLt; exact ⟨rfl, by omega⟩
theorem shl (d : RF) (a : RF) (b : RF) : Statement (.shl d a b) := by
  intro w h; cases h; have := d.isLt; have := a.isLt; have := b.isLt; exact ⟨rfl, by omega⟩
theorem shr (d : RF) (a : RF) (b : RF) : Statement (.shr d a b) := by
  intro w h; cases h; have := d.isLt; have := a.isLt; have := b.isLt; exact ⟨rfl, by omega⟩
theorem sar (d : RF) (a : RF) (b : RF) : Statement (.sar d a b) := by
  intro w h; cases h; have := d.isLt; have := a.isLt; have := b.isLt; exact ⟨rfl, by omega⟩
theorem rol (d : RF) (a : RF) (b : RF) : Statement (.rol d a b) := by
  intro w h; cases h; have := d.isLt; have := a.isLt; have := b.isLt; exact ⟨rfl, by omega⟩
theorem ror (d : RF) (a : RF) (b : RF) : Statement (.ror d a b) := by
  intro w h; cases h; have := d.isLt; have := a.isLt; have := b.isLt; exact ⟨rfl, by omega⟩
theorem popc (d : RF) (a : RF) : Statement (.popc d a) := by
  intro w h; cases h; have := d.isLt; have := a.isLt; exact ⟨rfl, by omega⟩
theorem clz (d : RF) (a : RF) : Statement (.clz d a) := by
  intro w h; cases h; have := d.isLt; have := a.isLt; exact ⟨rfl, by omega⟩
theorem ctz (d : RF) (a : RF) : Statement (.ctz d a) := by
  intro w h; cases h; have := d.isLt; have := a.isLt; exact ⟨rfl, by omega⟩
theorem brev (d : RF) (a : RF) : Statement (.brev d a) := by
  intro w h; cases h; have := d.isLt; have := a.isLt; exact ⟨rfl, by omega⟩
theorem bswap (d : RF) (a : RF) : Statement (.bswap d a) := by
  intro w h; cases h; have := d.isLt; have := a.isLt; exact ⟨rfl, by omega⟩
theorem bfe (d : RF) (a : RF) (b : RF) : Statement (.bfe d a b) := by
  intro w h; cases h; have := d.isLt; have := a.isLt; have := b.isLt; exact ⟨rfl, by omega⟩
theorem bfeu (d : RF) (a : RF) (b : RF) : Statement (.bfeu d a b) := by
  intro w h; cases h; have := d.isLt; have := a.isLt; have := b.isLt; exact ⟨rfl, by omega⟩
theorem bfi (d : RF) (a : RF) (b : RF) : Statement (.bfi d a b) := by
  intro w h; cases h; have := d.isLt; have := a.isLt; have := b.isLt; exact ⟨rfl, by omega⟩
theorem icmp (c : ICond) (p : Fin 8) (a : RF) (b : RF) : Statement (.icmp c p a b) := by
  intro w h; cases h; have := icond_lt c; have := p.isLt; have := a.isLt; have := b.isLt; exact ⟨rfl, by omega⟩
theorem sel (p : Fin 8) (d : RF) (a : RF) (b : RF) : Statement (.sel p d a b) := by
  intro w h; cases h; have := p.isLt; have := d.isLt; have := a.isLt; have := b.isLt; exact ⟨rfl, by omega⟩
theorem mov (d : RF) (a : RF) : Statement (.mov d a) := by
  intro w h; cases h; have := d.isLt; have := a.isLt; exact ⟨rfl, by omega⟩
theorem pmov (d : RF) (p : Fin 8) : Statement (.pmov d p) := by
  intro w h; cases h; have := d.isLt; have := p.isLt; exact ⟨rfl, by omega⟩
theorem movp (p : Fin 8) (a : RF) : Statement (.movp p a) := by
  intro w h; cases h; have := p.isLt; have := a.isLt; exact ⟨rfl, by omega⟩
theorem addi (d : RF) (a : RF) (i : BitVec 11) : Statement (.addi d a i) := by
  intro w h; cases h; have := d.isLt; have := a.isLt; have := i.isLt; exact ⟨rfl, by omega⟩
theorem andi (d : RF) (a : RF) (i : BitVec 11) : Statement (.andi d a i) := by
  intro w h; cases h; have := d.isLt; have := a.isLt; have := i.isLt; exact ⟨rfl, by omega⟩
theorem ori (d : RF) (a : RF) (i : BitVec 11) : Statement (.ori d a i) := by
  intro w h; cases h; have := d.isLt; have := a.isLt; have := i.isLt; exact ⟨rfl, by omega⟩
theorem xori (d : RF) (a : RF) (i : BitVec 11) : Statement (.xori d a i) := by
  intro w h; cases h; have := d.isLt; have := a.isLt; have := i.isLt; exact ⟨rfl, by omega⟩
theorem shli (d : RF) (a : RF) (n : Fin 32) : Statement (.shli d a n) := by
  intro w h; cases h; have := d.isLt; have := a.isLt; have := n.isLt; exact ⟨rfl, by omega⟩
theorem shri (d : RF) (a : RF) (n : Fin 32) : Statement (.shri d a n) := by
  intro w h; cases h; have := d.isLt; have := a.isLt; have := n.isLt; exact ⟨rfl, by omega⟩
theorem sari (d : RF) (a : RF) (n : Fin 32) : Statement (.sari d a n) := by
  intro w h; cases h; have := d.isLt; have := a.isLt; have := n.isLt; exact ⟨rfl, by omega⟩
theorem icmpi (p : Fin 8) (a : RF) (c : ICond) (i : BitVec 7) : Statement (.icmpi p a c i) := by
  intro w h; cases h; have := p.isLt; have := a.isLt; have := icond_lt c; have := i.isLt; exact ⟨rfl, by omega⟩
theorem muli (d : RF) (a : RF) (i : BitVec 11) : Statement (.muli d a i) := by
  intro w h; cases h; have := d.isLt; have := a.isLt; have := i.isLt; exact ⟨rfl, by omega⟩
theorem movi (d : RF) (i : BitVec 18) : Statement (.movi d i) := by
  intro w h; cases h; have := d.isLt; have := i.isLt; exact ⟨rfl, by omega⟩
theorem movhi (d : RF) (i : BitVec 18) : Statement (.movhi d i) := by
  intro w h; cases h; have := d.isLt; have := i.isLt; exact ⟨rfl, by omega⟩
theorem fadd (d : RF) (a : RF) (b : RF) : Statement (.fadd d a b) := by
  intro w h; cases h; have := d.isLt; have := a.isLt; have := b.isLt; exact ⟨rfl, by omega⟩
theorem fsub (d : RF) (a : RF) (b : RF) : Statement (.fsub d a b) := by
  intro w h; cases h; have := d.isLt; have := a.isLt; have := b.isLt; exact ⟨rfl, by omega⟩
theorem fmul (d : RF) (a : RF) (b : RF) : Statement (.fmul d a b) := by
  intro w h; cases h; have := d.isLt; have := a.isLt; have := b.isLt; exact ⟨rfl, by omega⟩
theorem ffma (d : RF) (a : RF) (b : RF) : Statement (.ffma d a b) := by
  intro w h; cases h; have := d.isLt; have := a.isLt; have := b.isLt; exact ⟨rfl, by omega⟩
theorem ffms (d : RF) (a : RF) (b : RF) : Statement (.ffms d a b) := by
  intro w h; cases h; have := d.isLt; have := a.isLt; have := b.isLt; exact ⟨rfl, by omega⟩
theorem fmin (d : RF) (a : RF) (b : RF) : Statement (.fmin d a b) := by
  intro w h; cases h; have := d.isLt; have := a.isLt; have := b.isLt; exact ⟨rfl, by omega⟩
theorem fmax (d : RF) (a : RF) (b : RF) : Statement (.fmax d a b) := by
  intro w h; cases h; have := d.isLt; have := a.isLt; have := b.isLt; exact ⟨rfl, by omega⟩
theorem fdiv (d : RF) (a : RF) (b : RF) : Statement (.fdiv d a b) := by
  intro w h; cases h; have := d.isLt; have := a.isLt; have := b.isLt; exact ⟨rfl, by omega⟩
theorem fabs (d : RF) (a : RF) : Statement (.fabs d a) := by
  intro w h; cases h; have := d.isLt; have := a.isLt; exact ⟨rfl, by omega⟩
theorem fneg (d : RF) (a : RF) : Statement (.fneg d a) := by
  intro w h; cases h; have := d.isLt; have := a.isLt; exact ⟨rfl, by omega⟩
theorem fcpys (d : RF) (a : RF) (b : RF) : Statement (.fcpys d a b) := by
  intro w h; cases h; have := d.isLt; have := a.isLt; have := b.isLt; exact ⟨rfl, by omega⟩
theorem fcmp (c : FCond) (p : Fin 8) (a : RF) (b : RF) : Statement (.fcmp c p a b) := by
  intro w h; cases h; have := fcond_lt c; have := p.isLt; have := a.isLt; have := b.isLt; exact ⟨rfl, by omega⟩
theorem frcp (d : RF) (a : RF) : Statement (.frcp d a) := by
  intro w h; cases h; have := d.isLt; have := a.isLt; exact ⟨rfl, by omega⟩
theorem frsq (d : RF) (a : RF) : Statement (.frsq d a) := by
  intro w h; cases h; have := d.isLt; have := a.isLt; exact ⟨rfl, by omega⟩
theorem fsqrt (d : RF) (a : RF) : Statement (.fsqrt d a) := by
  intro w h; cases h; have := d.isLt; have := a.isLt; exact ⟨rfl, by omega⟩
theorem fexp2 (d : RF) (a : RF) : Statement (.fexp2 d a) := by
  intro w h; cases h; have := d.isLt; have := a.isLt; exact ⟨rfl, by omega⟩
theorem flog2 (d : RF) (a : RF) : Statement (.flog2 d a) := by
  intro w h; cases h; have := d.isLt; have := a.isLt; exact ⟨rfl, by omega⟩
theorem fsinpi (d : RF) (a : RF) : Statement (.fsinpi d a) := by
  intro w h; cases h; have := d.isLt; have := a.isLt; exact ⟨rfl, by omega⟩
theorem fcospi (d : RF) (a : RF) : Statement (.fcospi d a) := by
  intro w h; cases h; have := d.isLt; have := a.isLt; exact ⟨rfl, by omega⟩
theorem ftanh (d : RF) (a : RF) : Statement (.ftanh d a) := by
  intro w h; cases h; have := d.isLt; have := a.isLt; exact ⟨rfl, by omega⟩
theorem frne (d : RF) (a : RF) : Statement (.frne d a) := by
  intro w h; cases h; have := d.isLt; have := a.isLt; exact ⟨rfl, by omega⟩
theorem frtz (d : RF) (a : RF) : Statement (.frtz d a) := by
  intro w h; cases h; have := d.isLt; have := a.isLt; exact ⟨rfl, by omega⟩
theorem fflr (d : RF) (a : RF) : Statement (.fflr d a) := by
  intro w h; cases h; have := d.isLt; have := a.isLt; exact ⟨rfl, by omega⟩
theorem fceil (d : RF) (a : RF) : Statement (.fceil d a) := by
  intro w h; cases h; have := d.isLt; have := a.isLt; exact ⟨rfl, by omega⟩
theorem hadd2 (d : RF) (a : RF) (b : RF) : Statement (.hadd2 d a b) := by
  intro w h; cases h; have := d.isLt; have := a.isLt; have := b.isLt; exact ⟨rfl, by omega⟩
theorem hmul2 (d : RF) (a : RF) (b : RF) : Statement (.hmul2 d a b) := by
  intro w h; cases h; have := d.isLt; have := a.isLt; have := b.isLt; exact ⟨rfl, by omega⟩
theorem hfma2 (d : RF) (a : RF) (b : RF) : Statement (.hfma2 d a b) := by
  intro w h; cases h; have := d.isLt; have := a.isLt; have := b.isLt; exact ⟨rfl, by omega⟩
theorem hmin2 (d : RF) (a : RF) (b : RF) : Statement (.hmin2 d a b) := by
  intro w h; cases h; have := d.isLt; have := a.isLt; have := b.isLt; exact ⟨rfl, by omega⟩
theorem hmax2 (d : RF) (a : RF) (b : RF) : Statement (.hmax2 d a b) := by
  intro w h; cases h; have := d.isLt; have := a.isLt; have := b.isLt; exact ⟨rfl, by omega⟩
theorem cvtfi (d : RF) (a : RF) (m : RMode) : Statement (.cvtfi d a m) := by
  intro w h; cases h; have := d.isLt; have := a.isLt; have := rmode_lt m; exact ⟨rfl, by omega⟩
theorem cvtfu (d : RF) (a : RF) (m : RMode) : Statement (.cvtfu d a m) := by
  intro w h; cases h; have := d.isLt; have := a.isLt; have := rmode_lt m; exact ⟨rfl, by omega⟩
theorem cvtif (d : RF) (a : RF) : Statement (.cvtif d a) := by
  intro w h; cases h; have := d.isLt; have := a.isLt; exact ⟨rfl, by omega⟩
theorem cvtuf (d : RF) (a : RF) : Statement (.cvtuf d a) := by
  intro w h; cases h; have := d.isLt; have := a.isLt; exact ⟨rfl, by omega⟩
theorem cvtfn (d : RF) (a : RF) (b : RF) : Statement (.cvtfn d a b) := by
  intro w h; cases h; have := d.isLt; have := a.isLt; have := b.isLt; exact ⟨rfl, by omega⟩
theorem cvtnf (d : RF) (a : RF) (b : RF) : Statement (.cvtnf d a b) := by
  intro w h; cases h; have := d.isLt; have := a.isLt; have := b.isLt; exact ⟨rfl, by omega⟩
theorem cvtnfh (d : RF) (a : RF) (b : RF) : Statement (.cvtnfh d a b) := by
  intro w h; cases h; have := d.isLt; have := a.isLt; have := b.isLt; exact ⟨rfl, by omega⟩
theorem cvtfc (d : RF) (a : RF) : Statement (.cvtfc d a) := by
  intro w h; cases h; have := d.isLt; have := a.isLt; exact ⟨rfl, by omega⟩
theorem cvtcf (d : RF) (a : RF) (b : RF) : Statement (.cvtcf d a b) := by
  intro w h; cases h; have := d.isLt; have := a.isLt; have := b.isLt; exact ⟨rfl, by omega⟩
theorem cvtfnt (d : RF) (a : RF) (b : RF) : Statement (.cvtfnt d a b) := by
  intro w h; cases h; have := d.isLt; have := a.isLt; have := b.isLt; exact ⟨rfl, by omega⟩
theorem qswh (d : RF) (a : RF) : Statement (.qswh d a) := by
  intro w h; cases h; have := d.isLt; have := a.isLt; exact ⟨rfl, by omega⟩
theorem qswv (d : RF) (a : RF) : Statement (.qswv d a) := by
  intro w h; cases h; have := d.isLt; have := a.isLt; exact ⟨rfl, by omega⟩
theorem qswd (d : RF) (a : RF) : Statement (.qswd d a) := by
  intro w h; cases h; have := d.isLt; have := a.isLt; exact ⟨rfl, by omega⟩
theorem qbc (d : RF) (a : RF) (n : Fin 4) : Statement (.qbc d a n) := by
  intro w h; cases h; have := d.isLt; have := a.isLt; have := n.isLt; exact ⟨rfl, by omega⟩
theorem shfli (d : RF) (a : RF) (b : RF) : Statement (.shfli d a b) := by
  intro w h; cases h; have := d.isLt; have := a.isLt; have := b.isLt; exact ⟨rfl, by omega⟩
theorem shflu (d : RF) (a : RF) (b : RF) : Statement (.shflu d a b) := by
  intro w h; cases h; have := d.isLt; have := a.isLt; have := b.isLt; exact ⟨rfl, by omega⟩
theorem shfld (d : RF) (a : RF) (b : RF) : Statement (.shfld d a b) := by
  intro w h; cases h; have := d.isLt; have := a.isLt; have := b.isLt; exact ⟨rfl, by omega⟩
theorem shflx (d : RF) (a : RF) (b : RF) : Statement (.shflx d a b) := by
  intro w h; cases h; have := d.isLt; have := a.isLt; have := b.isLt; exact ⟨rfl, by omega⟩
theorem vany (q : Fin 8) (i : Bool) (p : Fin 8) : Statement (.vany q i p) := by
  intro w h; cases h; have := q.isLt; have := bool_lt i; have := p.isLt; exact ⟨rfl, by omega⟩
theorem vall (q : Fin 8) (i : Bool) (p : Fin 8) : Statement (.vall q i p) := by
  intro w h; cases h; have := q.isLt; have := bool_lt i; have := p.isLt; exact ⟨rfl, by omega⟩
theorem vbal (d : RF) (i : Bool) (p : Fin 8) : Statement (.vbal d i p) := by
  intro w h; cases h; have := d.isLt; have := bool_lt i; have := p.isLt; exact ⟨rfl, by omega⟩
theorem rdadd (d : RF) (a : RF) : Statement (.rdadd d a) := by
  intro w h; cases h; have := d.isLt; have := a.isLt; exact ⟨rfl, by omega⟩
theorem rdmin (d : RF) (a : RF) : Statement (.rdmin d a) := by
  intro w h; cases h; have := d.isLt; have := a.isLt; exact ⟨rfl, by omega⟩
theorem rdmax (d : RF) (a : RF) : Statement (.rdmax d a) := by
  intro w h; cases h; have := d.isLt; have := a.isLt; exact ⟨rfl, by omega⟩
theorem rdand (d : RF) (a : RF) : Statement (.rdand d a) := by
  intro w h; cases h; have := d.isLt; have := a.isLt; exact ⟨rfl, by omega⟩
theorem rdor (d : RF) (a : RF) : Statement (.rdor d a) := by
  intro w h; cases h; have := d.isLt; have := a.isLt; exact ⟨rfl, by omega⟩
theorem rdxor (d : RF) (a : RF) : Statement (.rdxor d a) := by
  intro w h; cases h; have := d.isLt; have := a.isLt; exact ⟨rfl, by omega⟩
theorem rdfadd (d : RF) (a : RF) : Statement (.rdfadd d a) := by
  intro w h; cases h; have := d.isLt; have := a.isLt; exact ⟨rfl, by omega⟩
theorem movxr (d : RF) (a : RF) (b : RF) : Statement (.movxr d a b) := by
  intro w h; cases h; have := d.isLt; have := a.isLt; have := b.isLt; exact ⟨rfl, by omega⟩
theorem movxw (d : RF) (a : RF) (b : RF) : Statement (.movxw d a b) := by
  intro w h; cases h; have := d.isLt; have := a.isLt; have := b.isLt; exact ⟨rfl, by omega⟩
theorem hmix (d : RF) (a : RF) (b : RF) : Statement (.hmix d a b) := by
  intro w h; cases h; have := d.isLt; have := a.isLt; have := b.isLt; exact ⟨rfl, by omega⟩
theorem prmt (d : RF) (a : RF) (b : RF) : Statement (.prmt d a b) := by
  intro w h; cases h; have := d.isLt; have := a.isLt; have := b.isLt; exact ⟨rfl, by omega⟩
theorem addw (d : RF) (a : RF) (b : RF) : Statement (.addw d a b) := by
  intro w h; cases h; have := d.isLt; have := a.isLt; have := b.isLt; exact ⟨rfl, by omega⟩
theorem subw (d : RF) (a : RF) (b : RF) : Statement (.subw d a b) := by
  intro w h; cases h; have := d.isLt; have := a.isLt; have := b.isLt; exact ⟨rfl, by omega⟩
theorem mulw (d : RF) (a : RF) (b : RF) : Statement (.mulw d a b) := by
  intro w h; cases h; have := d.isLt; have := a.isLt; have := b.isLt; exact ⟨rfl, by omega⟩
theorem mulwu (d : RF) (a : RF) (b : RF) : Statement (.mulwu d a b) := by
  intro w h; cases h; have := d.isLt; have := a.isLt; have := b.isLt; exact ⟨rfl, by omega⟩
theorem shlw (d : RF) (a : RF) (b : RF) : Statement (.shlw d a b) := by
  intro w h; cases h; have := d.isLt; have := a.isLt; have := b.isLt; exact ⟨rfl, by omega⟩
theorem shrw (d : RF) (a : RF) (b : RF) : Statement (.shrw d a b) := by
  intro w h; cases h; have := d.isLt; have := a.isLt; have := b.isLt; exact ⟨rfl, by omega⟩
theorem ld (h : Bool) (z : LSize) (d : RF) (a : RF) (c : Fin 16) : Statement (.ld h z d a c) := by
  intro w h; cases h; have := bool_lt h; have := lsize_lt z; have := d.isLt; have := a.isLt; have := c.isLt; exact ⟨rfl, by omega⟩
theorem lda (h : Bool) (z : LSize) (d : RF) (a : RF) (k : Scope) (c : Fin 16) : Statement (.lda h z d a k c) := by
  intro w h; cases h; have := bool_lt h; have := lsize_lt z; have := d.isLt; have := a.isLt; have := scope_lt k; have := c.isLt; exact ⟨rfl, by omega⟩
theorem st (h : Bool) (z : SSize) (d : RF) (a : RF) (c : Fin 16) : Statement (.st h z d a c) := by
  intro w h; cases h; have := bool_lt h; have := ssize_lt z; have := d.isLt; have := a.isLt; have := c.isLt; exact ⟨rfl, by omega⟩
theorem stl (h : Bool) (z : SSize) (d : RF) (a : RF) (k : Scope) (c : Fin 16) : Statement (.stl h z d a k c) := by
  intro w h; cases h; have := bool_lt h; have := ssize_lt z; have := d.isLt; have := a.isLt; have := scope_lt k; have := c.isLt; exact ⟨rfl, by omega⟩
theorem lds (h : Bool) (z : LSize) (d : RF) (a : RF) (b : RF) : Statement (.lds h z d a b) := by
  intro w h; cases h; have := bool_lt h; have := lsize_lt z; have := d.isLt; have := a.isLt; have := b.isLt; exact ⟨rfl, by omega⟩
theorem sts (h : Bool) (z : SSize) (d : RF) (a : RF) (b : RF) : Statement (.sts h z d a b) := by
  intro w h; cases h; have := bool_lt h; have := ssize_lt z; have := d.isLt; have := a.isLt; have := b.isLt; exact ⟨rfl, by omega⟩
theorem ldw (h : Bool) (z : LSize) (d : RF) (a : RF) : Statement (.ldw h z d a) := by
  intro w h; cases h; have := bool_lt h; have := lsize_lt z; have := d.isLt; have := a.isLt; exact ⟨rfl, by omega⟩
theorem stw (h : Bool) (z : SSize) (d : RF) (a : RF) : Statement (.stw h z d a) := by
  intro w h; cases h; have := bool_lt h; have := ssize_lt z; have := d.isLt; have := a.isLt; exact ⟨rfl, by omega⟩
theorem atom (f : AtomOp) (d : RF) (a : RF) (c : Fin 16) : Statement (.atom f d a c) := by
  intro w h; cases h; have := atomOp_lt f; have := d.isLt; have := a.isLt; have := c.isLt; exact ⟨rfl, by omega⟩
theorem atoma (f : AtomOp) (d : RF) (a : RF) (k : Scope) (c : Fin 16) : Statement (.atoma f d a k c) := by
  intro w h; cases h; have := atomOp_lt f; have := d.isLt; have := a.isLt; have := scope_lt k; have := c.isLt; exact ⟨rfl, by omega⟩
theorem atoml (f : AtomOp) (d : RF) (a : RF) (k : Scope) (c : Fin 16) : Statement (.atoml f d a k c) := by
  intro w h; cases h; have := atomOp_lt f; have := d.isLt; have := a.isLt; have := scope_lt k; have := c.isLt; exact ⟨rfl, by omega⟩
theorem atomr (f : AtomOp) (d : RF) (a : RF) (k : Scope) (c : Fin 16) : Statement (.atomr f d a k c) := by
  intro w h; cases h; have := atomOp_lt f; have := d.isLt; have := a.isLt; have := scope_lt k; have := c.isLt; exact ⟨rfl, by omega⟩
theorem atoms (f : AtomSOp) (d : RF) (a : RF) (b : RF) : Statement (.atoms f d a b) := by
  intro w h; cases h; have := atomSOp_lt f; have := d.isLt; have := a.isLt; have := b.isLt; exact ⟨rfl, by omega⟩
theorem fence (r : Order) (k : Scope) : Statement (.fence r k) := by
  intro w h; cases h; have := order_lt r; have := scope_lt k; exact ⟨rfl, by omega⟩
theorem capld (e : Fin 16) (a : RF) : Statement (.capld e a) := by
  intro w h; cases h; have := e.isLt; have := a.isLt; exact ⟨rfl, by omega⟩
theorem capnar (e : Fin 16) (a : RF) (c : Fin 16) : Statement (.capnar e a c) := by
  intro w h; cases h; have := e.isLt; have := a.isLt; have := c.isLt; exact ⟨rfl, by omega⟩
theorem caprd (d : RF) (c : Fin 16) : Statement (.caprd d c) := by
  intro w h; cases h; have := d.isLt; have := c.isLt; exact ⟨rfl, by omega⟩
theorem caprr (e : Fin 16) (a : RF) (c : Fin 16) : Statement (.caprr e a c) := by
  intro w h; cases h; have := e.isLt; have := a.isLt; have := c.isLt; exact ⟨rfl, by omega⟩
theorem discard (a : RF) (c : Fin 16) : Statement (.discard a c) := by
  intro w h; cases h; have := a.isLt; have := c.isLt; exact ⟨rfl, by omega⟩
theorem pref (a : RF) (c : Fin 16) : Statement (.pref a c) := by
  intro w h; cases h; have := a.isLt; have := c.isLt; exact ⟨rfl, by omega⟩
theorem cpygs (q : Fin 8) (a : RF) (c : Fin 16) : Statement (.cpygs q a c) := by
  intro w h; cases h; have := q.isLt; have := a.isLt; have := c.isLt; exact ⟨rfl, by omega⟩
theorem cpysg (q : Fin 8) (e : Fin 16) (a : RF) : Statement (.cpysg q e a) := by
  intro w h; cases h; have := q.isLt; have := e.isLt; have := a.isLt; exact ⟨rfl, by omega⟩
theorem cpysw (q : Fin 8) (a : RF) : Statement (.cpysw q a) := by
  intro w h; cases h; have := q.isLt; have := a.isLt; exact ⟨rfl, by omega⟩
theorem cpygg (q : Fin 8) (e : Fin 16) (a : RF) (c : Fin 16) : Statement (.cpygg q e a c) := by
  intro w h; cases h; have := q.isLt; have := e.isLt; have := a.isLt; have := c.isLt; exact ⟨rfl, by omega⟩
theorem cpyx (q : Fin 8) (a : RF) (c : Fin 16) : Statement (.cpyx q a c) := by
  intro w h; cases h; have := q.isLt; have := a.isLt; have := c.isLt; exact ⟨rfl, by omega⟩
theorem barinit (a : RF) : Statement (.barinit a) := by
  intro w h; cases h; have := a.isLt; exact ⟨rfl, by omega⟩
theorem bararr (a : RF) : Statement (.bararr a) := by
  intro w h; cases h; have := a.isLt; exact ⟨rfl, by omega⟩
theorem barwait (q : Fin 8) (a : RF) : Statement (.barwait q a) := by
  intro w h; cases h; have := q.isLt; have := a.isLt; exact ⟨rfl, by omega⟩
theorem bartry (d : RF) (a : RF) (x : Bool) : Statement (.bartry d a x) := by
  intro w h; cases h; have := d.isLt; have := a.isLt; have := bool_lt x; exact ⟨rfl, by omega⟩
theorem monarm (i : Fin 4) (a : RF) (f : MemForm) : Statement (.monarm i a f) := by
  intro w h; cases h; have := i.isLt; have := a.isLt; have := memForm_lt f; exact ⟨rfl, by omega⟩
theorem monwait (d : RF) (i : Fin 4) : Statement (.monwait d i) := by
  intro w h; cases h; have := d.isLt; have := i.isLt; exact ⟨rfl, by omega⟩
theorem monclr (i : Fin 4) : Statement (.monclr i) := by
  intro w h; cases h; have := i.isLt; exact ⟨rfl, by omega⟩
theorem mma (r : Bool) (z : Bool) (t : Bool) (d : RF) (a : RF) (b : RF) : Statement (.mma r z t d a b) := by
  intro w h; cases h; have := bool_lt r; have := bool_lt z; have := bool_lt t; have := d.isLt; have := a.isLt; have := b.isLt; exact ⟨rfl, by omega⟩
theorem accz (a : RF) : Statement (.accz a) := by
  intro w h; cases h; have := a.isLt; exact ⟨rfl, by omega⟩
theorem accld (a : RF) (f : MemForm) : Statement (.accld a f) := by
  intro w h; cases h; have := a.isLt; have := memForm_lt f; exact ⟨rfl, by omega⟩
theorem accst (a : RF) (f : MemForm) : Statement (.accst a f) := by
  intro w h; cases h; have := a.isLt; have := memForm_lt f; exact ⟨rfl, by omega⟩
theorem accss (a : RF) (f : MemForm) : Statement (.accss a f) := by
  intro w h; cases h; have := a.isLt; have := memForm_lt f; exact ⟨rfl, by omega⟩
theorem accxa (d : RF) (a : RF) (m : Bool) : Statement (.accxa d a m) := by
  intro w h; cases h; have := d.isLt; have := a.isLt; have := bool_lt m; exact ⟨rfl, by omega⟩
theorem accxr (d : RF) (a : RF) (m : Bool) : Statement (.accxr d a m) := by
  intro w h; cases h; have := d.isLt; have := a.isLt; have := bool_lt m; exact ⟨rfl, by omega⟩
theorem acccp (a : RF) : Statement (.acccp a) := by
  intro w h; cases h; have := a.isLt; exact ⟨rfl, by omega⟩
theorem cbld (n : Fin 8) (a : RF) (c : Fin 16) : Statement (.cbld n a c) := by
  intro w h; cases h; have := n.isLt; have := a.isLt; have := c.isLt; exact ⟨rfl, by omega⟩
theorem ldsb (n : Fin 16) (d : RF) (a : RF) (c : Fin 16) : Statement (.ldsb n d a c) := by
  intro w h; cases h; have := n.isLt; have := d.isLt; have := a.isLt; have := c.isLt; exact ⟨rfl, by omega⟩
theorem wset (n : Bool) (a : RF) : Statement (.wset n a) := by
  intro w h; cases h; have := bool_lt n; have := a.isLt; exact ⟨rfl, by omega⟩
theorem wgo (n : Bool) : Statement (.wgo n) := by
  intro w h; cases h; have := bool_lt n; exact ⟨rfl, by omega⟩
theorem qpop (q : Fin 4) (d : RF) : Statement (.qpop q d) := by
  intro w h; cases h; have := q.isLt; have := d.isLt; exact ⟨rfl, by omega⟩
theorem wstop : Statement (.wstop) := by
  intro w h; cases h; exact ⟨rfl, by omega⟩
theorem wstat (d : RF) : Statement (.wstat d) := by
  intro w h; cases h; have := d.isLt; exact ⟨rfl, by omega⟩
theorem sqres (d : RF) (a : RF) : Statement (.sqres d a) := by
  intro w h; cases h; have := d.isLt; have := a.isLt; exact ⟨rfl, by omega⟩
theorem sqcom (a : RF) : Statement (.sqcom a) := by
  intro w h; cases h; have := a.isLt; exact ⟨rfl, by omega⟩
theorem sqapp (d : RF) (a : RF) (b : RF) : Statement (.sqapp d a b) := by
  intro w h; cases h; have := d.isLt; have := a.isLt; have := b.isLt; exact ⟨rfl, by omega⟩
theorem sqlen (d : RF) (a : RF) : Statement (.sqlen d a) := by
  intro w h; cases h; have := d.isLt; have := a.isLt; exact ⟨rfl, by omega⟩
theorem sqrlen (d : RF) (a : RF) : Statement (.sqrlen d a) := by
  intro w h; cases h; have := d.isLt; have := a.isLt; exact ⟨rfl, by omega⟩
theorem sqwlo (d : RF) (a : RF) : Statement (.sqwlo d a) := by
  intro w h; cases h; have := d.isLt; have := a.isLt; exact ⟨rfl, by omega⟩
theorem sqmap (d : RF) (a : RF) (b : RF) : Statement (.sqmap d a b) := by
  intro w h; cases h; have := d.isLt; have := a.isLt; have := b.isLt; exact ⟨rfl, by omega⟩
theorem sqfork (d : RF) (a : RF) : Statement (.sqfork d a) := by
  intro w h; cases h; have := d.isLt; have := a.isLt; exact ⟨rfl, by omega⟩
theorem sqnew (d : RF) (a : RF) : Statement (.sqnew d a) := by
  intro w h; cases h; have := d.isLt; have := a.isLt; exact ⟨rfl, by omega⟩
theorem sqrel (a : RF) : Statement (.sqrel a) := by
  intro w h; cases h; have := a.isLt; exact ⟨rfl, by omega⟩
theorem sqwin (a : RF) : Statement (.sqwin a) := by
  intro w h; cases h; have := a.isLt; exact ⟨rfl, by omega⟩
theorem sqtake (d : RF) (a : RF) : Statement (.sqtake d a) := by
  intro w h; cases h; have := d.isLt; have := a.isLt; exact ⟨rfl, by omega⟩
theorem sqseal (a : RF) : Statement (.sqseal a) := by
  intro w h; cases h; have := a.isLt; exact ⟨rfl, by omega⟩
theorem flpop (d : RF) (a : RF) : Statement (.flpop d a) := by
  intro w h; cases h; have := d.isLt; have := a.isLt; exact ⟨rfl, by omega⟩
theorem flpush (a : RF) : Statement (.flpush a) := by
  intro w h; cases h; have := a.isLt; exact ⟨rfl, by omega⟩
theorem flcnt (d : RF) (a : RF) : Statement (.flcnt d a) := by
  intro w h; cases h; have := d.isLt; have := a.isLt; exact ⟨rfl, by omega⟩
theorem mgmatch (d : RF) (a : RF) : Statement (.mgmatch d a) := by
  intro w h; cases h; have := d.isLt; have := a.isLt; exact ⟨rfl, by omega⟩
theorem mgmerge (d : RF) (a : RF) : Statement (.mgmerge d a) := by
  intro w h; cases h; have := d.isLt; have := a.isLt; exact ⟨rfl, by omega⟩
theorem mgsplit (a : RF) : Statement (.mgsplit a) := by
  intro w h; cases h; have := a.isLt; exact ⟨rfl, by omega⟩
theorem mgbias (a : RF) : Statement (.mgbias a) := by
  intro w h; cases h; have := a.isLt; exact ⟨rfl, by omega⟩
theorem mgpop (a : RF) : Statement (.mgpop a) := by
  intro w h; cases h; have := a.isLt; exact ⟨rfl, by omega⟩
theorem mgstat (d : RF) (a : RF) : Statement (.mgstat d a) := by
  intro w h; cases h; have := d.isLt; have := a.isLt; exact ⟨rfl, by omega⟩
theorem launch (d : RF) (a : RF) (c : Fin 16) : Statement (.launch d a c) := by
  intro w h; cases h; have := d.isLt; have := a.isLt; have := c.isLt; exact ⟨rfl, by omega⟩
theorem lwait (d : RF) (a : RF) : Statement (.lwait d a) := by
  intro w h; cases h; have := d.isLt; have := a.isLt; exact ⟨rfl, by omega⟩
theorem lstat (d : RF) (a : RF) : Statement (.lstat d a) := by
  intro w h; cases h; have := d.isLt; have := a.isLt; exact ⟨rfl, by omega⟩
theorem rwri (a : RF) (c : Fin 16) : Statement (.rwri a c) := by
  intro w h; cases h; have := a.isLt; have := c.isLt; exact ⟨rfl, by omega⟩
theorem rrd (a : RF) (c : Fin 16) : Statement (.rrd a c) := by
  intro w h; cases h; have := a.isLt; have := c.isLt; exact ⟨rfl, by omega⟩
theorem clauseFetch (g : Nat) : Statement (.clauseFetch g) := nofun
theorem clauseAccept (g : Nat) : Statement (.clauseAccept g) := nofun
theorem deferredTrap (g : Nat) : Statement (.deferredTrap g) := nofun
theorem groupAged (g : Nat) : Statement (.groupAged g) := nofun
theorem pendingAgeSwap (g : Nat) : Statement (.pendingAgeSwap g) := nofun
theorem swap (inn : Nat) (out : Option Nat) : Statement (.swap inn out) := nofun
theorem swapDone (inn : Nat) (out : Option Nat) : Statement (.swapDone inn out) := nofun
theorem waitEventWake (g : Nat) : Statement (.waitEventWake g) := nofun
theorem farCheckReport (op : Nat) : Statement (.farCheckReport op) := nofun
theorem loadDataReturn (op : Nat) : Statement (.loadDataReturn op) := nofun
theorem atomicReturn (op : Nat) : Statement (.atomicReturn op) := nofun
theorem atomicResultLost (op : Nat) : Statement (.atomicResultLost op) := nofun
theorem capldEntryReturn (op : Nat) : Statement (.capldEntryReturn op) := nofun
theorem fenceScComplete (op : Nat) : Statement (.fenceScComplete op) := nofun
theorem tcinvComplete (op : Nat) : Statement (.tcinvComplete op) := nofun
theorem prefArrival (op : Nat) : Statement (.prefArrival op) := nofun
theorem reclaimComplete (core : Nat) : Statement (.reclaimComplete core) := nofun
theorem copyComplete (op : Nat) : Statement (.copyComplete op) := nofun
theorem seamCompletionMessage (blk : Nat) (off : Nat) : Statement (.seamCompletionMessage blk off) := nofun
theorem seamCompletionAck (blk : Nat) (off : Nat) : Statement (.seamCompletionAck blk off) := nofun
theorem monitorReread (g : Nat) (i : Nat) : Statement (.monitorReread g i) := nofun
theorem matrixCommandComplete (op : Nat) : Statement (.matrixCommandComplete op) := nofun
theorem walkerReadReturn (g : Nat) (ent : Nat) : Statement (.walkerReadReturn g ent) := nofun
theorem probeTimeout (g : Nat) : Statement (.probeTimeout g) := nofun
theorem sequenceAnswer (op : Nat) : Statement (.sequenceAnswer op) := nofun
theorem mergeCommandComplete (op : Nat) : Statement (.mergeCommandComplete op) := nofun
theorem packageTick : Statement (.packageTick) := nofun
theorem systemTick : Statement (.systemTick) := nofun
theorem rotation (ctx : Nat) (qn : Nat) : Statement (.rotation ctx qn) := nofun
theorem spillComplete (course : Nat) : Statement (.spillComplete course) := nofun
theorem predictorDecay : Statement (.predictorDecay) := nofun
theorem mappingBoundExceeded (ctx : Nat) (qn : Nat) : Statement (.mappingBoundExceeded ctx qn) := nofun
theorem recordAccept (ctx : Nat) (qn : Nat) : Statement (.recordAccept ctx qn) := nofun
theorem launchComplete (launch : Nat) : Statement (.launchComplete launch) := nofun
theorem blockRetire (blk : Nat) : Statement (.blockRetire blk) := nofun
theorem dieFatalFailure (die : Nat) : Statement (.dieFatalFailure die) := nofun
theorem reserve (ctx : Nat) (qn : Nat) (n : Nat) : Statement (.reserve ctx qn n) := nofun
theorem commit (ctx : Nat) (qn : Nat) (n : Nat) : Statement (.commit ctx qn n) := nofun
theorem refresh (ctx : Nat) (qn : Nat) : Statement (.refresh ctx qn) := nofun
theorem replayPage (ctx : Nat) (obj : Nat) (page : Nat) : Statement (.replayPage ctx obj page) := nofun
theorem replayContext (ctx : Nat) : Statement (.replayContext ctx) := nofun
theorem status : Statement (.status) := nofun
theorem ctxreg : Statement (.ctxreg) := nofun
theorem seqarea : Statement (.seqarea) := nofun
theorem flset : Statement (.flset) := nofun
theorem objtab : Statement (.objtab) := nofun
theorem faultseq : Statement (.faultseq) := nofun
theorem notetab : Statement (.notetab) := nofun
theorem quantum : Statement (.quantum) := nofun
theorem tclimset : Statement (.tclimset) := nofun
theorem domain : Statement (.domain) := nofun
theorem protdom : Statement (.protdom) := nofun
theorem poisondel : Statement (.poisondel) := nofun
theorem cntread : Statement (.cntread) := nofun
theorem logrot : Statement (.logrot) := nofun
theorem logread : Statement (.logread) := nofun
theorem pwrlim : Statement (.pwrlim) := nofun
theorem portrst : Statement (.portrst) := nofun
theorem dieup : Statement (.dieup) := nofun
theorem ctxrel : Statement (.ctxrel) := nofun
theorem sqcreate : Statement (.sqcreate) := nofun
theorem flfill : Statement (.flfill) := nofun
theorem sqdel : Statement (.sqdel) := nofun
theorem registerWrite (off : Nat) (size : Nat) (val : Nat) : Statement (.registerWrite off size val) := nofun
theorem hostApertureRead (off : Nat) (size : Nat) : Statement (.hostApertureRead off size) := nofun
theorem hostApertureWrite (off : Nat) (bytes : List Nat) : Statement (.hostApertureWrite off bytes) := nofun
theorem hostAtomicopReceived (tag : Nat) : Statement (.hostAtomicopReceived tag) := nofun
theorem getVersion (ch : Nat) : Statement (.getVersion ch) := nofun
theorem getCapabilities (ch : Nat) : Statement (.getCapabilities ch) := nofun
theorem negotiateAlgorithms (ch : Nat) (sigs : List Nat) (hashes : List Nat) : Statement (.negotiateAlgorithms ch sigs hashes) := nofun
theorem getDigests (ch : Nat) : Statement (.getDigests ch) := nofun
theorem getCertificate (ch : Nat) (slot : Nat) (off : Nat) (len : Nat) : Statement (.getCertificate ch slot off len) := nofun
theorem challenge (ch : Nat) (slot : Nat) (nonce : Nat) : Statement (.challenge ch slot nonce) := nofun
theorem getMeasurements (ch : Nat) (idx : Nat) (nonce : Nat) : Statement (.getMeasurements ch idx nonce) := nofun
theorem packageReset : Statement (.packageReset) := nofun
theorem selftestComplete (code : Nat) (repaired : Nat) : Statement (.selftestComplete code repaired) := nofun
theorem powerControl (isl : List IslandSet) (links : List LinkOrder) : Statement (.powerControl isl links) := nofun
theorem thermalThrottle (isl : Nat) : Statement (.thermalThrottle isl) := nofun
theorem dieOverheat (die : Nat) : Statement (.dieOverheat die) := nofun
theorem portCheck (op : Nat) (line : Nat) : Statement (.portCheck op line) := nofun
theorem faultReport (r : FaultRec) : Statement (.faultReport r) := nofun
theorem hbmReadComplete (line : Nat) (sector : Nat) (ecc : Ecc) : Statement (.hbmReadComplete line sector ecc) := nofun
theorem farAtomic (op : Nat) (lane : Nat) : Statement (.farAtomic op lane) := nofun
theorem hostAtomic (op : Nat) (lane : Nat) : Statement (.hostAtomic op lane) := nofun
theorem atomicopCompletion (op : Nat) (lane : Nat) (st : CplStatus) (val : Nat) : Statement (.atomicopCompletion op lane st val) := nofun
theorem sliceTcinv (op : Nat) (slice : Nat) : Statement (.sliceTcinv op slice) := nofun
theorem sliceTcinvDrained (op : Nat) (slice : Nat) : Statement (.sliceTcinvDrained op slice) := nofun
theorem pcieCompletion (op : Nat) (lane : Nat) (st : CplStatus) (val : Nat) : Statement (.pcieCompletion op lane st val) := nofun
theorem completionTimeout (op : Nat) (lane : Nat) : Statement (.completionTimeout op lane) := nofun
theorem pcieLinkDown : Statement (.pcieLinkDown) := nofun
theorem pcieLinkUp : Statement (.pcieLinkUp) := nofun
theorem linkTrained (port : Nat) : Statement (.linkTrained port) := nofun
theorem discovery (port : Nat) (m : DiscMsg) : Statement (.discovery port m) := nofun
theorem flitReceived (port : Nat) (seq : Nat) (ack : Nat) (crcOk : Bool) (msg : LinkMsg) : Statement (.flitReceived port seq ack crcOk msg) := nofun
theorem nak (port : Nat) (last : Nat) : Statement (.nak port last) := nofun
theorem ackTimeout (port : Nat) : Statement (.ackTimeout port) := nofun
theorem lossOfSignal (port : Nat) : Statement (.lossOfSignal port) := nofun
theorem retrainComplete (port : Nat) : Statement (.retrainComplete port) := nofun
theorem inboundRwri (port : Nat) (r : RmaReq) : Statement (.inboundRwri port r) := nofun
theorem inboundRrd (port : Nat) (r : RmaReq) : Statement (.inboundRrd port r) := nofun
theorem rwriAck (op : Nat) (st : RmaStatus) : Statement (.rwriAck op st) := nofun
theorem rrdData (op : Nat) (st : RmaStatus) (data : List Nat) : Statement (.rrdData op st data) := nofun
theorem channelRequest (port : Nat) (r : ChanReq) : Statement (.channelRequest port r) := nofun
theorem slabRead (port : Nat) (m : SlabMsg) : Statement (.slabRead port m) := nofun
theorem slabExclusive (port : Nat) (m : SlabMsg) : Statement (.slabExclusive port m) := nofun
theorem slabDowngrade (port : Nat) (m : SlabMsg) : Statement (.slabDowngrade port m) := nofun
theorem slabTeardown (port : Nat) (m : SlabMsg) : Statement (.slabTeardown port m) := nofun
theorem rd (m : TMsg) : Statement (.rd m) := nofun
theorem xreq (m : TMsg) : Statement (.xreq m) := nofun
theorem srdSteeredRead (m : TMsg) : Statement (.srdSteeredRead m) := nofun
theorem inv (m : TMsg) : Statement (.inv m) := nofun
theorem tkeep (m : TMsg) : Statement (.tkeep m) := nofun
theorem grant (m : TMsg) : Statement (.grant m) := nofun
theorem data (m : TMsg) : Statement (.data m) := nofun
theorem ack (m : TMsg) : Statement (.ack m) := nofun
theorem prune (m : TMsg) : Statement (.prune m) := nofun
theorem jdone (m : TMsg) : Statement (.jdone m) := nofun
theorem leave (m : TMsg) : Statement (.leave m) := nofun
theorem wb (m : TMsg) : Statement (.wb m) := nofun
theorem wback (m : TMsg) : Statement (.wback m) := nofun
theorem snoop (m : TMsg) : Statement (.snoop m) := nofun
theorem quiet (tag : Nat) (router : Nat) : Statement (.quiet tag router) := nofun
theorem heldMessageRelease (router : Nat) (tag : Nat) (slab : Bool) : Statement (.heldMessageRelease router tag slab) := nofun
theorem wreq (link : Nat) (width : Nat) : Statement (.wreq link width) := nofun
theorem wack (link : Nat) : Statement (.wack link) := nofun
theorem trainingEnd (link : Nat) : Statement (.trainingEnd link) := nofun
theorem frame (link : Nat) : Statement (.frame link) := nofun
theorem frameLockTimeout (link : Nat) : Statement (.frameLockTimeout link) := nofun
theorem wnak (link : Nat) : Statement (.wnak link) := nofun
theorem romCheckComplete (ok : Bool) : Statement (.romCheckComplete ok) := nofun
theorem slotMoveComplete (ctx : Nat) (qn : Nat) : Statement (.slotMoveComplete ctx qn) := nofun
theorem poolAllocationComplete (blk : Nat) : Statement (.poolAllocationComplete blk) := nofun
theorem imageFillComplete (course : Nat) (bad : List (Nat × Nat)) : Statement (.imageFillComplete course bad) := nofun
theorem bankSwitchComplete (course : Nat) : Statement (.bankSwitchComplete course) := nofun
theorem walkerCommandComplete (op : Nat) : Statement (.walkerCommandComplete op) := nofun
theorem walkerEntryGenerate (g : Nat) : Statement (.walkerEntryGenerate g) := nofun
theorem residencyProbeAnswer (g : Nat) (tile : Nat) (rank : Nat) : Statement (.residencyProbeAnswer g tile rank) := nofun
theorem fixedLatencyComplete (g : Nat) (tok : Nat) : Statement (.fixedLatencyComplete g tok) := nofun

end Sys2Proof.Laws.EncodeFits
end

