-- ==== Sys2Proof/Tests/Slice0.lean ====
section
/-! SUPPORT. Tests: the words that spec/ prints, ill-formed words that WellFormed refuses, one-step checks from spec/, and for every statement
of Certificates/Slice0 that has hypotheses a state and operands that meet them. -/

namespace Sys2Proof.Tests

open Machine

set_option Elab.async false

/-! ## Helpers -/

/-- Every word of the list decodes to its instruction. -/
def decodesTo (l : List (Nat × Instr)) : Bool :=
  l.all fun e => match decodeWord e.1 with | .ok i => i == e.2 | .error _ => false

/-- The state after an instruction that goes on. -/
def got (i : Instr) (s : State) : State := match exec i s with | .next t => t | _ => State.reset

/-- Lane register `n` holds `v L` in lane L. -/
def vreg (n : Nat) (v : Nat → Nat) (g : Group) : Group :=
  { g with regs := (List.range 32).foldl (fun m L => tset 0 m (32 * n + L) (BitVec.ofNat 32 (v L))) g.regs }

/-- Uniform registers from s0 on. -/
def sreg (l : List Nat) (g : Group) : Group :=
  { g with uregs := l.zipIdx.foldl (fun m e => tset 0 m e.2 (BitVec.ofNat 32 e.1)) g.uregs }

/-- Capability register `n`. -/
def creg (n : Nat) (c : Cap) (g : Group) : Group := g.setCap n c

/-- A launch record with a handler, 96 lane registers, 256 KiB of scratchpad and 256 accumulator rows. -/
def lrec : LRec :=
  { LRec.empty with ver := 1, gpb := 1, bpc := 1, part := 0x0002100C, ncourse := 1, nlanes := 32, handler := 0x400 }

/-- One running group whose word issues next, changed by `f`. -/
def at0 (f : Group → Group) : State :=
  let s := State.reset.withWord 0
  { s with groups := s.groups.map f, launches := s.launches.map fun l => { l with lr := lrec } }

/-- That group. -/
def g0 (f : Group → Group) : Group := (at0 f).grp 0

/-- It as it starts. -/
def base : State := at0 id

/-- The group is in its handler. -/
def inH (g : Group) : Group := { g with trap := { g.trap with handler := true } }

/-- The group is in another phase. -/
def inPhase (p : Phase) (g : Group) : Group := { g with phase := p }

/-- Only the lanes of the mask are enabled. -/
def lanes (m : Mask) (g : Group) : Group := { g with lanes := { g.lanes with em := m } }

/-- FMT of the group. -/
def fmtOf (w : Word) (g : Group) : Group := { g with fmt := w }

/-- The group with an operation in flight and nothing else due. -/
def flying (f : Group → Group) (o : Op) : State := { at0 f with ops := [(5, o)], nextOp := 6 }

/-- An operation of the group. -/
def opOf (i : Instr) : Op := { (g0 id).newOp 0 i with tok := 3 }

/-- An object entry: valid, of a kind, with rights, a size and a page map (R403). -/
def entry (kind rights size pmap : Nat) : Nat := 1 + 4 * kind + 64 * rights + 2 ^ 64 * size + 2 ^ 128 * pmap

/-- Context 0 has a table at 0x10000 whose object 7 is two pages at 0x40000 and 0x50000, of data with every right (R403, R404). -/
def obj7 (s : State) : State :=
  { s with
    ctxs := [(0, { Ctx.empty with
      reg := true, tbl := true, tblBase := 0x10000, tblN := 64, regBase := 0x10000, regLen := 0x20000, launchArea := 7, saveObj := 7 })]
    mem := mwrite (mwrite s.mem (0x10000 + 32 * 7) 32 (entry 1 0xFF 0x20000 0x20000)) 0x20000 16 (0x40007 + 2 ^ 64 * 0x50007) }

/-- The words stand at the start of object 7, which is the code object, and the group fetches there. -/
def code (ws : List Nat) (f : Group → Group) : State :=
  let s := obj7 { at0 (fun g => f (inPhase (.fetch 0) g)) with mem := mwrite [] 0x40000 (4 * ws.length) (ws.foldr (fun w v => w + 2 ^ 32 * v) 0) }
  { s with launches := s.launches.map fun l => { l with codeCap := ⟨7, 0, 0x20000, 0xFF, 2, 0⟩ } }

/-! ## Encodings -/

/-- Words that spec/ prints beside their assembly text decode to the instruction the text names: control words, fences and launches (R103, R161, R162, R182 to R208). -/
theorem test_decode_control : decodesTo [
    (0x00000000, .nop), (0x023FFFFE, .bra false 1 0x1ffffe#21), (0x02E00003, .bra false 7 0x000003#21),
    (0x04200005, .brd false 1 0x000005#21), (0x0600000D, .pushj 0x00000d#21), (0x08000000, .join), (0x0A000014, .call 0x000014#21),
    (0x0C003F00, .ret 126), (0x0E003469, .brx 104 105), (0x10000020, .wbase 0x00020#18), (0x12008000, .mrd 2), (0x12203280, .mwr 101),
    (0x1240000A, .mand true 2), (0x1278C000, .hrd 99), (0x14003200, .fmts 100), (0x1421C000, .fmtr 7),
    (0x16600004, .yield (some 3) 0x000004#21), (0x17E00004, .yield none 0x000004#21), (0x18000000, .exit),
    (0x1A000005, .trap 0x00005#18), (0x1C000000, .tret), (0x1E000000, .srd 0 0), (0x1E0C0000, .srd 3 0), (0x20036013, .swr 108 19),
    (0x22407364, .ucmp .lt 1 102 100), (0x22407367, .ucmp .lt 1 102 103), (0x24003200, .tcinv 100), (0x26000000, .brk),
    (0x9A000002, .fence .acq .course), (0x9A000009, .fence .rel .block), (0xE01A3205, .launch 104 100 5), (0xE03A7400, .lwait 105 104),
    (0xE05A7400, .lstat 105 104), (0xE2003805, .rwri 112 5), (0xE2203805, .rrd 112 5)] = true := by decide +kernel

/-- Words that spec/ prints beside their assembly text decode to the instruction the text names: integer, logic, shift, bit and move words (R246 to R253). -/
theorem test_decode_integer : decodesTo [
    (0x28004103, .iadd 1 2 3), (0x28204103, .isub 1 2 3), (0x28404103, .imin 1 2 3), (0x28604103, .imax 1 2 3),
    (0x28804103, .iminu 1 2 3), (0x28A04103, .imaxu 1 2 3), (0x28C04103, .iabsd 1 2 3), (0x28E04103, .iadds 1 2 3),
    (0x29004103, .isubs 1 2 3), (0x2A004103, .imul 1 2 3), (0x2A204103, .imulh 1 2 3), (0x2A404103, .imulhu 1 2 3),
    (0x2A604103, .imad 1 2 3), (0x2C004103, .and 1 2 3), (0x2C204103, .or 1 2 3), (0x2C404103, .xor 1 2 3), (0x2C604103, .andn 1 2 3),
    (0x2C804103, .orn 1 2 3), (0x2CA04103, .xnor 1 2 3), (0x2E004103, .shl 1 2 3), (0x2E204103, .shr 1 2 3), (0x2E404103, .sar 1 2 3),
    (0x2E604103, .rol 1 2 3), (0x2E804103, .ror 1 2 3), (0x30004100, .popc 1 2), (0x30204100, .clz 1 2), (0x30404100, .ctz 1 2),
    (0x30604100, .brev 1 2), (0x30804100, .bswap 1 2), (0x32004103, .bfe 1 2 3), (0x32204103, .bfeu 1 2 3), (0x32404103, .bfi 1 2 3),
    (0x34C04103, .icmp .ltu 1 2 3), (0x36404103, .sel 2 1 2 3), (0x3800B280, .mov 2 101), (0x38204100, .pmov 1 2),
    (0x38404100, .movp 1 2), (0x3A040880, .addi 1 1 0x080#11), (0x3A0417FF, .addi 1 2 0x7ff#11), (0x3C081007, .andi 2 2 0x007#11)] = true := by decide +kernel

/-- Words that spec/ prints beside their assembly text decode to the instruction the text names: integer, logic, shift, bit and move words (R246 to R253). -/
theorem test_decode_integer2 : decodesTo [
    (0x42040002, .shli 1 0 2), (0x48040108, .icmpi 1 0 .lt 0x08#7), (0x4C040000, .movi 1 0x00000#18), (0x4C040001, .movi 1 0x00001#18),
    (0x4E04FE00, .movhi 1 0x0fe00#18), (0x6A008206, .addw 2 4 6), (0x6A408205, .mulw 2 4 5)] = true := by decide +kernel

/-- Words that spec/ prints beside their assembly text decode to the instruction the text names: float, packed and conversion words (R254 to R263). -/
theorem test_decode_float : decodesTo [
    (0x50004103, .fadd 1 2 3), (0x50014283, .fadd 5 5 3), (0x50204103, .fsub 1 2 3), (0x50214284, .fsub 5 5 4),
    (0x50404103, .fmul 1 2 3), (0x50604103, .ffma 1 2 3), (0x50804103, .ffms 1 2 3), (0x50A04103, .fmin 1 2 3),
    (0x50C04103, .fmax 1 2 3), (0x50E04103, .fdiv 1 2 3), (0x51004100, .fabs 1 2), (0x51204100, .fneg 1 2), (0x51404103, .fcpys 1 2 3),
    (0x53404103, .fcmp .un 1 2 3), (0x54404100, .fsqrt 1 2), (0x54604100, .fexp2 1 2), (0x56404100, .fflr 1 2),
    (0x58404103, .hfma2 1 2 3), (0x5A004101, .cvtfi 1 2 .rtz), (0x5A804103, .cvtfn 1 2 3)] = true := by decide +kernel

/-- Words that spec/ prints beside their assembly text decode to the instruction the text names: exchanges, votes, reductions and indexed moves (R264 to R272). -/
theorem test_decode_exchange : decodesTo [
    (0x5C004100, .qswh 1 2), (0x5C204100, .qswv 1 2), (0x5C404100, .qswd 1 2), (0x5C604103, .qbc 1 2 3), (0x5E004103, .shfli 1 2 3),
    (0x5E204103, .shflu 1 2 3), (0x5E404103, .shfld 1 2 3), (0x5E604103, .shflx 1 2 3), (0x60004100, .vany 1 false 2),
    (0x60204500, .vall 1 true 2), (0x60404100, .vbal 1 false 2), (0x62004100, .rdadd 1 2), (0x62204100, .rdmin 1 2),
    (0x62404100, .rdmax 1 2), (0x62604100, .rdand 1 2), (0x62804100, .rdor 1 2), (0x62A04100, .rdxor 1 2), (0x62D90100, .rdfadd 100 2),
    (0x64010108, .movxr 4 2 8), (0x6420C108, .movxw 3 2 8)] = true := by decide +kernel

/-- Words that spec/ prints beside their assembly text decode to the instruction the text names: loads, stores, atomics and capabilities (R210 to R235). -/
theorem test_decode_memory : decodesTo [
    (0x8080C082, .ld false .w 3 1 2), (0x80814084, .ld false .w 5 1 4), (0x82804222, .lda false .w 1 4 .course 2),
    (0x829DB5B2, .lda false .w 118 107 .device 2), (0x84814083, .st false .w 5 1 3), (0x868081B2, .stl false .w 2 3 .device 2),
    (0x869BB5B2, .stl false .w 110 107 .device 2), (0x888181E4, .lds false .w 6 3 100), (0x8A8081E4, .sts false .w 2 3 100),
    (0x8C824300, .ldw false .w 9 6), (0x8EA20300, .stw false .d 8 6), (0x90008082, .atom .add 2 1 2), (0x9000C082, .atom .add 3 1 2),
    (0x920140B3, .atoma .add 5 1 .device 3), (0x972200B3, .atomr .cas 8 1 .device 3), (0x98014164, .atoms .add 5 2 100),
    (0x9C013400, .capld 4 104), (0x9C213602, .capnar 4 108 2), (0x9C420004, .caprd 8 4), (0x9C613484, .caprr 4 105 4),
    (0x9E003802, .discard 112 2), (0x9E203802, .pref 112 2)] = true := by decide +kernel

/-- Words that spec/ prints beside their assembly text decode to the instruction the text names: copies, barriers, monitors, matrix and walker words (R275 to R343). -/
theorem test_decode_engines : decodesTo [
    (0xA0003C02, .cpygs 0 120 2), (0xA024FC00, .cpysg 1 3 120), (0xA0483C00, .cpysw 2 120), (0xA06D3C02, .cpygg 3 4 120 2),
    (0xA2003802, .cpyx 0 112 2), (0xA4003400, .barinit 104), (0xA4203D80, .bararr 123), (0xA440BD80, .barwait 2 123),
    (0xA47A7D80, .bartry 105 123 false), (0xA47A7D81, .bartry 105 123 true), (0xA6007603, .monarm 1 108 (.glob 3)),
    (0xA63A4001, .monwait 105 1), (0xA6400001, .monclr 1), (0xB01A0864, .mma false false false 104 16 100),
    (0xB05A0864, .mma false false true 104 16 100), (0xB2003600, .accz 108), (0xB2203602, .accld 108 (.glob 2)),
    (0xB2203610, .accld 108 .scratch), (0xB2403603, .accst 108 (.glob 3)), (0xB2603603, .accss 108 (.glob 3)),
    (0xB2810280, .accxa 4 5 false), (0xB2810281, .accxa 4 5 true), (0xB2A18200, .accxr 6 4 false), (0xB2C03600, .acccp 108),
    (0xB4603602, .cbld 3 108 2), (0xB6240082, .ldsb 1 16 1 2), (0xC0003400, .wset false 104), (0xC0203400, .wset true 104),
    (0xC2000000, .wgo false), (0xC2000001, .wgo true), (0xC4010000, .qpop 0 4), (0xC4014000, .qpop 0 5), (0xC6000000, .wstop),
    (0xC63A4000, .wstat 105)] = true := by decide +kernel

/-- Words that spec/ prints beside their assembly text decode to the instruction the text names: sequence, free-list, merge and remote words (R373, R398, R459). -/
theorem test_decode_sequences : decodesTo [
    (0xC81A3200, .sqres 104 100), (0xCA003600, .sqcom 108), (0xCA003800, .sqcom 112), (0xCC00B26A, .sqapp 2 100 106),
    (0xCC00B66E, .sqapp 2 108 110), (0xCE1AB200, .sqlen 106 100), (0xCE1DB400, .sqlen 118 104), (0xCE3AB200, .sqrlen 106 100),
    (0xCE5AB200, .sqwlo 106 100), (0xD001B207, .sqmap 6 100 7), (0xD21A7600, .sqfork 105 108), (0xD21F3400, .sqfork 124 104),
    (0xD41A7600, .sqnew 105 108), (0xD4203400, .sqrel 104), (0xD4203600, .sqrel 108), (0xD4403600, .sqwin 108),
    (0xD47AB600, .sqtake 106 108), (0xD4803600, .sqseal 108), (0xD61A7600, .flpop 105 108), (0xD6203600, .flpush 108),
    (0xD65A7600, .flcnt 105 108), (0xD81A7800, .mgmatch 105 112), (0xDA1AB800, .mgmerge 106 112), (0xDC003800, .mgsplit 112),
    (0xDE003600, .mgbias 108), (0xDE203600, .mgpop 108), (0xDE5A7600, .mgstat 105 108)] = true := by decide +kernel

/-- Words with bits that their forms do not assign, and opcodes that are not assigned, are refused (R48). -/
theorem test_decode_refuses : ([0x00000001, 0x08000001, 0x27000000, 0x29204103, 0x9A000005, 0xC2000002, 0xFE000000] : List Nat).all
    (fun w => match decodeWord w with | .ok _ => false | .error _ => true) = true := by decide +kernel

/-- WellFormed refuses a lane register where a uniform one is asked for, a run that leaves its file, sz where a parameter block is asked for, and an LDSB run
beyond v95 (R44, R45). -/
theorem test_wf_refuses : (Instr.fmts 5).wf = false ∧ (Instr.addw 95 4 6).wf = false ∧ (Instr.capnar 0 4 1).wf = false ∧ (Instr.caprd 94 4).wf = false ∧
    (Instr.barwait 1 127).wf = false ∧ (Instr.sqres 124 100).wf = false ∧ (Instr.mma false false false 104 92 100).wf = false ∧
    (Instr.ldsb 15 90 1 2).wfAt 0x4002 = false ∧ (Instr.addw 127 4 6).wf = true := by decide +kernel

/-- A register beyond ALLOC and a register off its multiple are seen (R43, R45). -/
theorem test_operand_checks : (Instr.iadd 1 2 9).beyondAlloc 0 0 8 = some 9 ∧ (Instr.mulw 3 4 5).misaligned 0 = some 3 := by decide +kernel

/-- A state in which a decoded word issues next. -/
theorem witness_step_word : ∃ s : State, s.stuck = none ∧ s.choose = .issue 0 ∧ (s.advance.issueFor 0).deferredDue 0 = false ∧
    ((s.advance.issueFor 0).grp 0).skips = false ∧ decodeWord ((s.advance.issueFor 0).grp 0).word.toNat = .ok .nop ∧ s.slices = [] ∧
    (got .nop (s.advance.issueFor 0)).link.wants = [] := ⟨base, by decide +kernel⟩

/-- A state in which a word that names no instruction issues next. -/
theorem witness_step_unassigned : ∃ s : State, s.stuck = none ∧ s.choose = .issue 0 ∧ (s.advance.issueFor 0).link.wants = [] ∧
    (s.advance.issueFor 0).deferredDue 0 = false ∧
    ((s.advance.issueFor 0).grp 0).skips = false ∧ ∃ e, decodeWord ((s.advance.issueFor 0).grp 0).word.toNat = .error e :=
  ⟨at0 fun g => { g with clause := { g.clause with words := [1] } }, by decide +kernel, by decide +kernel, by decide +kernel, by decide +kernel,
    by decide +kernel, ⟨_, rfl⟩⟩

/-- States in which an enabled step, and a due one, are taken next; a message on a link that changes its width. -/
theorem witness_step_event : (∃ s : State, s.stuck = none ∧ s.choose = .run (.clauseFetch 0)) ∧
    (∃ s : State, s.stuck = none ∧ s.choose = .due 0 ∧ s.agenda[s.advance.inOrder 0]? = some .systemTick ∧
      s.advance.agenda[s.advance.inOrder 0]? = some .systemTick ∧ s.advance.widthWaits .systemTick = false) ∧
    ∃ (s : State) (e : Event), s.stuck = none ∧ s.choose = .due 0 ∧ s.advance.agenda[s.advance.inOrder 0]? = some e ∧ s.advance.widthWaits e = true :=
  ⟨⟨at0 (inPhase (.fetch 0)), by decide +kernel⟩, ⟨{ base with agenda := [.systemTick] }, by decide +kernel⟩,
    ⟨{ base with agenda := [.inv ⟨7, false, 0, 0, 0, 99, 3, 0, 0, 0, false, 0, 0, 0⟩],
                 fab := { base.fab with links := [(4 * nbr 99 3 + opp 3, { MLink.empty with st := .asked })] } },
      .inv ⟨7, false, 0, 0, 0, 99, 3, 0, 0, 0, false, 0, 0, 0⟩, by decide +kernel⟩⟩

theorem witness_at_issue : AtIssue base (base.grp 0) := by decide +kernel

/-- A step issues the word, and the group goes on at the clause that follows (R36, R168). -/
theorem test_step_issues : (match step base with | .next t => decide ((t.grp 0).phase = .fetch 8) | _ => false) = true := by decide +kernel

/-! ## Traps and control words -/

theorem witness_trap_entry : (base.grp 0).trap.handler = false ∧ (base.glch 0).lr.handler ≠ 0xFFFFFFFF ∧ 0 < base.groups.length := by decide +kernel

theorem witness_unhandled : (∃ s : State, 0 < s.groups.length ∧ (s.glch 0).lr.handler = 0xFFFFFFFF ∧ (s.gblk 0).launch < s.launches.length ∧
      (s.glch 0).status = 0) ∧
    ∃ s : State, 0 < s.groups.length ∧ (s.grp 0).trap.handler = true ∧ (s.gblk 0).launch < s.launches.length ∧ (s.glch 0).status = 0 :=
  ⟨⟨State.reset.withWord 0, by decide +kernel⟩, ⟨at0 inH, by decide +kernel⟩⟩

theorem witness_issue_checks : (AtIssue base (g0 id) ∧ MayTrap base (g0 id) ∧ (Instr.fmts 5).wfAt (g0 id).fmt = false) ∧
    (let f := fun g : Group => { g with alloc := 8 };
      AtIssue (at0 f) (g0 f) ∧ MayTrap (at0 f) (g0 f) ∧ (Instr.iadd 1 2 9).wfAt (g0 f).fmt = true ∧
        (Instr.iadd 1 2 9).beyondAlloc (g0 f).fmt (g0 f).wb (g0 f).alloc = some 9) ∧
    ((Instr.mulw 3 4 5).beyondAlloc (g0 id).fmt (g0 id).wb (g0 id).alloc = none ∧ (Instr.mulw 3 4 5).misaligned (g0 id).fmt = some 3 ∧
      (Instr.mulw 3 4 5).wfAt (g0 id).fmt = true) := by decide +kernel

theorem witness_privileged : (let f := sreg [5, 9];
    AtIssue (at0 f) (g0 f) ∧ MayTrap (at0 f) (g0 f) ∧ (Instr.swr 96 16).wfAt (g0 f).fmt = true ∧ (Instr.swr 96 17).wfAt (g0 f).fmt = true ∧
      (Instr.tcinv 96).wfAt (g0 f).fmt = true ∧ ((g0 f).src 96 0 0).toNat < 2 ^ 12 ∧ ((g0 f).src 96 1 0).toNat < 2 ^ 24 ∧
      ((at0 f).ctx ((at0 f).glch (at0 f).cur).ctx).priv = false) := by decide +kernel

theorem witness_software_traps : MayTrap base (g0 id) ∧ Issues base (g0 id) (.trap 5) ∧ Issues base (g0 id) .brk := by decide +kernel

/-- Handler state with TPC at a word of the remembered clause, and with a TPC that the handler wrote. -/
theorem witness_tret : (let f := fun g : Group => { inH g with trap := { (inH g).trap with tpc := 4, clause := ⟨0, 0, 15, 15, [0, 0]⟩ } };
    Issues (at0 f) (g0 f) .tret ∧ (g0 f).trap.handler = true ∧ (g0 f).trap.tpcWritten = false ∧ 0 < (g0 f).trap.clause.words.length ∧
      (g0 f).trap.tpc.toNat = (g0 f).trap.clause.hdr + 4 * (0 + 1)) ∧
    (let f := fun g : Group => { inH g with trap := { (inH g).trap with tpc := 0x100, tpcWritten := true } };
    Issues (at0 f) (g0 f) .tret ∧ (g0 f).trap.handler = true ∧ (g0 f).trap.tpcWritten = true) := by decide +kernel

/-- TRAP 5 enters the handler at 0x400 with TCAUSE 0x19 and TVAL 5, TPC being the clause that follows (R187, R206). -/
theorem test_trap_enters : (let g := (got (.trap 5) base).grp 0
    (g.phase, g.trap.tcause, g.trap.tval, g.trap.tpc, g.trap.handler)) = (.fetch 0x400, 0x19, 5, 8, true) := by decide +kernel

/-- TRET goes back to the trapped word (R192). -/
theorem test_tret_resumes : ((got .tret (at0 fun g => { inH g with trap := { (inH g).trap with tpc := 8, clause := ⟨0, 0, 15, 15, [0, 0]⟩ } })).grp 0).phase =
    .resume 1 := by decide +kernel

theorem witness_transfers : (∀ i ∈ [Instr.nop, .bra true 1 4, .pushj 13, .call 20, .ret 126, .brx 104 105], Issues base (g0 id) i) ∧
    (g0 id).join.length ≠ 32 ∧ ((g0 id).usrc 126).toNat % 4 = 0 ∧ ((g0 id).usrc 104 + 4 * (g0 id).usrc 105).toNat % 4 = 0 := by decide +kernel

theorem witness_transfer_traps : (let f := fun g : Group => { g with join := List.replicate 32 ⟨false, 0, 0, 0⟩ }
      MayTrap (at0 f) (g0 f) ∧ Issues (at0 f) (g0 f) (.pushj 13) ∧ (g0 f).join.length = 32) ∧
    (MayTrap base (g0 id) ∧ Issues base (g0 id) .join ∧ (g0 id).join = [] ∧ Issues base (g0 id) (.wbase 12) ∧ (g0 id).alloc ≤ 8 * 12) ∧
    (let f := sreg [2, 0x80000];
      Issues (at0 f) (g0 f) (.ret 96) ∧ ((g0 f).usrc 96).toNat % 4 ≠ 0 ∧ Issues (at0 f) (g0 f) (.fmts 97) ∧ 2 ^ 19 ≤ ((g0 f).usrc 97).toNat) := by
  decide +kernel

/-- BRD with the lanes of `m` taken can issue. -/
abbrev brdMeets (m : Mask) : Prop :=
  let f := fun g : Group => { g with preds := tset 0 [] 1 m }
  Issues (at0 f) (g0 f) (.brd false 1 5) ∧ (g0 f).lanes.em &&& (g0 f).lanes.live = 0xFFFFFFFF ∧ (g0 f).join.length ≠ 32 ∧
    ∀ L, L < 32 → m.getLsbD L = ((0xFFFFFFFF : Mask).getLsbD L && (((g0 f).pred 1).getLsbD L ^^ false))

theorem witness_brd : brdMeets 0xFFFFFFFF ∧ brdMeets 0 ∧ brdMeets 0xFF := by decide +kernel

theorem witness_path_ends : (let f := fun g : Group => { g with join := [⟨true, 4, 0, 0⟩, ⟨false, 8, 0xF, 1⟩], lanes := { g.lanes with em := 0xF0 } }
    Issues (at0 f) (g0 f) .join ∧ Issues (at0 f) (g0 f) .exit ∧ (g0 f).join = [⟨true, 4, 0, 0⟩] ++ ⟨false, 8, 0xF, 1⟩ :: [] ∧
      (∀ x ∈ [(⟨true, 4, 0, 0⟩ : JoinEntry)], x.em &&& (g0 f).lanes.live = 0) ∧ (0xF : Mask) &&& (g0 f).lanes.live ≠ 0 ∧
      (∀ x ∈ [(⟨true, 4, 0, 0⟩ : JoinEntry)], x.em &&& ((g0 f).lanes.live &&& ~~~(g0 f).lanes.em) = 0) ∧
      (0xF : Mask) &&& ((g0 f).lanes.live &&& ~~~(g0 f).lanes.em) ≠ 0) ∧
    (Issues base (g0 id) .exit ∧ (g0 id).join = [] ∧ (g0 id).deferred = []) := by decide +kernel

theorem witness_yield : (base.glch 0).status ≠ 1 ∧ Issues base (g0 id) (.yield (some 3) 4) ∧ (g0 id).flagOf 3 = 0 ∧
    Issues base (g0 id) (.yield none 4) ∧
    (let f := fun g : Group => { g with flags := [(3, 1)] }; Issues (at0 f) (g0 f) (.yield (some 3) 4) ∧ (g0 f).flagOf 3 ≠ 0) := by decide +kernel

theorem witness_control_writes : (∀ i ∈ [Instr.wbase 2, .mwr 96, .mand true 2, .fmts 96, .ucmp .lt 1 102 103], Issues base (g0 id) i) ∧
    8 * 2 < (g0 id).alloc ∧ ((g0 id).usrc 96).toNat < 2 ^ 19 ∧
    ∀ n ∈ [(17 : Fin 30), 18, 19, 20, 21], Issues (at0 inH) (g0 inH) (.swr 96 n) ∧ (g0 inH).trap.handler = true := by decide +kernel

theorem witness_control_reads : ∀ i ∈ [Instr.mrd 2, .hrd 99, .fmtr 7, .srd 3 2, .srd 3 29, .srd 3 0, .srd 3 1, .srd 3 23, .srd 100 9, .srd 106 11],
    Issues base (g0 id) i := by decide +kernel

/-- CALL writes the offset that follows to s30 and goes to its target (R200). -/
theorem test_call : (let g := (got (.call 20) base).grp 0; (g.phase, g.uni 30)) = (.fetch 80, 8) := by decide +kernel

/-- BRD on eight of 32 lanes runs them first and stacks the others (R183, R186). -/
theorem test_brd : (let g := (got (.brd false 1 5) (at0 fun g => { g with preds := [(1, 0xFF)] })).grp 0
    (g.phase, g.lanes.em, g.join)) = (.fetch 20, 0xFF, [⟨true, 8, 0xFFFFFF00, 0⟩]) := by decide +kernel

/-- A write of q7 is discarded (R244). -/
theorem test_ucmp_q7 : ((got (.ucmp .eq 7 102 103) base).grp 0).upreds = [] := by decide +kernel

/-! ## Lane words -/

/-- Words each of which can issue. -/
abbrev issues (l : List Instr) : Prop := ∀ i ∈ l, Issues base (g0 id) i

theorem witness_integer : issues [.iadd 1 2 3, .isub 1 2 3, .imin 1 2 3, .imax 1 2 3, .iminu 1 2 3, .imaxu 1 2 3, .iabsd 1 2 3, .iadds 1 2 3,
    .isubs 1 2 3, .imul 1 2 3, .imulh 1 2 3, .imulhu 1 2 3, .imad 1 2 3, .iadd 127 2 3, .iadd 96 2 126, .addw 2 4 6, .subw 2 4 6, .mulw 2 4 5,
    .mulwu 2 4 5, .shlw 2 4 5, .shrw 2 4 5, .addi 1 2 0x7FF, .andi 1 2 0x7FF, .ori 1 2 1, .xori 1 2 1, .shli 1 2 31, .shri 1 2 0, .sari 1 2 31,
    .muli 1 2 0x7FF, .movi 1 0x3FFFF, .movhi 1 0xFE00] := by decide +kernel

theorem witness_bits : issues [.and 1 2 3, .or 1 2 3, .xor 1 2 3, .andn 1 2 3, .orn 1 2 3, .xnor 1 2 3, .shl 1 2 3, .shr 1 2 3, .sar 1 2 3, .rol 1 2 3,
    .ror 1 2 3, .popc 1 2, .clz 1 2, .ctz 1 2, .brev 1 2, .bswap 1 2, .bfe 1 2 3, .bfeu 1 2 3, .bfi 1 2 3, .icmp .ltu 1 2 3, .icmpi 7 2 .lt 8,
    .sel 2 1 2 3, .mov 2 101, .pmov 1 2, .movp 1 2] := by decide +kernel

theorem witness_float : issues [.fadd 1 2 3, .fsub 1 2 3, .fmul 1 2 3, .ffma 1 2 3, .ffms 1 2 3, .fmin 1 2 3, .fmax 1 2 3, .fdiv 1 2 3, .fabs 1 2,
    .fneg 1 2, .fcpys 1 2 3, .fcmp .un 1 2 3, .frcp 1 2, .frsq 1 2, .fsqrt 1 2, .fexp2 1 2, .flog2 1 2, .fsinpi 1 2, .fcospi 1 2, .ftanh 1 2, .frne 1 2,
    .frtz 1 2, .fflr 1 2, .fceil 1 2] ∧ fp32.isNan 0x7F800001 = true ∧ fp32.isNan 0x7F800000 = false := by decide +kernel

/-- Packed words and conversions with an element format they take, and with one they refuse. -/
theorem witness_packed : (issues [.hadd2 1 2 3, .hmul2 1 2 3, .hfma2 1 2 3, .hmin2 1 2 3, .hmax2 1 2 3, .cvtfi 1 2 .rtz, .cvtfu 1 2 .rne, .cvtif 1 2,
      .cvtuf 1 2, .cvtfc 1 2, .cvtcf 1 2 3, .cvtfn 1 2 3, .cvtfnt 1 2 3, .cvtnf 1 2 3, .cvtnfh 1 2 3] ∧ fmtAF (g0 id).fmt < 2 ∧
      (fmtAF (g0 id).fmt ≤ 6 && decide (fmtBF (g0 id).fmt ≤ 1)) = true) ∧
    (let f := fmtOf 0x00000047;
      (∀ i ∈ [Instr.hadd2 1 2 3, .hmul2 1 2 3, .hfma2 1 2 3, .hmin2 1 2 3, .hmax2 1 2 3, .cvtfn 1 2 3, .cvtfnt 1 2 3, .cvtnf 1 2 3, .cvtnfh 1 2 3],
        Issues (at0 f) (g0 f) i) ∧ MayTrap (at0 f) (g0 f) ∧ 2 ≤ fmtAF (g0 f).fmt ∧
      (fmtAF (g0 f).fmt ≤ 3 || fmtAF (g0 f).fmt == 5 || fmtAF (g0 f).fmt == 6) = false ∧ decide (fmtAF (g0 f).fmt ≤ 3) = false ∧
      decide (fmtAF (g0 f).fmt ≤ 6) = false) := by decide +kernel

theorem witness_exchange : issues [.qswh 1 2, .qswv 1 2, .qswd 1 2, .qbc 1 2 3, .shfli 1 2 3, .shflu 1 2 3, .shfld 1 2 3, .shflx 1 2 3, .hmix 1 2 3,
    .prmt 1 2 3, .vany 1 false 2, .vall 7 true 2, .vbal 1 false 2, .rdadd 1 2, .rdmin 1 2, .rdmax 1 2, .rdand 1 2, .rdor 1 2, .rdxor 1 2,
    .rdfadd 100 2] := by decide +kernel

/-- An indexed move at the last register of the allocation, and one beyond it in lane 3 only. -/
theorem witness_indexed : (let f := vreg 2 fun _ => 87;
      Issues (at0 f) (g0 f) (.movxr 4 2 8) ∧ Issues (at0 f) (g0 f) (.movxw 4 2 8) ∧
        ∀ L, L < 32 → (g0 f).act.getLsbD L = true → 0 ≤ ((g0 f).src 2 0 L).toInt ∧ (g0 f).wb + 8 + ((g0 f).src 2 0 L).toNat < (g0 f).alloc) ∧
    (let f := vreg 2 fun L => if L = 3 then 88 else 0;
      Issues (at0 f) (g0 f) (.movxr 4 2 8) ∧ Issues (at0 f) (g0 f) (.movxw 4 2 8) ∧ MayTrap (at0 f) (g0 f) ∧ (g0 f).launchAct.getLsbD 3 = true ∧
        (∀ k, k < 3 → (g0 f).launchAct.getLsbD k = true → 0 ≤ ((g0 f).src 2 0 k).toInt ∧ (g0 f).wb + 8 + ((g0 f).src 2 0 k).toNat < (g0 f).alloc) ∧
        (g0 f).alloc ≤ (g0 f).wb + 8 + ((g0 f).src 2 0 3).toNat) := by decide +kernel

/-- The value that a lane word leaves in v1 of lane 0, from v2 and v3. -/
def lane0 (i : Instr) (x y : Nat) : Word := ((got i (at0 fun g => vreg 3 (fun _ => y) (vreg 2 (fun _ => x) g))).grp 0).phys 1 0

/-- IADDS clamps, IABSD is exact, IMULH is signed (R246, R247). -/
theorem test_integer : lane0 (.iadds 1 2 3) 0x7FFFFFFF 1 = 0x7FFFFFFF ∧ lane0 (.iabsd 1 2 3) 0x80000000 0x7FFFFFFF = 0xFFFFFFFF ∧
    lane0 (.imulh 1 2 3) 0xFFFFFFFF 2 = 0xFFFFFFFF := by decide +kernel

/-- Shifts by 32 and the counts of zero (R248). -/
theorem test_shift : lane0 (.shl 1 2 3) 1 32 = 0 ∧ lane0 (.sar 1 2 3) 0x80000000 40 = 0xFFFFFFFF ∧ lane0 (.clz 1 2) 0 0 = 32 := by decide +kernel

/-- 1 + 2^-23 is exact, and a sum of an infinity and its negative is the canonical NaN (R83, R74). -/
theorem test_float : lane0 (.fadd 1 2 3) 0x3F800000 0x34000000 = 0x3F800001 ∧ lane0 (.fadd 1 2 3) 0x7F800000 0xFF800000 = 0x7FC00000 := by decide +kernel

/-- FTANH of 0 and FEXP2 of 1 (R79, R256). -/
theorem test_functions : lane0 (.ftanh 1 2) 0 0 = 0 ∧ lane0 (.fexp2 1 2) 0x3F800000 0 = 0x40000000 := by decide +kernel

/-- A write of sz is discarded (R43). -/
theorem test_sz : ((got (.iadd 127 2 3) (at0 (vreg 2 fun _ => 5))).grp 0).regs = (g0 (vreg 2 fun _ => 5)).regs := by decide +kernel

/-! ## Loads, stores and atomics -/

/-- v1 holds 4 × lane + `k`, c2 a capability of 128 bytes more than `k` with every right, s4 the number 64. -/
def accG (k : Nat) (g : Group) : Group := creg 2 ⟨7, 0x1000, 128 + k, 0xFF, 1, 0⟩ (sreg [0, 0, 0, 0, 64] (vreg 1 (fun L => 4 * L + k) g))

/-- Loads that end at the last byte of their object, of their scratchpad and of their window. -/
theorem witness_loads : (let f := accG 0; (g0 f).act ≠ 0 ∧
      (∀ i ∈ [Instr.ld false .w 8 1 2, .lda true .w 8 1 .device 2], Issues (at0 f) (g0 f) i) ∧
      (∀ L ∈ lanesOf (g0 f).act, (g0 f).reaches 2 rightR LSize.w.bytes ((g0 f).src 1 0 L).toNat) ∧ Issues (at0 f) (g0 f) (.lds false .w 8 1 100) ∧
      (∀ L ∈ lanesOf (g0 f).act, ((g0 f).src 1 0 L + (g0 f).usrc 100).toNat + 4 ≤ ((at0 f).glch (at0 f).cur).scr ∧
        ((g0 f).src 1 0 L + (g0 f).usrc 100).toNat % 4 = 0 ∧
        ((at0 f).blk (g0 f).blk).markedAt ((g0 f).src 1 0 L + (g0 f).usrc 100).toNat 4 = false) ∧
      Issues (at0 f) (g0 f) (.ldw false .w 8 1) ∧
      ∀ L ∈ lanesOf (g0 f).act, (at0 f).windowReaches (g0 f).blk LSize.w.bytes ((g0 f).src 1 0 L).toNat) ∧
    (let f := accG 0x3FF80; (g0 f).act ≠ 0 ∧ Issues (at0 f) (g0 f) (.lds false .w 8 1 96) ∧
      ∀ L ∈ lanesOf (g0 f).act, ((g0 f).src 1 0 L + (g0 f).usrc 96).toNat + 4 ≤ ((at0 f).glch (at0 f).cur).scr ∧
        ((g0 f).src 1 0 L + (g0 f).usrc 96).toNat % 4 = 0 ∧
        ((at0 f).blk (g0 f).blk).markedAt ((g0 f).src 1 0 L + (g0 f).usrc 96).toNat 4 = false) := by decide +kernel

theorem witness_stores : (let f := accG 0;
      (∀ i ∈ [Instr.st false .w 8 1 2, .stl true .w 8 1 .device 2, .stw false .w 8 1], Issues (at0 f) (g0 f) i) ∧ (g0 f).launchAct ≠ 0 ∧
      (∀ L ∈ lanesOf (g0 f).launchAct, (g0 f).reaches 2 rightW SSize.w.bytes ((g0 f).src 1 0 L).toNat ∧
        (at0 f).windowReaches (g0 f).blk SSize.w.bytes ((g0 f).src 1 0 L).toNat) ∧
      ∃ L ∈ lanesOf (g0 f).launchAct, ((at0 f).line ((at0 f).gblk (at0 f).cur).core 0
        (lineOf (((g0 f).cap 2).obj * 2 ^ 40 + (((g0 f).cap 2).base + ((g0 f).src 1 0 L).toNat) % 2 ^ 40))).writeHit = false) := by decide +kernel

theorem witness_atomics : (let f := accG 0;
    (∀ i ∈ [Instr.atom .add 8 1 2, .atoma .min 8 1 .device 2, .atoml .cas 8 1 .device 2, .atomr .fadd 8 1 .system 2], Issues (at0 f) (g0 f) i) ∧
      (g0 f).launchAct ≠ 0 ∧
      ∀ L ∈ lanesOf (g0 f).launchAct, (g0 f).reaches 2 (rightR + rightW + rightA) AtomOp.add.bytes ((g0 f).src 1 0 L).toNat) := by decide +kernel

/-- One lane stores to, and applies an atomic to, the last word of its scratchpad. -/
theorem witness_scratchpad : (let f := fun g => lanes 0x10 (sreg [] (vreg 1 (fun _ => 0x3FFFC) g));
    (at0 f).ops = [] ∧ (g0 f).blk < (at0 f).blocks.length ∧ lanesOf (g0 f).launchAct = [4] ∧ Issues (at0 f) (g0 f) (.sts false .w 8 1 96) ∧
      ((g0 f).src 1 0 4 + (g0 f).usrc 96).toNat + 4 ≤ ((at0 f).glch (at0 f).cur).scr ∧ ((g0 f).src 1 0 4 + (g0 f).usrc 96).toNat % 4 = 0 ∧
      Issues (at0 f) (g0 f) (.atoms .add 8 1 96) ∧ ((at0 f).blk (g0 f).blk).markedAt ((g0 f).src 1 0 4 + (g0 f).usrc 96).toNat 4 = false) := by
  decide +kernel

/-- The group of `accG` with one enabled lane, whose line L1 holds in M, at the physical frame that follows. -/
def hitS : State := let s := at0 fun g => lanes 0x10 (accG 0 g); s.setLine 0 0 (lineOf (7 * 2 ^ 40 + 0x1010)) ⟨.M, 0x41000, 0, 3, 0, false, 0, false, 0, 0, 0, 0⟩

/-- One lane stores to, and applies an atomic to, a word whose line L1 holds in M. -/
theorem witness_hits : (let s := hitS; let g := s.grp 0; let x := s.line 0 0 (lineOf (7 * 2 ^ 40 + 0x1010));
    s.ops = [] ∧ lanesOf g.launchAct = [4] ∧ (s.gblk s.cur).core = 0 ∧
      (g.cap 2).obj * 2 ^ 40 + ((g.cap 2).base + (g.src 1 0 4).toNat) % 2 ^ 40 = 7 * 2 ^ 40 + 0x1010 ∧ x.st = .M ∧ x.ctx = (s.glch s.cur).ctx ∧ x.mt = 0 ∧
      s.poisonedPage x.ctx 7 0 = false ∧ x.pa + 0x10 + 4 ≤ memBytes ∧ g.reaches 2 (rightR + rightW + rightA) 4 (g.src 1 0 4).toNat ∧
      g.reaches 2 rightW 4 (g.src 1 0 4).toNat ∧
      (∀ i ∈ [Instr.st false .w 8 1 2, .stl false .w 8 1 .device 2, .atom .add 8 1 2, .atoma .add 8 1 .device 2, .atoml .add 8 1 .device 2,
        .atomr .add 8 1 .device 2], Issues s g i) ∧ AtomOp.add ≠ .xadd ∧ oAfar (s.objRaw x.ctx 7) = false ∧
      tget 0 (s.core 0).pred (predKey (lineOf (7 * 2 ^ 40 + 0x1010))) < 2 ∧ s.poisonedSector (7 * 2 ^ 40 + 0x1010) = false) := by decide +kernel

/-- A store that hits is performed at the physical address of its line (R170, R236). -/
theorem test_store_hit : mread (got (.st false .w 1 1 2) hitS).mem 0x41010 4 = 16 := by decide +kernel

theorem witness_atomic_operations : (5 : Nat) < 2 ^ 32 ∧ (BitVec.ofNat 32 0xFFFFFFFF).toInt < (BitVec.ofNat 32 0).toInt := by decide +kernel

theorem witness_no_right : MayTrap base (g0 id) ∧ (g0 id).act = (g0 id).launchAct ∧ lanesOf (g0 id).act = 0 :: (List.range 31).map (· + 1) ∧
    Issues base (g0 id) (.ld false .w 8 1 2) ∧ Issues base (g0 id) (.st false .w 8 1 2) ∧ ((g0 id).cap 2).allows rightR = false ∧
    ((g0 id).cap 2).allows rightW = false := by decide +kernel

/-- A doubleword load of two lanes whose data returns. -/
theorem witness_load_returns : (let p := { opOf (.ld false .d 8 1 2) with
        dest := [.lane 8, .lane 9], accs := [⟨0, 0, 7 * 2 ^ 40, 0, 0, 8, 0, 0, none, .ready⟩, ⟨31, 8, 7 * 2 ^ 40 + 8, 8, 0, 8, 0, 0, none, .ready⟩] };
    let s := flying id p;
    s.ops = [(5, p)] ∧ s.groups[p.gid]? = some (g0 id) ∧ p.instr.isLoad = true ∧ p.stage = .cleared ∧
      p.dest = ((List.range p.instr.lsize.regs).map fun k => PReg.lane (8 + k)) ∧ (∀ x ∈ p.accs, x.st = .ready ∧ x.lane < 32) ∧
      (p.accs.map fun x => x.lane).Nodup) := by decide +kernel

/-- LDS is in flight with 32 accesses, ST to an object without W traps with 0x07 (R215, R219). -/
theorem test_access : ((got (.lds false .w 8 1 100) (at0 (accG 0))).ops.map fun e => e.2.accs.length) = [32] ∧
    ((got (.st false .w 8 1 3) (at0 (accG 0))).grp 0).trap.tcause = 0x07 := by decide +kernel

/-- ATOMS.ADD returns the old value and leaves the sum (R227). -/
theorem test_atoms : (let s := at0 fun g => lanes 1 (vreg 8 (fun _ => 7) (sreg [] g));
    let s := { s with blocks := s.blocks.map fun b => { b with scr := [(0, 5)] } };
    let t := got (.atoms .add 8 1 96) s
    (t.sread 0 0 4, t.ops.map fun e => e.2.accs.map fun x => x.st)) = (12, [[.done 5]]) := by decide +kernel

/-! ## Capabilities, fences and the load/store engine's other work -/

/-- c2 covers 0x2000 bytes, with every right but P; s4 and up hold a narrowing to its last 256 bytes. -/
def capG (g : Group) : Group := creg 2 ⟨7, 0, 0x20000, 0x7F, 1, 0⟩ (sreg [0, 0x00FFFFFF, 0x01000000, 0, 0x1FF00, 0, 0x100, 0, 0xFF, 0x100] g)

theorem witness_capabilities : (let f := capG; let x := (g0 f).cap 2; let p := fun k => ((g0 f).src 100 k 0).toNat;
    (∀ i ∈ [Instr.capld 4 96, .capld 4 97, .capnar 4 100 2, .caprr 4 104 2, .caprd 8 2, .caprd 100 2], Issues (at0 f) (g0 f) i) ∧ (g0 f).usrc 96 = 0 ∧
      (g0 f).usrc 97 ≠ 0 ∧ ((g0 f).usrc 97).toNat < 2 ^ 24 ∧ p 1 < 256 ∧ p 3 < 256 ∧ x.obj ≠ 0 ∧ 1 ≤ x.kind ∧ x.kind ≤ 3 ∧
      p 1 * 2 ^ 32 + p 0 + (p 3 * 2 ^ 32 + p 2) ≤ x.len ∧ ((g0 f).usrc 104).toNat < 256) := by decide +kernel

theorem witness_capability_traps : (let f := capG;
      MayTrap (at0 f) (g0 f) ∧ Issues (at0 f) (g0 f) (.capld 4 98) ∧ 2 ^ 24 ≤ ((g0 f).usrc 98).toNat ∧ Issues (at0 f) (g0 f) (.caprr 4 105 2) ∧
        256 ≤ ((g0 f).usrc 105).toNat) ∧
    (let f := fun g => sreg [0, 256, 0, 0, 0x1FF00, 0, 0x101, 0, 0, 0, 0, 256] (capG g); let x := (g0 f).cap 2;
      let p := fun k => ((g0 f).src 100 k 0).toNat;
      (∀ i ∈ [Instr.capnar 4 96 2, .capnar 4 104 2, .capnar 4 100 3, .capnar 4 100 2], Issues (at0 f) (g0 f) i) ∧ 256 ≤ ((g0 f).src 96 1 0).toNat ∧
        256 ≤ ((g0 f).src 104 3 0).toNat ∧ p 1 < 256 ∧ p 3 < 256 ∧ ((g0 f).cap 3).obj = 0 ∧ x.obj ≠ 0 ∧ 1 ≤ x.kind ∧ x.kind ≤ 3 ∧
        x.len < p 1 * 2 ^ 32 + p 0 + (p 3 * 2 ^ 32 + p 2)) := by decide +kernel

theorem witness_capld_returns : (let p := { opOf (.capld 4 96) with ps := [0], dest := [.cap 4] }; let s := flying id p;
      s.ops = [(5, p)] ∧ s.groups[p.gid]? = some (g0 id) ∧ s.capLoad (s.glch p.gid).ctx (p.ps.getD 0 0) = some .null) ∧
    (let p := { opOf (.capld 4 96) with ps := [7], dest := [.cap 4] }; let s := flying id p;
      s.ops = [(5, p)] ∧ s.groups[p.gid]? = some (g0 id) ∧ s.capLoad (s.glch p.gid).ctx (p.ps.getD 0 0) = none ∧ (g0 id).trap.handler = false ∧
        (s.glch p.gid).lr.handler ≠ 0xFFFFFFFF ∧ (g0 id).phase ≠ .stopped ∧ (g0 id).phase ≠ .exited) := by decide +kernel

theorem witness_fences : (base.ops = [] ∧ Issues base (g0 id) (.fence .acq .course) ∧ Issues base (g0 id) (.fence .sc .system)) ∧
    (let p := { opOf (.fence .sc .device) with stage := .tick 0 }; (flying id p).ops = [(5, p)] ∧ 0 ≤ (flying id p).tick) ∧
    (let p := { opOf (.fence .sc .device) with stage := .tick 1 }; (flying id p).ops = [(5, p)] ∧ (flying id p).tick < 1) := by decide +kernel

theorem witness_discard_pref : (let f := fun g => sreg [0, 2, 0, 0, 0, 0x20000, 0x3FFE0] (capG g); let x := (g0 f).cap 2;
    let p := fun k => ((g0 f).src 96 k 0).toNat; let r := fun k => ((g0 f).src 100 k 0).toNat;
    Issues (at0 f) (g0 f) (.discard 96 2) ∧ p 0 < 2 ^ 24 ∧ 1 ≤ p 1 ∧ p 1 ≤ 2 ^ 24 ∧ x.allows rightD = true ∧ x.base ≤ p 0 * 65536 ∧
      (p 0 + p 1) * 65536 ≤ x.base + x.len ∧ Issues (at0 f) (g0 f) (.pref 100 2) ∧ x.allows rightR = true ∧ r 0 + r 1 ≤ x.len ∧ r 2 % 32 = 0 ∧
      r 2 + 32 ≤ ((at0 f).glch (at0 f).cur).scr) := by decide +kernel

/-- A PREF of no bytes, and one of a page that is not present. -/
theorem witness_pref_arrival : ∀ k ∈ [0, 256], (let p := { opOf (.pref 96 2) with ps := [0, k, 64] };
    let s := flying id p; let s := s.setBar 0 64 ⟨2, 0, 0, 2, 0, 2⟩;
    s.ops = [(5, p)] ∧ linesOf (p.cap1.obj * 2 ^ 40 + p.cap1.base + p.ps.getD 0 0) (p.ps.getD 1 0) = (if k = 0 then [] else [0]) ∧
      s.prefLine 5 0 = (s, some 0) ∧ p.gid < s.groups.length ∧ (s.grp p.gid).blk < s.blocks.length ∧
      (s.bar 0 64).broken = false ∧ (s.bar 0 64).h0 = false ∧ 2 ≤ (s.bar 0 64).rem) := by decide +kernel

theorem witness_reports : (let p := { opOf (.ldw false .w 8 1) with stage := .issued, accs := [⟨0, 0, 0, 0, 0, 4, 0, 0, some 0, .need⟩] };
      let s := flying id p;
      s.ops = [(5, p)] ∧ p.instr.isLoad = true ∧ p.accs ≠ [] ∧ ∀ x ∈ p.accs, x.st = .need ∧ x.blk = some 0 ∧ s.peerGone 0 = false ∧
        (s.blk 0).markedAt x.adr x.size = false) ∧
    (let p := { opOf (.atom .addw 8 1 2) with dest := [.lane 8, .lane 9], accs := [⟨3, 0, 7 * 2 ^ 40, 0, 0, 8, 0, 0, none, .done 9⟩] };
      let s := flying id p;
      s.ops = [(5, p)] ∧ s.groups[p.gid]? = some (g0 id) ∧ p.instr.atomOp = some .addw ∧ p.stage = .cleared ∧
        p.dest = ((List.range AtomOp.addw.results).map fun k => PReg.lane (8 + k)) ∧ (∀ x ∈ p.accs, x.lane < 32 ∧ x.st = .done 9 ∧ x.blk = none) ∧
        (p.accs.map fun x => x.lane).Nodup ∧ p.accs ≠ [] ∧ (g0 id).phase ≠ .stopped ∧ (g0 id).phase ≠ .exited) := by decide +kernel

/-- Core 0 holds 17 lines of one set, one more than L1 keeps, the one longest not used with these requests in flight, and a block waits for its
reclaim. -/
def lentS (pend : Nat) : State :=
  { base with cores := [(0, { Core.empty with
    reclaim := [0]
    lines := (List.range 17).map fun i => (256 * i, ⟨.S, 0, 0, 3, 0, false, i, false, if i = 0 then pend else 0, 0, 0, 0⟩) })] }

/-- What every entry of a map and its default satisfy, every value read from it satisfies. -/
theorem tget_holds {α : Type} (P : α → Prop) (d : α) (m : SMap α) (k : Nat) (hd : P d) (h : ∀ e ∈ m, P e.2) : P (tget d m k) := by
  induction m with
  | nil => exact hd
  | cons e t ih =>
    obtain ⟨j, v⟩ := e
    simp only [tget]
    split
    · exact h (j, v) (by simp)
    · exact ih fun e he => h e (by simp [he])

theorem witness_reclaim : (State.reset.core 0).reclaim = [] ∧
    (∀ n ∈ [0, 1], let s := lentS n; (s.core 0).reclaim ≠ [] ∧ ((s.core 0).lines.map Prod.fst).Nodup ∧ (s.line 0 0 0).st ≠ .I ∧
      16 + min (s.core 0).lent (s.lendable 0) ≤ ((s.core 0).lines.filter fun f =>
        decide (f.1 % 4 = 0 ∧ f.2.st ≠ .I ∧ f.1 / 4 % 64 = 0 % 64 ∧ (s.line 0 0 0).use < f.2.use)).length) ∧
    (∀ l, fld ((lentS 0).line 0 0 l).pending 0 3 = 0 ∧ (lentS 0).lineBusy 0 l = false) ∧
    fld ((lentS 1).line 0 0 0).pending 0 3 ≠ 0 := by
  refine ⟨by decide +kernel, by decide +kernel,
    fun l => ⟨tget_holds (fun x : CLine => fld x.pending 0 3 = 0) _ _ _ (by decide) (by decide +kernel), ?_⟩, by decide +kernel⟩
  simp only [State.lineBusy, Bool.or_eq_false_iff]
  exact ⟨⟨⟨rfl, rfl⟩, rfl⟩, rfl⟩

/-- CAPNAR moves BASE and sets LEN (R211). -/
theorem test_capnar : ((got (.capnar 4 100 2) (at0 capG)).grp 0).cap 4 = ⟨7, 0x1FF00, 0x100, 0x7F, 1, 0⟩ := by decide +kernel

/-- An acquire fence with nothing in flight is over at once (R103). -/
theorem test_fence : (got (.fence .acq .course) base).ops = [] := by decide +kernel

/-! ## Clauses, deferred traps and the active set -/

/-- What fetching the clause of these words gives: first its header, then header and words. -/
def fetches (ws : List Nat) : FetchRes × FetchRes :=
  let s := code ws id
  let s0 := (s.withFetchOp 0).1
  let o := (s.withFetchOp 0).2
  let r := s0.fetchWords 0 o 0 1
  (r.2, (r.1.fetchWords 0 o 0 (fld (ws.headD 0) 7 5 + 2)).2)

/-- A legal clause, one whose header has a bit that is not assigned, and one with a transfer before its last word, as they are fetched. -/
theorem witness_clause_fetch : (((code [0x000FF000, 0] id).grp 0).phase = .fetch 0 ∧ ((code [0x000FF000, 0] id).glch 0).status ≠ 1 ∧
      fetches [0x000FF000, 0] = (.words [0x000FF000], .words [0x000FF000, 0]) ∧ headerLegal 0x000FF000 = true ∧ misplaced 1 [0] = none) ∧
    (fetches [0x000FF001, 0] = (.words [0x000FF001], .words [0x000FF001, 0]) ∧ headerLegal 0x000FF001 = false ∧
      ((code [0x000FF001, 0] id).grp 0).trap.handler = false ∧ ((code [0x000FF001, 0] id).glch 0).lr.handler ≠ 0xFFFFFFFF) ∧
    (fetches [0x000FF080, 0x18000000, 0] = (.words [0x000FF080], .words [0x000FF080, 0x18000000, 0]) ∧ headerLegal 0x000FF080 = true ∧
      misplaced 1 [0x18000000, 0] = some (1, 0x18000000)) := by decide +kernel

/-- Fetches of a stopped launch, without the right X, and at the first offset that does not fit. -/
theorem witness_fetch_checks : (let s := at0 (inPhase (.fetch 0)); let s := ({ s with launches := s.launches.map fun l => { l with status := 1 } } : State);
      s.groups[0]? = some (g0 (inPhase (.fetch 0))) ∧ s.ops = [] ∧ (s.glch 0).status = 1) ∧
    (let s := at0 (inPhase (.fetch 0)); (s.glch 0).status ≠ 1 ∧ (s.grp 0).trap.handler = false ∧ (s.glch 0).lr.handler ≠ 0xFFFFFFFF ∧
      (s.glch 0).codeCap.rights &&& rightX = 0) ∧
    (let s := code [] (inPhase (.fetch 0x1FFFD)); (s.grp 0).phase = .fetch 0x1FFFD ∧ s.ops = [] ∧ (s.glch 0).status ≠ 1 ∧
      (s.glch 0).codeCap.rights &&& rightX ≠ 0 ∧ (s.glch 0).codeCap.len < 0x1FFFD + 4) := by decide +kernel

/-- A WAIT mask of flag 3 that is met, and one that is not. -/
theorem witness_accept : (let f := fun g : Group => { inPhase .fetched g with clause := ⟨0, 8, 15, 15, [0]⟩ };
      (at0 f).groups[0]? = some (g0 f) ∧ (∀ k, k < 12 → fld (g0 f).clause.wait k 1 = 1 → tget 0 (g0 f).flags k = 0) ∧ (g0 f).phase = .fetched ∧
        ((at0 f).glch 0).status ≠ 1) ∧
    (let f := inPhase (.resume 0); (g0 f).phase = .resume 0 ∧ ∀ k, k < 12 → fld (g0 f).clause.wait k 1 = 1 → tget 0 (g0 f).flags k = 0) ∧
    (let f := fun g : Group => { inPhase .fetched g with clause := ⟨0, 8, 15, 15, [0]⟩, flags := [(3, 1)] };
      ¬ ∀ k, k < 12 → fld (g0 f).clause.wait k 1 = 1 → tget 0 (g0 f).flags k = 0) := by decide +kernel

theorem witness_deferred : (let f := fun g : Group => { g with deferred := [⟨0x0F, 0, 0, 1, []⟩] };
      (at0 f).groups[0]? = some (g0 f) ∧ (g0 f).deferred = ⟨0x0F, 0, 0, 1, []⟩ :: [] ∧ (at0 f).deferredDue 0 = true ∧
        ((at0 f).glch 0).lr.handler ≠ 0xFFFFFFFF) ∧
    (let f := fun g : Group => { inH g with deferred := [⟨0x0F, 0, 0, 1, []⟩] }; (g0 f).trap.handler = true) ∧
    (let f := fun g : Group => { g with deferred := [⟨0x0F, 0, 0, 1, []⟩] };
      (flying f { opOf (.ld false .w 8 1 2) with stage := .issued }).uncleared 0 = true) := by decide +kernel

/-- The group and a second one, pending, in its partition. -/
def pair (w : Nat) : State :=
  let s := at0 id
  { s with groups := s.groups ++ s.groups.map fun g => { g with sched := ⟨1, false, 0, w, false, false, false, none, 0⟩ } }

theorem witness_sets : (let f := fun g : Group => { g with sched := { g.sched with waited := 256 } };
      (at0 f).groups[0]? = some (g0 f) ∧ (g0 f).sched.active = true ∧ 256 ≤ (g0 f).sched.waited ∧ (at0 f).ready 0 = true) ∧
    ((g0 id).sched.waited < 256) ∧
    (let s := pair 256; (s.grp 1).sched.active = false ∧ 256 ≤ (s.grp 1).sched.waited ∧ s.wantsPlace 1 = true ∧ s.placesTaken 1 < 8 ∧
      s.entering 1 = some 1 ∧ s.pendingAged 1 = true ∧ ∃ k ∈ s.activeOf 1, (s.grp k).sched.swapping = false) ∧
    (let s := pair 256; let s := s.setGrp 0 { s.grp 0 with sched := { (s.grp 0).sched with active := false } };
      (s.grp 1).sched.active = false ∧ 256 ≤ (s.grp 1).sched.waited ∧ s.wantsPlace 1 = true ∧ s.activeOf 1 = [] ∧ s.placesTaken 1 < 8) ∧
    (let s := pair 0; let s := s.setGrp 0 { s.grp 0 with sched := { (s.grp 0).sched with leaving := true } };
      1 < s.groups.length ∧ s.entering 1 = some 1 ∧ s.pendingAged 1 = false ∧ s.placesTaken 1 < 8 ∧ s.maySwapOut 0 = true ∧ 0 ∈ s.mates 1 ∧
        (s.grp 1).phase ≠ .exited ∧ (s.grp 1).phase ≠ .stopped) := by decide +kernel

theorem witness_waits : (let f := inPhase (.waiting 0 (.flag 3)); (at0 f).groups[0]? = some (g0 f) ∧ tget 0 (g0 f).flags 3 = 0) ∧
    (let f := fun g : Group => { inPhase (.waiting 0 (.flag 3)) g with flags := [(3, 1)] }; tget 0 (g0 f).flags 3 ≠ 0) ∧
    (let f := fun g : Group => { inPhase (.waiting 0 (.monitor 1)) g with mons := [(1, .fired 5)] }; tget .idle (g0 f).mons 1 = .fired 5) ∧
    (let f := fun g : Group => { inPhase (.waiting 0 (.monitor 1)) g with mons := [(1, .armed .scratch .null 64 5)] };
      (g0 f).phase = .waiting 0 (.monitor 1) ∧ tget .idle (g0 f).mons 1 = .armed .scratch .null 64 5) ∧
    (let f := fun g : Group => { g with sched := { g.sched with sv := some (.counter 0 5) } };
      (g0 f).phase = .issue 0 ∧ (g0 f).sched.sv ≠ none ∧ (at0 f).stallObject 0 ≠ (g0 f).sched.sv) ∧
    (let f := fun g : Group => { inPhase .fetched g with
        clause := ⟨0, 8, 15, 15, [0]⟩, flags := [(3, 1)], sched := { g.sched with sv := some (.counter 0 5) } };
      let s := flying f { opOf (.lwait 105 104) with ps := [5 * 2 ^ 24], flag := 3, stage := .seqWait };
      s.groups[0]? = some (g0 f) ∧ (g0 f).phase = .fetched ∧ (g0 f).sched.sv ≠ none ∧ s.stallObject 0 = (g0 f).sched.sv) ∧
    (((at0 (inPhase (.waiting 0 (.barrier 0 64 0)))).setBar 0 64 ⟨1, 0, 0, 1, 0, 1⟩).bar 0 64).broken = true := by decide +kernel

/-- Fetching and accepting a clause of one NOP (R37, R18). -/
theorem test_fetch : ((got (.clauseFetch 0) (code [0x000FF000, 0] id)).grp 0).clause = ⟨0, 0, 15, 15, [0]⟩ ∧
    ((got (.clauseAccept 0) (got (.clauseFetch 0) (code [0x000FF000, 0] id))).grp 0).phase = .issue 0 := by decide +kernel

/-- A header with a bit that is not assigned traps with 0x02 (R38). -/
theorem test_bad_header : ((got (.clauseFetch 0) (code [0x000FF001, 0] id)).grp 0).trap.tcause = 2 := by decide +kernel

/-! ## Barriers, monitors and copies -/

/-- s0 names the last barrier of the scratchpad; s1 and s2 hold counts. -/
def barG (a b : Nat) (g : Group) : Group := sreg [0x3FFE0, a, b] g

/-- The barrier holds these words. -/
def barAt (x : Bar) (f : Group → Group) : State := (at0 f).setBar 0 0x3FFE0 x

/-- A fence of the group is still in flight. -/
def fenced (s : State) : State := { s with ops := [(5, { opOf (.fence .sc .device) with stage := .tick 9 })], nextOp := 6 }

theorem witness_bar_init : (let f := barG 1 0x7FFFFFFF; let s := at0 f;
      Issues s (g0 f) (.barinit 96) ∧ s.ownBar (g0 f) 0x3FFE0 ∧ s.actsNow s.cur (.barinit 96) = true ∧ (s.bar 0 0x3FFE0).broken = false ∧
        (s.bar 0 0x3FFE0).h0 = false ∧ (s.bar 0 0x3FFE0).init = false ∧ (s.bar 0 0x3FFE0).rem + 1 < 2 ^ 32 ∧
        (s.bar 0 0x3FFE0).bal + 0x7FFFFFFF < 2 ^ 32 ∧ (((g0 f).src 96 1 0).toNat, ((g0 f).src 96 2 0).toNat) = (1, 0x7FFFFFFF) ∧
      Issues (fenced s) (g0 f) (.barinit 96) ∧ (fenced s).actsNow s.cur (.barinit 96) = false) ∧
    (∀ stat ∈ [2, 3, 0x102], let f := barG 3 0; let s := barAt ⟨4, 128, 0, 4, 128, stat⟩ f;
      Issues s (g0 f) (.barinit 96) ∧ s.ownBar (g0 f) 0x3FFE0 ∧ s.actsNow s.cur (.barinit 96) = true ∧ (s.bar 0 0x3FFE0).broken = (stat == 3) ∧
        (s.bar 0 0x3FFE0).h0 = (stat == 0x102) ∧ (s.bar 0 0x3FFE0).init = true) := by decide +kernel

theorem witness_bar_arrival : (let f := barG 5 0; let s := barAt ⟨2, 128, 0, 4, 128, 2⟩ f;
      Issues s (g0 f) (.bararr 96) ∧ s.ops = [] ∧ s.ownBar (g0 f) 0x3FFE0 ∧ (s.blk 0).held = [] ∧ (s.bar 0 0x3FFE0).broken = false ∧
        (s.bar 0 0x3FFE0).h0 = false ∧ (s.bar 0 0x3FFE0).course = false ∧ 2 ≤ (s.bar 0 0x3FFE0).rem ∧ (s.bar 0 0x3FFE0).bal + 5 < 2 ^ 32) ∧
    (let f := barG 0 0; let s := barAt ⟨1, 0, 0, 4, 128, 2⟩ f;
      Issues s (g0 f) (.bararr 96) ∧ s.ops = [] ∧ s.ownBar (g0 f) 0x3FFE0 ∧ (s.bar 0 0x3FFE0).init = true ∧ (s.bar 0 0x3FFE0).rem = 1 ∧
        (s.bar 0 0x3FFE0).bal = 0 ∧ fld (s.bar 0 0x3FFE0).stat 9 1 = 0 ∧ ((g0 f).src 96 1 0).toNat = 0) := by decide +kernel

/-- Tests of a broken barrier, of a phase that has passed and of one that has not. -/
theorem witness_bar_tests : (let f := barG 0 0; let s := barAt ⟨1, 0, 0, 1, 0, 3⟩ f;
      s.ownBar (g0 f) 0x3FFE0 ∧ Issues s (g0 f) (.barwait 2 96) ∧
        (∀ trap, Issues s (g0 f) (.bartry 105 96 trap) ∧ s.actsNow s.cur (.bartry 105 96 trap) = true ∧
          Issues (fenced s) (g0 f) (.bartry 105 96 trap) ∧ (fenced s).actsNow s.cur (.bartry 105 96 trap) = false) ∧
        (s.bar 0 0x3FFE0).broken = true ∧ MayTrap s (g0 f)) ∧
    (let f := barG 0xFFFFFFFF 0; let s := barAt ⟨1, 0, 0, 1, 0, 2⟩ f;
      (s.bar 0 0x3FFE0).broken = false ∧ ((g0 f).src 96 1 0).toNat = 0xFFFFFFFF ∧ 1 ≤ ((s.bar 0 0x3FFE0).phase + 2 ^ 32 - 0xFFFFFFFF) % 2 ^ 32) ∧
    (let f := barG 0 0; let s := barAt ⟨1, 0, 0, 1, 0, 2⟩ f;
      (s.bar 0 0x3FFE0).broken = false ∧ ¬ 1 ≤ ((s.bar 0 0x3FFE0).phase + 2 ^ 32 - 0) % 2 ^ 32 ∧ (s.glch s.cur).status ≠ 1) := by decide +kernel

theorem witness_bar_addresses : (let f := sreg [0x01000000, 0, 0, 0x3FFE1, 0, 0, 0x3FFC1];
    MayTrap (at0 f) (g0 f) ∧ (∀ a ∈ [(96 : RF), 99, 102], Issues (at0 f) (g0 f) (.barwait 2 a)) ∧ ((g0 f).src 96 0 0).toNat / 2 ^ 24 % 2 ^ 7 ≠ 0 ∧
      ((g0 f).src 99 0 0).toNat < 2 ^ 24 ∧ ((at0 f).glch (at0 f).cur).scr < ((g0 f).src 99 0 0).toNat + 32 ∧
      ((at0 f).blk (g0 f).blk).rank < ((at0 f).glch (at0 f).cur).lr.bpc ∧
      ((g0 f).src 102 0 0).toNat + 32 ≤ ((at0 f).glch (at0 f).cur).scr ∧ ((g0 f).src 102 0 0).toNat % 32 ≠ 0) := by decide +kernel

/-- Barriers with the first half of a phase done, whole and broken, and one without; a group of the other half waits on the first. -/
theorem witness_seam : (let f := fun g : Group => { inPhase (.waiting 0 (.barrier 1 0x3FFE0 0)) g with
        clause := ⟨0, 0, 15, 15, [0xA440BD80]⟩ };
      let s := at0 f; let s := ({ s with blocks := s.blocks ++ s.blocks.map fun b => { b with rank := 4 } } : State);
      let s := s.setBar 1 0x3FFE0 ⟨0, 0, 0, 1, 0, 0x102⟩;
      1 < s.blocks.length ∧ (s.bar 1 0x3FFE0).h0 = true ∧ (s.bar 1 0x3FFE0).broken = false ∧ (s.blk 1).held = [] ∧ 0 < s.groups.length ∧
        (s.grp 0).phase = .waiting 0 (.barrier 1 0x3FFE0 0) ∧ (s.blk (s.grp 0).blk).rank / 4 ≠ (s.blk 1).rank / 4 ∧
        (s.grp 0).nextInstr = .barwait 2 123) ∧
    ((barAt ⟨0, 0, 0, 1, 0, 0x102⟩ id).grp 0).phase = .issue 0 ∧
    ((barAt ⟨0, 0, 0, 1, 0, 0x103⟩ id).bar 0 0x3FFE0).broken = true ∧ ((barAt ⟨0, 0, 0, 1, 0, 2⟩ id).bar 0 0x3FFE0).h0 = false := by decide +kernel

/-- A monitor on the last word of an object, of the course window and of the scratchpad, armed, waited for, cleared and reread. -/
theorem witness_monitors : (let f := fun g => sreg [124] (accG 0 g); let s := at0 f; let g := g0 f;
      s.monsOn (s.gblk s.cur).core < 64 ∧ Issues s g (.monarm 1 96 (.glob 2)) ∧ g.reaches 2 rightR 4 (g.src 96 0 0).toNat) ∧
    (let f := sreg [0x3FFFC, 0]; let s := at0 f;
      Issues s (g0 f) (.monarm 1 96 .window) ∧ s.windowReaches (g0 f).blk 4 ((g0 f).src 96 0 0).toNat ∧
      Issues s (g0 f) (.monarm 1 96 .scratch) ∧ s.ops = [] ∧ ((g0 f).src 96 0 0).toNat + 4 ≤ (s.glch s.cur).scr ∧
        ((g0 f).src 96 0 0).toNat % 4 = 0 ∧ (s.blk (g0 f).blk).markedAt 0x3FFFC 4 = false ∧ s.monsOn (s.gblk s.cur).core < 64) ∧
    (Issues base (g0 id) (.monwait 105 1) ∧ tget .idle (g0 id).mons 1 = .idle ∧ Issues base (g0 id) (.monclr 1)) ∧
    (let f := fun g : Group => { g with mons := [(1, .armed .scratch .null 0x3FFFC 0)] };
      Issues (at0 f) (g0 f) (.monwait 105 1) ∧ tget .idle (g0 f).mons 1 = .armed .scratch .null (0 * 2 ^ 32 + 0x3FFFC) 0 ∧
        ((at0 f).glch (at0 f).cur).status ≠ 1 ∧ (at0 f).groups[0]? = some (g0 f) ∧ (at0 f).resident 0 = true ∧ (at0 f).peerGone 0 = false ∧
        ((at0 f).blk 0).markedAt 0x3FFFC 4 = false) ∧
    (let f := fun g : Group => { g with mons := [(1, .fired 5)] }; Issues (at0 f) (g0 f) (.monwait 105 1) ∧ tget .idle (g0 f).mons 1 = .fired 5) := by
  decide +kernel

/-- Parameters of copies that end at the last byte of object and scratchpad; c2 may be read in bulk and written. -/
def copyG (ps : List Nat) (g : Group) : Group := creg 3 ⟨8, 0, 0x40000, 0xFF, 1, 0⟩ (creg 2 ⟨7, 0, 0x40000, 0xFF, 1, 0⟩ (sreg ps g))

theorem witness_copies : (let f := copyG [0x3FFF0, 0x3FFF0, 16, 0xFFFFFFFF]; let s := at0 f; let g := g0 f;
      (∀ i ∈ [Instr.cpygs 0 96 2, .cpysg 7 2 96, .cpygg 3 2 96 3], Issues s g i) ∧
      s.copyCheck s.cur .gs (g.params 96 4) (g.cap 2) .null = .ok none ∧ s.copyCheck s.cur .sg (g.params 96 4) .null (g.cap 2) = .ok none ∧
      s.copyCheck s.cur .gg (g.params 96 4) (g.cap 3) (g.cap 2) = .ok none ∧ tget [] (s.core (s.gblk s.cur).core).cq 0 = []) ∧
    (let f := copyG [0x3FFE0, 0x3FFF0, 16, 0xFFFFFFFF]; let s := at0 f; let g := g0 f;
      Issues s g (.cpysw 2 96) ∧ s.copyCheck s.cur .sw (g.params 96 4) .null .null = .ok none) ∧
    (let f := copyG [0, 2, 16, 0x3FFE0, 16, 0xFFFFFFFF]; let s := at0 f; let g := g0 f;
      Issues s g (.cpyx 0 96 2) ∧ s.cpyxCheck s.cur (g.params 96 6) (g.cap 2) = .ok none) := by decide +kernel

/-- A length, rights, ranges and multiples for each clause of the checks; no barrier, the last barrier, and barrier words that bar_addr refuses. -/
theorem witness_copy_checks : 2 ^ 24 < 0x1000010 ∧ Cap.null.allows (rightR + rightM) = false ∧
    (let c : Cap := ⟨7, 0, 0x40000, 0xFF, 1, 0⟩; c.allows (rightR + rightM) = true ∧ c.len < 0x3FFF1 + 16 ∧ 0x3FFF0 + 16 ≤ c.len ∧
      (base.glch 0).scr < 0x3FFF1 + 16 ∧ 0x3FFF0 + 16 ≤ (base.glch 0).scr ∧ 8 % 16 ≠ 0 ∧ 0x3FFF0 % 16 = 0) ∧
    (∀ w ∈ [0xFFFFFFFF, 0x3FFE0], (base.copyBar 0 w).bad 0x01 = none ∧ (base.copyBar 0 w).bad 0x06 = none) ∧
    ((base.copyBar 0 0x01000000).bad 0x01).isSome = true ∧ ((base.copyBar 0 0x3FFE1).bad 0x06).isSome = true := by decide +kernel

/-- The write of a barrier writes the reserved bits of STAT as zero (R6, R283). -/
theorem test_bar_reserved : ((got (.bararr 96) (barAt ⟨2, 0, 0, 4, 0, 0xFFFFFC02⟩ (barG 0 0))).bar 0 0x3FFE0).stat = 2 := by decide +kernel

theorem witness_copy_moves : (let p := { opOf (.cpysw 2 96) with ps := [0, 16, 16, 0xFFFFFFFF] };
    let s := ({ flying id p with cores := [(0, { Core.empty with cq := [(2, [5])] })] } : State);
    s.ops = [(5, p)] ∧ s.copyHead 5 = true ∧ p.stage ≠ .parts 3 ∧ 16 % 16 = 0 ∧ 0 = s.peer 0 (windowRank (s.blk 0).rank 16) ∧ 0 < s.blocks.length ∧
      s.peerGone 0 = false ∧ 0 + 16 ≤ windowOff 16) := by decide +kernel

/-- The last arrival completes the phase: PHASE rises and the counts are set anew (R286). -/
theorem test_barrier : (got (.bararr 96) (barAt ⟨1, 0, 0, 4, 128, 2⟩ (barG 0 0))).bar 0 0x3FFE0 = ⟨4, 128, 1, 4, 128, 2⟩ := by decide +kernel

/-- MONARM on a word that differs fires at once (R295, R296). -/
theorem test_monarm : tget .idle ((got (.monarm 1 96 .scratch) (at0 (sreg [0x3FFFC, 1]))).grp 0).mons 1 = .fired 0 := by decide +kernel

/-! ## Matrix engine -/

/-- Parameters in s4 and up; 512 cells in v1 to name; c2 may be read in bulk. -/
def matG (w : Word) (ps : List Nat) (g : Group) : Group :=
  fmtOf w (creg 2 ⟨7, 0, 0x1000, 0xFF, 1, 0⟩ (vreg 1 (fun L => 16 * L) (sreg ([0, 0, 0, 0] ++ ps) g)))

theorem witness_mma : (let f := matG 0x55 [0x1000, 0x00600003, 0x30, 0, 224]; let s := at0 f; let g := g0 f;
    Issues s g (.mma true false true 104 16 100) ∧ s.mmaCheck s.cur g true (g.usrc 104).toNat (g.params 100 3) = none ∧
      tget [] (s.core (s.gblk s.cur).core).matq s.cur = []) := by decide +kernel

theorem witness_acc_words : (let f := matG 0 [255, 1]; let s := at0 f; let g := g0 f; let p := fun k => (g.src 100 k 0).toNat;
      Issues s g (.accz 100) ∧ 1 ≤ p 1 ∧ p 1 ≤ 16384 ∧ p 0 + p 1 ≤ (s.glch s.cur).accRows) ∧
    (let f := matG 0 [0, 128, 128]; let s := at0 f; let g := g0 f; let p := fun k => (g.src 100 k 0).toNat;
      Issues s g (.acccp 100) ∧ 1 ≤ p 2 ∧ p 2 ≤ 16384 ∧ p 0 + p 2 ≤ (s.glch s.cur).accRows ∧ p 1 + p 2 ≤ (s.glch s.cur).accRows) ∧
    (let f := matG 0 [0, 256, 0x38000, 128]; let s := at0 f; let g := g0 f;
      Issues s g (.accld 100 .scratch) ∧ s.rowCheck s.cur g .ld .scratch (g.params 100 4) = none ∧ Issues s g (.accst 100 .scratch) ∧
        s.rowCheck s.cur g .st .scratch (g.params 100 4) = none ∧ Issues s g (.accss 100 .scratch) ∧
        s.rowCheck s.cur g .ss .scratch (g.params 100 4) = none) ∧
    (let f := matG 0 []; let s := at0 f; let g := g0 f;
      Issues s g (.accxa 1 1 true) ∧ Issues s g (.accxr 8 1 false) ∧ ∀ L ∈ lanesOf g.launchAct, (g.src 1 0 L).toNat < 2 * (s.glch s.cur).accRows) := by
  decide +kernel

theorem witness_table_loads : (let f := matG 0 [0xFE0]; let s := at0 f; let g := g0 f;
      Issues s g (.cbld 3 100 2) ∧ (g.cap 2).allows (rightR + rightM) = true ∧ (g.src 100 0 0).toNat + 32 ≤ (g.cap 2).len ∧
        (g.src 100 0 0).toNat % 32 = 0) ∧
    (let f := matG 0x4002 []; let s := at0 f; let g := g0 f;
      Issues s g (.ldsb 1 16 1 2) ∧ fmtAF g.fmt = 2 ∧ fmtSCL g.fmt = 1 ∧ (g.cap 2).allows (rightR + rightM) = true ∧
        ∀ L ∈ lanesOf g.launchAct, (g.src 1 0 L).toNat + 2 * 33 ≤ (g.cap 2).len) := by decide +kernel

theorem witness_matrix_checks : (let f := matG 0 [255, 0, 256, 1, 0, 16385]; let s := at0 f; let g := g0 f; let p := fun (a : RF) k => (g.src a k 0).toNat;
      MayTrap s g ∧ (∀ a ∈ [(100 : RF), 102, 104], Issues s g (.accz a)) ∧ p 100 1 = 0 ∧ 16384 < p 104 1 ∧ 1 ≤ p 102 1 ∧ p 102 1 ≤ 16384 ∧
        (s.glch s.cur).accRows < p 102 0 + p 102 1) ∧
    (let f := vreg 1 fun _ => 512; let s := at0 f; let g := g0 f;
      Issues s g (.accxr 8 1 false) ∧ lanesOf g.launchAct = 0 :: (List.range 31).map (· + 1) ∧ 2 * (s.glch s.cur).accRows ≤ (g.src 1 0 0).toNat) ∧
    (Issues base (g0 id) (.ldsb 1 16 1 2) ∧ fmtAF (g0 id).fmt < 2) := by decide +kernel

/-- An operation at the head of the group's matrix queue. -/
def matS (p : Op) : State := { flying id p with cores := [(0, { Core.empty with matq := [(0, [5])] })] }

/-- The commands performed: rows at both ends of the region, one lane's cell, a codebook-free format. -/
theorem witness_performed : (let p := { opOf (.accz 100) with ps := [254, 2] };
      (matS p).ops = [(5, p)] ∧ (matS p).matHead 5 = true ∧ ((matS p).grp p.gid).blk < (matS p).blocks.length) ∧
    (let p := { opOf (.acccp 100) with ps := [0, 255, 1] }; (matS p).matHead 5 = true) ∧
    (let p := { opOf (.accld 100 .scratch) with ps := [0, 1, 0, 128] }; (matS p).matHead 5 = true ∧ (matS p).peerGone 0 = false) ∧
    (let p := { opOf (.accst 100 .scratch) with ps := [0, 1, 0, 128] }; (matS p).matHead 5 = true) ∧
    (let p := { opOf (.accxa 1 2 false) with mask := 1, vals := [(0, 511), (32, 0x3F800000)] };
      (matS p).matHead 5 = true ∧ lanesOf p.mask = [0] ∧ (tget 0 p.vals 0).toNat = 511) ∧
    (let p := { opOf (.accxr 8 1 false) with dest := [.lane 8] }; (matS p).matHead 5 = true ∧ p.dest = [.lane 8]) ∧
    (let p := { opOf (.mma false false true 104 16 100) with ps := [0, 0x1000, 0x00600003, 0x30], mask := 1, fmt := 0x55 };
      (matS p).matHead 5 = true ∧ p.mask ≠ 0 ∧ mmaShape p.fmt true = some (2, 8) ∧
        (matS p).peerGone ((matS p).peer 0 (windowRank ((matS p).blk 0).rank (fld 0x1000 0 24))) = false ∧ fmtAF p.fmt = 5 ∧ fmtBF p.fmt = 5 ∧
        fmtSCL p.fmt = 0) := by decide +kernel

/-- The example of R311: one row of a scaled E4M3 MMA gives 453 in cell 0. -/
theorem test_mma_example : (let p := { opOf (.mma false false true 104 16 100) with
        ps := [0, 0x1000, 0x00600003, 0x30], mask := 1, fmt := 0x4022, vals := [(0, 0xC03C), (256, 0x28), (512, 0x7F80)] };
    let s := matS p;
    let s := { s with blocks := s.blocks.map fun b => { b with
      acc := mwrite [] 0 4 0x3F800000, scr := [(0x1000, 0x48), (0x1001, 0x38), (0x1020, 0x7E), (0x1600, 0x7E), (0x1620, 0x81)] } };
    ((got (.matrixCommandComplete 5) s).blk 0).cell4 0 0) = 0x43E28000 := by decide +kernel

/-! ## Walker -/

/-- A descriptor of one level of two steps and three tiles, one stream through c2 to queue 0 and tags to queue 3. -/
def desc (order : Nat) : List Nat := [0x1E1 + 4 * order, 0x00020001, 0, 0, 2, 0x100, 4, 8, 64] ++ List.replicate 23 0

/-- A walk of it. -/
def walk (order : Nat) (tiles : List (Nat × Nat)) (tile : Option Nat) (tag : Bool) : Walk :=
  ⟨desc order, [(0, ⟨7, 0, 0x1000, 0xFF, 1, 0⟩)], BitVec.allOnes 32, 0, tiles, tile, tag, 0, 0, [], false, false, 0⟩

/-- The group with a walker state; c2 can be read and s0 names the last descriptor place. -/
def walkG (w : WalkSt) (g : Group) : Group := { creg 2 ⟨7, 0, 0x1000, 0xFF, 1, 0⟩ (sreg [0x3FF80] g) with walk := w }

theorem witness_walker_words : (let f := walkG ⟨[(1, desc 0)], [(2, [⟨[], none, false, [], 0⟩])], [], 1⟩; let s := at0 f; let g := g0 f;
    (∀ i ∈ [Instr.wset false 96, .wgo true, .wstop, .wstat 105, .qpop 2 8], Issues s g i) ∧ (g.usrc 96).toNat + 128 ≤ (s.glch s.cur).scr ∧
      (g.usrc 96).toNat % 16 = 0 ∧ tget [] g.walk.slots 1 ≠ [] ∧ g.walk.walks.length < 2 ∧
      (∀ k ∈ dStreams (tget [] g.walk.slots 1), (g.cap (dStream (tget [] g.walk.slots 1) k 0 % 16)).allows rightR = true) ∧ g.walk.queue 2 ≠ []) ∧
    (let f := walkG ⟨[], [], [walk 0 [(0, 0)] none false], 0⟩; Issues (at0 f) (g0 f) (.qpop 0 8) ∧ (g0 f).walk.willPush 0 = true ∧
      (g0 f).walk.blocked = false) := by decide +kernel

theorem witness_walker_checks : (let f := fun g => sreg [0x3FF90, 0x3FF78] (walkG ⟨[(1, desc 0)], [], [walk 0 [] none false, walk 0 [] none false], 1⟩ g);
      let s := at0 f; let g := g0 f;
      MayTrap s g ∧ (∀ i ∈ [Instr.wset false 96, .wset false 97, .wgo false, .wgo true], Issues s g i) ∧ (s.glch s.cur).scr < (g.usrc 96).toNat + 128 ∧
        (g.usrc 97).toNat + 128 ≤ (s.glch s.cur).scr ∧ (g.usrc 97).toNat % 16 ≠ 0 ∧ tget [] g.walk.slots 0 = [] ∧ tget [] g.walk.slots 1 ≠ [] ∧
        2 ≤ g.walk.walks.length) ∧
    (let f := fun g => creg 2 .null (walkG ⟨[(1, desc 0)], [], [], 1⟩ g); let g := g0 f;
      MayTrap (at0 f) g ∧ Issues (at0 f) g (.wgo true) ∧ dStreams (tget [] g.walk.slots 1) = [0] ∧ g.walk.walks.length < 2 ∧
        (g.cap (dStream (tget [] g.walk.slots 1) 0 0 % 16)).allows rightR = false) ∧
    (MayTrap base (g0 id) ∧ Issues base (g0 id) (.qpop 3 8) ∧ (g0 id).walk.queue 3 = [] ∧ (g0 id).walk.willPush 3 = false) ∧
    (let f := walkG ⟨[], [(3, List.replicate 8 ⟨[], none, false, [], 0⟩)], [walk 0 [(0, 0)] none false], 8⟩; let g := g0 f;
      MayTrap (at0 f) g ∧ Issues (at0 f) g (.qpop 0 8) ∧ g.walk.queue 0 = [] ∧ g.walk.willPush 0 = true ∧ g.walk.blocked = true) := by decide +kernel

theorem witness_walker_performed : (let p := { opOf (.wset false 96) with ps := [0] };
      let s := flying id p; let s := ({ s with blocks := s.blocks.map fun b => { b with scr := mwrite [] 0 36 ((desc 0).foldr (fun w v => w + 2 ^ 32 * v) 0) } } : State);
      s.ops = [(5, p)] ∧ s.groups[p.gid]? = some (g0 id) ∧ dBad ((List.range 32).map fun k => s.sread (g0 id).blk (p.ps.getD 0 0 + 4 * k) 4) = none ∧
        (g0 id).phase ≠ .stopped ∧ (g0 id).phase ≠ .exited) ∧
    (dBad ((List.range 32).map fun k => base.sread 0 (4 * k) 4) = some 0) ∧
    (∀ i ∈ [Instr.wgo false, .wstop, .wstat 105], let p := { opOf i with stage := .cleared };
      (flying id p).ops = [(5, p)] ∧ (flying id p).groups[p.gid]? = some (g0 id) ∧ p.instr = i) ∧
    (let f := walkG ⟨[], [(2, [⟨[], none, false, [], 0⟩, ⟨[], none, true, [], 1⟩])], [], 2⟩;
      let p := { opOf (.qpop 2 8) with ps := [2], dest := [.lane 8] };
      (flying f p).groups[p.gid]? = some (g0 f) ∧ p.dest = [.lane 8] ∧ (g0 f).walk.queue 2 = ⟨[], none, false, [], 0⟩ :: [⟨[], none, true, [], 1⟩] ∧
        ((g0 f).walk.entered 2).head? = some ⟨[], none, false, [], 0⟩) ∧
    (let f := walkG ⟨[], [(2, [⟨[], none, true, [], 0⟩])], [], 1⟩; (g0 f).walk.queue 2 = ⟨[], none, true, [], 0⟩ :: [] ∧
      ((g0 f).walk.entered 2).head? ≠ some ⟨[], none, true, [], 0⟩) ∧
    (let e : QEntry := ⟨[], some ⟨0x06, 0, 0, 1, []⟩, false, [], 0⟩; let f := walkG ⟨[], [(2, [e])], [], 1⟩;
      (g0 f).walk.queue 2 = [e] ∧ ((g0 f).walk.entered 2).head? = some e ∧ e.fail = some ⟨0x06, 0, 0, 1, []⟩ ∧ (g0 f).trap.handler = false ∧
        ((at0 f).glch 0).lr.handler ≠ 0xFFFFFFFF) := by decide +kernel

/-- A walk in ascending order begins its lowest tile. -/
theorem witness_begins : (let x := walk 0 [(0, 0), (1, 0), (2, 0)] none false; let y := walk 0 [(1, 1), (2, 1)] (some 0) true;
    (x.tiles.take 8)[0]? = some (0, 0) ∧ dOrder x.desc = false ∧ y = { x with
      tiles := ((x.tiles.take 8).filterMap fun e => if e.1 = 0 then none else some (e.1, e.2 + 1)) ++ x.tiles.drop 8
      tile := some 0, tagDue := dTagen x.desc, inner := 0, stream := (dStreams x.desc).headD 0, ranks := [], probed := false }) := by decide +kernel

/-- A walk that begins its next tile, one at its tag and one at a stream, ones that wait for the walk of another group and for room in a queue, one
that probes, and one that has ended. -/
theorem witness_generation : (let w := walk 0 [(0, 0), (1, 0), (2, 0)] none false; let f := walkG ⟨[], [], [w], 0⟩;
      (at0 f).groups[0]? = some (g0 f) ∧ (g0 f).walk.walks = w :: [] ∧ (at0 f).generates 0 = true ∧ (at0 f).walkTurn 0 = 0 ∧ w.tile = none) ∧
    (∀ tag, let w := walk 0 [] (some 2) tag; let f := walkG ⟨[], [], [w], 0⟩; let s := at0 f;
      s.groups[0]? = some (g0 f) ∧ (g0 f).walk.walks = w :: [] ∧ s.generates 0 = true ∧ w.tile = some 2 ∧ w.tagDue = tag ∧ s.walkTurn 0 = 0 ∧
        (let c := tget .null w.caps w.nextQueue;
          tag = false → ∀ L ∈ lanesOf (w.lanes &&& ~~~w.helpers), walkDisp w.desc w.nextQueue L 2 w.inner + 4 ≤ c.len ∧
            (c.base + walkDisp w.desc w.nextQueue L 2 w.inner) % 4 = 0) ∧
        let u : State := { s with groups := s.groups ++ s.groups }; u.generates 0 = true ∧ u.walkTurn 0 ≠ 0) ∧
    (let w := walk 0 [(0, 0)] none false; let f := walkG ⟨[], [(3, List.replicate 8 ⟨[], none, false, [], 0⟩)], [w], 8⟩;
      (at0 f).resident 0 = true ∧ w.stopped = false ∧ (g0 f).walk.flying = [] ∧ w.tiles ≠ [] ∧ 8 ≤ ((g0 f).walk.queue w.nextQueue).length) ∧
    (let w := walk 1 [(0, 0)] none false; let f := walkG ⟨[], [], [w], 0⟩;
      (at0 f).resident 0 = true ∧ w.stopped = false ∧ (g0 f).walk.flying = [] ∧ w.tiles ≠ [] ∧ w.tile = none ∧ w.probed = false ∧
        ((g0 f).walk.queue w.nextQueue).length < 8 ∧ dOrder w.desc = true ∧ w.lanes ≠ 0) ∧
    (let w := walk 0 [] none false; let f := walkG ⟨[], [], [w, w], 0⟩;
      (at0 f).resident 0 = true ∧ w.stopped = false ∧ (g0 f).walk.flying = [] ∧ w.tiles = [] ∧ w.tile = none ∧ (g0 f).walk.walks = w :: [w]) ∧
    (dNlev (desc 0) = 1 ∧ 1 < dCnt (desc 0) 0 ∧ dNlev (List.replicate 32 0) = 0 ∧ dNlev [2] = 2 ∧ 0 < dCnt [2] 0 ∧ 0 < dCnt [2] 1 ∧
      0 = 0 + dCnt [2] 0 * 0) := by decide +kernel

theorem witness_residency : (let w := { walk 1 [(1, 0), (2, 0)] none false with probed := true }; let f := walkG ⟨[], [], [w], 0⟩;
      (at0 f).groups[0]? = some (g0 f) ∧ (g0 f).walk.walks = w :: [] ∧ w.probed = true ∧ w.tile = none ∧ w.tiles.take 8 = [(1, 0), (2, 0)] ∧
        dOrder w.desc = true ∧ w.ranks = []) ∧
    (let w := { walk 1 [(1, 0), (2, 0)] none false with probed := true, ranks := [(1, 2)] };
      (∀ r ∈ w.ranks, r.1 ≠ 2) ∧ ∀ d ∈ w.tiles.take 8, ∃ r ∈ w.ranks ++ [(2, min 0 2)], r.1 = d.1) := by decide +kernel

/-- The reads of an entry of one lane, displacement `k` of `len` bytes of object 7. -/
def readsP (k : Word) (len : Nat) : Op :=
  { opOf (.wgo false) with stage := .parts 0, ps := [0], mask := 1, vals := [(0, k)], cap1 := ⟨7, 0, len, 0xFF, 1, 0⟩ }

/-- They are in flight, the walk stands at a stream, and L1 holds the first line of object 7. -/
def readsS (k : Word) (len : Nat) : State :=
  (obj7 (flying (walkG ⟨[], [(0, [⟨[(0, k)], none, true, [], 0⟩])], [walk 0 [] (some 2) false], 1⟩) (readsP k len))).setLine 0 0 (7 * 2 ^ 32)
    ⟨.S, 0x40000, 0, 3, 0, false, 0, false, 0, 0, 0, 0⟩

/-- What the reads of `readsS` meet. -/
abbrev readsMeet (k : Word) (len : Nat) : Prop :=
  let p := readsP k len
  let s := readsS k len
  let e : QEntry := ⟨[(0, k)], none, true, [], 0⟩
  s.entryOp 0 0 = some (5, p) ∧ tfind s.ops 5 = some p ∧ s.resident 0 = true ∧ 0 < s.groups.length ∧
    ((s.grp 0).walk.queue (p.ps.getD 0 0)).find? (fun x => x.id == 0) = some e ∧ e.inFlight = true ∧ e.pages = [] ∧ s.walkMay 5 = true ∧
    (s.grp 0).walk.walks = [walk 0 [] (some 2) false] ∧ lanesOf (p.mask ||| p.helpers) = [0] ∧ p.helpers = 0 ∧ (lanesOf p.mask).head? = some 0 ∧
    tget 0 e.words 0 = tget 0 p.vals 0

/-- An entry of one lane whose read returns from object 7 (its line in the L1), one whose read lies beyond its capability, and one that WSTOP discarded. -/
theorem witness_walker_reads : (readsMeet 0 0x20000 ∧ (let p := readsP 0 0x20000; (tget 0 p.vals 0).toNat + 4 ≤ p.cap1.len ∧
      (p.cap1.base + (tget 0 p.vals 0).toNat) % 4 = 0 ∧
      (readsS 0 0x20000).l1Word 0 (p.cap1.obj * 2 ^ 40 + (p.cap1.base + (tget 0 p.vals 0).toNat) % 2 ^ 40) = some 0)) ∧
    (readsMeet 5 8 ∧ (readsP 5 8).cap1.len < (tget 0 (readsP 5 8).vals 0).toNat + 4) ∧
    (let p := { opOf (.wgo false) with stage := .parts 0, ps := [0], mask := 1, vals := [(64, 1)] }; let s := flying (walkG ⟨[], [], [], 1⟩) p;
      s.entryOp 0 0 = some (5, p) ∧ ((s.grp 0).walk.queue 0).find? (fun x => x.id == 0) = none ∧ lanesOf (p.mask ||| p.helpers) = [0] ∧
        tget 0 p.vals (64 + 0) = 1) := by decide +kernel

theorem witness_walker_reads_vals (k : Word) (len L : Nat) : tget 0 (readsP k len).vals (64 + L) = 0 := by
  simp [readsP, tget]; omega

/-- A tag entry holds the tile's number in every lane (R336). -/
theorem test_walk_tag : (((got (.walkerEntryGenerate 0) (at0 (walkG ⟨[], [], [walk 0 [] (some 2) true], 0⟩))).grp 0).walk.queue 3).map
    (fun e => (tget 0 e.words 31, e.inFlight)) = [(2, false)] := by decide +kernel

/-- walk_disp of lane 1, tile 2, step 1 (R331): 0x100 + 4 + 8 + 2 × 64. -/
theorem test_walk_disp : walkDisp (desc 0) 0 1 2 1 = 0x18C := by decide +kernel

/-! ## Sequences and free lists -/

/-- The brick pool: object 7 as a brick pool with S. -/
def pool : Cap := ⟨7, 0, 0x20000, 0xFF, 3, 0⟩

/-- Handle 1 with one record, a window of one record, handle 1; then handle 1, a configuration and a window. -/
def seqG : Group → Group := fun g => creg 0 pool (sreg [1, 1, 0, 1, 1, 0x00070001, 1] g)

theorem witness_sequence_issue : (let s := at0 seqG; let g := g0 seqG;
    (∀ i ∈ [Instr.sqres 104 96, .sqcom 96, .sqapp 8 96 104, .sqlen 104 96, .sqrlen 104 96, .sqwlo 104 96, .sqmap 8 96 9, .sqfork 104 96, .sqnew 104 100,
        .sqrel 96,
        .sqwin 96, .sqtake 104 96, .sqseal 96, .flpop 104 96, .flpush 96, .flcnt 104 96], Issues s g i) ∧
      (let p := fun k => (g.src 96 k 0).toNat;
        p 0 < 2 ^ 28 ∧ p 0 / 2 ^ 20 % 16 = 0 ∧ p 0 / 2 ^ 6 % 2 ^ 18 = 0 ∧ 1 ≤ p 1 ∧ p 1 ≤ 32 ∧ p 2 < 256 ∧ 1 ≤ p 3 ∧ p 3 ≤ 256 ∧
          (g.cap (p 0 / 2 ^ 24 % 16)).kind = 3 ∧ (g.cap (p 0 / 2 ^ 24 % 16)).rights &&& rightS ≠ 0) ∧
      (let p := fun k => (g.src 100 k 0).toNat;
        p 0 < 2 ^ 28 ∧ p 0 / 2 ^ 20 % 16 = 0 ∧ newLegal (p 1) (p 2) = true ∧ p 1 / 2 ^ 22 % 2 = 0)) := by decide +kernel

/-- A word with bit 28, one with bit 20, and one whose capability has no rights. -/
theorem witness_sequence_checks : (let f := fun g => creg 0 pool (sreg [0x10000001, 0x00100001, 0x01000001] g); let s := at0 f; let g := g0 f;
    MayTrap s g ∧ (∀ i ∈ [Instr.sqlen 104 96, .sqlen 104 97, .sqlen 104 98], Issues s g i) ∧ 2 ^ 28 ≤ (g.src 96 0 0).toNat ∧
      (g.src 97 0 0).toNat < 2 ^ 28 ∧ (g.src 97 0 0).toNat / 2 ^ 20 % 16 ≠ 0 ∧
      (let w := (g.src 98 0 0).toNat; w < 2 ^ 28 ∧ w / 2 ^ 20 % 16 = 0 ∧ (g.cap (w / 2 ^ 24 % 16)).kind ≠ 3 ∧
        (g.cap (w / 2 ^ 24 % 16)).rights &&& rightS = 0)) := by decide +kernel

/-- Object 7 holds the sequence area of context 0: list 1 of pool 7, and the open sequence `q` of handle 1. -/
def seqS (q : SeqD) (x : FreeL) (s : State) : State :=
  let s := obj7 s
  { s with
    ctxs := s.ctxs.map fun e => (e.1, { e.2 with seq := true, seqArea := 7, mapPool := 7 })
    mem := mwrite (mwrite s.mem 0x41040 64 q.bits) 0x40020 32 x.bits }

/-- An open sequence without bricks: three records reserved and committed, one taken. -/
def openQ : SeqD := { SeqD.ofBits 0 with st := 1, pool := 7, rlen := 3, clen := 3, cur := 1, wlen := 0xFFFFFFFF }

/-- A list of pool 7 with bricks of 256 bytes, two of them, the first at 0x200. -/
def listX : FreeL := ⟨7, 8, 0x200, 1, 2⟩

/-- An operation on handle 1, or on list 1, with a second parameter of 2. -/
def seqOp (i : Instr) (dest : List PReg) : Op := { opOf i with ps := [1, 2], cap1 := pool, stage := .issued, dest := dest }

theorem witness_sequence_answers : (∀ i ∈ [Instr.sqlen 96 98, .sqrlen 96 98, .sqwlo 96 98, .sqtake 96 98],
      let p := seqOp i [.uni 0, .uni 1]; let s := seqS openQ listX (flying id p);
      let v := s.noteReads 0 (s.seqSectors 0 1 (s.seqGet 0 1) p);
      s.ops = [(5, p)] ∧ s.groups[p.gid]? = some (g0 id) ∧ p.stage = .issued ∧ p.ps.getD 0 0 = 1 ∧ p.dest = [.uni 0, .uni 1] ∧ p.instr = i ∧
        (s.glch p.gid).ctx = 0 ∧ s.seqValid 0 1 = true ∧ (s.seqGet 0 1).pool = p.cap1.obj ∧ v.seqGet 0 1 = openQ ∧
        v.firstPoisoned (v.seqSectors 0 1 openQ p) = none ∧ openQ.lq = 0 ∧ openQ.cur < openQ.clen) ∧
    (let q := { openQ with cur := 3 }; let p := seqOp (.sqtake 96 98) [.uni 0, .uni 1]; let s := seqS q listX (flying id p);
      let v := s.noteReads 0 (s.seqSectors 0 1 (s.seqGet 0 1) p);
      v.seqGet 0 1 = q ∧ s.seqValid 0 1 = true ∧ (s.seqGet 0 1).pool = p.cap1.obj ∧ v.firstPoisoned (v.seqSectors 0 1 q p) = none ∧ q.lq = 0 ∧
        q.clen ≤ q.cur ∧ q.st ≠ 2) := by decide +kernel

/-- No sequence at handle 1, one of another pool, and a launch queue's. -/
theorem witness_sequence_refusals : (∀ q ∈ [SeqD.ofBits 0, { openQ with pool := 8 }, { openQ with lq := 1 }],
      let p := seqOp (.sqtake 96 98) [.uni 0, .uni 1]; let s := seqS q listX (flying id p);
      let v := s.noteReads 0 (s.seqSectors 0 1 q p);
      s.ops = [(5, p)] ∧ s.groups[p.gid]? = some (g0 id) ∧ p.stage = .issued ∧ (g0 id).phase ≠ .stopped ∧ (g0 id).phase ≠ .exited ∧
        (g0 id).trap.handler = false ∧ (s.glch p.gid).lr.handler ≠ 0xFFFFFFFF ∧ s.seqGet 0 1 = q ∧
        (s.seqValid 0 1 = false ∨ s.seqValid 0 1 = true ∧ q.pool ≠ p.cap1.obj ∨
          s.seqValid 0 1 = true ∧ q.pool = p.cap1.obj ∧ (v.seqGet 0 1).lq = 1)) := by decide +kernel

/-- A list of two bricks, an empty one, and a brick pushed at displacement 0x200 through the capability. -/
theorem witness_free_lists : (∀ x ∈ [listX, { listX with count := 0 }],
      let p := seqOp (.flpop 96 98) [.uni 0]; let s := seqS openQ x (flying id p);
      let u := s.noteReads 0 [s.areaAt 0 (flAt 1)];
      s.ops = [(5, p)] ∧ s.groups[p.gid]? = some (g0 id) ∧ p.stage = .issued ∧ u.flGet 0 1 = x ∧ x.pool ≠ 0 ∧ x.pool = p.cap1.obj ∧ p.dest = [.uni 0] ∧
        u.firstPoisoned [u.areaAt 0 (flAt 1)] = none ∧ u.firstPoisoned (u.areaAt 0 (flAt 1) :: u.popped 0 1 1) = none ∧
        p.cap1.base ≤ x.head ∧ x.head - p.cap1.base + 2 ^ x.bszl ≤ p.cap1.len) ∧
    (let p := { seqOp (.flpush 98) [] with ps := [1, 0x1FF00] }; p.cap1.len = p.ps.getD 1 0 + 2 ^ listX.bszl ∧
      (p.cap1.base + p.ps.getD 1 0) % 2 ^ listX.bszl = 0) := by decide +kernel

/-- SQTAKE moves the cursor (R370). -/
theorem test_sqtake : (got (.sequenceAnswer 5) (seqS openQ listX (flying id (seqOp (.sqtake 96 98) [.uni 0, .uni 1])))).seqGet 0 1 =
    { openQ with cur := 3 } := by decide +kernel

/-- FLPOP gives the head's displacement, and the list's count falls (R372). -/
theorem test_flpop : (let t := got (.sequenceAnswer 5) (seqS openQ listX (flying id (seqOp (.flpop 96 98) [.uni 0])));
    ((t.grp 0).uni 0, (t.flGet 0 1).count, (t.flGet 0 1).head)) = (0x200, 1, 0) := by decide +kernel

/-- FLPUSH makes the pushed brick the head, linked to the old head (R372). -/
theorem test_flpush : (let t := got (.sequenceAnswer 5) (seqS openQ listX (flying id { seqOp (.flpush 98) [] with ps := [1, 0x400] }));
    ((t.flGet 0 1).head, (t.flGet 0 1).count, (t.brGet 0 7 0x400).link)) = (0x400, 3, 0x200) := by decide +kernel

/-! ## Merge engine -/

/-- A parameter block in s0 and up. -/
def mgG (ps : List Nat) : Group → Group := sreg ps

/-- MGMATCH of two tokens of 32 elements at 0, one protected; the table of 8 bytes ends with the scratchpad. -/
theorem witness_match_issue : (let s := at0 (mgG [0, 0x00200040, 0x00010002, 1, 0x3FFF8]); let g := g0 (mgG [0, 0x00200040, 0x00010002, 1, 0x3FFF8]);
      Issues s g (.mgmatch 120 96) ∧ matchPlan (g.params 96 5) = some ([⟨0, 128, 16⟩], [⟨0x3FFF8, 8, 8⟩]) ∧
        regTrap (s.glch s.cur).scr [⟨0, 128, 16⟩] [⟨0x3FFF8, 8, 8⟩] = none) := by decide +kernel

theorem witness_merge_issue : (let f := mgG [2, 0x200, 0, 0x00200040, 0x100, 0x00200040, 0xFFFFFFFF, 0x400, 0x500, 0x00400040, 0x600, 0x700, 0x800]; let s := at0 f; let g := g0 f;
      let rs : List Reg := [⟨0, 128, 16⟩, ⟨0x100, 128, 16⟩, ⟨0x200, 8, 8⟩];
      let ws : List Reg := [⟨0x400, 128, 16⟩, ⟨0x500, 128, 16⟩, ⟨0x600, 4, 2⟩, ⟨0x800, 20, 16⟩, ⟨0x700, 256, 16⟩];
      Issues s g (.mgmerge 120 96) ∧ mergePlan (g.params 96 13) = some (rs, ws) ∧ regTrap (s.glch s.cur).scr rs ws = none) := by decide +kernel

/-- The other commands: a split whose header ends the scratchpad, a bias of one size, stacks. -/
theorem witness_stack_issue : (let f := mgG [0x3FF00, 1, 0, 0x00200040, 0x100, 0x40]; let s := at0 f; let g := g0 f;
      Issues s g (.mgsplit 96) ∧ splitPlan (g.params 96 6) = some ([⟨0, 64, 16⟩], [⟨0x100, 64, 16⟩]) ∧
        regTrap (s.glch s.cur).scr [⟨0, 64, 16⟩] [⟨0x100, 64, 16⟩] = none ∧ Issues s g (.mgpop 96) ∧ Issues s g (.mgstat 120 96) ∧
        (g.src 96 0 0).toNat + 256 = (s.glch s.cur).scr ∧ (g.src 96 0 0).toNat % 16 = 0) ∧
    (let f := mgG [2, 1, 4]; let s := at0 f; let g := g0 f;
      Issues s g (.mgbias 96) ∧ biasPlan (g.params 96 3) = some ([⟨2, 2, 2⟩], [⟨4, 4, 4⟩]) ∧
        regTrap (s.glch s.cur).scr [⟨2, 2, 2⟩] [⟨4, 4, 4⟩] = none) := by decide +kernel

/-- A match of one token; headers that end beyond the scratchpad and off their multiple; two regions that lie beyond, that meet, that touch, and off
their multiples. -/
theorem witness_merge_checks : (let f := mgG [0, 0x00200040, 1, 1, 0]; let s := at0 f; let g := g0 f;
      Issues s g (.mgmatch 120 96) ∧ MayTrap s g ∧ matchPlan (g.params 96 5) = none) ∧
    (∀ sb ∈ [0x3FF10, 0x3FEF8], let f := mgG [sb]; let s := at0 f; let g := g0 f;
      MayTrap s g ∧ Issues s g (.mgpop 96) ∧ Issues s g (.mgstat 120 96) ∧ ((s.glch s.cur).scr < sb + 256 ∨ (g.src 96 0 0).toNat % 16 ≠ 0)) ∧
    regTrap 64 [⟨64, 1, 1⟩] [⟨0, 4, 4⟩] = some (0x06, 64, 0) ∧ regTrap 64 [⟨60, 4, 4⟩] [⟨61, 4, 4⟩] = some (0x06, 61, 0) ∧
    regTrap 64 [⟨56, 5, 4⟩] [⟨60, 4, 4⟩] = some (0x06, 60, 0) ∧ regTrap 64 [⟨57, 3, 4⟩] [⟨60, 4, 4⟩] = some (0x05, 57, 1) ∧
    regTrap 64 [⟨56, 4, 4⟩] [⟨62, 2, 4⟩] = some (0x05, 62, 1) ∧ regTrap 64 [⟨56, 4, 4⟩] [⟨60, 4, 4⟩] = none := by decide +kernel

/-- The command at the head of the core's engine, with bytes of the scratchpad. -/
def mergeS (p : Op) (scr : List (Nat × Nat)) : State :=
  let s := flying id p
  { s with
    cores := [(0, { Core.empty with mq := [5] })]
    blocks := s.blocks.map fun b => { b with scr := scr.map fun e => (e.1, BitVec.ofNat 8 e.2), ssat := 3 } }

theorem witness_merge_performed : (∀ d ∈ [0, 1, 8], let p := { opOf (.mgpop 96) with ps := [0x100] }; let s := mergeS p (if d = 0 then [] else [(0x100, d)]);
      s.ops = [(5, p)] ∧ s.groups[p.gid]? = some (g0 id) ∧ (g0 id).blk < s.blocks.length ∧ (s.core (s.gblk p.gid).core).mq.head? = some 5 ∧
        s.headerLost (g0 id).blk 0x100 = false ∧ s.depthAt (g0 id).blk 0x100 = d ∧ (g0 id).phase ≠ .stopped ∧ (g0 id).phase ≠ .exited) ∧
    (let s := mergeS { opOf (.mgbias 96) with ps := [0, 2, 4] } []; (s.blk (g0 id).blk).marked = []) ∧
    (let p := { opOf (.mgmerge 120 96) with
        ps := [2, 0x200, 0, 0x00200040, 0x100, 0x00200040, 0xFFFFFFFF, 0x400, 0x500, 0x00400040, 0x600, 0x700, 0x900], dest := [.uni 24] };
      let s := mergeS p [(0x700, 8)];
      countsOf (p.ps.getD 0 0) = some (2, 0) ∧ (toks (p.ps.getD 2 0) (p.ps.getD 3 0)).isSome ∧ (toks (p.ps.getD 4 0) (p.ps.getD 5 0)).isSome ∧
        s.headerLost (g0 id).blk (p.ps.getD 11 0) = false ∧ s.depthAt (g0 id).blk (p.ps.getD 11 0) = 8) := by decide +kernel

/-- Two equal tokens match, and the one edge is selected (R384): entry 0 holds B index 0 and the selected bit, with similarity 1. -/
theorem test_mgmatch : (let p := { opOf (.mgmatch 120 96) with ps := [0, 0x00200040, 2, 1, 0x100], dest := [.uni 24] };
    let t := got (.mergeCommandComplete 5) (mergeS p [(1, 0x40), (0x41, 0x40)]);
    (t.sread 0 0x100 4, t.sread 0 0x104 4, (t.grp 0).uni 24)) = (0x10000, 0x3F800000, 1) := by decide +kernel

/-- MGMERGE of that edge leaves one token of size 2, their average, and a stack of depth 1 (R386 to R388). -/
theorem test_mgmerge : (let p := { opOf (.mgmerge 120 96) with
        ps := [2, 0x200, 0, 0x00200040, 0x100, 0x00200040, 0xFFFFFFFF, 0x400, 0x500, 0x00400040, 0x600, 0x700, 0x900], dest := [.uni 24] };
    let t := got (.mergeCommandComplete 5) (mergeS p [(1, 0x40), (0x41, 0x40), (0x101, 0x40), (0x140, 0x80), (0x141, 0x40), (0x202, 1)]);
    ((t.grp 0).uni 24, t.sread 0 0x600 2, t.sread 0 0x400 2, t.sread 0 0x500 2, t.depthAt 0 0x700)) = (1, 2, 0x4000, 0x4040, 1) := by decide +kernel

/-- MGBIAS of sizes 1 and 2: log2 is 0 and 1 (R392). -/
theorem test_mgbias : (let t := got (.mergeCommandComplete 5) (mergeS { opOf (.mgbias 96) with ps := [0, 2, 4] } [(0, 1), (2, 2)]);
    (t.sread 0 4 4, t.sread 0 8 4)) = (0, 0x3F800000) := by decide +kernel

/-! ## Launches, queues and courses -/

theorem witness_launch_words : (let f := fun g => creg 2 ⟨7, 0, 0x20000, 0xFF, 1, 0⟩ (sreg [5, 0x1FF80, 0, 0, 0x1FFF0, 16, 0x3FFF0, 0xFFFFFFFF] g);
      let s := at0 f; let g := g0 f;
      (∀ i ∈ [Instr.launch 104 96 2, .lwait 104 96, .lstat 104 96, .rwri 100 2, .rrd 100 2], Issues s g i) ∧ (g.cap 2).kind = 1 ∧
        (g.cap 2).allows rightR = true ∧ (g.src 96 1 0).toNat + 128 = (g.cap 2).len ∧ (g.src 96 1 0).toNat % 16 = 0) ∧
    (let f := fun g => creg 2 ⟨7, 0, 0x20000, 0xFF, 1, 0⟩ (sreg [0, 0, 0, 0, 0x1FFF0, 16, 0x3FFF0, 0] g); let s := at0 f; let g := g0 f;
      (g.cap 2).allows (rightW + rightP) = true ∧ s.rmaCheck s.cur true (g.params 100 4) (g.cap 2) = .error (0x06, 0x3FFF0, 0)) ∧
    (let f := fun g => creg 2 ⟨7, 0, 0x20000, 0xFF, 1, 0⟩ (sreg [0, 0, 0, 0, 0x3FFF0, 16, 0x1FFF0, 0] g); let s := at0 f; let g := g0 f;
      s.rmaCheck s.cur true (g.params 100 4) (g.cap 2) = .ok none) ∧
    (let f := fun g => creg 2 ⟨7, 0, 0x20000, 0xFF, 1, 0⟩ (sreg [0, 0, 0, 0, 0x1FFF0, 16, 0x3FFF0, 0xFFFFFFFF] g); let s := at0 f; let g := g0 f;
      s.rmaCheck s.cur false (g.params 100 4) (g.cap 2) = .ok none) := by decide +kernel

/-- The launch area is object 7: counter 1 has completed 3, with ERR. -/
def tokS (p : Op) : State := let s := obj7 (flying id p); { s with mem := mwrite s.mem 0x40008 8 (3 + 2 ^ 24) }

/-- The refused token, one without a counter, and the targets 3 and 4 of counter 1. -/
theorem witness_tokens : ∀ i ∈ [Instr.lstat 104 96, .lwait 104 96], ∀ k ∈ [0x7FFFFFFF, 5, 0x81000003, 0x81000004],
    let p := { opOf i with ps := [k], dest := [.uni 8] }; let s := tokS p;
    s.ops = [(5, p)] ∧ s.groups[p.gid]? = some (g0 id) ∧ p.dest = [.uni 8] ∧ k = p.ps.getD 0 0 ∧ k < 2 ^ 32 ∧ p.instr = i ∧ (g0 id).phase ≠ .stopped ∧
      (s.glch p.gid).ctx = 0 ∧ s.cctr 0 1 = 3 + 2 ^ 24 ∧
      (k = 0x7FFFFFFF ∨ k < 2 ^ 31 ∨ 2 ^ 31 ≤ k ∧ k / 2 ^ 24 % 2 ^ 7 = 1 ∧ (3 + 2 ^ 24 - k % 2 ^ 24) % 2 ^ 24 < 2 ^ 23 ∨
        2 ^ 31 ≤ k ∧ k / 2 ^ 24 % 2 ^ 7 = 1 ∧ 2 ^ 23 ≤ (3 + 2 ^ 24 - k % 2 ^ 24) % 2 ^ 24) := by decide +kernel

/-- A launch queue's sequence of 128-byte records, four to a brick of 1 KiB. -/
def recQ : SeqD := { SeqD.ofBits 0 with st := 1, lq := 1, rsz := 7, spb := 2, fl := 1, pool := 7, wlen := 0xFFFFFFFF }

/-- Context 0 has object 7 as its launch area, sequence area and pools, and queue 0 takes host records on sequence 1; entry 0 of its queue table
names the sequence, and object 8 is code. -/
def bellS (en : Nat) (q : Queue) : State :=
  let s := seqS recQ ⟨7, 10, 0x4000, 1, 2⟩ State.reset
  { s with
    mem := mwrite (mwrite (mwrite s.mem 0x40800 32 (FreeL.bits ⟨7, 8, 0x3000, 1, 4⟩)) 0x40400 8 (1 + 2 ^ 22 * en + 2 ^ 23)) 0x10100 32 (entry 2 0xFF 0x20000 0x20000)
    le := { s.le with queues := [(0, q)] } }

/-- Queue 0, mapped and fed by the host. -/
def hostQ : Queue := { Queue.empty with st := .me, seq := 1, cls := 2, host := true }

theorem witness_doorbell : (let s := bellS 1 hostQ;
      s.queue 0 0 = hostQ ∧ s.seqGet 0 1 = recQ ∧ s.hostQueue 0 0 = true ∧ recQ.st = 1 ∧ recQ.rlen < recQ.clen + 256 ∧ s.behind 0 1 s.nextOp = false ∧
        hostQ.hostRes.length < 1 ∧ s.resCount 0 1 (min 1 (256 - (recQ.rlen - recQ.clen))) 0 = 1 ∧
        (s.reserveAll 0 1 [0]).2 = .got [⟨0, 0x4000, 0, 0, 0, [0]⟩]) ∧
    (let q := { recQ with rlen := 256 }; let s := ({ bellS 1 hostQ with mem := mwrite (bellS 1 hostQ).mem 0x41040 64 q.bits } : State);
      s.hostQueue 0 0 = true ∧ s.seqGet 0 1 = q ∧ q.st = 1 ∧ s.resCount 0 1 (min 1 (max (256 - (q.rlen - q.clen)) 1)) 0 = 1 ∧
        (s.reserveAll 0 1 [0]).2 = .wait) ∧
    (let s := ({ bellS 1 hostQ with mem := mwrite (bellS 1 hostQ).mem 0x40020 32 (FreeL.bits ⟨7, 10, 0, 0, 0⟩) } : State);
      s.hostQueue 0 0 = true ∧ (s.seqGet 0 1).st = 1 ∧ (match (s.reserveAll 0 1 [0]).2 with | .empty _ _ => true | _ => false) = true) ∧
    (bellS 1 { hostQ with host := false }).hostQueue 0 0 = false ∧
    ((bellS 1 { hostQ with hostRes := [0, 1] }).hostQueue 0 0 = true ∧ 2 ≤ [0, 1].length) ∧
    (∀ en ∈ [0, 1], let s := bellS en hostQ; let v := s.noteRead 0 ((s.ctx 0).launchArea * 2 ^ 40 + 0x400);
      let e := v.oread 0 (v.ctx 0).launchArea 0x400 8;
      (s.ctx 0).reg = true ∧ fld e 24 40 = 0 ∧ v.seqValid 0 (fld e 0 20) = true ∧ (v.seqGet 0 (fld e 0 20)).lq = 1 ∧ (v.seqGet 0 (fld e 0 20)).recSize = 128 ∧
        fld e 22 1 = en) ∧
    (let s := bellS 1 hostQ; let v := s.noteRead 0 ((s.ctx 0).launchArea * 2 ^ 40 + 0x408);
      fld (v.oread 0 (v.ctx 0).launchArea 0x408 8) 0 20 = 0 ∧ v.seqValid 0 0 = false) := by decide +kernel

/-- A valid record: one course of one block of one group, code in object 8, 32 lanes, no handler and no counter. -/
def recBits : Nat := 1 + 2 ^ 16 + 2 ^ 24 + 2 ^ 35 + 2 ^ 56 * 3 + 2 ^ 96 * 0x100C + 2 ^ 128 + 2 ^ 165 + 2 ^ 192 * 0xFFFFFFFF

/-- The queue is mapped with one record committed, whose bytes are `x`: the map's one node is at 0x3000 and the brick at 0x4000. -/
def recS (x : Nat) : State :=
  let q := { recQ with rlen := 1, clen := 1, mapd := 1, root := 0x30 }
  let s := bellS 1 { hostQ with st := .mw }
  { s with mem := mwrite (mwrite (mwrite (mwrite s.mem 0x41040 64 q.bits) 0x43000 8 (2 ^ 63 + 0x4000)) 0x44000 64
    (Brick.bits { Brick.zero with fill := 1, ref := 1, cmap := 1 })) 0x44040 128 x }

theorem witness_records : (∀ x ∈ [recBits, 2], let s := recS x; let q := s.queue 0 0; let d := s.seqGet 0 q.seq; let r := LRec.ofBits x;
    let v := (s.noteReads 0 (s.brickSectors 0 d (s.brickAt 0 d q.cursor).toList)).noteReads 0 (s.recSectors 0 d q.cursor);
    s.ops = [] ∧ q.st = .mw ∧ q.waiting.length < 64 ∧ s.seqValid 0 q.seq = true ∧ q.cursor < d.clen ∧ s.recAt 0 d q.cursor = some x ∧
      (r.ver ≠ 1 ∨ r.ver = 1 ∧ r.cctr < 128 ∧ v.recValid 0 r = true ∧ r.cls = 3 ∧ q.cls = 2)) ∧
    ((bellS 1 hostQ).queue 0 0).st ≠ .mw := by decide +kernel

/-- The launch drains; its completion record goes to sequence 1 when `full` says how many of its positions are reserved. -/
def drainS (full : Nat) : State :=
  let s := seqS { recQ with lq := 0, rsz := 1, rlen := full } ⟨7, 10, 0x4000, 1, 2⟩ (at0 id)
  { s with
    mem := mwrite s.mem 0x40800 32 (FreeL.bits ⟨7, 8, 0x3000, 1, 4⟩)
    launches := s.launches.map fun l => { l with st := .draining, lr := { lrec with flags := 32, cseq := 1 } } }

theorem witness_ends : (let s := at0 id; let s := ({ s with launches := s.launches.map fun l => { l with st := .draining } } : State);
      s.launches[0]? = some (s.lch 0) ∧ (s.lch 0).st = .draining ∧ s.ops = [] ∧ (s.lch 0).broken = false ∧ (s.lch 0).status ≠ 3 ∧ (s.lch 0).flag 5 = false ∧
        (s.lch 0).lr.cctr < 128 ∧ (base.lch 0).st ≠ .draining) ∧
    (((drainS 256).lch 0).st = .draining ∧ (drainS 256).ops = [] ∧ ((drainS 256).finishLaunch 0).isNone = true ∧ ((drainS 0).finishLaunch 0).isSome = true) ∧
    ((base.blk 0).st = .live ∧ ∃ g ∈ base.groups, g.blk = 0 ∧ ¬ (g.phase = .exited ∨ g.phase = .stopped)) ∧
    (let s := at0 (inPhase .exited); s.blocks[0]? = some (s.blk 0) ∧ (s.blk 0).st = .live ∧ s.ops = [] ∧ (s.lch (s.blk 0).launch).flag 2 = false ∧ (∀ y ∈ s.blocks, y.held = []) ∧
      ∀ g ∈ s.groups, g.blk = 0 → g.phase = .exited) ∧
    (let s := at0 (inPhase .exited);
      let s := ({ s with
        launches := s.launches.map fun l => { l with lr := { lrec with flags := 4 } }, blocks := s.blocks ++ s.blocks
        courses := s.courses.map fun c => { c with blocks := [0, 1] } } : State);
      (s.blk 0).st = .live ∧ s.ops = [] ∧ (s.lch (s.blk 0).launch).flag 2 = true ∧ 1 ∈ (s.crs (s.blk 0).course).blocks ∧ (s.blk 1).st = .live ∧
        (∀ y ∈ s.blocks, y.held = []) ∧ ∀ g ∈ s.groups, g.blk = 0 → g.phase = .exited) ∧
    (7 ∉ base.le.deadDies ∧ ∀ c ∈ base.courses, c.st ≠ .placed) ∧
    ((base.crs 0).st = .running ∧ (base.crs 0).image = none ∧ 0 ∈ (base.crs 0).blocks ∧ 0 < base.blocks.length ∧ dieOf (base.blk 0).core = 0 ∧
      (base.blk 0).st = .live ∧ base.launches[(base.blk 0).launch]? ≠ none) := by decide +kernel

/-- No block is on die 7. -/
theorem witness_empty_die : ∀ b, dieOf (base.blk b).core = 7 → (base.blk b).st = .released ∨ (base.blk b).st = .lost
  | 0, h => absurd h (by decide +kernel)
  | _ + 1, h => absurd (show dieOf Block.empty.core = 7 from h) (by decide +kernel)

/-- Queue 0 of context 0 on sequence 1, with its quantum over while queue 1 waits, or past its bound. -/
def slotS (q : Queue) : State :=
  let s := recS recBits
  { s with tick := 100000, le := { s.le with queues := [(0, q), (1, { Queue.empty with st := .iw, cls := 2 })] } }

theorem witness_slots : (let q := { hostQ with st := .iw, moving := true };
      (slotS q).queue 0 0 = q ∧ q.moving = true ∧ (slotS q).hasWork 0 q = true ∧ (slotS q).hasWork 0 { q with cursor := 1 } = false) ∧
    ((slotS hostQ).queue 0 0).moving = false ∧
    ((slotS { hostQ with st := .mw }).rotates { hostQ with st := .mw } = true ∧ (slotS hostQ).rotates hostQ = false ∧
      (let q := { hostQ with st := .iw, mostW := 2, leastS := 1 }; (slotS q).pastBound q = true) ∧ (slotS hostQ).pastBound hostQ = false) := by decide +kernel

/-- Two courses of launch 0, the first running in the cores and the second at `x`; its one block is 1. -/
def twoCourses (x y : Course) : State :=
  let s := obj7 base
  { s with
    groups := [], launches := s.launches.map fun l => { l with lr := { lrec with part := 0x00000108 } }
    courses := [y, x], blocks := s.blocks ++ [{ Block.empty with st := .allocating, course := 1, rank := 1 }] }

/-- A course ready to be switched in. -/
def switchS : State := twoCourses { Course.empty with st := .switching, outs := [0] } { base.crs 0 with blocks := [] }

theorem witness_courses : (let s := twoCourses { Course.empty with num := 1, blocks := [1, 2], st := .placed } (base.crs 0);
      let s := ({ s with blocks := s.blocks ++ [{ Block.empty with st := .allocating, course := 1 }] } : State);
      s.blocks[1]? = some (s.blk 1) ∧ (s.blk 1).st = .allocating ∧ 2 ∈ (s.crs (s.blk 1).course).blocks ∧ (s.blk 2).st = .allocating ∧
        (s.lch (s.blk 1).launch).lr.nlanes ≠ 0 ∧ (s.blk 0).st ≠ .allocating) ∧
    (let s := twoCourses { Course.empty with num := 1, blocks := [1], st := .placed } (base.crs 0);
      s.blocks[1]? = some (s.blk 1) ∧ (s.blk 1).st = .allocating ∧ (s.blk 1).course = 1 ∧ 1 < s.courses.length ∧ (s.crs 1).st = .placed ∧
        (s.crs 1).outs = [] ∧ s.third 1 = false ∧ (s.crs 1).image = none ∧ ∀ y ∈ (s.crs 1).blocks, y ≠ 1 → (s.blk y).st ≠ .allocating) ∧
    (let s := twoCourses { Course.empty with st := .spilling, image := some 0 } (base.crs 0);
      s.courses[1]? = some (s.crs 1) ∧ (s.crs 1).st = .spilling ∧ s.spillWaits 1 = false ∧ (s.crs 0).st ≠ .spilling ∧ (s.crs 0).st ≠ .filling ∧
        (s.crs 0).st ≠ .switching) ∧
    (let s := flying id { opOf (.st false .w 8 1 2) with accs := [⟨0, 0, 7 * 2 ^ 40, 0, 0, 4, 0, 0, none, .clear⟩], stage := .cleared };
      let s := ({ s with courses := s.courses.map fun c => { c with st := .spilling } } : State); s.courses[0]? = some (s.crs 0) ∧ (s.crs 0).st = .spilling ∧ s.spillWaits 0 = true) ∧
    (let s := twoCourses { Course.empty with st := .filling, outs := [0] } (base.crs 0);
      s.courses[1]? = some (s.crs 1) ∧ (s.crs 1).st = .filling ∧ (s.crs 1).outs ≠ [] ∧ ∀ b ∈ (s.crs 1).blocks, b ∉ (s.core (s.blk b).core).reclaim) ∧
    (let s := twoCourses { Course.empty with st := .filling, outs := [0], blocks := [1] } (base.crs 0);
      s.courses[1]? = some (s.crs 1) ∧ (s.crs 1).st = .filling ∧ (s.crs 1).outs ≠ [] ∧ (s.crs 1).blocks = [1] ∧ 1 < s.blocks.length ∧
        1 ∉ (s.core (s.blk 1).core).reclaim ∧ 16380 % 4 = 0 ∧ 16380 + 4 ≤ (s.lch (s.blk 1).launch).scr ∧ 16380 ∉ (s.blk 1).marked) ∧
    (let s := switchS;
      s.courses[1]? = some (s.crs 1) ∧ s.courses[0]? = some (s.crs 0) ∧ (s.crs 1).st = .switching ∧ (s.crs 1).outs = [0] ∧ (s.crs 1).image = none ∧
        (s.crs 0).st = .running) := by decide +kernel

theorem witness_switch : switchS.imageAt 0 = some 0 ∧ switchS.holdsSwitch 0 = false ∧ switchS.third 1 = false ∧ (switchS.swapOut 0).matrixBusy 0 = false := by decide +kernel

theorem witness_ticks : (State.reset.mg.boot ≠ .ready) ∧ (base.mg.boot = .ready ∧ ¬ base.launches = []) ∧
    (let s := ({ State.reset with mg := { State.reset.mg with boot := .ready }, ops := [(5, { opOf (.fence .sc .device) with stage := .tick 1 })] } : State);
      s.launches = [] ∧ s.le.queues = [] ∧ s.cores = [] ∧ s.link.irqDue = [] ∧ s.link.waiting = [] ∧ s.mg.boot = .ready ∧ 1 ≤ s.tick + 1) ∧
    (State.reset.ops = []) ∧
    (let p := { opOf (.fence .sc .device) with stage := .tick 0 }; let s := flying id p;
      s.ops = [(5, p)] ∧ p.instr = .fence .sc .device ∧ p.stage = .tick 0 ∧ 0 ≤ s.tick) ∧
    (let s := ({ State.reset with cores := [(0, { Core.empty with pred := [(3, 2)] })] } : State);
      (s.cores.map fun e => e.1).Nodup ∧ ∀ e ∈ s.cores, (e.2.pred.map fun x => x.1).Nodup) ∧
    (let p := { opOf (.sqlen 104 96) with stage := .page 7 1 }; let s := flying id p;
      s.ops = [(5, p)] ∧ p.stage = .page 7 1 ∧ p.accs = [] ∧ (s.glch p.gid).ctx = 0) ∧
    (let p := { opOf (.ld false .w 8 1 2) with accs := [⟨0, 0, 7 * 2 ^ 40 + 65536, 0, 0, 4, 0, 0, none, .page⟩] }; let s := flying id p;
      s.ops = [(5, p)] ∧ (s.glch p.gid).ctx = 0 ∧ ∃ a ∈ p.accs, a.st = .page ∧ a.adr / 2 ^ 40 = 7 ∧ a.adr % 2 ^ 40 / 65536 = 1) ∧
    (let s := code [] (inPhase (.parkedFetch 0x10000 1)); s.ops = [] ∧ s.groups = [s.grp 0] ∧ (s.grp 0).mons = [] ∧ (s.grp 0).walk.queues = [] ∧
      (s.grp 0).phase = .parkedFetch 0x10000 1 ∧ (s.glch 0).ctx = 0 ∧ (s.glch 0).codeCap.obj = 7) := by decide +kernel

/-- RESERVE gives position 0, one record, and the slot of the brick (R124). -/
theorem test_reserve : (let t := got (.reserve 0 0 1) (bellS 1 hostQ); (t.le.cdbr0, t.le.cdbr1)) = (2 ^ 40, 0x4040) := by decide +kernel

/-- The valid record becomes a launch of class 2, the lower of 3 and 2 (R126, R130). -/
theorem test_record_accept : ((got (.recordAccept 0 0) (recS recBits)).launches.map fun l => (l.lr.cls, l.lr.nlanes, l.qn)) = [(2, 32, 0)] := by
  decide +kernel

/-- LSTAT of a target that counter 1 has completed gives its ERR (R162). -/
theorem test_lstat : ((got (.sequenceAnswer 5) (tokS { opOf (.lstat 104 96) with ps := [0x81000003], dest := [.uni 8] })).grp 0).uni 8 = 1 := by
  decide +kernel

/-- A block's allocation starts its group at the record's entry with 32 lanes (R164). -/
theorem test_pool_allocation : (let s := twoCourses { Course.empty with num := 0, blocks := [1, 0], st := .placed } { base.crs 0 with st := .placed };
    (got (.poolAllocationComplete 1) { s with blocks := s.blocks.map fun b => { b with rank := 0 } }).groups.map fun g => (g.blk, g.phase, g.lanes.launch)) =
      [(1, .fetch 0, BitVec.allOnes 32)] := by decide +kernel

/-! ## Management engine -/

/-- The mailbox in READY with words of ARGS, over object 7 in context 0. -/
def mbx (args : List (Nat × Nat)) (s : State) : State :=
  let s := obj7 s
  { s with mg := { s.mg with boot := .ready, mbox := args.foldl (fun m e => mwrite m (0x10 + e.1) 4 e.2) [] } }

/-- Context 0 is changed. -/
def ctx0 (f : Ctx → Ctx) (s : State) : State := { s with ctxs := s.ctxs.map fun e => (e.1, f e.2) }

theorem witness_context_commands : (let s := ctx0 (fun x => { x with reg := false }) (mbx [(0, 2 ^ 24 + 4095 * 2 ^ 12), (4, 7), (8, 7)] .reset);
      s.mg.boot = .ready ∧ s.argCtx = 0 ∧ s.argsClean [(0, 0, 25), (4, 0, 24), (8, 0, 24)] = true ∧ (s.ctx 0).reg = false ∧ (s.ctx 0).tbl = true ∧
        s.objIn 0 7 = true ∧ fld (s.arg 0 4) 24 1 = 1 ∧ oKind (s.objRaw 0 7) = 1 ∧ 9216 ≤ oSize (s.objRaw 0 7)) ∧
    (let s := mbx [(0, 0), (4, 7), (8, 7)] .reset;
      s.argsClean [(0, 0, 12), (4, 0, 24), (8, 0, 24)] = true ∧ (s.ctx 0).reg = true ∧ (s.ctx 0).seq = false ∧ 0x1040 ≤ oSize (s.objRaw 0 7) ∧
        oSize (s.objRaw 0 7) % 256 = 0 ∧ s.allPages 0 7 = true) ∧
    (∀ b ∈ [8, 20], let s := ctx0 (fun x => { x with seq := true, seqArea := 7 }) (mbx [(0, 63 * 2 ^ 16), (4, 7), (8, b)] .reset);
      s.argsClean [(0, 0, 12), (0, 16, 6), (4, 0, 24), (8, 0, 5)] = true ∧ (s.ctx 0).seq = true ∧ s.arg 8 4 = b ∧
        (s.flGet 0 (fld (s.arg 0 4) 16 6)).count = 0) := by decide +kernel

theorem witness_context_commands2 : (let s := mbx [(0, 3), (8, 0x10020), (0x10, 2), (0x18, 0x10000), (0x20, 0x10000), (0x28, 0), (0x2C, 9)] .reset;
      let s := ctx0 (fun x => { x with priv := true }) s;
      s.argCtx = 3 ∧ s.argsClean [(0, 0, 12), (8, 0, 52), (0x10, 0, 32), (0x18, 0, 52), (0x20, 0, 40), (0x28, 0, 12), (0x2C, 0, 24)] = true ∧
        s.arg 8 8 % 32 = 0 ∧ s.arg 0x10 4 = 2 ∧ s.arg 0x18 8 ≤ s.arg 8 8 ∧ s.arg 8 8 + 32 * 2 ≤ s.arg 0x18 8 + s.arg 0x20 8 ∧
        s.arg 0x18 8 % 65536 = 0 ∧ s.arg 0x20 8 % 65536 = 0 ∧ s.arg 0x18 8 + s.arg 0x20 8 ≤ memBytes ∧ (s.ctx (s.arg 0x28 4)).reg = true ∧
        (s.ctx (s.arg 0x28 4)).priv = true ∧ (s.ctx 3).reg = false) ∧
    (let s := mbx [(0, 0), (4, 1)] (seqS { openQ with rsz := 1 } listX .reset);
      let s := { seqS { openQ with rsz := 1 } listX s with mg := s.mg };
      s.mg.boot = .ready ∧ s.argsClean [(0, 0, 12), (4, 0, 20)] = true ∧ (s.ctx 0).reg = true ∧ s.seqValid 0 1 = true ∧ (s.seqGet 0 1).recSize = 32 ∧
        s.arg 4 4 = 1) ∧
    (∀ k ∈ [0, 12], let s := mbx [(0, 0), (4, 7), (8, 2 ^ k)] .reset;
      s.argsClean [(0, 0, 12), (4, 0, 24), (8, 0, 32)] = true ∧ s.arg 8 4 = 2 ^ k ∧ s.objIn 0 7 = true ∧ 8 * 2 ^ k ≤ oSize (s.objRaw 0 7)) ∧
    (let s := mbx [(0, 0)] .reset; s.argsClean [(0, 0, 12)] = true ∧ (s.ctx 0).reg = true ∧ s.launches = []) := by decide +kernel

theorem witness_machine_commands : (∀ n ∈ [1, 1000], let s := mbx [(0, 3), (4, n)] .reset;
      s.mg.boot = .ready ∧ s.argsClean [(0, 0, 2), (4, 0, 32)] = true ∧ s.arg 4 4 = n) ∧
    (let s := mbx [(0, 31 + 256 * 19), (4, 65536)] .reset; s.argsClean [(0, 0, 5), (0, 8, 5), (4, 0, 17)] = true ∧ fld (s.arg 0 4) 8 5 = 19) ∧
    (∀ n ∈ [1, 4], let s := mbx [(0, 0xFFFFFFFF), (4, 3 + 4 * n)] .reset;
      s.argsClean [(0, 0, 32), (4, 0, 5)] = true ∧ fld (s.arg 4 4) 2 3 = n ∧ s.link.ports = []) ∧
    (let s := mbx [(0, 11 + 16 + 256), (0x10, 0x10000), (0x18, 0x20000), (0x1C, 0x80000000)] .reset;
      let s := ({ s with link := { s.link with ports := [(11, { Port.empty with verified := 6 })] } } : State);
      fld (s.arg 0 4) 8 5 = 1 ∧ s.argsClean ([(0, 0, 6), (0, 8, 5)] ++ (List.range 1).flatMap fun r =>
        [(0x10 + 16 * r, 0, 52), (0x18 + 16 * r, 0, 40), (0x18 + 16 * r, 62, 2)]) = true ∧ s.arg 0x10 8 = 0x10000 ∧
        fld (s.arg 0x18 8) 0 40 = 0x20000 ∧ fld (s.arg 0 4) 0 4 = 11 ∧ (s.port 11).attested = true) ∧
    (let s := mbx [(0, 0), (4, 7), (8, 0xFFFFFF)] .reset; s.argsClean [(0, 0, 12), (4, 0, 24), (8, 0, 24)] = true ∧ (s.ctx 0).reg = true ∧
      s.objIn 0 7 = true) := by decide +kernel

theorem witness_machine_commands2 : (let s := mbx [(0, 0), (4, 7)] .reset;
      s.mg.boot = .ready ∧ s.argsClean [(0, 0, 12), (4, 0, 24)] = true ∧ oSize (s.objRaw 0 7) % 32 = 0 ∧ 64 ≤ oSize (s.objRaw 0 7) ∧ s.allPages 0 7 = true ∧
        oKind (s.objRaw 0 7) = 1 ∧ s.everLog 7 = false) ∧
    (∀ n ∈ [1000, 4500], let s := mbx [(0, n)] .reset; s.argsClean [(0, 0, 32)] = true ∧ s.arg 0 4 = n) ∧
    (let s := mbx [(0, 11)] .reset; let s := ({ s with link := { s.link with ports := [(11, { Port.empty with st := .failed })] } } : State);
      s.arg 0 4 = 11 ∧ (s.port 11).st = .failed) ∧
    ((mbx [(0, 7)] .reset).arg 0 4 = 7) ∧
    (let s := seqS openQ listX (mbx [(0, 0), (4, 2), (8, 0x10001), (0x0C, 1)] .reset); let s := ({ s with mg := { s.mg with boot := .ready } } : State);
      s.argsClean [(0, 0, 12), (4, 0, 20), (8, 0, 32), (0x0C, 0, 32)] = true ∧ newLegal (s.arg 8 4) (s.arg 0x0C 4) = true ∧ (s.ctx 0).seq = true ∧
        s.seqNew 0 2 0x10001 1 none = (s.seqPut 0 2 { SeqD.ofBits 0 with st := 1, rsz := 1, fl := 1, pool := 7, wlen := 1 }, .status 0)) ∧
    (let s := seqS openQ listX (mbx [(0, 0x10000), (8, 0x1FE00), (0x10, 2)] .reset);
      s.argsClean [(0, 0, 12), (0, 16, 6), (8, 0, 40), (0x10, 0, 32)] = true ∧ fld (s.arg 0 4) 16 6 = 1 ∧ (s.flGet 0 1).pool = 7 ∧ (s.flGet 0 1).bszl = 8 ∧
        s.arg 8 8 % 2 ^ 8 = 0 ∧ s.arg 8 8 + 2 * 2 ^ 8 = oSize (s.objRaw 0 7) ∧ s.pagesIn 0 7 (s.arg 8 8) (2 * 2 ^ 8) = true) ∧
    (let s := seqS openQ listX (mbx [(0, 0), (4, 1)] .reset); s.argsClean [(0, 0, 12), (4, 0, 20)] = true ∧ s.seqValid 0 1 = true) := by decide +kernel

theorem witness_mailbox_answers : (∀ b ∈ [Boot.rom, .selftest, .ready, .safe],
      let s := mbx [] .reset; let s := ({ s with mg := { s.mg with boot := b } } : State); s.argsClean [] = true ∧ s.mg.boot = b) ∧
    (let s := mbx [(0, 6 + 15 * 2 ^ 16), (4, 0), (8, 6)] .reset;
      s.argsClean [(0, 0, 8), (0, 16, 16), (4, 0, 32), (8, 0, 32)] = true ∧ fld (s.arg 0 4) 0 8 = 6 ∧ fld (s.arg 0 4) 16 16 < (counterTable.getD 6 (0, 0)).2 ∧
        s.arg 4 4 + s.arg 8 4 = (counterTable.getD 6 (0, 0)).1 ∧ timed 6 5 = false) ∧
    (let s := mbx [(0, 0), (4, 0), (8, 126)] .reset; s.argsClean [(0, 0, 64), (8, 0, 32)] = true ∧ s.arg 8 4 = 126) ∧
    ((mbx [(0x100, 1)] .reset).mg.boot = .ready ∧ State.reset.mg.boot ≠ .ready ∧
      ∀ l ∈ [[], [(0, 0, 25), (4, 0, 24), (8, 0, 24)], [(0, 0, 12), (0, 16, 6), (4, 0, 24), (8, 0, 5)],
        [(0, 0, 12), (8, 0, 52), (0x10, 0, 32), (0x18, 0, 52), (0x20, 0, 40), (0x28, 0, 12), (0x2C, 0, 24)],
        [(0, 0, 8), (0, 16, 16), (4, 0, 32), (8, 0, 32)], [(0, 0, 12), (0, 16, 6), (8, 0, 40), (0x10, 0, 32)]],
        (mbx [(0x100, 1)] .reset).argsClean l = false) := by decide +kernel

theorem witness_boot_and_power : (State.reset.mg.boot = .rom) ∧ (let s := ({ State.reset with mg := { State.reset.mg with boot := .selftest } } : State);
      s.mg.boot = .selftest) ∧ (600 ≤ 1750 ∧ 1750 % 25 = 0 ∧ 600 % 25 = 0) ∧ (State.reset.mlink 2559).st = .steady ∧ (State.reset.mlink 2559).width ≠ 2 ∧
    (tget .empty State.reset.mg.islands 31).throttled = false := by decide +kernel

theorem witness_attestation : (∀ n ∈ [0, 1, 2, 3], (State.reset.spdmTo 0 n).spdmAt 0 = n) ∧ (3072 ∈ [256, 3072]) := by decide +kernel

/-- QUANTUM answers the class's old quantum, 20 at reset (R136, R466). -/
theorem test_quantum : (let t := got .quantum (mbx [(0, 3), (4, 40)] .reset); (t.quantum 3, t.arg 8 4)) = (40, 20) := by decide +kernel

/-- FLSET and FLFILL: a list of two bricks of 256 bytes whose head is the last one pushed (R351, R372). -/
theorem test_flfill : (let t := got .flfill (seqS openQ ⟨7, 8, 0, 0, 0⟩ (mbx [(0, 0x10000), (8, 0x400), (0x10, 2)] .reset));
    ((t.flGet 0 1).count, (t.flGet 0 1).head, t.arg 0x14 4)) = (2, 0x500, 2) := by decide +kernel

/-- A command outside READY ends with status 3 (R463, R464). -/
theorem test_not_ready : mget (got .pwrlim State.reset).mg.mbox 4 = 3 := by decide +kernel

/-! ## Coherence messages and mesh links -/

/-- A request of core 0's data cache for sector 0 of line `key`, at router `r`. -/
def tmsg (key r : Nat) : TMsg := ⟨key, false, 0, 0, 0, r, 4, 0, 0, 0, false, 0, 0, 0⟩

/-- The first line of object 7, whose root is router 63; core 0 is at router 96. -/
def key7 : Nat := 7 * 2 ^ 32

/-- A stable entry. -/
def stableE (par ch loc own : Nat) : TEntry := { TEntry.empty with st := .stable, par := par, ch := ch, loc := loc, own := own }

/-- The package after reset with an entry at the message's router. -/
def treeS (m : TMsg) (e : TEntry) : State := State.reset.setTent m.router m.slab m.key e

theorem witness_reads : (∀ st ∈ [TSt.tearing, .pruning, .invalid, .stable, .joining], ∀ r ∈ [96, 63],
      let m := tmsg key7 r; let e := if st = .invalid then .empty else { stableE 4 1 0 4 with st := st }; let s := treeS m e;
      m.excl = false ∧ m.slab = false ∧ s.ent m = e ∧ e.st = st ∧ s.rootOf m = 63 ∧ s.holdFull .rd m = false ∧ s.holdFull .srd m = false ∧
        (s.victimAt m.router m.key).1 = true ∧ s.inL2 m.key m.sector = false ∧
        fld (tget L2Line.none (s.slice (homeSlice m.key)).l2 m.key).filling m.sector 1 = 0 ∧ (r = 63 → coreAt m.router = none) ∧
        tget 0 s.fab.tclim m.router = 0 ∧ (st ≠ .invalid → 1 ≤ e.own ∧ e.own ≤ 4 ∧ e.own - 1 ≠ m.arr)) ∧
    ((State.reset.fillL2 key7 0 false false 0).inL2 key7 0 = true) ∧
    (∀ r ∈ [96, 63], let m := { tmsg key7 r with excl := true }; State.reset.holdFull .rd m = false) ∧
    (let m := tmsg key7 63; let e := stableE 4 0b101 0 0; (treeS m e).ent m = e ∧ e.own = 0 ∧ State.nearest e m = some 0) := by decide +kernel

/-- Router 96 holds as many messages of a kind as it can. -/
def fullS (k : HKind) (n : Nat) : State :=
  { State.reset with fab := { State.reset.fab with held := List.replicate n (96, k, tmsg key7 96) } }

/-- A request of core 0's data cache for the first line of a slab of object 7, at its proxy root. -/
def slabM : TMsg := { tmsg (2 ^ 28 * 7) 80 with slab := true, sector := 1, top := 81 }

/-- The root has the slab in a protocol state; core 0 asks for the line, whose home is package 2 behind port 4, and core 1 holds it in `st`. -/
def slabRootS (pst : Nat) (st : Coh) : State :=
  let s := (((treeS slabM { stableE 4 2 0 0 with pst := pst }).setLine 0 0 key7 { CLine.none with pa := 0x20000, mt := 2, pending := 1 }).setLine 1 0 key7
    { CLine.none with st := st, mt := 2, valid := 3 })
  { s with link := { s.link with ports := [(4, { Port.empty with st := .up, isDomain := true, pkg := 2 })] } }

theorem witness_slab_reads : ∀ pst ∈ [1, 2], let s := slabRootS pst .M; let m := slabM;
    s.holdFull .rd m = false ∧ m.excl = false ∧ (s.ent m).st = .stable ∧ (s.ent m).pst = pst ∧ m.router = s.rootOf m ∧
      fld (s.line m.core m.agent m.line).pending 0 2 ≠ 0 ∧ s.dirtyInMesh m.line = false ∧ s.owned m.line = true ∧
      s.slabPort ((s.line m.core m.agent m.line).pa / 65536 % 4) m.key = some 4 ∧ ({ m with router := 96 } : TMsg).router ≠ s.rootOf m := by decide +kernel

/-- A message that comes from a link to a router without room. -/
theorem witness_held_back : (let m := { tmsg key7 96 with arr := 3 };
    m.excl = false ∧ (fullS .rd 32).holdFull .rd m = true ∧ (fullS .xreq 32).holdFull .xreq m = true ∧ (fullS .srd 16).holdFull .srd m = true ∧
      (fullS .rd 31).holdFull .rd m = false ∧ (fullS .srd 15).holdFull .srd m = false) := by decide +kernel

/-- A holder in M and one in E; data on their way, at a requester with its sector pending, and at one without. -/
theorem witness_supplies : (∀ c ∈ [Coh.M, .E], let e := stableE 4 0 6 0; let m := { tmsg key7 96 with core := 1 };
      let s := (treeS m e).setLine 0 1 key7 { CLine.none with st := c, valid := 3 };
      s.ent m = e ∧ e.st = .stable ∧ s.holdFull .srd m = false ∧ m.slab = false ∧ s.engineKeeps (256 * m.key) 256 (s.engineRank m.core m.agent) = false ∧
        coreAt m.router = some 0 ∧ fld e.loc 1 1 = 1 ∧ (∀ b, b < 1 → fld e.loc b 1 = 0) ∧ (s.line 0 1 m.key).st = c ∧
        fld (s.line 0 1 m.key).pending 2 1 = 0 ∧ fld (s.line 0 1 m.key).valid m.sector 1 = 1) ∧
    (let m := tmsg key7 96; let s := State.reset.setLine 0 0 key7 { CLine.none with pending := 1 };
      m.router = agentRouter m.core ∧ m.core < 448 ∧ m.slab = false ∧ fld (s.line m.core m.agent m.line).pending m.sector 1 = 1 ∧
        fld (s.line m.core m.agent m.line).pending 3 1 = 0 ∧ s.ops = [] ∧ fld (State.reset.line m.core m.agent m.line).pending m.sector 1 = 0 ∧
        (tmsg key7 63).router ≠ agentRouter m.core) := by decide +kernel

/-- The head command of core 0's first copy queue owns the line, which the copy engine holds in M. -/
def owningS : State :=
  let s := flying id { opOf (.cpysg 0 2 96) with owns := [key7] }
  ({ s with cores := [(0, { Core.empty with cq := [(0, [5])] })] } : State).setLine 0 1 key7 { CLine.none with st := .M, valid := 3 }

theorem witness_ownership : (let m := tmsg key7 96; State.reset.holdFull .xreq m = false ∧ m.router ≠ State.reset.rootOf m ∧ (State.reset.ent m).st = .invalid ∧
      (State.reset.victimAt m.router m.key).1 = true) ∧
    (let m := { tmsg key7 63 with core := 31 }; let s := (treeS m (stableE 4 0 0 0)).setRootQ key7 [⟨m⟩];
      s.holdFull .xreq m = false ∧ m.router = s.rootOf m ∧ s.rootQ m.rootKey ≠ []) ∧
    (let m := tmsg key7 63; let e := stableE 4 0b1001 0 0; let s := treeS m e; s.holdFull .xreq m = false ∧ m.router = s.rootOf m ∧ s.rootQ m.rootKey = [] ∧
      (s.ent m).st = .stable ∧ m.slab = false ∧ coreAt m.router = none) ∧
    (let s := slabRootS 2 .S; let m := slabM; s.holdFull .xreq m = false ∧ m.router = s.rootOf m ∧ s.rootQ m.rootKey = [] ∧ (s.ent m).st = .stable ∧
      (s.ent m).pst = 2 ∧ s.holdersOf m.line ≠ []) ∧
    (let s := slabRootS 1 .S; let m := slabM; s.holdFull .xreq m = false ∧ m.router = s.rootOf m ∧ s.rootQ m.rootKey = [] ∧ (s.ent m).st = .stable ∧
      m.slab = true ∧ (s.ent m).pst ≠ 2 ∧ s.slabPort ((s.line m.core m.agent m.line).pa / 65536 % 4) m.key = some 4 ∧
      (s.tent (s.rootOf m) true m.key).pst ≠ 2) := by decide +kernel

/-- Teardowns that wait, that go down, and that end. -/
theorem witness_teardown : (let m := { tmsg key7 97 with arr := 3 }; let e := stableE 2 0b1001 0 0; State.kids e = [0, 3] ∧ downToward m.router (agentRouter m.core) = 3 ∧
      (treeS m e).ent m = e ∧ (treeS m e).recallWaits m = false ∧ (treeS m e).linkRecall m = none ∧ e.ch ≠ 0 ∧ State.kids (stableE 4 0 1 0) = [] ∧
      State.reset.recallWaits m = false ∧ State.reset.linkRecall m = none ∧ (State.reset.ent m).st = .invalid) ∧
    (owningS.recallWaits { tmsg key7 96 with core := 1 } = true) ∧
    (let m := tmsg key7 80; let s := State.reset.setTent 80 true (2 ^ 28 * 7) { stableE 4 0 1 0 with pkg := 4 };
      s.recallWaits m = false ∧ (s.linkRecall m).isSome = true) ∧
    (∀ r ∈ [63, 97], ∀ acks ∈ [0b1000, 0b1001], let m := { tmsg key7 r with arr := 3 };
      let e := { stableE 2 0b1001 0 0 with st := .tearing, acks := acks };
      let s := (treeS m e).setRootQ key7 [⟨m⟩];
      m.slab = false ∧ s.ent m = e ∧ e.st = .tearing ∧ fld e.acks m.arr 1 = 1 ∧ (bitClr e.acks m.arr = 0 ∨ bitClr e.acks m.arr = 1) ∧ s.rootOf m = 63 ∧
        s.rootQ m.rootKey = [⟨m⟩] ∧ tget 0 s.fab.tclim m.router = 0) ∧
    (∀ r ∈ [63, 96], let m := tmsg key7 r; m.slab = false ∧ tget 0 State.reset.fab.tclim m.router = 0 ∧ (State.reset.ent m).st = .invalid ∧
      (State.reset.victimAt m.router m.key).1 = true ∧ downToward m.router (agentRouter m.core) = (if r = 63 then 2 else 4) ∧ m.core < 448 ∧
      State.reset.ops = [] ∧ (State.reset.rootQ m.rootKey).length ≤ 1) := by decide +kernel

theorem witness_leaving : (∀ ch ∈ [0b1000, 0b1001], let m := { tmsg key7 97 with arr := 3 }; let e := stableE 2 ch 0 4; let s := treeS m e;
      s.ent m = e ∧ e.st = .stable ∧ fld e.acks m.arr 1 = 0 ∧ e.loc = 0 ∧ e.par ≠ 4 ∧ bitClr e.ch m.arr = ch - 8) ∧
    (let m := tmsg key7 96; (State.reset.setLine 0 0 key7 { CLine.none with st := .S }).holdsNone m 0 0 = false) ∧
    (∀ ch ∈ [0, 2], let m := tmsg key7 96; let s := treeS m (stableE 1 ch 1 0); (s.ent m).st = .stable ∧ (s.ent m).ch = ch ∧ s.holdsNone m 0 0 = true ∧
      (∀ l ∈ State.linesIn { m with sector := 0 }, fld (s.line m.core m.agent l).pending 0 3 = 0) ∧ bitClr (s.ent m).loc m.agent = 0 ∧ (s.ent m).par ≠ 4) ∧
    (∀ dirty ∈ [0, 1, 3], ∀ x, let m := { tmsg key7 63 with dirty := dirty, excl := x }; let s := treeS m (stableE 4 4 0 3);
      m.router = s.rootOf m ∧ m.slab = false ∧ m.excl = x ∧ (s.ent m).st = .stable ∧ (s.ent m).own = downToward m.router (State.writerAt m) + 1 ∧
        s.owned m.key = false ∧ s.mg.log.obj = 0 ∧ (dirty ≠ 3 → fld m.dirty 1 1 = 0)) ∧
    (let m := { tmsg key7 63 with excl := true, dirty := 3 }; (State.reset.ent m).own ≠ downToward m.router (State.writerAt m) + 1) ∧
    (let m := tmsg key7 96; m.router ≠ State.reset.rootOf m ∧ m.router = State.writerAt m ∧ m.agent ≠ State.routerAgent ∧
      (tmsg key7 63).router ≠ State.writerAt (tmsg key7 63)) ∧
    (∀ mg, let m := { tmsg key7 96 with core := 96, agent := State.routerAgent }; let s := treeS m { stableE 1 0 0 0 with st := .pruning, merged := mg };
      m.router = State.writerAt m ∧ (s.ent m).st = .pruning ∧ (s.ent m).par ≠ 4 ∧ (s.ent m).merged = mg) ∧
    (let m := tmsg key7 96; let s := (treeS m (stableE 1 2 3 0)).setLine 0 1 key7 { CLine.none with st := .M, valid := 3 };
      coreAt m.router = some 0 ∧ fld (s.ent m).loc 1 1 = 1 ∧ (s.line 0 1 m.line).owner = true ∧ (s.line 0 0 m.line).owner = false ∧
        State.kids (s.ent m) = [1]) := by decide +kernel

/-- A held message of each kind; a held steered read whose entry is gone, from the root's side and from another. -/
theorem witness_release : (∀ k ∈ [HKind.rd, .xreq, .srd], let s := State.reset.hold k (tmsg key7 96);
      s.fab.held.find? (fun e => e.1 == 96 && e.2.2.key == key7 && e.2.2.slab == false) = some (96, k, tmsg key7 96)) ∧
    (let m := tmsg key7 96; (State.reset.ent m).st = .invalid ∧ m.arr ≠ toward m.router (State.reset.rootOf m)) ∧
    (let m := { tmsg key7 96 with arr := toward 96 63 }; m.arr = toward m.router (State.reset.rootOf m)) := by decide +kernel

/-- A router without children and the launch engine's, quiet and not; reports that are made already, and that are not due. -/
theorem witness_quiet : (quietKids 0 = [] ∧ State.reset.tagAt 0 3 = false ∧ tget [] State.reset.fab.quiet 3 = [] ∧ tget [] State.reset.fab.active 3 = [] ∧
      (∃ k ∈ quietKids 65, k ∉ tget [] State.reset.fab.quiet 3 ∧ 1000 + k ∉ tget [] State.reset.fab.quiet 3) ∧
      (0 ∈ tget [] ({ State.reset.fab with quiet := [(3, [0])] } : Fabric).quiet 3)) ∧
    (launchRouter = 65 ∧ quietKids 65 = [33, 66, 97, 64] ∧ ∀ l ∈ [[33, 66, 97, 64], [33, 66, 97, 1064]],
      let s := at0 id;
      let s := ({ s with launches := s.launches.map fun l => { l with st := .draining, tag := 3 }, fab := { s.fab with quiet := [(3, l)] } } : State);
      65 ∉ tget [] s.fab.quiet 3 ∧ 1065 ∉ tget [] s.fab.quiet 3 ∧ s.tagAt 65 3 = false ∧ 65 ∉ tget [] s.fab.active 3 ∧
        (∀ k ∈ quietKids 65, k ∈ tget [] s.fab.quiet 3 ∨ 1000 + k ∈ tget [] s.fab.quiet 3) ∧ (s.lch 0).st = .draining ∧ (s.lch 0).tag = 3 ∧
        (s.lch 0).wave ≤ tget 0 s.fab.waves 3 + 1) := by decide +kernel

/-- Link 5 of the mesh at some point of a change to half width. -/
def wide5 (st : WSt) (fails : Nat) : State := State.reset.setMlink 5 ⟨0, 1, st, fails⟩

theorem witness_widths : ((wide5 .answered 0).mlink 5).st = .answered ∧ ((wide5 .training 0).mlink 5).st = .training ∧
    (∀ n ∈ [2, 3], ((wide5 .framing n).mlink 5).st = .framing ∧ ((wide5 .framing n).mlink 5).fails = n) := by decide +kernel

/-- The first reader of a line holds it in E (R434). -/
theorem test_first_reader : ((got (.data { tmsg key7 96 with excl := true }) (State.reset.setLine 0 0 key7 { CLine.none with pending := 1 })).line 0 0 key7).st = .E := by
  decide +kernel

/-- The fourth lost frame leaves the link at quarter width (R443). -/
theorem test_fourth_failure : (got (.wnak 5) (wide5 .framing 3)).mlink 5 = ⟨2, 0, .steady, 0⟩ := by decide +kernel

/-! ## Sahper Link and the host bridge -/

/-- Port 4 in a state. -/
def port4 (x : Port) (s : State) : State := { s with link := { s.link with ports := [(4, x)] } }

/-- Port 4 UP, with two unacknowledged flits of which the first was resent `k` times. -/
def up4 (k : Nat) : Port := { Port.empty with st := .up, rxSeq := 4095, unacked := [(0, k, .idle), (1, 0, .idle)] }

theorem witness_flits : (let s := port4 (up4 7) .reset; s.carries 4 = true ∧ 5 ≠ (s.port 4).rxSeq ∧ (s.port 4).st = .up ∧
      (s.port 4).unacked = (0, 7, .idle) :: [(1, 0, .idle)] ∧ [(1, 0, LinkMsg.idle)].length < 512 ∧ (∀ f ∈ (s.port 4).unacked, f.2.1 < 8) ∧
      (s.port 4).unacked.length ≤ 512) ∧
    (∀ b, ((port4 { up4 0 with isDomain := b } .reset).port 4).isDomain = b) ∧
    ((port4 { Port.empty with st := .discover } .reset).carries 4 = true ∧ ({ Port.empty with st := .discover } : Port).accepts (.mgmt 0x84 []) = false) ∧
    (let s := port4 (up4 8) .reset; (s.port 4).st = .up ∧ (s.port 4).unacked = (0, 8, .idle) :: [(1, 0, .idle)] ∧ 4 < 12) := by decide +kernel

theorem witness_ports : (State.reset.port 11).st = .down ∧ (∀ st ∈ [PortSt.discover, .up, .retrain],
    ((port4 { Port.empty with st := st } .reset).port 4).st = st) ∧ (1 : Nat) ≠ 0 ∧
    (let s := ({ State.reset with tick := tenSeconds } : State);
      (([1, 1, 1].filter fun t => decide (s.tick < t + tenSeconds)).length = 3) ∧ (([0, 1, 1].filter fun t => decide (s.tick < t + tenSeconds)).length = 2)) := by
  decide +kernel

/-- A slab message about the first line of object 7. -/
def slab7 (reply : Bool) : SlabMsg := ⟨7 * 2 ^ 28, 0, 1, 0, 0, reply, 5, none, []⟩

/-- Port 4's slab root holds an entry for it. -/
def root4 (e : TEntry) (s : State) : State := s.setTent (portRouter 4) true (7 * 2 ^ 28) e

/-- Port 4 is UP toward package 1, and its link agent holds `n` lines of the slab in `st`. -/
def agentS (n : Nat) (st : Coh) : State :=
  let s := port4 { up4 0 with isDomain := true, pkg := 1 } (obj7 .reset)
  { s with cores := [(452, { Core.empty with lines := (List.range n).map fun i => (4 * (key7 + i), { CLine.none with st := st, valid := 3 }) })] }

/-- Requests that are granted at once and after the lines have come, refused for a missing context and for the tenant; downgrades and teardowns that
wait and that do not; and answers that leave others awaited. -/
theorem witness_slab_requests : (∀ e ∈ [(PKind.read, false, Coh.S, 1), (.write, true, .M, 16)], let s := agentS e.2.2.2 e.2.2.1; let m := slab7 false;
      let u := (s.peerCheck m.ctx m.tenant (4096 * m.slab + 256 * m.line) e.1).1;
      m.reply = false ∧ (s.peerCheck m.ctx m.tenant (4096 * m.slab + 256 * m.line) e.1).2 = .ok (0x40000, false) ∧ (u.port 4).st = .up ∧
        u.slabHolder m.slab = none ∧ u.poisonedSector (7 * 2 ^ 40) = false ∧ u.poisonedSector (7 * 2 ^ 40 + 128) = false ∧
        (u.linkTake 4 m e.2.1 0x40000).isNone = true ∧ ((agentS 0 .S).linkTake 4 m e.2.1 0x40000).isSome = true ∧
        ((port4 (up4 0) .reset).peerCheck 0 0 (7 * 2 ^ 40) e.1).2 = .error .absent ∧ (s.peerCheck 0 1 (7 * 2 ^ 40) e.1).2 = .error .tenant) ∧
    (let s := root4 { TEntry.empty with st := .stable, pst := 2 } (agentS 0 .S); (s.tent (portRouter 4) true (7 * 2 ^ 28)).pst ≠ 0 ∧
      s.slabMoving (7 * 2 ^ 28) = false ∧ s.slabKept (7 * 2 ^ 28) = false ∧ (s.port 4).st = .up ∧
      ({ s with agenda := [.wb slabM] } : State).slabMoving (7 * 2 ^ 28) = true) ∧
    (let e : TEntry := { TEntry.empty with st := .tearing, pkg := 0b110, acks := 0b110 }; let s := root4 e .reset; let m := slab7 true;
      m.reply = true ∧ m.data = [] ∧ m.tag ≠ 1 ∧ s.slabHolder m.slab = some 4 ∧ (s.tent (portRouter 4) true m.slab) = e ∧ bitClr e.acks m.pkg ≠ 0 ∧
        e.pkg ≠ 0 ∧ bitClr e.pkg m.pkg ≠ 0) := by decide +kernel

/-- A lane of a load that waits for a peer's line, and an answer for it. -/
theorem witness_slab_answers : (let y : Acc := ⟨0, 0, 7 * 2 ^ 40, 0, 2, 4, 0, 0, none, .sent⟩; let q := { opOf (.ld false .w 8 9 2) with accs := [y] };
    let s := flying id q; let m := slab7 true;
    m.tag < 2 ^ 60 ∧ s.ops = [(m.tag, q)] ∧ q.instr = .ld false .w 8 9 2 ∧ q.accs = [y] ∧ y.st = .sent ∧ y.blk = none ∧ y.mt = 2 ∧
      lineOf y.adr = 16 * m.slab + m.line ∧ m.refused = none ∧ { m with refused := some .tenant }.refused = some .tenant ∧
      ({ m with tag := State.agentTag 3 1 false } : SlabMsg).reply = true) := by decide +kernel

theorem witness_remote_answers : (let p := { opOf (.rrd 96 2) with ps := [0, 16, 0x3FFF0, 0xFFFFFFFF], stage := .parts 1 }; let s := flying id p;
      s.ops = [(5, p)] ∧ s.groups[p.gid]? = some (g0 id) ∧ p.stage = .parts 1 ∧ p.bar 4 = none ∧ (g0 id).blk < s.blocks.length ∧
        (List.replicate 16 (255 : Nat)).length = p.ps.getD 1 0 ∧ (g0 id).phase ≠ .stopped ∧ (g0 id).phase ≠ .exited) ∧
    ((opOf (.rwri 96 2)).instr = .rwri 96 2) := by decide +kernel

/-- A request for the 16 bytes at the end of object 9. -/
def req7 (tenant : Nat) : RmaReq := ⟨0, 9, 0x1FFF0, 16, tenant, 0xABCD, 3, List.replicate 16 1⟩

/-- Object 9, with the pages of object 7, notifies sequence 1, whose records are 16 bytes: the bindings are at the start of object 7. -/
def noteS : State :=
  let s := bellS 1 hostQ
  { ctx0 (fun x => { x with noteObj := 7, noteN := 1 }) s with
    mem := mwrite (mwrite (mwrite s.mem 0x41040 64 (SeqD.bits { recQ with rsz := 0, lq := 0 })) 0x40000 8 (9 + 2 ^ 24 + 2 ^ 63))
      (0x10000 + 32 * 9) 32 (entry 1 0xFF 0x20000 0x20000) }

theorem witness_remote_requests : (noteS.rmaRefusal (req7 0) true = none ∧ noteS.rmaRefusal (req7 0) false = none ∧
      noteS.rmaRefusal (req7 1) true = some .tenant ∧ noteS.rmaRefusal { req7 0 with off := 0x1FFF8 } false = some .rights ∧
      (noteS.rmaPorts (req7 0) .write).2 = none ∧ (noteS.rmaPorts (req7 0) .read).2 = none) ∧
    (let s := noteS.setSlice (homeSlice (lineOf (9 * 2 ^ 40 + 0x1FFF0))) { Slice.empty with poison := [(0, 9, 1)] };
      ∀ k ∈ [PKind.read, .write], s.rmaRefusal (req7 0) (k == .write) = none ∧ (s.rmaPorts (req7 0) k).2 = some .poisoned) ∧
    (let r := req7 0; let u := (noteS.rmaPorts r .write).1;
      let v := ((u.count 10 4 3 1).engPuts none r.tctx (9 * 2 ^ 40 + 0x1FFF0) (r.data.take 16)).noteBinding r.tctx r.tobj;
      v.binding r.tctx r.tobj = some 1 ∧ (v.appendRec r.tctx 1 v.nextOp (v.noteRecord 4 r)).2 = .got [⟨0, 0x4000, 0, 0, 0, [0]⟩]) ∧
    (let r := req7 0; let s := ({ noteS with mem := mwrite noteS.mem 0x41040 64 (SeqD.bits { recQ with rsz := 0, lq := 0, rlen := 256 }) } : State);
      let u := (s.rmaPorts r .write).1;
      let v := ((u.count 10 4 3 1).engPuts none r.tctx (9 * 2 ^ 40 + 0x1FFF0) (r.data.take 16)).noteBinding r.tctx r.tobj;
      s.rmaRefusal r true = none ∧ (s.rmaPorts r .write).2 = none ∧ v.binding r.tctx r.tobj = some 1 ∧
        (v.appendRec r.tctx 1 v.nextOp (v.noteRecord 4 r)).2 = .wait) := by decide +kernel

/-- Channel 3 of port 4 may read 64 KiB at 0x10000 and write the next. -/
def chanS : State := { State.reset with link := { State.reset.link with prot := [(19, [⟨0x10000, 0x10000, true, false⟩, ⟨0x20000, 0x10000, false, true⟩])] } }

theorem witness_channels : (∀ w ∈ [true, false], let r : ChanReq := ⟨3, w, if w then 0x2FFF0 else 0x1FFF0, 16, List.replicate 16 1⟩;
      r.channel < 4 ∧ chanS.inLog r.addr r.count = false ∧ (∃ y ∈ tget [] chanS.link.prot (4 * 4 + r.channel), y.base ≤ r.addr ∧ r.addr + r.count ≤ y.base + y.len ∧
        (if r.write = true then y.wr = true else y.rd = true)) ∧ r.addr + r.count ≤ memBytes ∧ chanS.poisonAt r.addr r.count = []) ∧
    (∀ y ∈ tget [] chanS.link.prot (4 * 4 + 3), ¬ (y.base ≤ 0x1FFF1 ∧ 0x1FFF1 + 16 ≤ y.base + y.len ∧ (if false = true then y.wr = true else y.rd = true))) ∧
    (let s := ({ chanS with mg := { chanS.mg with log := { chanS.mg.log with frames := [1] } } } : State); s.inLog 0x1FFF0 16 = true) ∧
    (let s := ({ obj7 chanS with slices := [(homeSlice key7, { Slice.empty with poisonSec := [7 * 2 ^ 33] })] } : State);
      let s := ({ s with link := { s.link with prot := [(19, [⟨0x40000, 0x10000, true, false⟩])] } } : State);
      s.inLog 0x40000 16 = false ∧ s.poisonAt 0x40000 16 ≠ []) := by decide +kernel

theorem witness_host_writes : State.reset.mg.boot ≠ .safe ∧ (∀ v ∈ [0, 1, 2, 2 ^ 33 - 2], v < 2 ^ 33) ∧ fld (2 ^ 33 - 2) 0 2 = 2 ∧ fld (2 ^ 61 - 1) 60 1 = 1 ∧
    fld (2 ^ 60 - 1) 60 1 = 0 ∧ mboxEvent 1 = some .status ∧ (mget State.reset.mg.mbox 3).toNat < 128 ∧
    128 ≤ (mget ({ State.reset with mg := { State.reset.mg with mbox := [(3, 0x80)] } } : State).mg.mbox 3).toNat ∧
    ({ State.reset with mg := { State.reset.mg with boot := .safe } } : State).mg.boot = .safe := by decide +kernel

/-- Aperture 3 maps object 7 of context 0 from offset 0x10000, for writes too. -/
def apS : State := let s := obj7 .reset; { s with link := { s.link with ap := [(3, 7 * 2 ^ 12 + 2 ^ 36 + 2 ^ 63 + 2 ^ 64 * 0x10000)] } }

theorem witness_apertures : (apS.apertureAt 0 4 false = none ∧ apS.apertureAt 0 4 true = none ∧
      (∀ w ∈ [true, false], apS.apertureAt (3 * 2 ^ 32 + 0xFFFC) 4 w = some (0, 7 * 2 ^ 40 + 0x1FFFC)) ∧
      pieces (7 * 2 ^ 40 + 0x1FFFC) 4 = [(7 * 2 ^ 40 + 0x1FFFC, 4)] ∧
      (apS.hostPort 0 (7 * 2 ^ 40 + 0x1FFFC) 4 .read).2 = some (0x5FFFC, false) ∧ (apS.hostPort 0 (7 * 2 ^ 40 + 0x1FFFC) 4 .write).2 = some (0x5FFFC, false) ∧
      (apS.hostPort 0 (7 * 2 ^ 40 + 0x1FFFC) 4 .read).1.poisonedSector (7 * 2 ^ 40 + 0x1FFFC) = false ∧ 0x5FFFC + 4 ≤ memBytes) ∧ State.reset.ops = [] ∧
    (∀ mt ∈ [1, 3], let x : Acc := ⟨0, 0, 7 * 2 ^ 40, 0, mt, 4, 0, 0, none, .sent⟩; let p := { opOf (.ld false .w 8 9 2) with accs := [x] };
      (flying id p).ops = [(5, p)] ∧ p.instr = .ld false .w 8 9 2 ∧ p.accs = [x] ∧ x.st = .sent ∧ x.blk = none ∧ x.mt = mt) := by decide +kernel

/-- A host write through the aperture lands at the physical address of its page (R450). -/
theorem test_aperture_write : mread (got (.hostApertureWrite (3 * 2 ^ 32 + 0xFFFC) [1, 2, 3, 4]) apS).mem 0x5FFFC 4 = 0x04030201 := by decide +kernel

/-- A remote write of another tenant is refused with its answer (R457). -/
theorem test_inbound_rwri : ((got (.inboundRwri 4 (req7 1)) (port4 (up4 0) noteS)).port 4).unacked.map (fun f => f.2.2) = [.idle, .idle, .rwriAck 3 .tenant] := by
  decide +kernel

/-- The flit after number 4095 is number 0 (R453). -/
theorem test_flit_wrap : ((got (.flitReceived 4 4095 0 true .idle) (port4 (up4 0) .reset)).port 4).rxSeq = 0 := by decide +kernel

/-! ## Memory-side engine -/

theorem witness_tcinv : (let f := sreg [0xFFF, 0xFFFFFF, 0xFFFFFFFF]; let s := ctx0 (fun x => { x with priv := true }) (obj7 (at0 f)); let g := g0 f;
      Issues s g (.tcinv 96) ∧ (g.src 96 0 0).toNat < 2 ^ 12 ∧ (g.src 96 1 0).toNat < 2 ^ 24 ∧ (s.ctx (s.glch s.cur).ctx).priv = true) ∧
    (∀ n ∈ [1, 2], let p := { opOf (.tcinv 96) with ps := [0, 7, 0xFFFFFFFF], stage := .parts n }; let s := flying id p;
      s.ops = [(5, p)] ∧ p.stage = .parts n ∧ named p.ps key7 = true ∧ homeSlice key7 = 7) ∧
    (let p := { opOf (.tcinv 96) with ps := [0, 7, 0xFFFFFFFF], stage := .parts 2 }; let s := (flying id p).setLine 0 0 key7 { CLine.none with st := .S };
      let ls := fun (s : State) => s.listedLines.eraseDups.filter fun l => named p.ps l && homeSlice l == 7;
      ls s = [key7] ∧ s.engineIn (256 * key7) 256 = false ∧ tget [] s.fab.roots key7 = [] ∧ s.slabHolder (key7 / 16) = none ∧
        (let u := s.setRootQ key7 [⟨tmsg key7 63⟩]; key7 ∈ ls u ∧ tget [] u.fab.roots key7 ≠ []) ∧
        let u := root4 { TEntry.empty with st := .stable, pkg := 2 } s; u.ops = [(5, p)] ∧ key7 ∈ ls u ∧ (u.slabHolder (key7 / 16)).isSome = true ∧
          ∀ l ∈ ls u, u.engineIn (256 * l) 256 = false ∧ tget [] u.fab.roots l = []) ∧
    (let p := { opOf (.tcinv 96) with ps := [0, 7, 0xFFFFFFFF], stage := .parts 0 }; let s := flying (inPhase (.held 0 5)) p;
      s.ops = [(5, p)] ∧ s.groups[p.gid]? = some (g0 (inPhase (.held 0 5))) ∧ (g0 (inPhase (.held 0 5))).phase = .held 0 5) := by decide +kernel

/-- Lane 0 of a load of the first word of object 7, before its check. -/
def acc7 (mt : Nat) : Acc := ⟨0, 0, 7 * 2 ^ 40, 0, mt, 4, 0, 0, none, .need⟩

/-- Its operation. -/
def load7 (gen : Nat) : Op := { opOf (.ld false .w 8 9 2) with accs := [acc7 0], cap1 := ⟨7, 0, 0x20000, 0xFF, 1, gen⟩ }

/-- Its page is of the link's window. -/
def windowPage (s : State) : State := { s with mem := mwrite s.mem 0x20000 8 0x40047 }

theorem witness_ports_of_loads : (let p := load7 0; let s := obj7 (flying id p); let x := acc7 0;
      s.ops = [(5, p)] ∧ p.instr = .ld false .w 8 9 2 ∧ p.accs = [x] ∧ x.st = .need ∧ x.blk = none ∧ s.resident p.gid = true ∧
        (s.portCheck (s.glch p.gid).ctx x.adr (some 1) .read).2 = .fail 0x08 ∧
        (s.portCheck (s.glch p.gid).ctx x.adr (some p.cap1.gen) .read).2 = .ok 0x40000 0 false 0 (entry 1 0xFF 0x20000 0x20000) ∧
        (let u := (s.portCheck (s.glch p.gid).ctx x.adr (some p.cap1.gen) .read).1;
          u.poisonedSector x.adr = false ∧ (u.line 0 0 key7).readHit 0 = false ∧ (u.line 0 0 key7).pending = 0)) ∧
    (let p := load7 0; let s := (obj7 (flying id p)).setLine 0 0 key7 { CLine.none with st := .S, valid := 1 };
      ((s.portCheck (s.glch p.gid).ctx (acc7 0).adr (some p.cap1.gen) .read).1.line 0 0 key7).readHit 0 = true) ∧
    (let p := load7 0; let s := windowPage (obj7 (flying id p));
      (s.portCheck (s.glch p.gid).ctx (acc7 0).adr (some p.cap1.gen) .read).2 = .ok 0x40000 4 false 0 (entry 1 0xFF 0x20000 0x20000)) := by decide +kernel

/-- A fault of page 1 of object 7, in a context whose fault sequence is 1. -/
theorem witness_fault_reports : (let r : FaultRec := ⟨0, 7, 1, 0, 0, 0, 7⟩; let s := ctx0 (fun x => { x with faultSeq := some 1 }) (bellS 1 hostQ);
      let s := ({ s with mem := mwrite s.mem 0x41040 64 (SeqD.bits { recQ with rsz := 1, lq := 0 }) } : State);
      let m := homeSlice (lineOf (r.obj * 2 ^ 40 + r.page * 65536));
      ⟨r.ctx, r.obj, r.page⟩ ∉ (s.slice m).faults ∧ (s.ctx r.ctx).faultSeq = some 1 ∧ s.seqValid r.ctx 1 = true ∧
        (s.appendRec r.ctx 1 s.nextOp (s.reportBytes r m (s.waitingOn r.ctx r.obj r.page))).2 = .got [⟨0, 0x4000, 0, 0, 0, [0]⟩]) ∧
    (let r : FaultRec := ⟨0, 7, 1, 0, 0, 0, 7⟩; let m := homeSlice (lineOf (r.obj * 2 ^ 40 + r.page * 65536));
      let s := State.reset.setSlice m { Slice.empty with faults := [⟨0, 7, 1⟩] }; ⟨r.ctx, r.obj, r.page⟩ ∈ (s.slice m).faults) ∧
    (let s := State.reset.setLine 0 0 key7 { CLine.none with pending := 1 }; fld (s.line 0 0 key7).pending 0 1 = 1 ∧ fld (s.line 0 0 key7).pending 4 1 = 0 ∧
      State.reset.ops = [] ∧ State.reset.mg.log.obj = 0) := by decide +kernel

/-- A far atomic of lane 0 at the first word of object 7. -/
def atom7 (st : AccSt) (mt : Nat) : Acc := ⟨0, 0, 7 * 2 ^ 40, 0x40000, mt, 4, 5, 0, none, st⟩

/-- A far atomic of lane 0 at the first word of object 7. -/
theorem witness_far_atomics : (let a := atom7 .clear 0; let p := { opOf (.atom .add 8 9 2) with accs := [a], stage := .cleared }; let s := obj7 (flying id p);
      s.ops = [(5, p)] ∧ p.instr.atomOp = some .add ∧ p.accs = [a] ∧ a.st = .clear ∧ a.blk = none ∧ a.mt = 0 ∧ a.size = AtomOp.add.bytes ∧
        s.engineIn a.adr a.size = false ∧ tget [] s.fab.roots (lineOf a.adr) = [] ∧ s.recall a.adr true = none ∧ s.poisonedSector a.adr = false ∧ a.pa + AtomOp.add.bytes ≤ memBytes) := by decide +kernel

/-- Host atomics that PCI Express has and has not, in an object with AFB and in one without; one that was sent. -/
theorem witness_host_atomics : (∀ i ∈ [Instr.atom .add 8 9 2, .atom .xor 8 9 2], let a := atom7 .clear 1; let p := { opOf i with accs := [a] };
      let s := obj7 (flying id p);
      s.ops = [(5, p)] ∧ p.instr.atomOp.isSome ∧ p.accs = [a] ∧ a.st = .clear ∧ tget [] s.link.locks (a.pa / 256) = [] ∧ s.link.hostUp = true ∧
        s.link.fallback.contains (a.pa / 65536) = false ∧ s.afbOf p a = false) ∧
    (aopOf .add = some (0, 4) ∧ aopOf .xor = none) ∧
    (let a := atom7 .sent 1; let p := { opOf (.atom .xor 8 9 2) with accs := [a] };
      let s := obj7 (flying id p); let s := ({ s with mem := mwrite s.mem (0x10000 + 32 * 7) 32 (entry 1 0xFF 0x20000 0x20000 + 2 ^ 216) } : State); s.afbOf p a = true) ∧
    (let a := atom7 .sent 1; let p := { opOf (.atom .add 8 9 2) with accs := [a] }; let s := flying id p;
      let s := ({ s with link := { s.link with out := [.atomicOp 5 0 0x40000 0 4 5 0], locks := [(0x400, [(5, 0)])] } } : State);
      a.st = .sent ∧ tget [] s.link.locks (a.pa / 256) = [(5, a.lane)] ∧ s.sentAtomic 5 a.lane = true ∧ p.instr.isAccess = true) := by decide +kernel

theorem witness_bridge_reads : ∀ mt ∈ [1, 3], let x := { acc7 mt with st := .sent }; let p := { load7 0 with accs := [x] }; let s := flying id p;
    s.ops = [(5, p)] ∧ p.instr = .ld false .w 8 9 2 ∧ p.accs = [x] ∧ x.st = .sent ∧ x.mt = mt := by decide +kernel

/-- A far atomic add of 5 leaves the sum, and 7 is the value it returns (R225). -/
theorem test_far_atomic : (let a := atom7 .clear 0; let p := { opOf (.atom .add 8 9 2) with accs := [a], stage := .cleared }; let s := obj7 (flying id p);
    let t := got (.farAtomic 5 0) { s with mem := mwrite s.mem 0x40000 4 7 }; (mread t.mem 0x40000 4, (t.op 5).accs.map fun a => a.st)) = (12, [.done 7]) := by
  decide +kernel

/-- The first access of a page sets its accessed bit (R409): page 0 of object 7 has it clear. -/
theorem test_accessed_bit : (let s := obj7 (flying id (load7 0)); let t := got (.portCheck 5 key7) { s with mem := mwrite s.mem 0x20000 8 0x40001 };
    mread t.mem 0x20000 8) = 0x40003 := by decide +kernel

end Sys2Proof.Tests
end

section
/-! ## Every step keeps memory in its canonical form

For each function `f` of the model that answers a state there is one lemma `State.canonical.f`: from a state whose memory is in its canonical form,
`f` answers such a state. The proofs follow the model's own text, so that `(s.setGrp g x).push e` is canonical by `h.setGrp.push`. Memory itself
changes only through `mwrite` and `mzero`, where the model's `mwrite_wf` and `mzero_wf` are cited; every other update leaves `s.mem` as it is, which
`State.canonical.frame` says once. -/

namespace Sys2Proof.Machine

open Sys2Proof

/-- What a step answers is a state whose memory is in its canonical form, or no state. -/
def NextCanonical (o : Host.Outcome State Fault Refusal) : Prop :=
  match o with
  | .next t => t.canonical
  | _ => True

/-- Where there is a state, its memory is in its canonical form. -/
def OptCanonical (o : Option State) : Prop :=
  match o with
  | some t => t.canonical
  | none => True

/-- A mailbox command that succeeds leaves memory in its canonical form. -/
def CmdCanonical (c : Cmd) : Prop :=
  match c with
  | .done t _ => t.canonical
  | .fail _ => True

variable {s : State}

theorem State.canonical.ite {c : Prop} [Decidable c] {a b : State} (ha : a.canonical) (hb : b.canonical) :
    (if c then a else b).canonical := by
  split
  · exact ha
  · exact hb

theorem State.canonical.foldl {α : Type} {f : State → α → State} {l : List α} (h : s.canonical)
    (hf : ∀ t x, t.canonical → (f t x).canonical) : (l.foldl f s).canonical :=
  List.foldlRecOn l f h fun t ht x _ => hf t x ht

theorem State.canonical.foldlFst {α β : Type} {f : State × β → α → State × β} {l : List α} {p : State × β} (h : p.1.canonical)
    (hf : ∀ t x, t.1.canonical → (f t x).1.canonical) : (l.foldl f p).1.canonical :=
  List.foldlRecOn (motive := fun p => p.1.canonical) l f h fun t ht x _ => hf t x ht

theorem State.canonical.of_eq {β : Type} {p : State × β} {t : State} {r : β} (h : p.1.canonical) (e : p = (t, r)) : t.canonical := by
  subst e
  exact h

theorem OptCanonical.of_eq {o : Option State} {t : State} (h : OptCanonical o) (e : o = some t) : t.canonical := by
  subst e
  exact h

theorem OptCanonical.getD {o : Option State} (h : OptCanonical o) (hs : s.canonical) : (o.getD s).canonical := by
  cases o with
  | none => exact hs
  | some t => exact h

theorem OptCanonical.map {α : Type} {o : Option α} {f : α → State} (hf : ∀ x, (f x).canonical) : OptCanonical (o.map f) := by
  cases o with
  | none => trivial
  | some x => exact hf x

theorem NextCanonical.of_eq {o : Host.Outcome State Fault Refusal} {t : State} (h : NextCanonical o) (e : o = .next t) : t.canonical := by
  subst e
  exact h

/-- A state's other fields have no part in its memory's form. It is stated of `State.mk`, so that matching a record update against it evaluates no
field. -/
theorem State.canonical.frame {agenda sched cur turn stuck free tick groups blocks courses launches ops nextOp seqWait cores ctxs le slices fab link
    mg cnt}
    (h : s.canonical) :
    (State.mk agenda sched cur turn stuck free tick s.mem groups blocks courses launches ops nextOp seqWait cores ctxs le slices fab link mg
      cnt).canonical :=
  h

theorem CmdCanonical.of_eq {c : Cmd} {t : State} {out : List (Nat × Nat × Nat)} (h : CmdCanonical c) (e : c = .done t out) : t.canonical := by
  subst e
  exact h

theorem NextCanonical.ite {c : Prop} [Decidable c] {a b : Host.Outcome State Fault Refusal} (ha : NextCanonical a) (hb : NextCanonical b) :
    NextCanonical (if c then a else b) := by
  split
  · exact ha
  · exact hb

theorem OptCanonical.mapState {o : Option State} {f : State → State} (h : OptCanonical o) (hf : ∀ t, t.canonical → (f t).canonical) :
    OptCanonical (o.map f) := by
  cases o with
  | none => trivial
  | some t => exact hf t h

theorem CmdCanonical.ite {c : Prop} [Decidable c] {a b : Cmd} (ha : CmdCanonical a) (hb : CmdCanonical b) :
    CmdCanonical (if c then a else b) := by
  split
  · exact ha
  · exact hb

/-! ### Ops -/

theorem State.canonical.setGrp {g : Nat} {x : Group} (h : s.canonical) : (s.setGrp g x).canonical :=
  h

theorem State.canonical.setBlk {b : Nat} {x : Block} (h : s.canonical) : (s.setBlk b x).canonical :=
  h

theorem State.canonical.setCrs {c : Nat} {x : Course} (h : s.canonical) : (s.setCrs c x).canonical :=
  h

theorem State.canonical.setLch {l : Nat} {x : Launch} (h : s.canonical) : (s.setLch l x).canonical :=
  h

theorem State.canonical.setCore {c : Nat} {x : Core} (h : s.canonical) : (s.setCore c x).canonical :=
  h

theorem State.canonical.setCtx {c : Nat} {x : Ctx} (h : s.canonical) : (s.setCtx c x).canonical :=
  h

theorem State.canonical.setSlice {m : Nat} {x : Slice} (h : s.canonical) : (s.setSlice m x).canonical :=
  h

theorem State.canonical.push {i : Event} (h : s.canonical) : (s.push i).canonical :=
  h

theorem State.canonical.pushNew {e : Event} (h : s.canonical) : (s.pushNew e).canonical :=
  h.ite h.push

theorem State.canonical.count {b i k n : Nat} (h : s.canonical) : (s.count b i k n).canonical :=
  h

theorem State.canonical.setOp {o : Nat} {x : Op} (h : s.canonical) : (s.setOp o x).canonical :=
  h

theorem State.canonical.delOp {o : Nat} (h : s.canonical) : (s.delOp o).canonical :=
  h

theorem State.canonical.draw (h : s.canonical) : (s.draw).canonical :=
  h

theorem State.canonical.dropParked {g : Nat} (h : s.canonical) : (s.dropParked g).canonical := by
  unfold State.dropParked
  split
  · exact h.delOp
  · exact h

theorem State.canonical.withdraw {g : Nat} (h : s.canonical) : (s.withdraw g).canonical :=
  h.frame.foldl fun _ _ ht => ht.delOp

theorem State.canonical.dropIdle {g : Nat} (h : s.canonical) : (s.dropIdle g).canonical := by
  unfold State.dropIdle
  refine (h.foldl (fun _ _ ht => ht.delOp)).foldl fun _ _ ht => ?_
  split
  · exact ht.push
  · exact ht

theorem State.canonical.stopGroup {g : Nat} (h : s.canonical) : (s.stopGroup g).canonical :=
  h.dropParked.withdraw.dropIdle.setGrp.push

theorem State.canonical.unhandled {g : Nat} {t : Trap} {pc : Nat} (h : s.canonical) : (s.unhandled g t pc).canonical :=
  (h.setLch.ite h).stopGroup.foldl fun _ _ ht => ht.stopGroup.ite ht

theorem State.canonical.takeTrap {g : Nat} {t : Trap} {pc : Nat} {c : Clause} {deferred : Bool} (h : s.canonical) :
    (s.takeTrap g t pc c deferred).canonical :=
  h.count.unhandled.ite h.count.setGrp

theorem State.canonical.trapHere {g : Nat} {t : Trap} (h : s.canonical) : (s.trapHere g t).canonical :=
  h.takeTrap

theorem State.canonical.deferTrap {g : Nat} {t : Trap} (h : s.canonical) : (s.deferTrap g t).canonical := by
  dsimp only [State.deferTrap]
  split
  · exact h
  · exact h.count.unhandled.ite h
  · exact h.setGrp

theorem State.canonical.trapOpen {g cause : Nat} (h : s.canonical) : (s.trapOpen g cause).canonical :=
  h.trapHere

theorem State.canonical.groupEnd {g : Nat} (h : s.canonical) : (s.groupEnd g).canonical := by
  dsimp only [State.groupEnd]
  split
  · exact h.dropIdle.setGrp.push
  · exact h.dropIdle.setGrp.push.count.unhandled

/-! ### Issue -/

theorem State.canonical.issueChecked {pre : Group → Option Nat} {i : Instr} {body : Nat → Group → State} (h : s.canonical)
    (hb : ∀ n g, (body n g).canonical) : NextCanonical (issueChecked pre i s body) := by
  unfold Machine.issueChecked
  split
  · exact trivial
  · split
    · split
      · exact h.trapHere
      · exact hb _ _
    · exact trivial

theorem State.canonical.issueWord {i : Instr} {body : Nat → Group → State} (h : s.canonical) (hb : ∀ n g, (body n g).canonical) :
    NextCanonical (issueWord i s body) :=
  h.issueChecked fun _ _ => hb _ _

theorem State.canonical.groupWord {i : Instr} {f : Group → Group} (h : s.canonical) : NextCanonical (groupWord i s f) :=
  h.issueWord fun _ _ => h.setGrp

theorem State.canonical.issueOp {g : Nat} {o : Op} (h : s.canonical) : (s.issueOp g o).canonical :=
  h

theorem State.canonical.wakeFlag {g : Nat} (h : s.canonical) : (s.wakeFlag g).canonical := by
  unfold State.wakeFlag
  split
  · exact h.push.ite h
  · exact h

theorem State.canonical.endOp {o : Nat} (h : s.canonical) : (s.endOp o).canonical := by
  dsimp only [State.endOp]
  split
  · exact h.setGrp.delOp.wakeFlag.push
  · exact h.setGrp.delOp.wakeFlag.push
  · exact h.setGrp.delOp.wakeFlag

theorem State.canonical.stopWaiting {g : Nat} (h : s.canonical) : (s.stopWaiting g).canonical :=
  h.stopGroup.ite h

theorem State.canonical.enterWait {g : Nat} {on : WaitOn} (h : s.canonical) : (s.enterWait g on).canonical :=
  h.setGrp.count.stopWaiting

/-! ### Cache -/

theorem State.canonical.setPort {p : Nat} {x : Port} (h : s.canonical) : (s.setPort p x).canonical :=
  h

theorem State.canonical.linkSend {p : Nat} {m : LinkMsg} (h : s.canonical) : (s.linkSend p m).canonical :=
  h.ite h.setPort

theorem State.canonical.setLine {core a l : Nat} {x : CLine} (h : s.canonical) : (s.setLine core a l x).canonical :=
  h.setCore

theorem State.canonical.useLine {core a l : Nat} (h : s.canonical) : (s.useLine core a l).canonical :=
  h.setCore.setLine

theorem State.canonical.sendRD {core a l sector tag : Nat} (h : s.canonical) : (s.sendRD core a l sector tag).canonical :=
  h.ite (h.setLine.ite h.setLine.push)

theorem State.canonical.sendWanted {core a l sector : Nat} {x : CLine} (h : s.canonical) : (s.sendWanted core a l sector x).canonical :=
  h.ite h.setLine.sendRD

theorem State.canonical.sendXREQ {core a l tag : Nat} (h : s.canonical) : (s.sendXREQ core a l tag).canonical :=
  h.ite h.setLine.push

theorem State.canonical.sendSlab {core a l pa ctx tag : Nat} {excl hint : Bool} (h : s.canonical) :
    OptCanonical (s.sendSlab core a l pa ctx tag excl hint) :=
  OptCanonical.map fun _ => h.ite h.setLine.push

theorem State.canonical.noteFill {core agent adr pa mt ctx pol : Nat} {hint : Bool} (h : s.canonical) :
    (s.noteFill core agent adr pa mt ctx pol hint).canonical :=
  h.setLine

theorem State.canonical.dropLine {core a l tag by_ : Nat} (h : s.canonical) : (s.dropLine core a l tag by_).canonical :=
  h.setLine.push.ite h.setLine.push

theorem State.canonical.fillL1 {core l : Nat} {x : CLine} {tag : Nat} (h : s.canonical) : (s.fillL1 core l x tag).canonical := by
  unfold State.fillL1
  refine State.canonical.useLine (State.canonical.setLine ?_)
  split
  · exact h.dropLine
  · exact h

theorem State.canonical.fillL2 {l sector : Nat} {stream dirty : Bool} {by_ : Nat} (h : s.canonical) :
    (s.fillL2 l sector stream dirty by_).canonical :=
  h.setSlice

theorem State.canonical.allocL2 {a n : Nat} {stream : Bool} {by_ : Nat} (h : s.canonical) : (s.allocL2 a n stream by_).canonical :=
  h.ite (h.foldl (fun _ _ ht => ht.fillL2))

theorem State.canonical.touch {a n : Nat} (h : s.canonical) : (s.touch a n).canonical := by
  unfold State.touch
  refine h.foldl fun _ _ ht => ?_
  refine ht.foldl fun _ _ hu => ?_
  split
  · exact hu.push.ite hu
  · exact hu

theorem State.canonical.tearLine {l : Nat} (h : s.canonical) : (s.tearLine l).canonical := by
  unfold State.tearLine
  extract_lets d watched filled _ cleared rerun _ _ t
  have hf : filled.canonical := h.foldl fun _ _ ht => ht.fillL2.ite ht
  have hc : cleared.canonical := hf.foldl fun _ _ ht => ht.foldl fun _ _ hu => hu.ite hu.setLine
  have hr : rerun.canonical := hc.foldl fun _ _ ht => ht.push
  have ht : t.canonical := hr.frame.foldl fun _ _ hu => hu.push
  exact ht.touch.ite ht

theorem State.canonical.tearRange {a n : Nat} (h : s.canonical) : (s.tearRange a n).canonical :=
  h.foldl fun _ _ ht => ht.tearLine

theorem State.canonical.dropL2 {a n : Nat} (h : s.canonical) : (s.dropL2 a n).canonical :=
  h

theorem State.canonical.pcie {m : PcieMsg} (h : s.canonical) : (s.pcie m).canonical :=
  h

/-! ### Port -/

theorem State.canonical.touchScr {b a n : Nat} (h : s.canonical) : (s.touchScr b a n).canonical := by
  unfold State.touchScr
  refine h.foldl fun _ _ ht => ?_
  refine ht.foldl fun _ _ hu => ?_
  split
  · exact hu.push.ite hu
  · exact hu.push.ite hu
  · exact hu

/-- The one write of bytes by physical address. -/
theorem State.canonical.pwrite {a n v : Nat} (h : s.canonical) : (s.pwrite a n v).canonical := by
  unfold State.pwrite
  split
  · exact mwrite_wf n s.mem a v h
  · exact h.frame

theorem State.canonical.cleanSectors {a n : Nat} (h : s.canonical) : (s.cleanSectors a n).canonical :=
  h

theorem State.canonical.dropPages {ctx n page : Nat} (h : s.canonical) : (s.dropPages ctx n page).canonical :=
  h

theorem State.canonical.portObj {m ctx n : Nat} (h : s.canonical) : (s.portObj m ctx n).1.canonical := by
  dsimp only [State.portObj]
  split
  · exact h
  · split
    · exact h.setSlice
    · exact h

theorem State.canonical.portPage {m ctx n page pmap : Nat} (h : s.canonical) : (s.portPage m ctx n page pmap).1.canonical := by
  dsimp only [State.portPage]
  split
  · exact h
  · split
    · exact h.count.setSlice
    · exact h.count

theorem State.canonical.homeWant {a n : Nat} {write : Bool} (h : s.canonical) : (s.homeWant a n write).canonical :=
  h.ite h.frame

/-- A page table entry is eight bytes of memory. -/
theorem State.canonical.putEntry {ctx a e : Nat} (h : s.canonical) : (s.putEntry ctx a e).canonical := by
  unfold State.putEntry
  extract_lets t
  have ht : t.canonical := mwrite_wf 8 s.mem a e h
  split
  · exact ht.homeWant.tearLine.touch
  · exact ht

theorem State.canonical.zeroHost {pfn : Nat} (h : s.canonical) : (s.zeroHost pfn).canonical :=
  h.foldl fun _ _ ht => ht.pcie

theorem State.canonical.zeroFrame {adr mt pfn : Nat} (h : s.canonical) : (s.zeroFrame adr mt pfn).canonical := by
  unfold State.zeroFrame
  split
  · exact State.canonical.cleanSectors (mzero_wf s.mem (65536 * pfn) 65536 h)
  · exact h.zeroHost
  · exact h

theorem State.canonical.dropPage {m ctx n page : Nat} (h : s.canonical) : (s.dropPage m ctx n page).canonical :=
  h.setSlice

theorem State.canonical.hpol {m e : Nat} {o : ObjRaw} (h : s.canonical) : (s.hpol m e o).canonical :=
  h.count.ite h

theorem State.canonical.frameThere {mt pfn : Nat} (h : s.canonical) : (s.frameThere mt pfn).canonical :=
  h.frame.ite h

theorem State.canonical.portHead {ctx adr : Nat} {gen : Option Nat} (h : s.canonical) : (s.portHead ctx adr gen).1.canonical := by
  dsimp only [State.portHead]
  split
  · exact h
  · split
    · exact h.portObj
    · split <;> exact h.portObj

/-- The port tries again after it drops a cached page that its entry in memory no longer gives: by induction on the tries left. -/
theorem State.canonical.portTry {ctx adr : Nat} {gen : Option Nat} {k : PKind} {fuel : Nat} (h : s.canonical) :
    (s.portTry ctx adr gen k fuel).1.canonical := by
  induction fuel generalizing s with
  | zero => exact h
  | succ fuel ih =>
    unfold State.portTry
    extract_lets m n off
    split
    · next e => exact h.portHead.of_eq e
    · rename_i e
      have ht := h.portHead.of_eq e
      split
      · split
        · exact ht.hpol
        · exact ht
      · split
        next u e' hp =>
        have hu : u.canonical := ht.portPage.of_eq hp
        split
        · exact hu
        split
        · exact hu
        split
        · exact hu
        extract_lets pfn pa v peer needA needD dead a w e₁ w₁ w₂ x w₃
        have hv : v.canonical := hu.hpol.frameThere
        split
        · exact hv
        split
        · split
          · exact ih hv.count.dropPage
          · exact (hv.count.zeroFrame.ite hv.count).putEntry.dropPage.setSlice
        · exact hv

theorem State.canonical.portCheck {ctx adr : Nat} {gen : Option Nat} {k : PKind} (h : s.canonical) : (s.portCheck ctx adr gen k).1.canonical :=
  h.portTry

theorem State.canonical.noteWrite {ctx adr : Nat} (h : s.canonical) : (s.noteWrite ctx adr).canonical :=
  h.ite h.portCheck

theorem State.canonical.noteRead {ctx adr : Nat} (h : s.canonical) : (s.noteRead ctx adr).canonical :=
  h.portCheck.homeWant

theorem State.canonical.owrite {ctx obj off n v : Nat} (h : s.canonical) : (s.owrite ctx obj off n v).canonical := by
  -- `owrite`'s own equation lemma makes the kernel evaluate the port check too deep; its definition unfolded as a whole does not.
  rw [show @State.owrite = delta% @State.owrite from rfl]
  beta_reduce
  extract_lets a
  split
  · next e => exact (h.portCheck.of_eq e).homeWant.tearRange.pwrite.cleanSectors.allocL2.touch
  · next e => exact h.portCheck.of_eq e

theorem State.canonical.logPut {l : ErrLog} {i bits : Nat} (h : s.canonical) : (s.logPut l i bits).canonical :=
  h.portCheck.homeWant.tearRange.pwrite.cleanSectors.allocL2.touch

theorem State.canonical.logErr {srck srci cls code adr ctx : Nat} {ctx2 : Option Nat} {detail : Nat} (h : s.canonical) :
    (s.logErr srck srci cls code adr ctx ctx2 detail).canonical :=
  (h.frame.ite h.frame.count).ite (h.logPut.frame.ite h.frame.count)

theorem State.canonical.poisonBack {l dirty ctx evict : Nat} (h : s.canonical) : (s.poisonBack l dirty ctx evict).canonical :=
  h.setSlice.count.logErr.ite (h.setSlice.count.logErr.ite h.setSlice.count.setSlice.logErr)

theorem State.canonical.dwrite {mt adr pa n v : Nat} (h : s.canonical) : (s.dwrite mt adr pa n v).canonical :=
  (h.frame.ite h.pwrite.cleanSectors).touch

/-! ### Bar -/

theorem State.canonical.swrite {b a n v : Nat} (h : s.canonical) : (s.swrite b a n v).canonical :=
  h.setBlk.touchScr

theorem State.canonical.setBar {b off : Nat} {x : Bar} (h : s.canonical) : (s.setBar b off x).canonical :=
  h.setBlk.swrite

theorem State.canonical.wakeBar {b off : Nat} (h : s.canonical) : (s.wakeBar b off).canonical :=
  h.foldl fun _ _ ht => ht.push

theorem State.canonical.barComplete {b off : Nat} (h : s.canonical) : (s.barComplete b off).canonical :=
  h.setBar.count.wakeBar

theorem State.canonical.barCheck {b off : Nat} (h : s.canonical) : (s.barCheck b off).canonical :=
  (h.setBar.push.ite h.barComplete).ite h

theorem State.canonical.holdBar {b : Nat} {hb : HeldBar} (h : s.canonical) : (s.holdBar b hb).canonical :=
  h.setBlk.count

theorem State.canonical.barApply {b off da db : Nat} {op : Option Nat} (h : s.canonical) : (s.barApply b off da db op).canonical :=
  h.ite (h.holdBar.ite h.setBar.barCheck)

theorem State.canonical.barInit {b off arr byt : Nat} {win : Bool} (h : s.canonical) : (s.barInit b off arr byt win).canonical :=
  h.ite (h.holdBar.ite (h.setBar.barCheck.ite h.setBar))

theorem State.canonical.barCourse {b off : Nat} (h : s.canonical) : (s.barCourse b off).canonical :=
  h.ite h.setBar

theorem State.canonical.barRelease {b off : Nat} (h : s.canonical) : (s.barRelease b off).canonical :=
  h.setBlk.foldl fun _ _ ht => ht.barInit.ite ht.barApply

theorem State.canonical.breakBar {b off : Nat} (h : s.canonical) : (s.breakBar b off).canonical :=
  h.ite h.setBar.count.wakeBar

/-! ### Access -/

theorem State.canonical.noAcquire {o : Nat} (h : s.canonical) : (s.noAcquire o).canonical :=
  h

theorem State.canonical.accWrite {a : Acc} {v : Nat} (h : s.canonical) : (s.accWrite a v).canonical := by
  unfold State.accWrite
  split
  · exact h.swrite
  · exact h.pcie.ite h.dwrite

theorem State.canonical.dirtyLine {core : Nat} {a : Acc} (h : s.canonical) : (s.dirtyLine core a).canonical :=
  (h.noteWrite.ite h).setLine.ite h

theorem State.canonical.sendHome {core l ctx tag d home : Nat} (h : s.canonical) : (s.sendHome core l ctx tag d home).canonical :=
  (h.foldl (fun _ _ ht => ht.foldl (fun _ _ hu => hu.ite hu.setLine))).push

theorem State.canonical.storeLane {core ctx : Nat} {hint : Bool} {a : Acc} (h : s.canonical) : (s.storeLane core ctx hint a).canonical :=
  h.homeWant.tearLine.accWrite.fillL2.ite (h.accWrite.sendHome.ite h.accWrite.dirtyLine)

theorem State.canonical.coverSectors {as : List Acc} (h : s.canonical) : (s.coverSectors as).canonical :=
  h.foldl fun _ _ ht => ht.ite (ht.cleanSectors.ite ht)

theorem State.canonical.hostStore {as : List Acc} (h : s.canonical) : (s.hostStore as).canonical :=
  h.foldl fun _ _ ht => ht.pcie

theorem State.canonical.performStore {core ctx : Nat} {hint : Bool} {as : List Acc} (h : s.canonical) : (s.performStore core ctx hint as).canonical :=
  ((h.foldl (fun _ _ ht => ht.storeLane)).ite (h.foldl (fun _ _ ht => ht.storeLane)).hostStore).coverSectors

theorem State.canonical.performAtom {core : Nat} {f : AtomOp} {a : Acc} (h : s.canonical) : (s.performAtom core f a).1.canonical :=
  h.accWrite.dirtyLine

theorem State.canonical.writeBack {o : Nat} {as : List Acc} (h : s.canonical) : (s.writeBack o as).canonical :=
  h.setGrp

theorem State.canonical.performReady {o : Nat} (h : s.canonical) : (s.performReady o).canonical := by
  dsimp only [State.performReady]
  split
  · refine State.canonical.setOp (h.foldlFst (fun _ _ ht => ?_))
    split
    · exact ht.performAtom
    · exact ht
  · exact h.performStore.setOp.ite h.setOp

theorem State.canonical.completeOp {o : Nat} (h : s.canonical) : (s.completeOp o).canonical := by
  dsimp only [State.completeOp]
  split
  · exact h.endOp.setGrp.ite h.endOp
  · exact h.endOp.setGrp.ite h.endOp
  · exact h.endOp

theorem State.canonical.reportOp {o : Nat} (h : s.canonical) : (s.reportOp o).canonical :=
  h.ite h.push

theorem State.canonical.recheck {o : Nat} {pick : Acc → Bool} (h : s.canonical) : (s.recheck o pick).canonical :=
  h.setOp.foldl fun _ _ ht => ht.push

theorem State.canonical.performDiscard {o : Nat} (h : s.canonical) : (s.performDiscard o).canonical :=
  ((h.foldl (fun _ _ ht => ht.ite ht.tearRange.dropL2.putEntry.dropPages.touch)).foldl (fun _ _ ht => ht.recheck.ite ht)).completeOp

theorem State.canonical.settleFence {o : Nat} {p : Op} (h : s.canonical) : (s.settleFence o p).canonical := by
  unfold State.settleFence
  split
  · exact h.setOp.ite h
  · exact h
  · exact h.ite h.endOp
  · exact h.endOp.ite h
  · exact h

theorem State.canonical.setHostAt {line : Nat} {q : List (Nat × Nat)} (h : s.canonical) : (s.setHostAt line q).canonical :=
  h

theorem State.canonical.queueHost {o k line : Nat} (h : s.canonical) : (s.queueHost o k line).canonical :=
  h.ite h.setHostAt

theorem State.canonical.hostPass {o k line : Nat} (h : s.canonical) : (s.hostPass o k line).canonical := by
  unfold State.hostPass
  split
  · exact h.setHostAt.ite h
  · exact h

theorem State.canonical.storeTurn {o : Nat} {as : List Acc} (h : s.canonical) : (s.storeTurn o as).1.canonical := by
  dsimp only [State.storeTurn]
  split
  · exact h
  · exact h.foldl fun _ _ ht => ht.queueHost

theorem State.canonical.storePassed {o : Nat} {as : List Acc} (h : s.canonical) : (s.storePassed o as).canonical :=
  h.foldl fun _ _ ht => ht.hostPass

theorem State.canonical.discardYounger {g o : Nat} (h : s.canonical) : (s.discardYounger g o).canonical :=
  h.foldl fun _ _ ht => ht.endOp

theorem State.canonical.trapOp {o : Nat} {t : Trap} (h : s.canonical) : (s.trapOp o t).canonical := by
  dsimp only [State.trapOp]
  split
  · exact h.discardYounger.endOp
  · exact h.discardYounger.endOp
  · exact h.discardYounger.endOp.takeTrap

theorem State.canonical.overUnlessHeld {o b : Nat} {fin : State → State} (h : s.canonical) (hf : ∀ t, t.canonical → (fin t).canonical) :
    (s.overUnlessHeld o b fin).canonical :=
  h.setOp.ite (hf _ h)

theorem State.canonical.barPeer {o : Nat} {p : Op} {k : Nat} (h : s.canonical) : OptCanonical (s.barPeer o p k) := by
  unfold State.barPeer
  split
  · exact h.trapOp
  · exact trivial

theorem State.canonical.settleBar {o : Nat} {p : Op} (h : s.canonical) : (s.settleBar o p).canonical :=
  h.barPeer.getD (h.barApply.overUnlessHeld (fun _ ht => ht.completeOp))

theorem State.canonical.settleInit {o : Nat} {p : Op} (h : s.canonical) : (s.settleInit o p).canonical :=
  h.barPeer.getD h.barInit.completeOp

theorem State.canonical.settleTry {o : Nat} {p : Op} {strict : Bool} (h : s.canonical) : (s.settleTry o p strict).canonical :=
  h.barPeer.getD (h.trapOp.ite (h.ite h.noAcquire).setGrp.completeOp)

theorem State.canonical.reown {o : Nat} (h : s.canonical) : (s.reown o).canonical :=
  h.setOp.foldl fun _ _ ht => (ht.sendSlab.getD ht).ite ht.noteWrite.sendXREQ.noteFill

theorem State.canonical.settleStore {o : Nat} {p : Op} (h : s.canonical) : (s.settleStore o p).canonical := by
  unfold State.settleStore
  split
  · split
    · next e => exact (h.storeTurn.of_eq e).performReady.completeOp.storePassed
    · next e => exact (h.storeTurn.of_eq e).pushNew
  · exact h

theorem State.canonical.settleOp {o : Nat} (h : s.canonical) : (s.settleOp o).canonical := by
  unfold State.settleOp
  split
  · exact h
  · split
    · exact h.settleFence
    · split
      · split
        · exact h.reown
        · split
          · exact h.pushNew
          · split
            · exact h.settleStore
            · split
              · exact h.performReady.push.ite h.performReady
              · split
                · exact h.settleBar
                · exact h.settleInit
                · exact h.settleTry
                · exact h.pushNew.ite h.performDiscard
                · exact h
      · exact h

theorem State.canonical.settle {n : Nat} (h : s.canonical) : (s.settle n).canonical := by
  induction n generalizing s with
  | zero => exact h
  | succ n ih => exact ih (h.foldl fun _ _ h => h.settleOp)

theorem State.canonical.deferLost {g : Nat} {as : List Acc} (h : s.canonical) : (s.deferLost g as).canonical := by
  unfold State.deferLost
  split
  · exact h
  · exact (h.foldl (fun _ _ ht => ht.count)).deferTrap

theorem State.canonical.performPassed {o : Nat} {keep : Acc → Bool} (h : s.canonical) : (s.performPassed o keep).canonical :=
  h.setOp.performReady.writeBack.storePassed

theorem State.canonical.resolveOp {o : Nat} (h : s.canonical) : (s.resolveOp o).canonical := by
  unfold State.resolveOp
  extract_lets p accs t fs pages
  have ht : t.canonical := h.setOp
  split
  · exact ht
  split
  · split
    · exact ht
    split
    · exact ht.push
    split
    · exact ht.reown
    split
    · next e => exact (ht.storeTurn.of_eq e).push
    next e =>
    have hu := ht.storeTurn.of_eq e
    split
    · exact hu.performPassed.trapOp.deferLost
    dsimp only
    split
    · exact hu.performPassed.discardYounger.setOp.count.endOp
    · exact hu.performPassed.discardYounger.setOp.count.endOp
    · exact hu.performPassed.discardYounger.setOp.count.setGrp.deferLost.stopWaiting
  · exact ht.setOp.push.ite (ht.setOp.push.ite ht.setOp.settle)

/-! ### Engine -/

theorem State.canonical.setTent {router : Nat} {slab : Bool} {key : Nat} {x : TEntry} (h : s.canonical) : (s.setTent router slab key x).canonical :=
  h

theorem State.canonical.invCopies {l : Nat} {spare : Nat × Nat → Bool} (h : s.canonical) : (s.invCopies l spare).canonical :=
  (h.foldl (fun _ _ ht => ht.setLine)).touch

theorem State.canonical.shareLine {l : Nat} (h : s.canonical) : (s.shareLine l).canonical := by
  dsimp only [State.shareLine]
  refine h.foldl fun _ _ ht => ?_
  split
  · exact ht.setLine
  · exact ht.setLine
  · exact ht

theorem State.canonical.endExport {p slab : Nat} (h : s.canonical) : (s.endExport p slab).canonical :=
  h.setTent.foldl fun _ _ ht => ht.ite ht.dropLine

theorem State.canonical.putRoot {p slab : Nat} {e : TEntry} (h : s.canonical) : (s.putRoot p slab e).canonical :=
  h.endExport.ite h.setTent

theorem State.canonical.askHolders {p slab : Nat} {who : Nat → Bool} {down : Bool} (h : s.canonical) :
    (s.askHolders p slab who down).canonical := by
  unfold State.askHolders
  refine State.canonical.putRoot (h.foldlFst (fun _ _ ht => ?_))
  split
  · exact ht.linkSend
  · exact ht

theorem State.canonical.recall {adr : Nat} {write : Bool} (h : s.canonical) : OptCanonical (s.recall adr write) := by
  dsimp only [State.recall]
  split
  · exact trivial
  · split
    · exact h
    · split
      · exact h.askHolders
      · split
        · exact h.askHolders
        · exact trivial

theorem State.canonical.askPeer {o ctx pa adr : Nat} {excl : Bool} (h : s.canonical) : OptCanonical (s.askPeer o ctx pa adr excl) := by
  unfold State.askPeer
  split
  · exact trivial
  · exact h.linkSend

theorem State.canonical.wakeEntry {ctx adr : Nat} (h : s.canonical) : (s.wakeEntry ctx adr).1.canonical := by
  dsimp only [State.wakeEntry]
  split
  · exact h.portPage.count.dropPage
  · exact h.portPage.count.putEntry.dropPages

theorem State.canonical.zeroPeer {ctx pa adr : Nat} (h : s.canonical) : (s.zeroPeer ctx pa adr).canonical := by
  dsimp only [State.zeroPeer]
  refine State.canonical.frame (h.foldl (fun _ _ ht => ?_))
  split
  · exact ht.invCopies.linkSend
  · exact ht.invCopies

theorem State.canonical.wakePeer {ctx pa adr : Nat} (h : s.canonical) : (s.wakePeer ctx pa adr).1.canonical := by
  unfold State.wakePeer
  split
  · next e => exact (h.wakeEntry.of_eq e).zeroPeer
  · next e => exact h.wakeEntry.of_eq e

theorem State.canonical.ask {o ctx mt pa adr n : Nat} {excl : Bool} (h : s.canonical) : (s.ask o ctx mt pa adr n excl).1.canonical := by
  dsimp only [State.ask]
  split
  · split
    · next e => exact h.setOp.askPeer.of_eq e
    · exact h
  · split
    · exact h.setOp.pcie
    · exact h

theorem State.canonical.takeLine {o adr : Nat} (h : s.canonical) : OptCanonical (s.takeLine o adr) := by
  unfold State.takeLine
  extract_lets p core l t
  have ht : t.canonical := h.ite h.setOp
  split
  · trivial
  split
  · trivial
  · exact ht.sendXREQ

theorem State.canonical.raise {o k : Nat} (h : s.canonical) : (s.raise o k).canonical :=
  h.setOp

theorem State.canonical.joinLine {o ctx adr pa pol : Nat} (h : s.canonical) : OptCanonical (s.joinLine o ctx adr pa pol) := by
  dsimp only [State.joinLine]
  split
  · exact trivial
  · split
    · exact trivial
    · exact h.raise.sendRD.noteFill

theorem State.canonical.freeLines {core k : Nat} (h : s.canonical) : (s.freeLines core k).canonical :=
  h.foldl fun _ _ ht => ht.dropLine

theorem State.canonical.lineFailed {o l c : Nat} {t : State} (h : s.canonical) (e : s.lineFailed o l = some (t, c)) : t.canonical := by
  unfold State.lineFailed at e
  split at e
  · cases e
    exact h.setOp
  · cases e

theorem State.canonical.askLine {o ctx pa adr : Nat} {excl : Bool} (h : s.canonical) : (s.askLine o ctx pa adr excl).1.canonical := by
  unfold State.askLine
  extract_lets p
  split
  · next e => exact h.lineFailed e
  · split
    · next e => exact (h.sendSlab.of_eq e).raise
    · exact h

theorem State.canonical.engRead {o ctx adr n : Nat} {gen : Option Nat} (h : s.canonical) : (s.engRead o ctx adr n gen).1.canonical := by
  unfold State.engRead
  split
  · next e => exact h.portCheck.of_eq e
  · next e => exact h.portCheck.of_eq e
  · rename_i t pa mt dead pol _ e
    have ht : t.canonical := h.portCheck.of_eq e
    have hr : OptCanonical (if (t.op o).instr.agent.isNone then t.recall adr false else none) := by
      split
      · exact ht.recall
      · trivial
    split
    · exact ht
    split
    · exact ht
    split
    · split
      · exact ht
      split
      · next e => exact ht.joinLine.of_eq e
      · next e => exact (hr.of_eq e).push
      · exact ht
    split
    · exact ht
    split
    · exact ht
    split
    · exact ht.askLine
    split
    · split
      · exact ht.ask.hostPass
      · exact ht.queueHost.push
    · exact ht.ask

theorem State.canonical.takePeer {o ctx pa adr : Nat} (h : s.canonical) : (s.takePeer o ctx pa adr).1.canonical := by
  unfold State.takePeer
  extract_lets p l t
  have ht : t.canonical := h.ite h.setOp
  split
  · exact ht
  · exact ht.askLine

theorem State.canonical.ownSlab {o ctx pa adr : Nat} (h : s.canonical) : (s.ownSlab o ctx pa adr).1.canonical := by
  unfold State.ownSlab
  split
  · split
    · exact h.setOp.ask
    · exact h
  · exact h.ask

theorem State.canonical.engOwn {o ctx adr : Nat} {gen : Option Nat} (h : s.canonical) : (s.engOwn o ctx adr gen).1.canonical := by
  unfold State.engOwn
  split
  · exact h.push
  split
  · next e => exact h.portCheck.of_eq e
  · next e => exact h.portCheck.of_eq e
  · next e =>
    have ht := h.portCheck.of_eq e
    split
    · exact ht
    split
    · extract_lets
      split
      · split
        · exact ht.ownSlab
        · split
          · next e => exact (ht.wakePeer.of_eq e).takePeer
          · next e => exact (ht.wakePeer.of_eq e).push
      · exact ht.takePeer
    split
    · split
      · next e => exact ht.takeLine.of_eq e
      · exact ht
    · split <;> exact ht

theorem State.canonical.takeLines {o a n gen : Nat} (h : s.canonical) : (s.takeLines o a n gen).canonical := by
  dsimp only [State.takeLines]
  refine h.foldl fun _ _ ht => ?_
  split
  · exact ht.takeLine.getD ht
  · exact ht.ite ht.takePeer
  · exact ht

theorem State.canonical.engPut {own : Option (Nat × Nat)} {ctx adr n v : Nat} (h : s.canonical) : (s.engPut own ctx adr n v).canonical := by
  dsimp only [State.engPut]
  split
  · rename_i e
    split
    · exact (h.portCheck.of_eq e).pcie
    · split
      · split
        · exact (h.portCheck.of_eq e).setLine.dwrite
        · exact ((h.portCheck.of_eq e).homeWant.tearLine.allocL2.ite (h.portCheck.of_eq e).sendHome).dwrite
      · exact ((h.portCheck.of_eq e).homeWant.tearLine.allocL2.ite (h.portCheck.of_eq e).sendHome).dwrite
  · next e => exact h.portCheck.of_eq e

theorem State.canonical.engReads {o ctx : Nat} {gen : Option Nat} {ps : List (Nat × Nat)} (h : s.canonical) :
    (s.engReads o ctx gen ps).1.canonical := by
  unfold State.engReads
  refine h.foldlFst fun _ _ ht => ?_
  split
  · exact ht.engRead
  · exact ht

theorem State.canonical.engOwns {o ctx : Nat} {gen : Option Nat} {ps : List (Nat × Nat)} (h : s.canonical) :
    (s.engOwns o ctx gen ps).1.canonical := by
  dsimp only [State.engOwns]
  split
  · refine h.foldlFst fun _ _ ht => ?_
    split
    · exact ht.engOwn
    · exact ht
  · refine State.canonical.push (State.canonical.foldl (h.foldlFst (fun _ _ ht => ?_)) (fun _ _ ht => ht.queueHost))
    split
    · exact ht.engOwn
    · exact ht

theorem State.canonical.engPuts {own : Option (Nat × Nat)} {ctx a : Nat} {bs : List Nat} (h : s.canonical) : (s.engPuts own ctx a bs).canonical :=
  (h.foldl (fun _ _ ht => ht.engPut)).cleanSectors

theorem State.canonical.reportPage {g adr access : Nat} (h : s.canonical) : (s.reportPage g adr access).canonical :=
  h.push

theorem State.canonical.unqueue {o : Nat} {next : Nat → Event} (h : s.canonical) : (s.unqueue o next).canonical := by
  unfold State.unqueue
  extract_lets core c heads cut t t₁ t₂ u
  have h₁ : t₁.canonical := h.setCore.freeLines.ite h.setCore
  have h₂ : t₂.canonical := h₁.freeLines.ite h₁
  have hu : u.canonical := by
    refine h₂.foldl fun _ _ ht => ?_
    split
    · exact ht.push
    · exact ht
  split
  · exact hu.push.ite hu
  · exact hu

theorem State.canonical.engFail {o : Nat} {t : Trap} {next : Nat → Event} (h : s.canonical) : (s.engFail o t next).canonical :=
  h.unqueue.completeOp.deferTrap

theorem State.canonical.engSettled {r : State × EngAll} {g : Nat} (h : r.1.canonical) : (Machine.settled r g).1.canonical := by
  unfold Machine.settled
  split
  · split <;> exact h
  · exact h

theorem State.canonical.engPage {o adr access : Nat} {next : Nat → Event} (h : s.canonical) : (s.engPage o adr access next).canonical :=
  h.setOp.reportPage.ite h.engFail

/-! ### Lane -/

theorem State.canonical.laneEnd {n : Nat} {g' : Group} {rs : List PReg} (h : s.canonical) : (s.laneEnd n g' rs).canonical :=
  h.setGrp.push

theorem State.canonical.laneWrite {i : Instr} {d : RF} {k : Nat} {v : Group → Nat → Nat → Word} (h : s.canonical) :
    NextCanonical (laneWrite i s d k v) :=
  h.issueWord fun _ _ => h.laneEnd

theorem State.canonical.lane1 {i : Instr} {d a : RF} {f : Word → Word} (h : s.canonical) : NextCanonical (lane1 i s d a f) :=
  h.laneWrite

theorem State.canonical.lane2 {i : Instr} {d a b : RF} {f : Word → Word → Word} (h : s.canonical) : NextCanonical (lane2 i s d a b f) :=
  h.laneWrite

theorem State.canonical.lane3 {i : Instr} {d a b : RF} {f : Word → Word → Word → Word} (h : s.canonical) : NextCanonical (lane3 i s d a b f) :=
  h.laneWrite

theorem State.canonical.lanePred {i : Instr} {p : Fin 8} {t : Group → Nat → Bool} (h : s.canonical) : NextCanonical (lanePred i s p t) :=
  h.issueWord fun _ _ => h.laneEnd

theorem State.canonical.laneWide {i : Instr} {d : RF} {v : Group → Nat → Nat} (h : s.canonical) : NextCanonical (laneWide i s d v) :=
  h.laneWrite

theorem State.canonical.lanePacked {i : Instr} {d a b : RF} {f : FltFmt → Nat → Nat → Nat → Nat} (h : s.canonical) :
    NextCanonical (lanePacked i s d a b f) :=
  h.issueWord fun _ _ => h.laneEnd.ite h.trapHere

theorem State.canonical.laneConvert {i : Instr} {d : RF} {ok : Word → Bool} {v : Block → Group → Nat → Nat} (h : s.canonical) :
    NextCanonical (laneConvert i s d ok v) :=
  h.issueWord fun _ _ => h.laneEnd.ite h.trapHere

theorem State.canonical.laneExchange {i : Instr} {d a : RF} {srcLane : Group → Nat → Nat} (h : s.canonical) :
    NextCanonical (laneExchange i s d a srcLane) :=
  h.laneWrite

theorem State.canonical.laneReduce {i : Instr} {d a : RF} {f : List Word → Word} (h : s.canonical) : NextCanonical (laneReduce i s d a f) :=
  h.laneWrite

theorem State.canonical.execMovxr {d a b : RF} (h : s.canonical) : NextCanonical (execMovxr d a b s) := by
  unfold Machine.execMovxr
  refine h.issueWord fun _ _ => ?_
  split
  · exact h.trapHere
  · exact h.laneEnd

theorem State.canonical.execMovxw {d a b : RF} (h : s.canonical) : NextCanonical (execMovxw d a b s) := by
  unfold Machine.execMovxw
  refine h.issueWord fun _ _ => ?_
  split
  · exact h.trapHere
  · exact h.laneEnd

theorem State.canonical.execFixedLatencyComplete {g tok : Nat} (h : s.canonical) : NextCanonical (execFixedLatencyComplete g tok s) :=
  h.setGrp

/-! ### Fetch -/

theorem State.canonical.fetchWords {g o pc n : Nat} (h : s.canonical) : (s.fetchWords g o pc n).1.canonical := by
  dsimp only [State.fetchWords]
  split
  · exact h
  · split
    · exact h
    · split
      · next e => exact h.engReads.of_eq e
      · next e => exact h.engReads.of_eq e
      · next e => exact h.engReads.of_eq e
      · next e => exact h.engReads.of_eq e

theorem State.canonical.withFetchOp {g : Nat} (h : s.canonical) : (s.withFetchOp g).1.canonical := by
  unfold State.withFetchOp
  split
  · exact h
  · exact h.frame

theorem State.canonical.fetchTrap {g pc : Nat} {t : Trap} (h : s.canonical) : (s.fetchTrap g pc t).canonical :=
  h.takeTrap

theorem State.canonical.fetched {g pc hb : Nat} {ws : List Nat} (h : s.canonical) : (s.fetched g pc hb ws).canonical := by
  unfold State.fetched
  split
  · exact h.fetchTrap
  · split
    · exact h.fetchTrap
    · exact h.setGrp

theorem State.canonical.fetchClause {g pc : Nat} (h : s.canonical) : (s.fetchClause g pc).canonical := by
  have hpark : ∀ {t : State} {o a pg tr}, t.canonical →
      (if t.replays g then ((t.delOp o).setGrp g { t.grp g with phase := .parkedFetch pc pg }).reportPage g a 0
        else (t.delOp o).fetchTrap g pc tr).canonical :=
    fun ht => ht.delOp.setGrp.reportPage.ite ht.delOp.fetchTrap
  dsimp only [State.fetchClause]
  split
  · next e => exact (h.withFetchOp.fetchWords.of_eq e).delOp.fetchTrap
  · next e => exact hpark (h.withFetchOp.fetchWords.of_eq e)
  · next e => exact h.withFetchOp.fetchWords.of_eq e
  · next e =>
    have ht := h.withFetchOp.fetchWords.of_eq e
    split
    · next e => exact (ht.fetchWords.of_eq e).delOp.fetchTrap
    · next e => exact hpark (ht.fetchWords.of_eq e)
    · next e => exact ht.fetchWords.of_eq e
    · next e => exact (ht.fetchWords.of_eq e).delOp.fetched

theorem State.canonical.execClauseFetch {g : Nat} (h : s.canonical) : NextCanonical (execClauseFetch g s) := by
  unfold Machine.execClauseFetch
  split
  · split
    · exact h.stopGroup
    · exact h.fetchClause
  · exact h

theorem State.canonical.execClauseAccept {g : Nat} (h : s.canonical) : NextCanonical (execClauseAccept g s) := by
  dsimp only [Machine.execClauseAccept]
  split
  · exact h
  · split
    · split
      · exact h.stopGroup
      · exact h.setGrp
    · exact h.setGrp
    · exact h

theorem State.canonical.execDeferredTrap {g : Nat} (h : s.canonical) : NextCanonical (execDeferredTrap g s) := by
  dsimp only [Machine.execDeferredTrap]
  split
  · exact h.setGrp.takeTrap
  · exact h

theorem State.canonical.execGroupAged {g : Nat} (h : s.canonical) : NextCanonical (execGroupAged g s) := by
  dsimp only [Machine.execGroupAged]
  split
  · exact h.setGrp
  · exact h

theorem State.canonical.startSwap {inn : Nat} {out : Option Nat} (h : s.canonical) : (s.startSwap inn out).canonical := by
  unfold State.startSwap
  refine State.canonical.push (State.canonical.count ?_)
  split
  · exact h.setGrp.setGrp
  · exact h.setGrp

theorem State.canonical.execPendingAgeSwap {g : Nat} (h : s.canonical) : NextCanonical (execPendingAgeSwap g s) := by
  dsimp only [Machine.execPendingAgeSwap]
  split
  · exact h.startSwap
  · exact h

theorem State.canonical.execSwap {inn : Nat} {out : Option Nat} (h : s.canonical) : NextCanonical (execSwap inn out s) := by
  unfold Machine.execSwap
  extract_lets ok
  split
  · exact h.startSwap
  · exact h

theorem State.canonical.execSwapDone {inn : Nat} {out : Option Nat} (h : s.canonical) : NextCanonical (execSwapDone inn out s) := by
  dsimp only [Machine.execSwapDone]
  split
  · split
    · exact h.setGrp
    · exact h
  · split
    · exact h.setGrp
    · exact h
  · refine State.canonical.setGrp ?_
    split
    · exact h.setGrp
    · exact h

theorem State.canonical.execWaitEventWake {g : Nat} (h : s.canonical) : NextCanonical (execWaitEventWake g s) := by
  dsimp only [Machine.execWaitEventWake]
  split
  · split
    · exact h.setGrp
    · exact h
  · split
    · exact h
    · exact h.setGrp

/-! ### LoadStore -/

theorem State.canonical.sendChecks {o : Nat} {as : List Acc} (h : s.canonical) : (s.sendChecks o as).canonical :=
  (h.foldl (fun _ _ ht => ht.push)).push.ite (h.foldl (fun _ _ ht => ht.push))

theorem State.canonical.countBanks {g : Nat} {i : Instr} {as : List Acc} (h : s.canonical) : (s.countBanks g i as).canonical :=
  h.count.ite h

theorem State.canonical.issueAccess {g : Nat} {x : Group} {i : Instr} {dest : List PReg} {c : Cap} {as : List Acc} (h : s.canonical) :
    (s.issueAccess g x i dest c as).canonical := by
  unfold State.issueAccess
  split
  · exact h.setGrp
  extract_lets as fs o src p t u
  have hu : u.canonical := h.countBanks.issueOp.foldl fun _ _ h => h.useLine.ite h
  split
  · exact h.trapHere
  split
  · exact hu.push.ite hu.settle
  · exact hu.sendChecks

theorem State.canonical.loadOp {i : Instr} {z : LSize} {d : RF} {c : Cap} {acc : Nat → Group → Nat → Acc} (h : s.canonical) :
    NextCanonical (loadOp i s z d c acc) :=
  h.issueWord fun _ _ => h.issueAccess

theorem State.canonical.storeOp {i : Instr} {z : SSize} {d : RF} {c : Cap} {acc : Nat → Group → Nat → Acc} (h : s.canonical) :
    NextCanonical (storeOp i s z d c acc) :=
  h.issueWord fun _ _ => h.issueAccess

theorem State.canonical.atomicOp {i : Instr} {f : AtomOp} {d : RF} {c : Cap} {acc : Nat → Group → Nat → Acc} (h : s.canonical) :
    NextCanonical (atomicOp i f s d c acc) :=
  h.issueWord fun _ _ => h.issueAccess

theorem State.canonical.execFenceScComplete {op : Nat} (h : s.canonical) : NextCanonical (execFenceScComplete op s) := by
  unfold Machine.execFenceScComplete
  split
  · split
    · split
      · split
        · exact h.push
        · exact h.endOp.settle
      · exact h
    · exact h
  · exact h

theorem State.canonical.recallRange {p : Op} (h : s.canonical) : (s.recallRange p).canonical :=
  (h.foldl (fun _ _ ht => ht.foldl (fun _ _ hu => hu.recall.getD hu))).ite h

theorem State.canonical.execFarCheckReport {op : Nat} (h : s.canonical) : NextCanonical (execFarCheckReport op s) := by
  dsimp only [Machine.execFarCheckReport]
  split
  · exact h
  · split
    · exact h.ite h.resolveOp
    · split
      · exact h.push
      · split
        · exact h.recallRange.settle
        · split
          · exact h.push
          · exact h.setOp.resolveOp

theorem State.canonical.later {e : Event} (h : s.canonical) : (s.later e).canonical :=
  h.push

theorem State.canonical.wakeMon {g i : Nat} (h : s.canonical) : (s.wakeMon g i).canonical := by
  unfold State.wakeMon
  split
  · exact h.push.ite h
  · exact h

theorem State.canonical.fireMon {g i v : Nat} (h : s.canonical) : (s.fireMon g i v).canonical :=
  h.setGrp.count.wakeMon

theorem State.canonical.failMon {g i : Nat} {t : Trap} (h : s.canonical) : (s.failMon g i t).canonical :=
  h.setGrp.wakeMon

theorem State.canonical.monRead {o : Nat} {i : Fin 4} (h : s.canonical) : (s.monRead o i).canonical := by
  dsimp only [State.monRead]
  split
  · rename_i e
    split
    · next e₁ => exact h.engRead.of_eq e₁
    · next e₁ => exact (h.engRead.of_eq e₁).endOp.reportPage
    · next e₁ => exact (h.engRead.of_eq e₁).endOp.failMon
    · next e₁ => exact (h.engRead.of_eq e₁).endOp.ite (h.engRead.of_eq e₁).endOp.fireMon
  · exact h.endOp

theorem State.canonical.monitorRead {o : Nat} (h : s.canonical) : (s.monitorRead o).canonical := by
  dsimp only [State.monitorRead]
  split
  · exact h.ite (h.later.ite (h.setGrp.completeOp.ite h.setGrp.completeOp.fireMon).settle)
  · exact h

theorem State.canonical.execLoadDataReturn {op : Nat} (h : s.canonical) : NextCanonical (execLoadDataReturn op s) := by
  unfold Machine.execLoadDataReturn
  split
  · exact h
  · split
    · exact h.monRead
    · exact h.setGrp.completeOp
    · split
      · split
        · exact h.recheck
        · exact h.monitorRead
      · split
        · split
          · exact h.later
          · split
            · exact h.recheck
            · split
              · exact h.performReady.writeBack.completeOp.settle
              · exact h
        · exact h

theorem State.canonical.finishAtomic {op : Nat} (h : s.canonical) : (s.finishAtomic op).canonical :=
  h.writeBack.completeOp.deferLost.settle

theorem State.canonical.execAtomicReturn {op : Nat} (h : s.canonical) : NextCanonical (execAtomicReturn op s) := by
  unfold Machine.execAtomicReturn
  split
  · exact h
  · split
    · exact h.finishAtomic
    · exact h

theorem State.canonical.execAtomicResultLost {op : Nat} (h : s.canonical) : NextCanonical (execAtomicResultLost op s) := by
  unfold Machine.execAtomicResultLost
  split
  · exact h
  · split
    · exact h.setOp.finishAtomic
    · exact h

theorem State.canonical.execCapldEntryReturn {op : Nat} (h : s.canonical) : NextCanonical (execCapldEntryReturn op s) := by
  dsimp only [Machine.execCapldEntryReturn]
  split
  · exact h
  · split
    · split
      · exact h.setGrp.completeOp
      · exact h.trapOp
    · exact h

theorem State.canonical.prefLine {op l : Nat} (h : s.canonical) : (s.prefLine op l).1.canonical := by
  dsimp only [State.prefLine]
  split
  · rename_i e
    split
    · exact h.portCheck.of_eq e
    · split
      · split
        · exact h.portCheck.of_eq e
        · split
          · exact h.portCheck.of_eq e
          · split
            · next e₂ => exact (h.portCheck.of_eq e).ask.of_eq e₂
            · next e₂ => exact (h.portCheck.of_eq e).ask.of_eq e₂
      · exact h.portCheck.of_eq e
  · next e => exact h.portCheck.of_eq e

theorem State.canonical.prefFill {l k : Nat} {stream : Bool} {by_ : Nat} (h : s.canonical) : (s.prefFill l k stream by_).canonical :=
  h.ite h.fillL2

theorem State.canonical.execPrefArrival {op : Nat} (h : s.canonical) : NextCanonical (execPrefArrival op s) := by
  unfold Machine.execPrefArrival
  split
  · exact h
  split
  · extract_lets ls
    split
    next t rs e =>
    have ht : t.canonical := by
      refine State.canonical.of_eq ?_ e
      exact h.foldlFst fun _ _ h => h.prefLine
    split
    · exact ht
    · exact (ht.foldl fun _ _ h => h.prefFill.prefFill.ite h).count.barApply.completeOp
  · exact h

theorem State.canonical.execReclaimComplete {core : Nat} (h : s.canonical) : NextCanonical (execReclaimComplete core s) := by
  dsimp only [Machine.execReclaimComplete]
  split
  · exact h
  · split
    · exact h.later
    · exact (h.foldl (fun _ _ ht => ht.dropLine)).setCore.count.count.foldl fun _ _ ht => ht.push

/-! ### Copy -/

theorem State.canonical.cmdTrap {g : Nat} {e : Nat × Nat × Nat} (h : s.canonical) : (s.cmdTrap g e).canonical :=
  h.trapHere

theorem State.canonical.enqueueCopy {g q : Nat} {p : Op} {bar : Option (Nat × Nat)} (h : s.canonical) : (s.enqueueCopy g q p bar).canonical :=
  h.issueOp.setCore.push.ite h.issueOp.setCore

theorem State.canonical.copyIssue {i : Instr} {fn : CopyFn} {q : Nat} {a : RF} {c e : Option (Fin 16)} (h : s.canonical) :
    NextCanonical (copyIssue i fn q a c e s) := by
  dsimp only [Machine.copyIssue]
  refine h.issueWord fun _ _ => ?_
  split
  · exact h.cmdTrap
  · split
    · exact h.enqueueCopy.takeLines
    · exact h.enqueueCopy

theorem State.canonical.execCpyx {q : Fin 8} {a : RF} {c : Fin 16} (h : s.canonical) : NextCanonical (execCpyx q a c s) := by
  dsimp only [Machine.execCpyx]
  refine h.issueWord fun _ _ => ?_
  split
  · exact h.trapOpen.ite h.cmdTrap
  · exact h.enqueueCopy

theorem State.canonical.readSide {o ctx n : Nat} {x : Side} (h : s.canonical) : (s.readSide o ctx n x).1.canonical := by
  unfold State.readSide
  split
  · exact h
  · exact h.engReads.engSettled

theorem State.canonical.ownSide {o ctx n : Nat} {x : Side} (h : s.canonical) : (s.ownSide o ctx n x).1.canonical := by
  unfold State.ownSide
  split
  · exact h
  · exact h.engOwns.engSettled

theorem State.canonical.writeSide {core ctx : Nat} {x : Side} {bs : List Nat} (h : s.canonical) : (s.writeSide core ctx x bs).canonical := by
  unfold State.writeSide
  split
  · exact h.count.swrite
  · exact h.count.engPuts

theorem State.canonical.copyDone {o k bytes : Nat} (h : s.canonical) : (s.copyDone o k bytes).canonical := by
  dsimp only [State.copyDone]
  split
  · exact h.engFail.ite (h.barApply.overUnlessHeld (fun _ ht => ht.unqueue.completeOp))
  · exact h.unqueue.completeOp

theorem State.canonical.copyFail {o core ctx : Nat} {dst : Side} {bs : List Nat} {t : Trap} (h : s.canonical) :
    (s.copyFail o core ctx dst bs t).canonical :=
  h.writeSide.engFail

theorem State.canonical.runCopy {o : Nat} {fn : CopyFn} (h : s.canonical) : (s.runCopy o fn).canonical := by
  unfold State.runCopy
  extract_lets p g ctx core n
  split
  next src dst _ =>
  extract_lets gone
  split
  · exact h.engFail
  split
  · next e => exact h.readSide.of_eq e
  · next e => exact (h.readSide.of_eq e).engPage
  · next e =>
    have ht := h.readSide.of_eq e
    dsimp only
    split
    · next e => exact (ht.ownSide.of_eq e).copyFail
    · next e => exact (ht.ownSide.of_eq e).copyFail
    · next e => exact (ht.ownSide.of_eq e).engPage
    · next e => exact ht.ownSide.of_eq e
  · next e =>
    have ht := h.readSide.of_eq e
    split
    · next e => exact ht.ownSide.of_eq e
    · next e => exact (ht.ownSide.of_eq e).engPage
    · next e => exact (ht.ownSide.of_eq e).copyFail
    · next e => exact (ht.ownSide.of_eq e).writeSide.copyDone

theorem State.canonical.cpyxWrite {o : Nat} {units : List (Nat × Nat × Nat)} (h : s.canonical) : (s.cpyxWrite o units).canonical :=
  h.count.foldl fun _ _ ht => ht.swrite

theorem State.canonical.runCpyx {o : Nat} (h : s.canonical) : (s.runCpyx o).canonical := by
  unfold State.runCpyx
  extract_lets p b ctx n row idx bad units reads ps sixteens fill
  split
  next t r e =>
  have ht : t.canonical := h.engReads.engSettled.of_eq e
  cases bad with
  | some e => exact h.engFail
  | none =>
  dsimp only
  split
  · exact ht
  · exact ht.engPage
  · exact ht.cpyxWrite.engFail
  · exact ht.cpyxWrite.copyDone

theorem State.canonical.execCopyComplete {op : Nat} (h : s.canonical) : NextCanonical (execCopyComplete op s) := by
  unfold Machine.execCopyComplete
  split
  · exact h
  · split
    · exact h
    · split
      · exact h.later
      · split
        · exact h.runCopy
        · exact h.runCopy
        · exact h.runCopy
        · exact h.runCopy
        · exact h.runCpyx
        · exact h

theorem State.canonical.barOp {i : Instr} {a : RF} {k : Nat} {legal : List Nat → Bool} {gone : State → Nat → Nat × Nat → List Nat → State}
    {act : Nat → Group → List Nat → Nat × Nat → State} (h : s.canonical) (hgone : ∀ t n p l, t.canonical → (gone t n p l).canonical)
    (hact : ∀ n g l p, (act n g l p).canonical) : NextCanonical (barOp i a k legal gone s act) := by
  refine h.issueWord fun n g => ?_
  extract_lets p
  split
  · exact h.trapHere
  split
  · exact h.cmdTrap
  · exact (hgone _ _ _ _ h).ite (hact _ _ _ _)

theorem State.canonical.barRetired {n : Nat} {p : List Nat} (h : s.canonical) : (s.barRetired n p).canonical :=
  h.cmdTrap

theorem State.canonical.execSeamCompletionMessage {blk off : Nat} (h : s.canonical) : NextCanonical (execSeamCompletionMessage blk off s) := by
  dsimp only [Machine.execSeamCompletionMessage]
  split
  · refine State.canonical.push (h.foldl (fun _ _ ht => ?_))
    split
    · exact ht.setGrp
    · exact ht
  · exact h

theorem State.canonical.endHeld {os : List Nat} (h : s.canonical) : (s.endHeld os).canonical := by
  unfold State.endHeld
  refine h.foldl fun _ _ ht => ?_
  split
  · exact (ht.unqueue.ite ht).completeOp
  · exact ht

theorem State.canonical.freeHeld {b off : Nat} (h : s.canonical) : (s.freeHeld b off).canonical :=
  h.barRelease.endHeld

theorem State.canonical.execSeamCompletionAck {blk off : Nat} (h : s.canonical) : NextCanonical (execSeamCompletionAck blk off s) := by
  dsimp only [Machine.execSeamCompletionAck]
  split
  · exact h.setBar.barComplete.freeHeld
  · exact h

theorem State.canonical.execMonarm {i : Fin 4} {a : RF} {f : MemForm} (h : s.canonical) : NextCanonical (execMonarm i a f s) := by
  dsimp only [Machine.execMonarm]
  refine h.issueWord fun _ _ => ?_
  split
  · exact h.trapHere
  · exact h.trapOpen.ite (h.issueOp.monitorRead.ite h.issueOp.sendChecks)

theorem State.canonical.execMonitorReread {g i : Nat} (h : s.canonical) : NextCanonical (execMonitorReread g i s) := by
  dsimp only [Machine.execMonitorReread]
  split
  · exact h
  · split
    · split
      · exact h.later
      · exact h.frame.monRead
    · split
      · exact h.failMon
      · split
        · exact h.failMon
        · split
          · exact h
          · exact h.fireMon
    · exact h

theorem State.canonical.disarm {g i : Nat} (h : s.canonical) : (s.disarm g i).canonical := by
  dsimp only [State.disarm]
  split
  · exact h.setGrp.ite h.setGrp.dropLine
  · exact h.setGrp

theorem State.canonical.execMonwait {d : RF} {i : Fin 4} (h : s.canonical) : NextCanonical (execMonwait d i s) := by
  unfold Machine.execMonwait
  refine h.issueWord fun _ _ => ?_
  split
  · exact h.setGrp
  · exact h.enterWait
  · exact h.disarm.trapHere
  · exact h.disarm.setGrp

/-! ### Matrix -/

theorem State.canonical.accPut {b a : Nat} {bs : List Nat} (h : s.canonical) : (s.accPut b a bs).canonical :=
  h.setBlk

theorem State.canonical.enqueueMat {g : Nat} {p : Op} (h : s.canonical) : (s.enqueueMat g p).canonical :=
  h.issueOp.setCore.push.ite h.issueOp.setCore

theorem State.canonical.execMma {r z t : Bool} {d a b : RF} (h : s.canonical) : NextCanonical (execMma r z t d a b s) := by
  dsimp only [Machine.execMma]
  refine h.issueWord fun _ _ => ?_
  split
  · exact h.cmdTrap
  · exact (h.count.ite h).setGrp.enqueueMat

theorem State.canonical.useTable {p : Op} (h : s.canonical) : (s.useTable p).canonical :=
  h.ite (h.ite h.setCore.count)

theorem State.canonical.matDone {o : Nat} (h : s.canonical) : (s.matDone o).canonical :=
  h.unqueue.completeOp

theorem State.canonical.matFail {o : Nat} {t : Trap} (h : s.canonical) : (s.matFail o t).canonical :=
  h.engFail

theorem State.canonical.runMma {o : Nat} {z t : Bool} (h : s.canonical) : (s.runMma o z t).canonical := by
  dsimp only [State.runMma]
  split
  · exact h.count.matDone
  · split
    · exact h.matFail
    · split
      · exact h.matDone
      · exact (h.useTable.foldl (fun _ _ ht => ht.accPut)).count.matDone

theorem State.canonical.rowIssue {i : Instr} {fn : RowFn} {a : RF} {m : MemForm} (h : s.canonical) : NextCanonical (rowIssue i fn a m s) := by
  dsimp only [Machine.rowIssue]
  refine h.issueWord fun _ _ => ?_
  split
  · exact h.cmdTrap
  · split
    · exact h.enqueueMat.foldl fun _ _ hu => hu.takeLines
    · exact h.enqueueMat.foldl fun _ _ hu => hu.takeLines
    · exact h.enqueueMat

theorem State.canonical.execAccxa {d a : RF} {m : Bool} (h : s.canonical) : NextCanonical (execAccxa d a m s) := by
  dsimp only [Machine.execAccxa]
  refine h.issueWord fun _ _ => ?_
  split
  · exact h.trapHere
  · exact h.enqueueMat

theorem State.canonical.execAccxr {d a : RF} {m : Bool} (h : s.canonical) : NextCanonical (execAccxr d a m s) := by
  unfold Machine.execAccxr
  refine h.issueWord fun _ _ => ?_
  split
  · exact h.trapHere
  · exact h.enqueueMat

theorem State.canonical.runAccxa {o : Nat} {m : Bool} (h : s.canonical) : (s.runAccxa o m).canonical :=
  (h.foldl (fun _ _ ht => ht.accPut.count.count.ite ht.accPut.count)).matDone

theorem State.canonical.runAccxr {o : Nat} {m : Bool} (h : s.canonical) : (s.runAccxr o m).canonical :=
  (h.foldlFst (fun _ _ ht => ht.accPut.ite ht)).setGrp.matDone

theorem State.canonical.runAccz {o : Nat} (h : s.canonical) : (s.runAccz o).canonical :=
  h.setBlk.matDone

theorem State.canonical.runAcccp {o : Nat} (h : s.canonical) : (s.runAcccp o).canonical :=
  h.accPut.count.matDone

theorem State.canonical.putPieces {own : Option (Nat × Nat)} {ctx : Nat} {ps : List (Nat × Nat)} {bs : List Nat} (h : s.canonical) :
    (s.putPieces own ctx ps bs).canonical := by
  induction ps generalizing s bs with
  | nil => exact h
  | cons e ps ih => exact ih h.engPut

theorem State.canonical.runRows {o : Nat} {fn : RowFn} {m : MemForm} (h : s.canonical) : (s.runRows o fn m).canonical := by
  unfold State.runRows
  extract_lets p b core ctx rb k first ps out t u
  split
  · split
    · split
      · next e => exact h.engReads.engSettled.of_eq e
      · next e => exact (h.engReads.engSettled.of_eq e).engPage
      · next e => exact (h.engReads.engSettled.of_eq e).accPut.count.matFail
      · next e => exact (h.engReads.engSettled.of_eq e).accPut.count.matDone
    · split
      · next e => exact h.engOwns.engSettled.of_eq e
      · next e => exact (h.engOwns.engSettled.of_eq e).engPage
      · next e => exact (h.engOwns.engSettled.of_eq e).putPieces.count.matFail
      · next e => exact (h.engOwns.engSettled.of_eq e).putPieces.count.matDone
  · have hu : u.canonical := by
      unfold u
      split
      · exact h.accPut
      · exact h.foldl fun _ _ h => h.swrite
    split
    · exact h.matFail
    · exact hu.count.matDone

theorem State.canonical.runCbld {o slot : Nat} (h : s.canonical) : (s.runCbld o slot).canonical := by
  -- as for `owrite`
  rw [show @State.runCbld = delta% @State.runCbld from rfl]
  beta_reduce
  extract_lets p b ps
  split
  · next e => exact h.engReads.engSettled.of_eq e
  · next e => exact (h.engReads.engSettled.of_eq e).engPage
  · next e => exact (h.engReads.engSettled.of_eq e).matFail
  · next e => exact (h.engReads.engSettled.of_eq e).setBlk.matDone

theorem State.canonical.execLdsb {n : Fin 16} {d a : RF} {c : Fin 16} (h : s.canonical) : NextCanonical (execLdsb n d a c s) := by
  dsimp only [Machine.execLdsb]
  refine h.issueWord fun _ _ => ?_
  split
  · exact h.cmdTrap
  · split
    · exact h.trapHere
    · exact h.enqueueMat

theorem State.canonical.ldsbLane {o L bytes : Nat} (h : s.canonical) : (s.ldsbLane o L bytes).1.canonical := by
  unfold State.ldsbLane
  extract_lets p ps
  split
  · exact h
  · exact h.engReads.engSettled

theorem State.canonical.runLdsb {o nb : Nat} (h : s.canonical) : (s.runLdsb o nb).canonical := by
  unfold State.runLdsb
  extract_lets p
  split
  next sz _ =>
  split
  next t rs e =>
  have ht : t.canonical := by
    refine State.canonical.of_eq ?_ e
    exact h.foldlFst fun _ _ h => h.ldsbLane
  extract_lets mine
  split
  · exact ht.engPage
  split
  · exact ht
  · exact ht.setGrp.matDone.ite ht.setGrp.matFail

theorem State.canonical.execMatrixCommandComplete {op : Nat} (h : s.canonical) : NextCanonical (execMatrixCommandComplete op s) := by
  unfold Machine.execMatrixCommandComplete
  split
  · exact h
  · split
    · exact h
    · split
      · exact h.later
      · split
        · exact h.runMma
        · exact h.runAccz
        · exact h.runAcccp
        · exact h.runRows
        · exact h.runRows
        · exact h.runRows
        · exact h.runAccxa
        · exact h.runAccxr
        · exact h.runCbld
        · exact h.runLdsb
        · exact h

/-! ### Bricks -/

theorem State.canonical.hwrite {ctx obj off n v : Nat} (h : s.canonical) : (s.hwrite ctx obj off n v).canonical :=
  h.owrite

theorem State.canonical.irqNote {c hb : Nat} (h : s.canonical) : (s.irqNote c hb).canonical :=
  h

theorem State.canonical.seqPut {c hb : Nat} {q : SeqD} (h : s.canonical) : (s.seqPut c hb q).canonical :=
  (h.irqNote.ite h).hwrite

theorem State.canonical.flPut {c f : Nat} {x : FreeL} (h : s.canonical) : (s.flPut c f x).canonical :=
  h.hwrite

theorem State.canonical.brPut {c pool b : Nat} {x : Brick} (h : s.canonical) : (s.brPut c pool b x).canonical :=
  h.hwrite

theorem State.canonical.flTake {c f : Nat} (h : s.canonical) : (s.flTake c f).1.canonical :=
  h.flPut.brPut

theorem State.canonical.lookAgain {o : Nat} (h : s.canonical) : (s.lookAgain o).canonical :=
  h.push

theorem State.canonical.seqAgain {c : Nat} (h : s.canonical) : (s.seqAgain c).canonical :=
  h.foldl fun _ _ ht => ht.lookAgain

theorem State.canonical.flGive {c f b : Nat} (h : s.canonical) : (s.flGive c f b).canonical :=
  h.brPut.flPut.seqAgain

theorem State.canonical.setEntry {c n i e : Nat} (h : s.canonical) : (s.setEntry c n i e).canonical :=
  h.hwrite

theorem State.canonical.newNode {c : Nat} (h : s.canonical) : (s.newNode c).1.canonical :=
  h.flTake.hwrite

theorem State.canonical.growMap {c n : Nat} {q : SeqD} (h : s.canonical) : (s.growMap c q n).1.canonical := by
  induction n generalizing s q with
  | zero => exact h
  | succ n ih => exact ih h.newNode.setEntry

theorem State.canonical.descend {c n k j : Nat} (h : s.canonical) : (s.descend c n k j).1.canonical := by
  induction j using Nat.twoStepInduction generalizing s n with
  | zero => exact h
  | one => exact h
  | more j _ ih =>
    unfold State.descend
    extract_lets i e
    split
    · exact ih h
    · exact ih h.newNode.setEntry

theorem State.canonical.mapEnter {c : Nat} {q : SeqD} {x : Held} (h : s.canonical) : (s.mapEnter c q x).1.canonical := by
  unfold State.mapEnter
  refine State.canonical.setEntry (State.canonical.descend ?_)
  split
  · exact h.newNode
  · exact h.growMap

theorem State.canonical.dropFrom {c n k j : Nat} (h : s.canonical) : (s.dropFrom c n k j).1.canonical := by
  induction j generalizing s n with
  | zero => exact h
  | succ j ih =>
    unfold State.dropFrom
    extract_lets i e t
    split
    · exact h
    split
    · exact h.setEntry
    split
    · next e => exact ((ih h).of_eq e).setEntry.flGive
    · next e => exact (ih h).of_eq e

theorem State.canonical.mapDrop {c : Nat} {q : SeqD} {k : Nat} (h : s.canonical) : (s.mapDrop c q k).1.canonical := by
  unfold State.mapDrop
  split
  · next e => exact (h.dropFrom.of_eq e).flGive
  · next e => exact h.dropFrom.of_eq e

theorem State.canonical.freeNodes {c n j : Nat} (h : s.canonical) : (s.freeNodes c n j).canonical := by
  induction j generalizing s n with
  | zero => exact h
  | succ j ih => exact (h.foldl fun _ _ h => (ih h).ite h).flGive

theorem State.canonical.place {c hb : Nat} {q : SeqD} {x : Nat} (h : s.canonical) : (s.place c hb q x).1.canonical := by
  unfold State.place
  extract_lets y p t
  have ht : t.canonical := by
    unfold t
    split
    · exact h.brPut
    · exact h
  split
  next u q' e =>
  have hu : u.canonical := by
    split at e
    · exact ht.flTake.mapEnter.of_eq e
    · exact State.canonical.of_eq ht e
  exact (hu.logErr.count.ite hu).brPut

theorem State.canonical.places {c hb : Nat} {q : SeqD} {xs : List Nat} (h : s.canonical) : (s.places c hb q xs).1.canonical :=
  h.foldlFst fun _ _ ht => ht.place

theorem State.canonical.reserveAll {c hb : Nat} {xs : List Nat} (h : s.canonical) : (s.reserveAll c hb xs).1.canonical := by
  dsimp only [State.reserveAll]
  split
  · exact h
  · split
    · exact h
    · split
      · exact h
      · split
        · exact h
        · exact h.places.seqPut

theorem State.canonical.brickRelease {c hb : Nat} {q : SeqD} {b : Nat} (h : s.canonical) : (s.brickRelease c hb q b).canonical :=
  h.brPut.flGive.count.ite h.brPut

theorem State.canonical.advanceWindow {c hb : Nat} {q : SeqD} (h : s.canonical) : (s.advanceWindow c hb q).1.canonical := by
  unfold State.advanceWindow
  refine h.foldlFst fun _ _ ht => ?_
  split
  · exact ht.mapDrop.brickRelease
  · exact ht

theorem State.canonical.queueWork {c hb : Nat} (h : s.canonical) : (s.queueWork c hb).canonical :=
  h.frame.foldl fun _ _ ht => ht.push

theorem State.canonical.commitAt {c hb p m : Nat} (h : s.canonical) : (s.commitAt c hb p m).canonical := by
  unfold State.commitAt
  extract_lets q t r
  have ht : t.canonical := by
    refine h.foldl fun _ _ hu => ?_
    split
    · exact hu.brPut
    · exact hu
  exact ht.advanceWindow.seqPut.seqAgain.queueWork.ite ht.advanceWindow.seqPut.seqAgain

theorem State.canonical.hstore {ctx obj off : Nat} {bs : List Nat} (h : s.canonical) : (s.hstore ctx obj off bs).canonical :=
  h.foldl fun _ _ ht => ht.hwrite

theorem State.canonical.appendRec {c hb o : Nat} {bs : List Nat} (h : s.canonical) : (s.appendRec c hb o bs).1.canonical := by
  unfold State.appendRec
  split
  · exact h
  split
  · next e => exact (h.reserveAll.of_eq e).hstore.commitAt.count
  · exact h.reserveAll

theorem State.canonical.seqNew {c hb w wlen : Nat} {obj : Option Nat} (h : s.canonical) : (s.seqNew c hb w wlen obj).1.canonical := by
  dsimp only [State.seqNew]
  split
  · exact h
  · split
    · exact h
    · split
      · exact h
      · split
        · exact h
        · split
          · exact h
          · exact h.seqPut

theorem State.canonical.seqRelease {c hb : Nat} (h : s.canonical) : (s.seqRelease c hb).canonical := by
  unfold State.seqRelease
  extract_lets q t u v ws
  have ht : t.canonical := h.foldl fun _ _ ht => ht.brickRelease
  have hv : v.canonical := (ht.ite ht.freeNodes).hwrite
  exact hv.frame.foldl fun _ _ hu => hu.lookAgain.ite hu.completeOp.deferTrap.push

/-! ### Sequence -/

theorem State.canonical.seqIssue {i : Instr} {a : RF} {n : Nat} {legal priv : List Nat → Bool} {die : Nat → Nat} {mk : Group → Op → Op}
    (h : s.canonical) : NextCanonical (seqIssue i a n legal priv die s mk) :=
  h.issueWord fun _ _ => h.trapHere.ite (h.trapHere.ite (h.trapHere.ite h.issueOp.push))

theorem State.canonical.handleIssue {i : Instr} {a : RF} {n : Nat} {legal : List Nat → Bool} {mk : Group → Op → Op} (h : s.canonical) :
    NextCanonical (handleIssue i a n legal s mk) :=
  h.seqIssue

theorem State.canonical.listIssue {i : Instr} {a : RF} {n : Nat} {mk : Group → Op → Op} (h : s.canonical) :
    NextCanonical (listIssue i a n s mk) :=
  h.seqIssue

theorem State.canonical.seqPark {c hb o : Nat} (h : s.canonical) : (s.seqPark c hb o).canonical :=
  h.ite h.frame.count

theorem State.canonical.seqLeave {o : Nat} (h : s.canonical) : (s.seqLeave o).canonical :=
  h

theorem State.canonical.seqEnd {o : Nat} (h : s.canonical) : (s.seqEnd o).canonical :=
  h.seqLeave.completeOp.settle.push.ite h.seqLeave.completeOp.settle

theorem State.canonical.seqOver {o : Nat} (h : s.canonical) : (s.seqOver o).canonical :=
  h.count.seqEnd

theorem State.canonical.seqDone {o : Nat} {vs : List Word} (h : s.canonical) : (s.seqDone o vs).canonical :=
  h.setGrp.seqOver

theorem State.canonical.seqTrap {o cause : Nat} {v hi : Word} (h : s.canonical) : (s.seqTrap o cause v hi).canonical :=
  h.seqEnd.deferTrap.ite h.trapOp

theorem State.canonical.sound {o : Nat} {as : List Nat} {t : State} (h : s.canonical) (ht : t.canonical) : (s.sound o as t).canonical := by
  unfold State.sound
  split
  · exact h.seqTrap
  · exact ht

theorem State.canonical.runReserve {o c hb : Nat} {xs : List Nat} {answer : State → SeqD → Option (List Placed) → State} (h : s.canonical)
    (ha : ∀ t q r, t.canonical → (answer t q r).canonical) : (s.runReserve o c hb xs answer).canonical := by
  unfold State.runReserve
  extract_lets p q base out ps bad park
  have hbad : ∀ x, (bad x).canonical := fun x => h.seqTrap
  have hpark : ∀ u, (park u).canonical := by
    intro u
    unfold park
    split
    · exact h
    split
    · exact hbad _
    · exact h.sound h.seqPark
  split
  · exact h.sound (ha _ _ _ h)
  · split
    · exact h
    split
    · exact hbad _
    · exact h.seqTrap
  · exact hpark ()
  · next t ps e =>
    split
    · exact hpark ()
    split
    · exact hbad _
    · exact h.sound (ha _ _ _ (h.reserveAll.of_eq e)).seqAgain

theorem State.canonical.runSqres {o c hb : Nat} (h : s.canonical) : (s.runSqres o c hb).canonical := by
  unfold State.runSqres
  refine h.runReserve fun _ _ _ ht => ?_
  split <;> exact ht.seqDone

theorem State.canonical.runSqapp {o c hb : Nat} (h : s.canonical) : (s.runSqapp o c hb).canonical :=
  h.runReserve fun _ _ _ ht => ht.setGrp.seqOver

theorem State.canonical.runSqcom {o c hb : Nat} (h : s.canonical) : (s.runSqcom o c hb).canonical :=
  h.seqTrap.ite (h.sound h.commitAt.seqDone)

theorem State.canonical.runSqmap {o c hb : Nat} (h : s.canonical) : (s.runSqmap o c hb).canonical :=
  (h.sound h.setGrp.seqOver).ite h.setGrp.trapOp

theorem State.canonical.hcopy {c pool dst src n : Nat} (h : s.canonical) : (s.hcopy c pool dst src n).canonical :=
  h.foldl fun _ _ ht => ht.hwrite

theorem State.canonical.fork {c hb n L : Nat} {sh : List (Held × Brick)} {cut : Option (Held × Brick)} (h : s.canonical) :
    (s.fork c hb n L sh cut).canonical := by
  have hp := h.foldl (l := sh) (f := fun t e => t.brPut c (s.seqGet c hb).pool e.1.brk { e.2 with ref := e.2.ref + 1 }) fun _ _ ht => ht.brPut
  have hm := fun x : SeqD => State.canonical.foldlFst (l := sh) (f := fun r e => r.1.mapEnter c r.2 e.1) (p := (_, x)) hp fun _ _ ht => ht.mapEnter
  unfold State.fork
  split
  · exact (hm _).seqPut.count
  · exact (hm _).flTake.brPut.hcopy.mapEnter.seqPut.count.count

theorem State.canonical.runSqfork {o c hb : Nat} (h : s.canonical) : (s.runSqfork o c hb).canonical := by
  dsimp only [State.runSqfork]
  split
  · exact h.seqTrap
  · split
    · exact h.seqTrap
    · split
      · exact h.sound h.seqDone
      · split
        · exact h.sound h.seqDone
        · split
          · exact h.seqTrap
          · exact h.seqTrap.ite (h.seqTrap.ite (h.sound h.fork.seqDone))

theorem State.canonical.runSqtake {o c hb : Nat} (h : s.canonical) : (s.runSqtake o c hb).canonical :=
  h.seqTrap.ite ((h.sound h.seqPut.seqDone).ite (h.ite (h.sound h.seqPark)))

theorem State.canonical.runHandle {o c hb : Nat} (h : s.canonical) : (s.runHandle o c hb).canonical := by
  dsimp only [State.runHandle]
  split
  · exact h.runSqres
  · exact h.runSqapp
  · exact h.runSqcom
  · exact h.sound h.seqDone
  · exact h.sound h.seqDone
  · exact h.sound h.seqDone
  · exact h.runSqmap
  · exact h.runSqfork
  · exact h.seqTrap.ite (h.sound h.seqRelease.seqDone)
  · exact h.sound h.advanceWindow.seqPut.seqAgain.seqDone
  · exact h.runSqtake
  · exact h.sound h.seqPut.seqAgain.seqDone
  · exact h

theorem State.canonical.runSqnew {o c hb : Nat} (h : s.canonical) : (s.runSqnew o c hb).canonical := by
  dsimp only [State.runSqnew]
  split
  · next e => exact h.sound (h.seqNew.of_eq e).seqDone
  · next e => exact (h.seqNew.of_eq e).seqTrap

theorem State.canonical.runList {o c f : Nat} (h : s.canonical) : (s.runList o c f).canonical := by
  dsimp only [State.runList]
  split
  · exact h.seqTrap
  · split
    · exact h.seqTrap
    · split
      · exact (h.sound h.seqDone).ite (h.seqTrap.ite (h.sound h.flTake.seqDone))
      · exact h.seqTrap.ite (h.seqTrap.ite (h.sound h.flGive.seqDone))
      · exact h.sound h.seqDone

theorem State.canonical.noteReads {c : Nat} {as : List Nat} (h : s.canonical) : (s.noteReads c as).canonical :=
  h.foldl fun _ _ ht => ht.noteRead

theorem State.canonical.runSeq {o : Nat} (h : s.canonical) : (s.runSeq o).canonical := by
  dsimp only [State.runSeq]
  split
  · exact h.later
  · split
    · exact h.noteReads.runList
    · exact h.noteReads.runList
    · exact h.noteReads.runList
    · exact h.noteReads.runSqnew
    · exact h.seqTrap.ite (h.seqTrap.ite h.noteReads.runHandle)

/-! ### Merge -/

theorem State.canonical.enqueueMerge {k : Nat} {p : Op} (h : s.canonical) : (s.enqueueMerge k p).canonical :=
  h.issueOp.setCore.push.ite h.issueOp.setCore

theorem State.canonical.mergeIssue {i : Instr} {a : RF} {n : Nat} {dest : Group → List PReg} {plan : List Nat → Option (List Reg × List Reg)}
    (h : s.canonical) : NextCanonical (mergeIssue i a n dest plan s) := by
  dsimp only [Machine.mergeIssue]
  refine h.issueWord fun _ _ => ?_
  split
  · exact h.trapHere
  · split
    · exact h.cmdTrap
    · exact h.enqueueMerge

theorem State.canonical.execMgsplit {a : RF} (h : s.canonical) : NextCanonical (execMgsplit a s) := by
  dsimp only [Machine.execMgsplit]
  refine h.issueWord fun _ _ => ?_
  split
  · exact h.trapHere
  · split
    · exact h.cmdTrap
    · exact h.enqueueMerge

theorem State.canonical.stackIssue {i : Instr} {a : RF} {dest : Group → List PReg} (h : s.canonical) : NextCanonical (stackIssue i a dest s) := by
  dsimp only [Machine.stackIssue]
  refine h.issueWord fun _ _ => ?_
  split
  · exact h.cmdTrap
  · exact h.enqueueMerge

theorem State.canonical.mergeDone {o : Nat} (h : s.canonical) : (s.mergeDone o).canonical :=
  h.unqueue.completeOp.count

theorem State.canonical.mergeAnswer {o v : Nat} (h : s.canonical) : (s.mergeAnswer o v).canonical :=
  h.setGrp.mergeDone

theorem State.canonical.mergeFail {o cause v hi : Nat} (h : s.canonical) : (s.mergeFail o cause v hi).canonical :=
  h.engFail.count

theorem State.canonical.runMatch {o : Nat} (h : s.canonical) : (s.runMatch o).canonical := by
  dsimp only [State.runMatch]
  split
  · split
    · exact h.mergeFail
    · exact (h.foldl (fun _ _ ht => ht.swrite)).mergeAnswer
  · exact h.mergeDone

theorem State.canonical.putRow {b : Nat} {t : State} {x : Toks} {sizes out : Nat} {g : List Nat} {sigma : Nat} (h : s.canonical) :
    (s.putRow b t x sizes out g sigma).canonical :=
  h.foldl fun _ _ h => h.swrite

theorem State.canonical.doMerge {t : State} {o b n pr : Nat} {k v : Toks} (h : t.canonical) : (t.doMerge o b n pr k v).canonical := by
  unfold State.doMerge
  extract_lets p core hf tab sb depth gen bidx hon sv U m rows body r₁ r₂ r₃ r₄
  have hr : rows.canonical := h.foldl fun _ _ ht => ht.putRow.putRow.swrite.setBlk.count.ite ht.putRow.putRow.swrite
  have hs : r₂.canonical := hr.swrite.foldl fun _ _ ht => ht.swrite
  exact hs.swrite.swrite.swrite.count.mergeAnswer

theorem State.canonical.runMerge {o : Nat} (h : s.canonical) : (s.runMerge o).canonical := by
  dsimp only [State.runMerge]
  split
  · split
    · exact h.mergeFail
    · split
      · exact h.count.mergeAnswer
      · split
        · exact h.mergeFail
        · exact h.doMerge
  · exact h.mergeDone

theorem State.canonical.runSplit {o : Nat} (h : s.canonical) : (s.runSplit o).canonical := by
  dsimp only [State.runSplit]
  split
  · exact h.mergeDone
  · split
    · exact h.mergeFail
    · split
      · exact h.mergeFail
      · split
        · exact (h.ite h.swrite.count).mergeFail
        · split
          · exact h.mergeFail
          · split
            · exact h.mergeFail
            · exact (h.foldl (fun _ _ ht => ht.swrite)).mergeDone

theorem State.canonical.runBias {o : Nat} (h : s.canonical) : (s.runBias o).canonical := by
  dsimp only [State.runBias]
  split
  · exact h.mergeFail
  · exact (h.foldl (fun _ _ ht => ht.swrite)).mergeDone

theorem State.canonical.runPop {o : Nat} (h : s.canonical) : (s.runPop o).canonical :=
  h.mergeFail.ite (h.mergeFail.ite h.swrite.mergeDone)

theorem State.canonical.runStat {o : Nat} (h : s.canonical) : (s.runStat o).canonical :=
  h.mergeAnswer

theorem State.canonical.execMergeCommandComplete {op : Nat} (h : s.canonical) : NextCanonical (execMergeCommandComplete op s) := by
  unfold Machine.execMergeCommandComplete
  split
  · exact h
  · split
    · exact h
    · split
      · exact h.later
      · split
        · exact h.runMatch
        · exact h.runMerge
        · exact h.runSplit
        · exact h.runBias
        · exact h.runPop
        · exact h.runStat
        · exact h

/-! ### Slab -/

theorem State.canonical.dropSlabTree {slab : Nat} (h : s.canonical) : (s.dropSlabTree slab).canonical :=
  h

theorem State.canonical.unready {slab : Nat} {pick : Instr → Bool} (h : s.canonical) : (s.unready slab pick).canonical :=
  h.foldl fun _ _ ht => (ht.setOp.foldl (fun _ _ hu => hu.push)).ite ht

theorem State.canonical.returnLines {port : Nat} {m : SlabMsg} {ls : List Nat} {wrap : SlabMsg → LinkMsg} (h : s.canonical) :
    (s.returnLines port m ls wrap).canonical :=
  (h.foldl (fun _ _ ht => ht.linkSend)).linkSend

theorem State.canonical.releaseSlab {slab : Nat} (h : s.canonical) : (s.releaseSlab slab).canonical :=
  h.foldl fun _ _ ht => ht.push

theorem State.canonical.endReads {slab : Nat} (h : s.canonical) : (s.endReads slab).canonical :=
  h.foldl fun _ _ ht => ht.foldl fun _ _ hu => hu.ite (hu.setLine.ite hu.setLine.push)

theorem State.canonical.clearSlab {slab : Nat} (h : s.canonical) : (s.clearSlab slab).canonical :=
  (h.unready.dropSlabTree.endReads.foldl (fun _ _ ht => ht.invCopies)).frame.touch.releaseSlab

theorem State.canonical.giveSlab {port : Nat} {m : SlabMsg} (h : s.canonical) : (s.giveSlab port m).canonical :=
  h.returnLines.clearSlab

theorem State.canonical.lowerSlab {port : Nat} {m : SlabMsg} (h : s.canonical) : (s.lowerSlab port m).canonical := by
  unfold State.lowerSlab
  extract_lets t u v r e
  have hv : v.canonical := h.unready.returnLines.foldl fun _ _ h => h.shareLine
  exact hv.setTent

theorem State.canonical.storeLine {l : Nat} {data : List Nat} (h : s.canonical) : (s.storeLine l data).canonical :=
  h.ite h.frame

theorem State.canonical.notePst {port slab ctx : Nat} {excl : Bool} (h : s.canonical) : (s.notePst port slab ctx excl).canonical :=
  h.setTent

theorem State.canonical.failLine {core agent l cause : Nat} (h : s.canonical) : (s.failLine core agent l cause).canonical := by
  dsimp only [State.failLine]
  refine h.setLine.foldl fun _ _ ht => ?_
  split
  · exact ht
  · split
    · exact ht.setOp.reportOp
    · split
      · split <;> exact ht.setOp.push
      · exact ht

theorem State.canonical.lineAnswer {port : Nat} {m : SlabMsg} {excl : Bool} (h : s.canonical) : (s.lineAnswer port m excl).canonical := by
  dsimp only [State.lineAnswer]
  split
  · exact h
  · split
    · exact h.setOp.reportOp.ite h.setOp.push
    · exact (h.storeLine.notePst.setOp.reportOp.foldl (fun _ _ ht => ht.push)).ite h.storeLine.notePst.setOp.push

theorem State.canonical.peerCheck {ctx tenant adr : Nat} {k : PKind} (h : s.canonical) : (s.peerCheck ctx tenant adr k).1.canonical := by
  dsimp only [State.peerCheck]
  split
  · exact h
  · split
    · exact h
    · split
      · next e => exact h.portCheck.of_eq e
      · next e => exact h.portCheck.of_eq e
      · next e => exact h.portCheck.of_eq e

theorem State.canonical.waitAtRoot {port : Nat} {m : LinkMsg} (h : s.canonical) : (s.waitAtRoot port m).canonical :=
  h

theorem State.canonical.linkTake {root : Nat} {m : SlabMsg} {excl : Bool} {pa : Nat} (h : s.canonical) :
    OptCanonical (s.linkTake root m excl pa) := by
  dsimp only [State.linkTake]
  split
  · split
    · exact trivial
    · exact h.foldl fun _ _ ht => ht.sendXREQ.noteFill
  · split
    · exact trivial
    · exact h.foldl fun _ _ ht => ht.sendRD.noteFill

theorem State.canonical.grantSlab {root port : Nat} {m : SlabMsg} {excl : Bool} {pa : Nat} {dead : Bool} (h : s.canonical) :
    (s.grantSlab root port m excl pa dead).canonical :=
  h.setTent.linkSend

theorem State.canonical.serveSlab {port : Nat} {m : SlabMsg} {excl : Bool} (h : s.canonical) : (s.serveSlab port m excl).canonical := by
  dsimp only [State.serveSlab]
  split
  · next e => exact (h.peerCheck.of_eq e).linkSend
  · rename_i e
    split
    · exact (h.peerCheck.of_eq e).linkSend
    · split
      · exact (h.peerCheck.of_eq e).waitAtRoot
      · split
        · exact (h.peerCheck.of_eq e).askHolders.waitAtRoot
        · split
          · next e₁ => exact ((h.peerCheck.of_eq e).linkTake.of_eq e₁).waitAtRoot
          · exact (h.peerCheck.of_eq e).grantSlab

theorem State.canonical.applyPeer {port : Nat} {m : PeerAtomic} {f : AtomOp} {pa : Nat} (h : s.canonical) : (s.applyPeer port m f pa).canonical :=
  h.tearLine.allocL2.dwrite.count.linkSend

theorem State.canonical.serveAtomic {port : Nat} {m : PeerAtomic} (h : s.canonical) : (s.serveAtomic port m).canonical := by
  unfold State.serveAtomic
  split
  · next e => exact (h.peerCheck.of_eq e).linkSend
  · next e _ => exact (h.peerCheck.of_eq e).linkSend
  · next e _ =>
    have ht := h.peerCheck.of_eq e
    split
    · exact ht.linkSend
    split
    · exact ht.waitAtRoot
    split
    · next e => exact (ht.recall.of_eq e).waitAtRoot
    · exact ht.applyPeer

theorem State.canonical.serveWaiting {slab : Nat} (h : s.canonical) : (s.serveWaiting slab).canonical := by
  unfold State.serveWaiting
  refine h.frame.foldl fun _ _ ht => ?_
  split
  · exact ht.serveSlab
  · exact ht.serveSlab
  · exact ht.serveAtomic
  · exact ht

theorem State.canonical.serveAtomics (h : s.canonical) : (s.serveAtomics).canonical :=
  h.foldl fun _ _ ht => ht.serveWaiting

theorem State.canonical.rootAnswer {m : SlabMsg} {down : Bool} (h : s.canonical) : (s.rootAnswer m down).canonical := by
  dsimp only [State.rootAnswer]
  split
  · exact h
  · split
    · split
      · exact h.noteWrite.ite (h.noteWrite.allocL2.dwrite.poisonBack.ite h.noteWrite.allocL2.dwrite)
      · exact h.noteWrite
    · exact h.ite (h.putRoot.serveWaiting.ite h.putRoot)

theorem State.canonical.atomicAnswer {m : PeerAtomic} (h : s.canonical) : (s.atomicAnswer m).canonical := by
  unfold State.atomicAnswer
  split
  · exact h
  · exact h.setOp.reportOp

/-! ### Walker -/

theorem State.canonical.setWalk {g : Nat} {w : WalkSt} (h : s.canonical) : (s.setWalk g w).canonical :=
  h.setGrp

theorem State.canonical.endWalk {g : Nat} (h : s.canonical) : (s.endWalk g).canonical := by
  dsimp only [State.endWalk]
  split
  · exact (h.setWalk.ite h.setWalk.push).ite h
  · exact h

theorem State.canonical.setRunning {g : Nat} {x : Walk} (h : s.canonical) : (s.setRunning g x).canonical :=
  h.setWalk

theorem State.canonical.wakePop {g : Nat} (h : s.canonical) : (s.wakePop g).canonical := by
  unfold State.wakePop
  refine h.foldl fun _ _ ht => ?_
  split
  · exact ht.push
  · exact ht

theorem State.canonical.pushWalk {g : Nat} {w : WalkSt} (h : s.canonical) : (s.pushWalk g w).canonical :=
  h.setWalk.count

theorem State.canonical.pushEntry {g : Nat} {x : Walk} {tile : Nat} (h : s.canonical) : (s.pushEntry g x tile).canonical :=
  h.pushWalk.setRunning.wakePop.ite h.setWalk.setRunning.frame.push

theorem State.canonical.walkServed {g : Nat} (h : s.canonical) : (s.walkServed g).canonical :=
  h.setCore

theorem State.canonical.sendProbes {g : Nat} {x : Walk} (h : s.canonical) : (s.sendProbes g x).canonical :=
  (h.setRunning.count.foldl (fun _ _ ht => ht.push)).push

theorem State.canonical.generate {g : Nat} (h : s.canonical) : (s.generate g).canonical := by
  unfold State.generate
  split
  · exact h
  · exact h.walkServed.pushEntry

theorem State.canonical.execWalkerEntryGenerate {g : Nat} (h : s.canonical) : NextCanonical (execWalkerEntryGenerate g s) := by
  unfold Machine.execWalkerEntryGenerate
  split
  · exact h
  · split
    · exact h
    · split
      · exact h.endWalk
      · split
        · exact h.count
        · split
          · exact h.ite h.sendProbes
          · exact h.generate.push

theorem State.canonical.chooseTile {g : Nat} {x : Walk} (h : s.canonical) : (s.chooseTile g x).canonical :=
  (h.ite h.count).setRunning.push

theorem State.canonical.execResidencyProbeAnswer {g tile rank : Nat} (h : s.canonical) : NextCanonical (execResidencyProbeAnswer g tile rank s) := by
  dsimp only [Machine.execResidencyProbeAnswer]
  split
  · split
    · split
      · exact h.setRunning.chooseTile
      · exact h.setRunning
    · exact h
  · exact h

theorem State.canonical.execProbeTimeout {g : Nat} (h : s.canonical) : NextCanonical (execProbeTimeout g s) := by
  unfold Machine.execProbeTimeout
  split
  · split
    · exact h.chooseTile
    · exact h
  · exact h

theorem State.canonical.walkRead {o : Nat} {p : Op} {disp : Nat} (h : s.canonical) : (s.walkRead o p disp).1.canonical := by
  unfold State.walkRead
  split
  · exact h
  · exact h
  · exact h.engRead

theorem State.canonical.laneReads {o : Nat} (h : s.canonical) : (s.laneReads o).1.canonical := by
  dsimp only [State.laneReads]
  refine h.foldlFst fun _ _ ht => ?_
  split
  · exact ht
  · split
    · next e => exact (ht.walkRead.of_eq e).setOp
    · next e => exact ht.walkRead.of_eq e

theorem State.canonical.entryDone {g id o : Nat} {p : Op} {e : QEntry} (h : s.canonical) : (s.entryDone g id o p e).canonical := by
  dsimp only [State.entryDone]
  refine State.canonical.push (State.canonical.wakePop (State.canonical.endWalk ?_))
  split
  · exact h.pushWalk.delOp
  · split
    · exact h.pushWalk.delOp.count.setRunning
    · exact h.pushWalk.delOp.count

theorem State.canonical.entryReturn {g id o : Nat} {p : Op} {e : QEntry} (h : s.canonical) : (s.entryReturn g id o p e).canonical :=
  (h.laneReads.raise.setWalk.foldl (fun _ _ ht => ht.reportPage)).ite (h.laneReads.ite h.laneReads.entryDone)

theorem State.canonical.wakeStop {g : Nat} (h : s.canonical) : (s.wakeStop g).canonical := by
  unfold State.wakeStop
  refine h.foldl fun _ _ ht => ?_
  split
  · exact ht.push
  · exact ht

theorem State.canonical.discardedReturn {g o : Nat} (h : s.canonical) : (s.discardedReturn g o).canonical :=
  h.endOp.wakeStop.ite (h.laneReads.ite h.laneReads.endOp.wakeStop)

theorem State.canonical.execWalkerReadReturn {g ent : Nat} (h : s.canonical) : NextCanonical (execWalkerReadReturn g ent s) := by
  unfold Machine.execWalkerReadReturn
  split
  · exact h
  · split
    · exact h
    · split
      · split
        · exact h
        · split
          · exact h.entryReturn
          · exact h.push
      · exact h.discardedReturn

theorem State.canonical.enqueueWalk {g : Nat} {p : Op} (h : s.canonical) : (s.enqueueWalk g p).canonical :=
  h.issueOp.push

theorem State.canonical.execWgo {n : Bool} (h : s.canonical) : NextCanonical (execWgo n s) := by
  dsimp only [Machine.execWgo]
  refine h.issueWord fun _ _ => ?_
  split
  · exact h.cmdTrap
  · split
    · exact h.cmdTrap
    · split
      · exact h.cmdTrap
      · exact h.setGrp.enqueueWalk.push.ite h.setGrp.enqueueWalk

theorem State.canonical.runWset {o : Nat} {n : Bool} (h : s.canonical) : (s.runWset o n).canonical := by
  dsimp only [State.runWset]
  split
  · exact h.completeOp.deferTrap
  · exact h.setWalk.completeOp

theorem State.canonical.runWstop {o : Nat} (h : s.canonical) : (s.runWstop o).canonical := by
  unfold State.runWstop
  extract_lets g w t u
  have ht : t.canonical := h.ite (h.foldl fun _ _ h => h.delOp)
  have hu : u.canonical := ht.setWalk.foldl fun _ _ h => h.push
  exact hu.completeOp.ite hu.setOp

theorem State.canonical.runQpop {o q : Nat} (h : s.canonical) : (s.runQpop o q).canonical := by
  dsimp only [State.runQpop]
  split
  · exact h
  · split
    · exact h.raise
    · split
      · exact h.trapOp
      · exact h.setWalk.setGrp.completeOp.push

theorem State.canonical.execWalkerCommandComplete {op : Nat} (h : s.canonical) : NextCanonical (execWalkerCommandComplete op s) := by
  unfold Machine.execWalkerCommandComplete
  split
  · exact h
  · split
    · exact h.push
    · split
      · exact h.runWset
      · exact h.later
    · exact h.completeOp
    · exact h.completeOp.ite h
    · exact h.runWstop
    · exact h.setGrp.completeOp
    · exact h.runQpop
    · exact h

/-! ### MemSide -/

theorem State.canonical.dropNamed {m : Nat} {p : List Nat} (h : s.canonical) : (s.dropNamed m p).canonical :=
  h.setSlice

theorem State.canonical.execSliceTcinv {op slice : Nat} (h : s.canonical) : NextCanonical (execSliceTcinv op slice s) := by
  unfold Machine.execSliceTcinv
  split
  · exact h
  · split
    · exact h.later
    · exact h.dropNamed.setSlice.push

theorem State.canonical.backL2 {l by_ : Nat} (h : s.canonical) : (s.backL2 l by_).canonical := by
  dsimp only [State.backL2]
  split
  · exact h.setSlice
  · exact h

theorem State.canonical.giveBack {slab : Nat} (h : s.canonical) : (s.giveBack slab).canonical := by
  unfold State.giveBack
  split
  · exact h.giveSlab
  · exact h

theorem State.canonical.execSliceTcinvDrained {op slice : Nat} (h : s.canonical) : NextCanonical (execSliceTcinvDrained op slice s) := by
  dsimp only [Machine.execSliceTcinvDrained]
  split
  · exact h
  · split
    · exact h.later
    · split
      · exact h.later
      · split
        · exact (h.foldl (fun _ _ ht => ht.recall.getD ht)).later
        · split
          · split
            · exact (h.foldl (fun _ _ ht => ht.giveBack.tearLine.backL2)).dropNamed.setSlice.setOp.push
            · exact (h.foldl (fun _ _ ht => ht.giveBack.tearLine.backL2)).dropNamed.setSlice.setOp
          · exact (h.foldl (fun _ _ ht => ht.giveBack.tearLine.backL2)).dropNamed.setSlice

theorem State.canonical.execTcinvComplete {op : Nat} (h : s.canonical) : NextCanonical (execTcinvComplete op s) := by
  unfold Machine.execTcinvComplete
  split
  · exact h
  · split
    · exact h.completeOp
    · exact h

theorem State.canonical.setAcc {o : Nat} {a : Acc} (h : s.canonical) : (s.setAcc o a).canonical :=
  h.setOp

theorem State.canonical.accMissing {o : Nat} {p : Op} {a : Acc} (h : s.canonical) : (s.accMissing o p a).canonical :=
  h.setAcc.ite (h.setAcc.reportPage.ite h.setAcc)

theorem State.canonical.accDevice {o : Nat} {p : Op} {a : Acc} {dead : Bool} {pol : Nat} {obj : ObjRaw} (h : s.canonical) :
    (s.accDevice o p a dead pol obj).canonical := by
  unfold State.accDevice
  split
  · exact h.setAcc.ite (h.setAcc.ite (h.setAcc.ite h.setAcc.sendRD.noteFill))
  · split
    · exact h.setAcc.ite (h.setAcc.push.ite (h.setAcc.ite h.setAcc.sendXREQ.noteFill.setLine))
    · exact h.setAcc.ite h.setAcc.sendXREQ.noteFill

theorem State.canonical.sendAcc {o : Nat} {a : Acc} (h : s.canonical) : (s.sendAcc o a).canonical :=
  h.setAcc

theorem State.canonical.accHinted {o : Nat} {a : Acc} {ctx : Nat} (h : s.canonical) : (s.accHinted o a ctx).canonical := by
  dsimp only [State.accHinted]
  split
  · exact h.setAcc
  · split
    · exact h.sendAcc
    · split
      · next e => exact (h.askPeer.of_eq e).sendAcc
      · exact h.setAcc

theorem State.canonical.accPeer {o : Nat} {p : Op} {a : Acc} {ctx : Nat} {dead : Bool} (h : s.canonical) : (s.accPeer o p a ctx dead).canonical := by
  unfold State.accPeer
  extract_lets hh l core again agent x
  have hagain : ∀ {t : State}, t.canonical → (again t).canonical := fun h => h.foldl fun _ _ h => h.push
  split
  · exact h.setAcc
  split
  · split
    · exact h
    split
    · exact h.askPeer.getD h.setAcc
    split
    · next e => exact (h.wakePeer.of_eq e).push
    · next e => exact hagain (h.wakePeer.of_eq e).push
  split
  · split
    · exact h.sendAcc.linkSend
    · exact h.setAcc
  refine h.setAcc.ite (h.accHinted.ite ?_)
  split
  · next e => exact (h.sendSlab.of_eq e).setAcc
  · exact h.setAcc

theorem State.canonical.accHost {o : Nat} {p : Op} {a : Acc} {dead : Bool} (h : s.canonical) : (s.accHost o p a dead).canonical := by
  unfold State.accHost
  split
  · exact h.setAcc
  · split
    · exact h.setAcc
    · exact h.setAcc.push.ite (h.setAcc.ite (h.sendAcc.ite (h.push.ite (h.queueHost.push.ite h.sendAcc.pcie.hostPass))))

theorem State.canonical.accRegister {o : Nat} {p : Op} {a : Acc} {dead : Bool} (h : s.canonical) : (s.accRegister o p a dead).canonical :=
  h.setAcc.ite (h.setAcc.ite (h.setAcc.ite (h.setAcc.ite (h.push.ite h.sendAcc.pcie))))

theorem State.canonical.checkDiscard {o : Nat} {a : Acc} (h : s.canonical) : (s.checkDiscard o a).canonical := by
  dsimp only [State.checkDiscard]
  split
  · next e => exact (h.portHead.of_eq e).setAcc
  · next e => exact (h.portHead.of_eq e).setAcc

theorem State.canonical.checkAcc {o : Nat} {a : Acc} (h : s.canonical) : (s.checkAcc o a).canonical := by
  dsimp only [State.checkAcc]
  split
  · exact h.checkDiscard
  · split
    · next e => exact (h.portCheck.of_eq e).setAcc
    · next e => exact (h.portCheck.of_eq e).accMissing
    · rename_i e
      split
      · exact (h.portCheck.of_eq e).setAcc.accDevice
      · exact (h.portCheck.of_eq e).setAcc.raise.accHost
      · exact (h.portCheck.of_eq e).setAcc.raise.accPeer
      · exact (h.portCheck.of_eq e).setAcc.accRegister
      · exact (h.portCheck.of_eq e).setAcc.raise.setAcc

theorem State.canonical.checkLanes {o : Nat} {p : Op} {as : List Acc} (h : s.canonical) : (s.checkLanes o p as).1.canonical := by
  unfold State.checkLanes
  refine h.foldlFst fun _ _ ht => ?_
  split
  · exact ht
  · exact ht.checkAcc

theorem State.canonical.execPortCheck {op line : Nat} (h : s.canonical) : NextCanonical (execPortCheck op line s) := by
  unfold Machine.execPortCheck
  split
  · exact h
  extract_lets as
  split
  · exact h
  refine NextCanonical.ite h.later ?_
  split
  · exact h.checkLanes.reportOp
  · exact h.checkLanes.reportOp.later

theorem State.canonical.lineArrived {core agent l : Nat} {sector : Option Nat} (h : s.canonical) : (s.lineArrived core agent l sector).canonical := by
  refine State.canonical.settle (h.foldl fun t e ht => ?_)
  refine State.canonical.ite (ht.setOp.reportOp.ite ht.setOp) (State.canonical.ite ?_ ht)
  split
  · exact ht.push
  · exact ht
  · exact ht.push
  · exact ht.push.ite ht

theorem State.canonical.endFill {core a line sector : Nat} (h : s.canonical) : (s.endFill core a line sector).canonical :=
  (h.setLine.push.push.ite h.setLine.push).sendWanted.lineArrived

theorem State.canonical.execHbmReadComplete {line sector : Nat} {ecc : Ecc} (h : s.canonical) :
    NextCanonical (execHbmReadComplete line sector ecc s) := by
  unfold Machine.execHbmReadComplete
  extract_lets m t x _ u v hit w
  have ht : t.canonical := h.logErr.ite h
  split
  · have hv : v.canonical := ht.setSlice.count.logErr
    have hw : w.canonical := hv.foldl fun _ _ hu => hu.setOp.reportOp.ite hu
    exact hw.foldl fun _ _ hu => hu.endFill
  · exact (ht.setSlice.ite ht.fillL2).foldl fun _ _ hu => hu.push

theorem State.canonical.answerAcc {o : Nat} {a : Acc} (h : s.canonical) : (s.answerAcc o a).canonical :=
  h.setAcc.reportOp

theorem State.canonical.hostData {o : Nat} {a : Acc} {v : Nat} (h : s.canonical) : (s.hostData o a v).canonical :=
  h.setOp.reportOp

theorem State.canonical.hostFailed {o : Nat} {a : Acc} (h : s.canonical) : (s.hostFailed o a).canonical :=
  h.setOp.reportOp

theorem State.canonical.execFarAtomic {op lane : Nat} (h : s.canonical) : NextCanonical (execFarAtomic op lane s) := by
  unfold Machine.execFarAtomic
  split
  · exact h
  · rename_i e
    split
    · split
      · exact h.later
      · split
        · exact h.answerAcc
        · split
          · next e₂ => exact (h.recall.of_eq e₂).later
          · exact h.tearLine.allocL2.performAtom.answerAcc.count
    · exact h

theorem State.canonical.hostDone {o : Nat} {a : Acc} (h : s.canonical) : (s.hostDone o a).canonical :=
  h.answerAcc.hostPass

theorem State.canonical.enterFallback {ctx page code adr : Nat} (h : s.canonical) : (s.enterFallback ctx page code adr).canonical :=
  h.ite h.frame.logErr

theorem State.canonical.useFallback {page : Nat} (h : s.canonical) : (s.useFallback page).canonical :=
  h.frame.ite h

theorem State.canonical.refuseHost {o : Nat} {p : Op} {a : Acc} (h : s.canonical) : (s.refuseHost o p a).canonical :=
  h.useFallback.logErr.hostDone

theorem State.canonical.startFallback {o : Nat} {a : Acc} (h : s.canonical) : (s.startFallback o a).canonical :=
  h.useFallback.sendAcc.count.pcie

theorem State.canonical.execHostAtomic {op lane : Nat} (h : s.canonical) : NextCanonical (execHostAtomic op lane s) := by
  dsimp only [Machine.execHostAtomic]
  split
  · exact h
  · split
    · split
      · exact h.later
      · split
        · exact h.queueHost.push
        · split
          · exact h.queueHost.hostDone
          · split
            · split
              · exact h.queueHost.startFallback
              · exact h.queueHost.refuseHost
            · split
              · exact h.queueHost.sendAcc.count.pcie
              · split
                · exact h.queueHost.enterFallback.startFallback
                · exact h.queueHost.refuseHost
    · exact h

theorem State.canonical.execAtomicopCompletion {op lane : Nat} {st : CplStatus} {val : Nat} (h : s.canonical) :
    NextCanonical (execAtomicopCompletion op lane st val s) := by
  unfold Machine.execAtomicopCompletion
  split
  · exact h
  split
  · split
    · exact h.hostDone
    · exact h.hostDone
    · extract_lets t
      have ht : t.canonical := h.count.enterFallback
      split
      · exact ht.startFallback
      · exact ht.refuseHost
  · exact h

theorem State.canonical.answerPart {o : Nat} {a : Acc} (h : s.canonical) : (s.answerPart o a).canonical :=
  h.setAcc.push

theorem State.canonical.execPcieCompletion {op lane : Nat} {st : CplStatus} {val : Nat} (h : s.canonical) :
    NextCanonical (execPcieCompletion op lane st val s) := by
  unfold Machine.execPcieCompletion
  split
  · exact h
  · split
    · exact h
    · split
      · exact h.answerPart
      · split
        · split
          · exact h.accWrite.hostDone
          · exact h.hostDone
        · split
          · exact h.hostFailed
          · split
            · exact h.hostData
            · exact h.answerAcc

theorem State.canonical.execCompletionTimeout {op lane : Nat} (h : s.canonical) : NextCanonical (execCompletionTimeout op lane s) := by
  unfold Machine.execCompletionTimeout
  split
  · exact h
  · split
    · exact h
    · split
      · exact h.answerPart
      · split
        · exact h.hostDone
        · exact h.hostFailed

theorem State.canonical.failPage {ctx obj page : Nat} (h : s.canonical) : (s.failPage ctx obj page).canonical := by
  unfold State.failPage
  refine (h.foldl (fun _ _ ht => ht.setOp.push.ite (ht.setOp.push.ite ht))).foldl fun _ _ ht => ?_
  refine State.canonical.foldl ?_ fun _ _ hu => ?_
  · split
    · exact ht.fetchTrap
    · exact ht
  · split
    · exact hu
    · exact hu.entryDone

theorem State.canonical.dropReports {r : FaultRec} (h : s.canonical) : (s.dropReports r).canonical :=
  h

theorem State.canonical.execFaultReport {r : FaultRec} (h : s.canonical) : NextCanonical (execFaultReport r s) := by
  dsimp only [Machine.execFaultReport]
  split
  · exact h.count
  · split
    · exact h.logErr.dropReports.failPage
    · rename_i e
      split
      · exact h.logErr.dropReports.failPage
      · split
        · next e₁ => exact (h.appendRec.of_eq e₁).setSlice.count
        · exact h.logErr.dropReports.failPage

theorem State.canonical.replayWhere {ctx : Nat} {pick : Nat → Nat → Bool} (h : s.canonical) : (s.replayWhere ctx pick).canonical := by
  unfold State.replayWhere
  extract_lets t on go u on'
  have ht : t.canonical := h.frame
  have hu : u.canonical := by
    refine ht.foldl fun t e ht => ?_
    split
    · extract_lets _ v w
      have hv : v.canonical := ht.setOp
      have hw : w.canonical := hv.count.ite hv
      exact hw.foldl fun _ _ h => h.push
    split
    · split
      · extract_lets v
        have hv : v.canonical := by
          unfold v
          split
          · exact ht.count.ite ht
          · exact ht
        exact hv.setOp.push
      · exact ht
    · exact ht
  refine hu.foldl fun t g ht => ?_
  split
  · exact ht
  extract_lets v _ w x es
  have hv : v.canonical := by
    refine ht.foldl fun t e ht => ?_
    split
    · exact ht.push.ite ht
    · exact ht
  have hw : w.canonical := by
    unfold w
    split
    · exact hv.setGrp.ite hv
    · exact hv
  exact hw.ite (hw.setWalk.foldl fun _ _ h => h.push)

theorem State.canonical.execReplayPage {ctx obj page : Nat} (h : s.canonical) : NextCanonical (execReplayPage ctx obj page s) :=
  h.replayWhere

theorem State.canonical.execReplayContext {ctx : Nat} (h : s.canonical) : NextCanonical (execReplayContext ctx s) :=
  h.replayWhere

/-! ### Fabric -/

theorem State.canonical.countRouter {r k : Nat} (h : s.canonical) : (s.countRouter r k).canonical :=
  h.count

theorem State.canonical.putEnt {r : Nat} {slab : Bool} {key : Nat} {e : TEntry} (h : s.canonical) : (s.putEnt r slab key e).canonical :=
  h.frame.setTent

theorem State.canonical.put {m : TMsg} {e : TEntry} (h : s.canonical) : (s.put m e).canonical :=
  h.putEnt

theorem State.canonical.hold {k : HKind} {m : TMsg} (h : s.canonical) : (s.hold k m).canonical :=
  h.frame.countRouter

theorem State.canonical.onLink {e : Event} (h : s.canonical) : (s.onLink e).canonical :=
  h

theorem State.canonical.usedEnt {m : TMsg} (h : s.canonical) : (s.usedEnt m).canonical :=
  h.ite h.put

theorem State.canonical.releaseWhere {r : Nat} {pick : TMsg → Bool} (h : s.canonical) : (s.releaseWhere r pick).canonical :=
  h.foldl fun _ _ ht => ht.push

theorem State.canonical.release {r key : Nat} {slab : Bool} (h : s.canonical) : (s.release r key slab).canonical :=
  h.releaseWhere

theorem State.canonical.dropEnt {r : Nat} {slab : Bool} {key : Nat} (h : s.canonical) : (s.dropEnt r slab key).canonical :=
  h.setTent.releaseWhere

theorem State.canonical.invAgent {core a l : Nat} {owned : Bool} (h : s.canonical) : (s.invAgent core a l owned).1.canonical := by
  unfold State.invAgent
  extract_lets x dirty t src u v c k had w
  have hu : u.canonical := State.canonical.setLine (h.foldl fun _ _ h => h.noteWrite.ite h)
  have hv : v.canonical := hu.touch.ite hu
  exact hv.setCore.ite hv

theorem State.canonical.invLocal {m : TMsg} {e : TEntry} {owned : Bool} {keep : Nat → Bool} (h : s.canonical) :
    (s.invLocal m e owned keep).1.canonical := by
  unfold State.invLocal
  split
  · exact h
  · exact h.foldlFst fun _ _ ht => ht.foldlFst fun _ _ hu => hu.invAgent

theorem State.canonical.sendInv {m : TMsg} {ds : List Nat} (h : s.canonical) : (s.sendInv m ds).canonical :=
  h.foldl fun _ _ ht => ht.push

theorem State.canonical.sendDown {m : TMsg} {e : TEntry} {d : Nat} (h : s.canonical) : (s.sendDown m e d).canonical :=
  h.sendInv.push.ite h.sendInv

theorem State.canonical.endPrune {m : TMsg} (h : s.canonical) : (s.endPrune m).canonical :=
  h.dropEnt.ite (h.dropEnt.push.ite h.dropEnt.push)

theorem State.canonical.prunedAll {m : TMsg} (h : s.canonical) : (s.prunedAll m).canonical :=
  h.endPrune.ite h.push

theorem State.canonical.startPrune {m : TMsg} (h : s.canonical) : (s.startPrune m).canonical := by
  unfold State.startPrune
  extract_lets e m own ds
  split
  · exact h.tearLine
  split
  · exact h.giveSlab.dropEnt
  split
  · exact h.askHolders
  split
  next t e hi =>
  have ht : t.canonical := h.invLocal.of_eq hi
  exact ht.put.sendInv.prunedAll.ite ht.put.sendInv

theorem State.canonical.makeRoom {m : TMsg} (h : s.canonical) : (s.makeRoom m).1.canonical := by
  unfold State.makeRoom
  split
  · exact h
  · exact h.countRouter.startPrune
  · exact h

theorem State.canonical.trimRouter {r : Nat} (h : s.canonical) : (s.trimRouter r).canonical := by
  unfold State.trimRouter
  split
  · exact h
  · exact h.foldl fun _ _ ht => ht.countRouter.startPrune

theorem State.canonical.settled {m : TMsg} (h : s.canonical) : (s.settled m).canonical :=
  h.release.trimRouter.releaseWhere

theorem State.canonical.pruneEmpty {m : TMsg} (h : s.canonical) : (s.pruneEmpty m).canonical :=
  h.dropEnt.push.ite h

theorem State.canonical.installAt {m : TMsg} (h : s.canonical) : (s.installAt m).canonical :=
  h.put.countRouter

theorem State.canonical.crossing {m : TMsg} {to_ : Nat} {e : TMsg → Event} (h : s.canonical) : (s.crossing m to_ e).canonical :=
  h.countRouter.push

theorem State.canonical.missed {core l : Nat} (h : s.canonical) : (s.missed core l).canonical :=
  h.foldl fun _ _ ht => ht.raise.ite ht

theorem State.canonical.fromHome {m : TMsg} {excl : Bool} (h : s.canonical) : (s.fromHome m excl).canonical :=
  (h.ite h.setLine).push.ite ((h.ite h.setLine).missed.ite (h.ite h.setLine).missed.setSlice.push)

theorem State.canonical.askHome {m : TMsg} {excl own : Bool} (h : s.canonical) : OptCanonical (s.askHome m excl own) :=
  OptCanonical.map fun _ => h.linkSend

theorem State.canonical.leaveTree {m : TMsg} (h : s.canonical) : (s.leaveTree m).canonical :=
  h.push.push

theorem State.canonical.failReq {m : TMsg} {cause : Nat} (h : s.canonical) : (s.failReq m cause).canonical :=
  h.failLine.leaveTree

theorem State.canonical.restart {m : TMsg} (h : s.canonical) : (s.restart m).canonical :=
  h.setLine.push

theorem State.canonical.serveRead {m : TMsg} (h : s.canonical) : (s.serveRead m).canonical :=
  h.leaveTree.ite (h.push.ite ((h.setLine.foldl (fun _ _ ht => ht.push)).ite (h.askHome.getD h.failReq)))

theorem State.canonical.execBounced {m : TMsg} (h : s.canonical) : (execBounced m s).canonical :=
  h.push.ite (h.restart.ite (h.hold.ite (h.usedEnt.push.ite h.usedEnt.fromHome)))

theorem State.canonical.execRd {m : TMsg} (h : s.canonical) : NextCanonical (execRd m s) := by
  dsimp only [Machine.execRd]
  split
  · exact h.onLink
  · split
    · exact h.execBounced
    · split
      · exact h.hold
      · exact h.hold
      · rename_i e
        split
        · next e₁ => exact (h.makeRoom.of_eq e₁).hold
        · rename_i e₁
          split
          · exact (h.makeRoom.of_eq e₁).installAt.push
          · split
            · exact (h.makeRoom.of_eq e₁).installAt.serveRead
            · exact (h.makeRoom.of_eq e₁).installAt.fromHome
      · split
        · split
          · exact h.put.serveRead
          · exact h.put.push
        · split
          · exact h.put.fromHome
          · exact h.put.push

theorem State.canonical.bounce {m : TMsg} (h : s.canonical) : (s.bounce m).canonical :=
  h.push.countRouter

theorem State.canonical.alongOwn {m : TMsg} {e : TEntry} (h : s.canonical) : OptCanonical (s.alongOwn m e) := by
  unfold State.alongOwn
  split
  · exact h.push
  · exact trivial

theorem State.canonical.supply {m : TMsg} {core a : Nat} (h : s.canonical) : (s.supply m core a).canonical :=
  h.setLine.push

theorem State.canonical.execSrdSteeredRead {m : TMsg} (h : s.canonical) : NextCanonical (execSrdSteeredRead m s) := by
  unfold Machine.execSrdSteeredRead
  extract_lets e root t others
  have ht : t.canonical := h.usedEnt
  split
  · exact h.onLink
  split
  · exact h.bounce
  · exact h.hold
  · exact h.hold
  split
  · split
    · exact ht.later
    split
    · next c a _ _ _ u e =>
      have hr : OptCanonical (if 448 ≤ c then t.recall (256 * m.key) false else none) := by
        split
        · exact ht.recall
        · trivial
      exact (hr.of_eq e).later
    split
    · exact ht.hold
    split
    · exact ht.supply
    · exact ht.alongOwn.getD ht.bounce
  · split
    · exact ht.hold
    split
    · next e => exact ht.alongOwn.of_eq e
    split
    · exact ht.push
    split
    · exact ht.fromHome
    split
    · exact ht.bounce
    · exact ht.push

theorem State.canonical.fillAgent {core agent l : Nat} {y : CLine} {tag : Nat} (h : s.canonical) : (s.fillAgent core agent l y tag).canonical :=
  h.fillL1.ite h.setLine

theorem State.canonical.served {core l : Nat} (h : s.canonical) : (s.served core l).canonical :=
  h.ite h.serveWaiting

theorem State.canonical.rereadLine {core agent l : Nat} (h : s.canonical) : (s.rereadLine core agent l).canonical :=
  h.foldl fun _ _ ht => ht.recheck.ite ht

theorem State.canonical.slabData {m : TMsg} (h : s.canonical) : (s.slabData m).canonical := by
  dsimp only [State.slabData]
  split
  · exact h
  · exact ((h.setLine.ite h.fillAgent).push.rereadLine.ite (h.setLine.ite h.fillAgent).push).lineArrived.lineArrived

theorem State.canonical.lineData {m : TMsg} (h : s.canonical) : (s.lineData m).canonical := by
  dsimp only [State.lineData]
  split
  · exact h
  · refine State.canonical.served ?_
    split
    · exact (h.setLine.ite h.fillAgent).push.sendWanted.lineArrived.touch
    · exact (h.setLine.ite h.fillAgent).push.sendWanted.lineArrived

theorem State.canonical.execData {m : TMsg} (h : s.canonical) : NextCanonical (execData m s) := by
  unfold Machine.execData
  split
  · exact h.crossing
  · split
    · exact h.slabData
    · exact h.lineData

theorem State.canonical.execJdone {m : TMsg} (h : s.canonical) : NextCanonical (execJdone m s) := by
  dsimp only [Machine.execJdone]
  split
  · split
    · exact h.put.settled
    · exact h.put.release
    · exact h
  · refine State.canonical.push ?_
    split
    · exact h.put.settled
    · exact h.put.release
    · exact h

theorem State.canonical.setRootQ {k : Nat} {q : List RootReq} (h : s.canonical) : (s.setRootQ k q).canonical :=
  h

theorem State.canonical.sendGrant {m : TMsg} {dirty : Nat} (h : s.canonical) : (s.sendGrant m dirty).canonical :=
  (h.missed.ite h).push

theorem State.canonical.startOwn {m : TMsg} (h : s.canonical) : (s.startOwn m).canonical :=
  h.invLocal.put.sendDown.sendGrant.ite h.invLocal.put.sendDown

theorem State.canonical.beginOwn {m : TMsg} (h : s.canonical) : (s.beginOwn m).1.canonical := by
  unfold State.beginOwn
  split
  · exact h.startOwn
  · split
    · split
      · next e => exact h.askHome.of_eq e
      · exact h.failReq
    · split
      · split
        · next e => exact h.askHome.of_eq e
        · exact h.failReq
      · exact h.startOwn

theorem State.canonical.serveOwn {k : Nat} {q : List RootReq} (h : s.canonical) : (s.serveOwn k q).canonical := by
  induction q generalizing s with
  | nil => exact h.setRootQ
  | cons r q ih =>
    unfold State.serveOwn
    extract_lets t
    have ht : t.canonical := h.setRootQ
    split
    · exact ht.setRootQ.foldl fun _ _ h => h.push
    split
    · next e => exact ht.put.beginOwn.of_eq e
    · next e => exact ih (ht.put.beginOwn.of_eq e)

theorem State.canonical.nextOwn {k : Nat} (h : s.canonical) : (s.nextOwn k).canonical :=
  h.serveOwn

theorem State.canonical.execXreq {m : TMsg} (h : s.canonical) : NextCanonical (execXreq m s) := by
  dsimp only [Machine.execXreq]
  split
  · exact h.onLink
  · split
    · exact h.setRootQ.countRouter
    · split
      · exact h.hold
      · exact h.hold
      · rename_i e
        split
        · next e₁ => exact (h.makeRoom.of_eq e₁).hold
        · rename_i e₁
          split
          · exact (h.makeRoom.of_eq e₁).installAt.serveOwn
          · exact (h.makeRoom.of_eq e₁).installAt.push
      · split
        · exact h.serveOwn
        · exact h.put.push

theorem State.canonical.ackUp {m : TMsg} {d dirty : Nat} {stays : Bool} (h : s.canonical) : (s.ackUp m d dirty stays).canonical :=
  h.push

theorem State.canonical.ackedAll {m : TMsg} (h : s.canonical) : (s.ackedAll m).canonical :=
  h.ackUp.dropEnt.ite (h.ackUp.put.settled.ite h.ackUp.put)

theorem State.canonical.invalidateAt {m : TMsg} {keepPath : Bool} (h : s.canonical) : (s.invalidateAt m keepPath).canonical := by
  dsimp only [State.invalidateAt]
  split
  · exact h.ackUp
  · exact h.put
  · exact h.invLocal.sendDown.dropEnt.ackUp.ite (h.invLocal.sendDown.put.ackedAll.ite h.invLocal.sendDown.put)

theorem State.canonical.linkRecall {m : TMsg} (h : s.canonical) : OptCanonical (s.linkRecall m) := by
  unfold State.linkRecall
  split
  · split
    · exact h.recall
    · exact trivial
  · exact trivial

theorem State.canonical.tearDown {m : TMsg} {keepPath : Bool} {e : TMsg → Event} (h : s.canonical) : (s.tearDown m keepPath e).canonical := by
  unfold State.tearDown
  split
  · exact h.later
  · split
    · next e => exact (h.linkRecall.of_eq e).later
    · exact h.invalidateAt

theorem State.canonical.execInv {m : TMsg} (h : s.canonical) : NextCanonical (execInv m s) :=
  h.tearDown

theorem State.canonical.execTkeep {m : TMsg} (h : s.canonical) : NextCanonical (execTkeep m s) :=
  h.tearDown

theorem State.canonical.execAck {m : TMsg} (h : s.canonical) : NextCanonical (execAck m s) := by
  unfold Machine.execAck
  extract_lets e onPath _ t u
  have ht : t.canonical := h.put
  have hu : u.canonical := ht.foldl fun _ _ h => h.fillL2.ite h
  split
  · exact h
  split
  · exact ht
  split
  · exact ht.prunedAll
  split
  · split
    · exact hu.sendGrant
    · exact hu.dropEnt
  · exact ht.ackedAll

theorem State.canonical.takeOwn {m : TMsg} (h : s.canonical) : (s.takeOwn m).canonical :=
  h.fillAgent.lineArrived.nextOwn.served

theorem State.canonical.execGrant {m : TMsg} (h : s.canonical) : NextCanonical (execGrant m s) := by
  unfold Machine.execGrant
  extract_lets root t d e
  have hm : (if e.st = .invalid then s.makeRoom m else (s, true)).1.canonical := by
    split
    · exact h.makeRoom
    · exact h
  split
  · exact h
  split
  · next hr => exact (hm.of_eq hr).later
  · next u hr =>
    have hu := hm.of_eq hr
    extract_lets v
    have hv : v.canonical := hu.countRouter.ite hu
    split
    · exact hv.put.settled.push
    · exact hv.put.settled.takeOwn

theorem State.canonical.execPrune {m : TMsg} (h : s.canonical) : NextCanonical (execPrune m s) := by
  dsimp only [Machine.execPrune]
  split
  · exact h
  · split
    · exact h.execAck
    · exact h.put.pruneEmpty

theorem State.canonical.execLeave {m : TMsg} (h : s.canonical) : NextCanonical (execLeave m s) := by
  dsimp only [Machine.execLeave]
  split
  · exact h
  · exact h.put.pruneEmpty

theorem State.canonical.noteLost (h : s.canonical) : (s.noteLost).canonical :=
  (h.frame.ite h).foldl fun _ _ ht => ht.poisonBack

theorem State.canonical.slabHome {m : TMsg} (h : s.canonical) : (s.slabHome m).canonical := by
  unfold State.slabHome
  refine State.canonical.foldl ?_ fun _ _ ht => ht.foldl fun _ _ hu => hu.foldl fun _ _ hv => hv.ite hv.setLine.push
  split
  · exact h.foldl fun _ _ ht => ht.linkSend
  · exact h

theorem State.canonical.lineHome {m : TMsg} (h : s.canonical) : (s.lineHome m).canonical :=
  (h.put.ite h).poisonBack.ite ((h.put.ite h).foldl (fun _ _ ht => ht.ite (ht.ite ht.noteWrite).fillL2))

theorem State.canonical.execWb {m : TMsg} (h : s.canonical) : NextCanonical (execWb m s) := by
  dsimp only [Machine.execWb]
  split
  · exact h.crossing
  · exact (h.slabHome.ite h.lineHome).push

theorem State.canonical.execWback {m : TMsg} (h : s.canonical) : NextCanonical (execWback m s) := by
  unfold Machine.execWback
  split
  · exact h.crossing
  · split
    · exact h.endPrune.ite h
    · exact h.push

theorem State.canonical.execSnoop {m : TMsg} (h : s.canonical) : NextCanonical (execSnoop m s) := by
  unfold Machine.execSnoop
  refine State.canonical.foldl ?_ fun _ _ ht => ht.push
  split
  · exact h.usedEnt.supply
  · exact h.usedEnt

theorem State.canonical.agentAnswer {port : Nat} {m : SlabMsg} {excl : Bool} (h : s.canonical) : (s.agentAnswer port m excl).canonical := by
  dsimp only [State.agentAnswer]
  split
  · split
    · exact h.failReq.nextOwn
    · exact h.storeLine.notePst.put.startOwn.ite h.storeLine.notePst.put.serveOwn
    · exact h
  · split
    · exact h.failReq
    · exact h.storeLine.notePst.push

theorem State.canonical.slabAnswer {port : Nat} {m : SlabMsg} {excl : Bool} (h : s.canonical) : (s.slabAnswer port m excl).canonical :=
  h.agentAnswer.ite h.lineAnswer

theorem State.canonical.execHeldMessageRelease {router tag : Nat} {slab : Bool} (h : s.canonical) :
    NextCanonical (execHeldMessageRelease router tag slab s) := by
  dsimp only [Machine.execHeldMessageRelease]
  split
  · exact h
  · split
    · exact h.frame.execRd
    · exact h.frame.execXreq
    · split
      · exact h.frame.restart
      · exact h.frame.execSrdSteeredRead

theorem State.canonical.noteActive {e : Event} (h : s.canonical) : (s.noteActive e).canonical := by
  unfold State.noteActive
  split
  · exact h.ite h.frame
  · exact h

theorem State.canonical.execQuiet {tag router : Nat} (h : s.canonical) : NextCanonical (execQuiet tag router s) := by
  unfold Machine.execQuiet
  extract_lets l seen act ok _ t _ u _ v l' w up
  have ht : t.canonical := h.frame
  have hv : v.canonical := ht.frame
  have hw : w.canonical := ht.frame
  split
  · exact h
  split
  · split
    · exact ht.frame
    · exact hv.foldl fun _ _ h => h.push.ite h
  · split
    · exact hw.push
    · exact hw

theorem State.canonical.startWave {tag : Nat} (h : s.canonical) : (s.startWave tag).canonical :=
  h.ite (h.foldl (fun _ _ ht => ht.push))

theorem State.canonical.setMlink {k : Nat} {x : MLink} (h : s.canonical) : (s.setMlink k x).canonical :=
  h

theorem State.canonical.execWreq {link width : Nat} (h : s.canonical) : NextCanonical (execWreq link width s) :=
  h.setMlink.push

theorem State.canonical.execWack {link : Nat} (h : s.canonical) : NextCanonical (execWack link s) := by
  unfold Machine.execWack
  split
  · exact h.setMlink.push
  · exact h

theorem State.canonical.execTrainingEnd {link : Nat} (h : s.canonical) : NextCanonical (execTrainingEnd link s) := by
  unfold Machine.execTrainingEnd
  split
  · exact h.setMlink.push
  · exact h

theorem State.canonical.widthSet {link width : Nat} (h : s.canonical) : (s.widthSet link width).canonical :=
  h.setMlink.countRouter

theorem State.canonical.execFrame {link : Nat} (h : s.canonical) : NextCanonical (execFrame link s) := by
  unfold Machine.execFrame
  split
  · exact h.widthSet
  · exact h

theorem State.canonical.execFrameLockTimeout {link : Nat} (h : s.canonical) : NextCanonical (execFrameLockTimeout link s) := by
  unfold Machine.execFrameLockTimeout
  split
  · exact h.frame.push
  · exact h

theorem State.canonical.execWnak {link : Nat} (h : s.canonical) : NextCanonical (execWnak link s) := by
  dsimp only [Machine.execWnak]
  split
  · exact h
  · split
    · exact h.widthSet.logErr
    · exact h.setMlink.push

/-! ### Links -/

theorem State.canonical.ackTo {p n : Nat} (h : s.canonical) : (s.ackTo p n).canonical := by
  dsimp only [State.ackTo]
  split
  · exact h
  · exact h.setPort

theorem State.canonical.failAgents {p : Nat} (h : s.canonical) : (s.failAgents p).canonical :=
  h.frame.foldl fun _ _ ht => ht.foldl fun _ _ hu => hu.failLine.ite hu

theorem State.canonical.failPeers {p : Nat} (h : s.canonical) : (s.failPeers p).canonical :=
  h.failAgents.foldl fun _ _ ht => ht.ite (ht.setOp.reportOp.ite ht.setOp.push)

theorem State.canonical.failRma {p : Nat} (h : s.canonical) : (s.failRma p).canonical := by
  unfold State.failRma
  refine h.foldl fun _ _ ht => ?_
  split
  · exact ht.engFail.ite ht
  · exact ht.engFail.ite ht
  · exact ht

theorem State.canonical.failSlabs {p : Nat} (h : s.canonical) : (s.failSlabs p).canonical :=
  h.foldl fun _ _ ht => (ht.foldl (fun _ _ hu => hu.logErr)).clearSlab.ite (ht.putRoot.serveWaiting.ite ht)

theorem State.canonical.spdmTo {ch n : Nat} (h : s.canonical) : (s.spdmTo ch n).canonical :=
  h

theorem State.canonical.leaveUp {p : Nat} (h : s.canonical) : (s.leaveUp p).canonical :=
  h.ite h.failPeers.failRma.count.setPort.failSlabs.spdmTo

theorem State.canonical.resend {p : Nat} (h : s.canonical) : (s.resend p).canonical :=
  h.ite (h.leaveUp.ite h.setPort.count)

theorem State.canonical.askMeasure {p k : Nat} (h : s.canonical) : (s.askMeasure p k).canonical :=
  h.linkSend.draw

theorem State.canonical.attestAnswer {p code : Nat} {body : List Nat} (h : s.canonical) : (s.attestAnswer p code body).canonical := by
  unfold State.attestAnswer
  split
  · exact h.linkSend
  · exact h.linkSend
  · exact h.linkSend.ite h
  · exact h.setPort.askMeasure.ite h
  · exact (h.setPort.askMeasure.ite h.setPort).ite h
  · exact h

theorem State.canonical.mgmtMessage {p code : Nat} {body : List Nat} (h : s.canonical) : (s.mgmtMessage p code body).canonical := by
  unfold State.mgmtMessage
  split
  · exact h.push
  · exact h.push
  · exact h.push
  · exact h.push
  · exact h.push
  · exact h.push
  · exact h.push
  · exact h.attestAnswer

theorem State.canonical.deliver {p : Nat} {m : LinkMsg} (h : s.canonical) : (s.deliver p m).canonical := by
  unfold State.deliver
  split
  · exact h.push
  split
  · exact h
  split
  case h_6 => exact h.mgmtMessage
  case h_11 => exact h.atomicAnswer.ite h.serveAtomic
  case h_12 => exact h
  all_goals exact h.push

theorem State.canonical.execFlitReceived {port seq ack : Nat} {crcOk : Bool} {msg : LinkMsg} (h : s.canonical) :
    NextCanonical (execFlitReceived port seq ack crcOk msg s) := by
  dsimp only [Machine.execFlitReceived]
  split
  · exact h
  · split
    · exact h.setPort
    · exact h.setPort.ackTo.count.deliver

theorem State.canonical.execNak {port last : Nat} (h : s.canonical) : NextCanonical (execNak port last s) := by
  unfold Machine.execNak
  split
  · exact h.ackTo.resend
  · exact h

theorem State.canonical.execAckTimeout {port : Nat} (h : s.canonical) : NextCanonical (execAckTimeout port s) := by
  unfold Machine.execAckTimeout
  split
  · exact h.resend
  · exact h

theorem State.canonical.startDiscovery {p : Nat} (h : s.canonical) : (s.startDiscovery p).canonical :=
  h.setPort.linkSend

theorem State.canonical.execLinkTrained {port : Nat} (h : s.canonical) : NextCanonical (execLinkTrained port s) := by
  unfold Machine.execLinkTrained
  split
  · exact h.startDiscovery
  · exact h

theorem State.canonical.execDiscovery {port : Nat} {m : DiscMsg} (h : s.canonical) : NextCanonical (execDiscovery port m s) := by
  dsimp only [Machine.execDiscovery]
  split
  · exact h
  · exact h.setPort.linkSend

theorem State.canonical.execLossOfSignal {port : Nat} (h : s.canonical) : NextCanonical (execLossOfSignal port s) :=
  h.leaveUp

theorem State.canonical.execRetrainComplete {port : Nat} (h : s.canonical) : NextCanonical (execRetrainComplete port s) := by
  dsimp only [Machine.execRetrainComplete]
  split
  · exact h
  · split
    · exact h.setPort.setPort
    · exact h.setPort.startDiscovery

theorem State.canonical.execSlabRead {port : Nat} {m : SlabMsg} (h : s.canonical) : NextCanonical (execSlabRead port m s) := by
  unfold Machine.execSlabRead
  split
  · exact h.slabAnswer
  · exact h.serveSlab

theorem State.canonical.execSlabExclusive {port : Nat} {m : SlabMsg} (h : s.canonical) : NextCanonical (execSlabExclusive port m s) := by
  unfold Machine.execSlabExclusive
  split
  · exact h.slabAnswer
  · exact h.serveSlab

theorem State.canonical.execSlabDowngrade {port : Nat} {m : SlabMsg} (h : s.canonical) : NextCanonical (execSlabDowngrade port m s) := by
  unfold Machine.execSlabDowngrade
  split
  · exact h.rootAnswer
  split
  · exact h.later
  · exact h.lowerSlab

theorem State.canonical.execSlabTeardown {port : Nat} {m : SlabMsg} (h : s.canonical) : NextCanonical (execSlabTeardown port m s) := by
  unfold Machine.execSlabTeardown
  split
  · exact h.rootAnswer
  · split
    · exact h.later
    · exact h.giveSlab

theorem State.canonical.rmaIssue {i : Instr} {w : Bool} {a : RF} {c : Fin 16} (h : s.canonical) : NextCanonical (rmaIssue i w a c s) := by
  dsimp only [Machine.rmaIssue]
  refine h.issueWord fun _ _ => ?_
  split
  · exact h.cmdTrap
  · exact h.issueOp.push

theorem State.canonical.rmaFail {o cause : Nat} {w : Bool} (h : s.canonical) : (s.rmaFail o cause w).canonical :=
  h.engFail

theorem State.canonical.runRma {o : Nat} {w : Bool} (h : s.canonical) : (s.runRma o w).canonical := by
  unfold State.runRma
  extract_lets p
  split
  next d off _ =>
  extract_lets a
  split
  · exact h
  split
  · exact h.later
  split
  · next e => exact (h.portCheck.of_eq e).rmaFail
  · next e => exact (h.portCheck.of_eq e).rmaFail.ite (h.portCheck.of_eq e).engPage
  · next e =>
    have ht := h.portCheck.of_eq e
    extract_lets pfn data r t
    split
    · exact ht.rmaFail
    split
    · exact ht.rmaFail
    split
    · exact ht.rmaFail
    · exact ht.setOp.linkSend

theorem State.canonical.execRwriAck {op : Nat} {st : RmaStatus} (h : s.canonical) : NextCanonical (execRwriAck op st s) := by
  unfold Machine.execRwriAck
  split
  · exact h
  · split
    · split
      · exact h.completeOp
      · exact h.rmaFail
    · exact h

theorem State.canonical.execRrdData {op : Nat} {st : RmaStatus} {data : List Nat} (h : s.canonical) : NextCanonical (execRrdData op st data s) := by
  dsimp only [Machine.execRrdData]
  split
  · exact h
  · split
    · split
      · exact h.rmaFail
      · split
        · split
          · exact h.swrite.engFail
          · exact h.swrite.barApply.overUnlessHeld fun _ ht => ht.completeOp
        · exact h.swrite.completeOp
    · exact h

theorem State.canonical.rmaRefused {port : Nat} {r : RmaReq} (h : s.canonical) : (s.rmaRefused port r).canonical :=
  h.count.logErr

theorem State.canonical.rmaPorts {r : RmaReq} {k : PKind} (h : s.canonical) : (s.rmaPorts r k).1.canonical := by
  unfold State.rmaPorts
  refine h.foldlFst fun _ _ ht => ?_
  split
  · exact ht
  · rename_i e
    split
    · next e₁ => exact (ht.portCheck.of_eq e₁).homeWant
    · next e₁ => exact ht.portCheck.of_eq e₁
    · next e₁ => exact ht.portCheck.of_eq e₁

theorem State.canonical.noteBinding {ctx obj : Nat} (h : s.canonical) : (s.noteBinding ctx obj).canonical :=
  h.ite h.noteRead

theorem State.canonical.execInboundRwri {port : Nat} {r : RmaReq} (h : s.canonical) : NextCanonical (execInboundRwri port r s) := by
  dsimp only [Machine.execInboundRwri]
  split
  · exact h.rmaRefused.linkSend
  · next e => exact (h.rmaPorts.of_eq e).rmaRefused.linkSend
  · rename_i e
    split
    · exact (h.rmaPorts.of_eq e).count.engPuts.noteBinding.linkSend
    · split
      · next e₂ => exact ((h.rmaPorts.of_eq e).count.engPuts.noteBinding.appendRec.of_eq e₂).linkSend
      · exact (h.rmaPorts.of_eq e).count.engPuts.noteBinding.logErr.linkSend

theorem State.canonical.execInboundRrd {port : Nat} {r : RmaReq} (h : s.canonical) : NextCanonical (execInboundRrd port r s) := by
  unfold Machine.execInboundRrd
  split
  · exact h.rmaRefused.linkSend
  · next e => exact (h.rmaPorts.of_eq e).rmaRefused.linkSend
  · next e => exact (h.rmaPorts.of_eq e).count.linkSend

theorem State.canonical.execChannelRequest {port : Nat} {r : ChanReq} (h : s.canonical) : NextCanonical (execChannelRequest port r s) := by
  unfold Machine.execChannelRequest
  extract_lets rs ok ls want t u
  have hw : (want s).canonical := h.foldl fun _ _ h => h.homeWant
  have ht : t.canonical := hw.foldl fun _ _ h => h.tearLine.touch
  have hu : u.canonical := ht.foldl fun _ _ h => h.cleanSectors.ite h
  split
  · exact h.logErr.linkSend
  split
  · exact hu.pwrite.linkSend
  split
  · exact hw.linkSend
  · exact hw.linkSend

/-! ### Queue -/

theorem State.canonical.setQueue {ctx qn : Nat} {q : Queue} (h : s.canonical) : (s.setQueue ctx qn q).canonical :=
  h

theorem State.canonical.setCctr {ctx i c e n : Nat} (h : s.canonical) : (s.setCctr ctx i c e n).canonical :=
  h.hwrite

theorem State.canonical.bell {r0 r1 : Nat} (h : s.canonical) : (s.bell r0 r1).canonical :=
  h

theorem State.canonical.bellFail {status : Nat} (h : s.canonical) : (s.bellFail status).canonical :=
  h.bell.count

theorem State.canonical.execReserve {ctx qn n : Nat} (h : s.canonical) : NextCanonical (execReserve ctx qn n s) := by
  dsimp only [Machine.execReserve]
  split
  · exact h.bellFail
  · split
    · exact h.bellFail
    · split
      · rename_i e
        split
        · exact h.bellFail
        · exact (h.reserveAll.of_eq e).setQueue.count.bell
      · exact h.bellFail
      · exact h.bellFail

theorem State.canonical.execCommit {ctx qn n : Nat} (h : s.canonical) : NextCanonical (execCommit ctx qn n s) := by
  dsimp only [Machine.execCommit]
  split
  · exact h.bellFail
  · split
    · exact h.bellFail
    · split
      · exact h.bellFail
      · exact (h.setQueue.foldl (fun _ _ ht => ht.commitAt)).count.bell

theorem State.canonical.execRefresh {ctx qn : Nat} (h : s.canonical) : NextCanonical (execRefresh ctx qn s) := by
  unfold Machine.execRefresh
  split
  · exact h.bellFail
  extract_lets t
  have ht : t.canonical := h.noteRead
  split
  · exact ht.setQueue.bellFail
  split
  · exact ht.setQueue.bell
  · exact ht.setQueue.bell.push.ite ht.setQueue.bell

theorem State.canonical.askTokens {ctx i : Nat} (h : s.canonical) : (s.askTokens ctx i).canonical := by
  unfold State.askTokens
  refine h.foldl fun _ _ ht => ?_
  split
  · exact ht.push.ite ht
  · exact ht

theorem State.canonical.countDone {ctx i target : Nat} {err : Bool} (h : s.canonical) : (s.countDone ctx i target err).canonical :=
  h.frame.setCctr.askTokens.foldl fun _ _ ht => ht.push.ite ht

theorem State.canonical.finishLaunch {k : Nat} (h : s.canonical) : OptCanonical (s.finishLaunch k) := by
  unfold State.finishLaunch
  extract_lets l status app
  have ha : OptCanonical app := by
    unfold app
    split
    · split
      · next e => exact (h.appendRec.of_eq e).seqLeave
      · trivial
      · exact h.logErr
    · exact h
  exact ha.mapState fun t ht => (ht.setLch.count.ite ht.setLch).countDone.ite (ht.setLch.count.ite ht.setLch)

theorem State.canonical.launchWaits {k : Nat} (h : s.canonical) : (s.launchWaits k).canonical :=
  (h.ite h.frame.count).later

theorem State.canonical.execLaunchComplete {launch : Nat} (h : s.canonical) : NextCanonical (execLaunchComplete launch s) := by
  dsimp only [Machine.execLaunchComplete]
  split
  · exact h
  · split
    · next e => exact h.finishLaunch.of_eq e
    · exact h.launchWaits

theorem State.canonical.opAnswer {o : Nat} {v : Word} (h : s.canonical) : (s.opAnswer o v).canonical :=
  h.setGrp.seqEnd

theorem State.canonical.answerLaunch {ctx qn pos v : Nat} (h : s.canonical) : (s.answerLaunch ctx qn pos v).canonical := by
  unfold State.answerLaunch
  split
  · exact h.opAnswer
  · exact h

theorem State.canonical.pastRecord {ctx qn : Nat} (h : s.canonical) : (s.pastRecord ctx qn).canonical :=
  h.setQueue.push.ite h.setQueue

theorem State.canonical.acceptRec {ctx qn pos : Nat} {r : LRec} (h : s.canonical) : (s.acceptRec ctx qn pos r).canonical := by
  unfold State.acceptRec
  extract_lets q i c n counted t token ok clamp u k _ l v w x y z
  have ht : t.canonical := h.setCctr.ite h
  have hu : u.canonical := ht.count.ite ht
  have hv : v.canonical := hu.frame
  have hy : y.canonical := hv.setQueue.answerLaunch
  have hz : z.canonical := hy.count
  exact hy.ite (hz.finishLaunch.getD hz.launchWaits)

theorem State.canonical.execRecordAccept {ctx qn : Nat} (h : s.canonical) : NextCanonical (execRecordAccept ctx qn s) := by
  dsimp only [Machine.execRecordAccept]
  split
  · exact h
  · split
    · exact h.pastRecord
    · split
      · exact h.noteReads.noteReads.count.answerLaunch.pastRecord
      · split
        · exact h.noteReads.noteReads
        · exact h.noteReads.noteReads.acceptRec.pastRecord

theorem State.canonical.tokenIssue {i : Instr} {d a : RF} (h : s.canonical) : NextCanonical (tokenIssue i d a s) :=
  h.issueWord fun _ _ => h.issueOp.push

theorem State.canonical.runToken {o : Nat} {wait : Bool} (h : s.canonical) : (s.runToken o wait).canonical := by
  dsimp only [State.runToken]
  split
  · split
    · exact h.endOp
    · exact h.setOp
  · exact h.opAnswer.ite h.noAcquire.opAnswer

theorem State.canonical.launchGoes {o qn pos : Nat} (h : s.canonical) : (s.launchGoes o qn pos).canonical := by
  dsimp only [State.launchGoes]
  split
  · refine State.canonical.push ?_
    split
    · exact h.seqLeave.setOp.setGrp.ite h.seqLeave.setOp
    · exact h.seqLeave.setOp.setGrp.ite h.seqLeave.setOp
    · exact h.seqLeave.setOp
  · split
    · exact h.seqLeave.setOp.setGrp.ite h.seqLeave.setOp
    · exact h.seqLeave.setOp.setGrp.ite h.seqLeave.setOp
    · exact h.seqLeave.setOp

theorem State.canonical.launchAppend {o : Nat} {bytes : List Nat} (h : s.canonical) : (s.launchAppend o bytes).canonical := by
  dsimp only [State.launchAppend]
  split
  · exact h.opAnswer
  · split
    · exact h.opAnswer
    · exact h.ite h.trapOp
    · exact h.seqPark
    · next e => exact h.seqPark.ite (h.reserveAll.of_eq e).hstore.launchGoes.commitAt.count

theorem State.canonical.runLaunch {o : Nat} (h : s.canonical) : (s.runLaunch o).canonical := by
  unfold State.runLaunch
  extract_lets p a ps
  split
  · exact h
  split
  · exact h.later
  split
  · next e => exact h.engReads.of_eq e
  · next e => exact (h.engReads.of_eq e).trapOp
  · next e =>
    have ht := h.engReads.of_eq e
    exact ht.setOp.setGrp.count.reportPage.stopWaiting.ite ht.trapOp
  · next e => exact (h.engReads.of_eq e).launchAppend

/-! ### Swap -/

theorem State.canonical.imageHeader {c flags : Nat} (h : s.canonical) : (s.imageHeader c flags).canonical := by
  dsimp only [State.imageHeader]
  split
  · exact h
  · exact h.hstore

theorem State.canonical.endLanes {g : Nat} (h : s.canonical) : (s.endLanes g).canonical := by
  unfold State.endLanes
  refine State.canonical.frame (h.foldl (fun _ _ ht => ?_))
  split
  · exact ht.setGrp
  · exact ht

theorem State.canonical.dropReads {g : Nat} (h : s.canonical) : (s.dropReads g).canonical :=
  h.foldl fun _ _ ht => ht.delOp

theorem State.canonical.dropDiscarded {g : Nat} (h : s.canonical) : (s.dropDiscarded g).canonical := by
  unfold State.dropDiscarded
  refine (h.foldl (fun _ _ ht => ht.delOp)).foldl fun _ _ ht => ?_
  split
  · exact ht.completeOp
  · exact ht

theorem State.canonical.leavePartition {g : Nat} (h : s.canonical) : (s.leavePartition g).canonical := by
  unfold State.leavePartition
  extract_lets t hit u v x w
  have hu : u.canonical := by
    refine State.canonical.foldl h.dropReads.dropDiscarded fun t e ht => ?_
    split
    · exact ht.foldl fun _ _ h => h.setGrp
    · exact ht
  exact hu.endLanes.setGrp.frame

theorem State.canonical.swapOp {o : Nat} (h : s.canonical) : (s.swapOp o).canonical :=
  h.ite h.frame.seqLeave.unqueue.setOp

theorem State.canonical.dropTables {c : Nat} (h : s.canonical) : (s.dropTables c).canonical :=
  h.foldl fun _ _ ht => ht.setCore

theorem State.canonical.imageBody {c : Nat} (h : s.canonical) : (s.imageBody c).canonical := by
  dsimp only [State.imageBody]
  split
  · exact h
  · exact (h.foldl (fun _ _ ht => ht.hstore)).frame

theorem State.canonical.withdrawOps {c : Nat} (h : s.canonical) : (s.withdrawOps c).canonical :=
  h.foldl fun _ _ ht => ht.swapOp

theorem State.canonical.stretch {c : Nat} (h : s.canonical) : (s.stretch c).canonical :=
  h.ite h.setCrs.count

theorem State.canonical.swapOut {c : Nat} (h : s.canonical) : (s.swapOut c).canonical := by
  unfold State.swapOut
  split
  · exact h
  · exact (h.foldl (fun _ _ ht => ht.leavePartition)).withdrawOps.dropTables.setCrs.imageHeader.imageBody.push

theorem State.canonical.execSpillComplete {course : Nat} (h : s.canonical) : NextCanonical (execSpillComplete course s) := by
  unfold Machine.execSpillComplete
  split
  · exact h
  · split
    · exact (h.stretch.ite h).later
    · exact h.withdrawOps.setCrs.imageHeader

theorem State.canonical.requeue {o : Nat} (h : s.canonical) : (s.requeue o).canonical := by
  dsimp only [State.requeue]
  split <;> exact h.setCore.push.ite h.setCore

theorem State.canonical.countReplay {o : Nat} (h : s.canonical) : (s.countReplay o).canonical :=
  h.count.ite h

theorem State.canonical.reaccess {o : Nat} (h : s.canonical) : (s.reaccess o).canonical :=
  (h.setOp.foldl (fun _ _ ht => ht.push)).ite ((h.setOp.push.ite h.setOp).ite h.setOp.sendChecks)

theorem State.canonical.rekick {o : Nat} (h : s.canonical) : (s.rekick o).canonical := by
  dsimp only [State.rekick]
  split
  · exact h.reaccess
  split
  case h_4 => exact h.ite h.push
  case h_3 | h_33 => exact h
  case h_1 | h_2 | h_5 | h_6 | h_7 | h_8 | h_9 | h_10 | h_11 => exact h.push
  all_goals exact h.requeue

theorem State.canonical.purgeQueues {gs : List Nat} (h : s.canonical) : (s.purgeQueues gs).canonical :=
  h.foldl fun _ _ ht => ht.setCore

theorem State.canonical.enterPartition {g : Nat} (h : s.canonical) : (s.enterPartition g).canonical := by
  dsimp only [State.enterPartition]
  split
  · exact h
  · exact h
  · exact h.frame

theorem State.canonical.startCourse {c : Nat} (h : s.canonical) : (s.startCourse c).canonical :=
  h.setCrs.foldl fun _ _ ht => ht.enterPartition

theorem State.canonical.resumeGroup {g : Nat} (h : s.canonical) : (s.resumeGroup g).canonical := by
  unfold State.resumeGroup
  refine h.push.push.foldl fun _ _ ht => ?_
  split
  · exact ht.push
  · exact ht

theorem State.canonical.resumeCourse {c : Nat} (h : s.canonical) : (s.resumeCourse c).canonical :=
  ((h.setCrs.startCourse.foldl (fun _ _ ht => ht.countReplay.rekick)).foldl (fun _ _ ht => ht.resumeGroup)).settle

theorem State.canonical.bringIn {c : Nat} (h : s.canonical) : (s.bringIn c).canonical :=
  h.resumeCourse.ite h.startCourse

theorem State.canonical.courseReady {c : Nat} (h : s.canonical) : (s.courseReady c).canonical :=
  h.bringIn.ite h.setCrs.push

theorem State.canonical.markWord {course rank off : Nat} (h : s.canonical) : (s.markWord course rank off).canonical := by
  unfold State.markWord
  split
  · exact h
  · exact h.ite h.setBlk.logErr

theorem State.canonical.execImageFillComplete {course : Nat} {bad : List (Nat × Nat)} (h : s.canonical) :
    NextCanonical (execImageFillComplete course bad s) := by
  dsimp only [Machine.execImageFillComplete]
  split
  · exact h.later
  · split
    · exact (h.foldl (fun _ _ ht => ht.markWord)).courseReady
    · exact h

theorem State.canonical.execBankSwitchComplete {course : Nat} (h : s.canonical) : NextCanonical (execBankSwitchComplete course s) := by
  dsimp only [Machine.execBankSwitchComplete]
  split
  · exact h
  · split
    · exact (h.foldl (fun _ _ ht => ht.stretch)).later
    · split
      · exact h.later
      · split
        · exact ((h.foldl (fun _ _ ht => ht.swapOut)).foldl (fun _ _ ht => ht.stretch)).later
        · exact ((h.foldl (fun _ _ ht => ht.swapOut)).ite (h.foldl (fun _ _ ht => ht.swapOut)).count).bringIn

/-! ### Place -/

theorem State.canonical.putQueue {k : Nat} {q : Queue} (h : s.canonical) : (s.putQueue k q).canonical :=
  h

theorem State.canonical.grantSlot {k : Nat} (h : s.canonical) : (s.grantSlot k).canonical := by
  dsimp only [State.grantSlot]
  split
  · exact h
  · refine State.canonical.push (State.canonical.putQueue ?_)
    split
    · exact h
    · exact h.putQueue.ite h.putQueue

theorem State.canonical.grants (h : s.canonical) : (s.grants).canonical :=
  h.foldl fun _ _ ht => ht.grantSlot

theorem State.canonical.watchWaits (h : s.canonical) : (s.watchWaits).canonical :=
  h.foldl fun _ _ ht => ht.putQueue.ite ht

theorem State.canonical.tickQueues (h : s.canonical) : s.tickQueues.canonical := by
  refine h.watchWaits.grants.foldl fun t e ht => ?_
  extract_lets ctx qn u v
  have hu : u.canonical := ht.pushNew.ite ht
  have hv : v.canonical := hu.pushNew.ite hu
  exact hv.pushNew.ite hv

theorem State.canonical.execSlotMoveComplete {ctx qn : Nat} (h : s.canonical) : NextCanonical (execSlotMoveComplete ctx qn s) := by
  dsimp only [Machine.execSlotMoveComplete]
  split
  · exact h
  · split
    · exact h.setQueue.push
    · exact h.setQueue

theorem State.canonical.execRotation {ctx qn : Nat} (h : s.canonical) : NextCanonical (execRotation ctx qn s) := by
  dsimp only [Machine.execRotation]
  split
  · exact h.setQueue.grants
  · exact h

theorem State.canonical.execMappingBoundExceeded {ctx qn : Nat} (h : s.canonical) : NextCanonical (execMappingBoundExceeded ctx qn s) := by
  dsimp only [Machine.execMappingBoundExceeded]
  split
  · exact h.setQueue.logErr
  · exact h

theorem State.canonical.claimPool {b : Nat} (h : s.canonical) : (s.claimPool b).canonical :=
  (h.setCore.push.ite h.setCore).ite h.setCore.push

theorem State.canonical.placeNew {k tag : Nat} {seam : Bool} {at_ : List (Nat × Bool)} {outs : List Nat} (h : s.canonical) :
    (s.placeNew k tag seam at_ outs).canonical :=
  h.frame.setLch.setQueue.foldl fun _ _ ht => ht.claimPool

theorem State.canonical.placeGroups {c : Nat} (h : s.canonical) : (s.placeGroups c).canonical :=
  (h.foldl (fun _ _ ht => ht.setGrp)).foldl fun _ _ ht => ht.setGrp

theorem State.canonical.placeSaved {c : Nat} {seam : Bool} {at_ : List (Nat × Bool)} {outs : List Nat} (h : s.canonical) :
    (s.placeSaved c seam at_ outs).canonical :=
  ((h.purgeQueues.foldl (fun _ _ ht => ht.setBlk)).setCrs.foldl (fun _ _ ht => ht.claimPool)).placeGroups.push

theorem State.canonical.placeAt {e : Nat × Option Nat} {tag : Nat} {seam : Bool} {at_ : List (Nat × Bool)} {outs : List Nat} (h : s.canonical) :
    (s.placeAt e tag seam at_ outs).canonical := by
  unfold State.placeAt
  split
  · exact h.placeSaved
  · exact h.placeNew

theorem State.canonical.placeAll {n : Nat} (h : s.canonical) : (s.placeAll n).canonical := by
  induction n generalizing s with
  | zero => exact h
  | succ n ih =>
    unfold State.placeAll
    split
    · exact ih h.placeAt
    · exact h

theorem State.canonical.preempt {e : Nat × Option Nat} (h : s.canonical) : (s.preempt e).canonical := by
  dsimp only [State.preempt]
  split
  · exact h.placeAt
  · split
    · exact h
    · split
      · exact (h.foldl (fun _ _ ht => ht.swapOut.setCrs)).count
      · exact h

theorem State.canonical.stretchFor {e : Nat × Option Nat} (h : s.canonical) : (s.stretchFor e).canonical :=
  h.foldl fun _ _ ht => ht.stretch

theorem State.canonical.tickWaits (h : s.canonical) : (s.tickWaits).canonical := by
  unfold State.tickWaits
  refine h.foldl fun _ _ ht => ?_
  split
  · exact ht
  · refine State.canonical.preempt (State.canonical.stretchFor ?_)
    split
    · exact ht.setLch.ite ht
    · exact ht

theorem State.canonical.execPoolAllocationComplete {blk : Nat} (h : s.canonical) : NextCanonical (execPoolAllocationComplete blk s) := by
  dsimp only [Machine.execPoolAllocationComplete]
  split
  · exact h
  · split
    · exact (h.foldl (fun _ _ ht => ht.frame)).setBlk.courseReady
    · exact (h.foldl (fun _ _ ht => ht.frame)).setBlk

theorem State.canonical.launchOver {k : Nat} (h : s.canonical) : (s.launchOver k).canonical :=
  h.setLch.ite h

theorem State.canonical.releaseBlock {b : Nat} (h : s.canonical) : (s.releaseBlock b).canonical := by
  unfold State.releaseBlock
  refine h.setBlk.endHeld.foldl fun _ _ ht => ?_
  split
  · exact ht.push.ite ht
  · exact ht

theorem State.canonical.courseOver {c : Nat} (h : s.canonical) : (s.courseOver c).canonical :=
  h.ite (h.foldl (fun _ _ ht => ht.releaseBlock)).setCrs.setLch.launchOver

theorem State.canonical.execBlockRetire {blk : Nat} (h : s.canonical) : NextCanonical (execBlockRetire blk s) := by
  dsimp only [Machine.execBlockRetire]
  split
  · exact h
  · split
    · exact h.foldl fun _ _ ht => ht.delOp
    · exact ((h.foldl (fun _ _ ht => ht.delOp)).setBlk.ite (h.foldl (fun _ _ ht => ht.delOp)).releaseBlock).courseOver

theorem State.canonical.loseBlock {b : Nat} (h : s.canonical) : (s.loseBlock b).canonical :=
  ((h.purgeQueues.foldl (fun _ _ ht => ht.seqLeave.delOp)).foldl (fun _ _ ht => ht.setGrp)).setBlk.endHeld.setLch

theorem State.canonical.breakCourse {c : Nat} (h : s.canonical) : (s.breakCourse c).canonical := by
  unfold State.breakCourse
  refine ((h.foldl (fun _ _ ht => ht.foldl (fun _ _ hu => hu.breakBar.freeHeld))).ite h).foldl fun _ _ ht => ?_
  split
  · exact ht.push.ite ht
  · exact ht

theorem State.canonical.failCourse {die c : Nat} (h : s.canonical) : (s.failCourse die c).canonical := by
  dsimp only [State.failCourse]
  split
  · exact h
  · split
    · exact h
    · exact h
    · exact h
    · exact h.imageHeader.foldl fun _ _ ht => ht.loseBlock
    · exact h.setCrs.ite (h.foldl (fun _ _ ht => ht.loseBlock))

theorem State.canonical.dropCore {core : Nat} (h : s.canonical) : (s.dropCore core).canonical :=
  (h.foldl (fun _ _ ht => ht.ite ht.dropLine)).setCore

theorem State.canonical.execDieFatalFailure {die : Nat} (h : s.canonical) : NextCanonical (execDieFatalFailure die s) := by
  unfold Machine.execDieFatalFailure
  split
  · exact h
  extract_lets _ t u cs lost before failed dropped hit broken ready
  have hf : failed.canonical := h.frame.logErr.foldl fun _ _ ht => ht.failCourse
  have hd : dropped.canonical := hf.foldl fun _ _ ht => ht.dropCore
  have hb : broken.canonical := hd.foldl fun _ _ ht => ht.breakCourse.courseOver
  exact hb.foldl fun _ _ ht => ht.courseReady

/-! ### Tick -/

theorem State.canonical.sendIrq {n : Nat} (h : s.canonical) : (s.sendIrq n).canonical :=
  h.frame.ite h.pcie

theorem State.canonical.lendAll (h : s.canonical) : (s.lendAll).canonical :=
  h

theorem State.canonical.tickFences (h : s.canonical) : (s.tickFences).canonical := by
  unfold State.tickFences
  refine h.foldl fun _ _ ht => ?_
  split
  · exact ht.pushNew.ite ht
  · exact ht

theorem State.canonical.tickWaves (h : s.canonical) : (s.tickWaves).canonical :=
  h.foldl fun _ _ ht => ht.startWave.ite ht

theorem State.canonical.tickLaunch (h : s.canonical) : (s.tickLaunch).canonical :=
  (h.tickQueues.foldl (fun _ _ ht => ht.launchOver)).placeAll.tickWaits.lendAll.tickWaves

theorem State.canonical.tickIrqs (h : s.canonical) : (s.tickIrqs).canonical :=
  h.frame.foldl fun _ _ ht => ht.sendIrq

theorem State.canonical.execPackageTick (h : s.canonical) : NextCanonical (execPackageTick s) := by
  unfold Machine.execPackageTick
  extract_lets t u v
  have ht : t.canonical := h.frame
  have hu : u.canonical := ht.push.ite ht
  have hv : v.canonical := hu.push.ite hu
  split
  · exact hv.tickFences.tickLaunch.tickIrqs.serveAtomics
  · exact hv

theorem State.canonical.execSystemTick (h : s.canonical) : NextCanonical (execSystemTick s) :=
  h.tickFences

theorem State.canonical.execPredictorDecay (h : s.canonical) : NextCanonical (execPredictorDecay s) :=
  h

theorem State.canonical.execSequenceAnswer {op : Nat} (h : s.canonical) : NextCanonical (execSequenceAnswer op s) := by
  unfold Machine.execSequenceAnswer
  split
  · exact h
  split
  case h_1 => exact h.runLaunch
  case h_2 | h_3 => exact h.runToken
  case h_4 | h_5 => exact h.runRma
  case h_22 => exact h
  all_goals exact h.runSeq

/-! ### Mgmt -/

theorem State.canonical.setMbox {m : List Host.Cell} (h : s.canonical) : (s.setMbox m).canonical :=
  h

theorem State.canonical.mboxEnd {status : Nat} (h : s.canonical) : (s.mboxEnd status).canonical :=
  h.setMbox

theorem State.canonical.command {early : Bool} {f : ArgBits} {body : State → Cmd} (h : s.canonical)
    (hb : ∀ t, t.canonical → CmdCanonical (body t))
    : NextCanonical (s.command early f body) := by
  unfold State.command
  split
  · exact h.mboxEnd
  · split
    · exact h.mboxEnd
    · split
      · exact h.mboxEnd
      · next e => exact ((hb _ h).of_eq e).setMbox.mboxEnd

theorem State.canonical.editCtx {c : Nat} {f : Ctx → Ctx} (h : s.canonical) : (s.editCtx c f).canonical :=
  h.setCtx

theorem State.canonical.execStatus (h : s.canonical) : NextCanonical (execStatus s) :=
  h.command fun _ ht => ht.draw

theorem State.canonical.execCtxreg (h : s.canonical) : NextCanonical (execCtxreg s) := by
  dsimp only [Machine.execCtxreg]
  refine h.command fun _ ht => ?_
  split
  · exact trivial
  · split
    · exact trivial
    · split
      · exact trivial
      · split
        · exact trivial
        · exact ht.setCtx

theorem State.canonical.zeroObj {c obj n : Nat} (h : s.canonical) : (s.zeroObj c obj n).canonical := by
  refine h.foldl fun t i ht => ?_
  split
  · exact mzero_wf _ _ _ ht.tearRange.noteWrite
  · exact ht

theorem State.canonical.execSeqarea (h : s.canonical) : NextCanonical (execSeqarea s) := by
  dsimp only [Machine.execSeqarea]
  refine h.command fun _ ht => ?_
  split
  · exact trivial
  · split
    · exact trivial
    · split
      · exact trivial
      · split
        · exact trivial
        · exact (ht.zeroObj.zeroObj.foldl (fun _ _ hu => hu.owrite)).editCtx.flPut

theorem State.canonical.execFlset (h : s.canonical) : NextCanonical (execFlset s) := by
  dsimp only [Machine.execFlset]
  refine h.command fun _ ht => ?_
  split
  · exact trivial
  · split
    · exact trivial
    · split
      · exact trivial
      · split
        · exact trivial
        · exact ht.flPut

theorem State.canonical.execObjtab (h : s.canonical) : NextCanonical (execObjtab s) :=
  h.command fun t ht => by
    extract_lets c base n rb rl ac a
    split
    · trivial
    · refine CmdCanonical.ite ?_ ?_
      · trivial
      · exact ht.editCtx

theorem State.canonical.execFaultseq (h : s.canonical) : NextCanonical (execFaultseq s) := by
  dsimp only [Machine.execFaultseq]
  refine h.command fun _ ht => ?_
  split
  · exact trivial
  · split
    · exact trivial
    · exact ht.editCtx

theorem State.canonical.execNotetab (h : s.canonical) : NextCanonical (execNotetab s) := by
  dsimp only [Machine.execNotetab]
  refine h.command fun _ ht => ?_
  split
  · exact trivial
  · split
    · exact trivial
    · split
      · exact trivial
      · exact ht.editCtx

theorem State.canonical.execQuantum (h : s.canonical) : NextCanonical (execQuantum s) := by
  dsimp only [Machine.execQuantum]
  refine h.command fun _ ht => ?_
  split
  · exact trivial
  · exact ht.frame

theorem State.canonical.execTclimset (h : s.canonical) : NextCanonical (execTclimset s) := by
  dsimp only [Machine.execTclimset]
  refine h.command fun _ ht => ?_
  split
  · exact trivial
  · exact ht.frame.trimRouter

theorem State.canonical.execDomain (h : s.canonical) : NextCanonical (execDomain s) := by
  dsimp only [Machine.execDomain]
  refine h.command fun _ ht => ?_
  split
  · exact trivial
  · split
    · exact trivial
    · exact ht.frame

theorem State.canonical.execProtdom (h : s.canonical) : NextCanonical (execProtdom s) := by
  dsimp only [Machine.execProtdom]
  refine h.command fun _ ht => ?_
  split
  · exact trivial
  · split
    · exact trivial
    · exact ht.frame

theorem State.canonical.execPoisondel (h : s.canonical) : NextCanonical (execPoisondel s) := by
  dsimp only [Machine.execPoisondel]
  refine h.command fun _ ht => ?_
  split
  · exact trivial
  · exact ht.frame

theorem State.canonical.execCntread (h : s.canonical) : NextCanonical (execCntread s) := by
  dsimp only [Machine.execCntread]
  refine h.command fun _ ht => ?_
  split
  · exact trivial
  · exact ht.draw

theorem State.canonical.execLogrot (h : s.canonical) : NextCanonical (execLogrot s) := by
  dsimp only [Machine.execLogrot]
  refine h.command fun _ ht => ?_
  split
  · exact trivial
  · split
    · exact trivial
    · exact ht.frame.logErr

theorem State.canonical.execLogread (h : s.canonical) : NextCanonical (execLogread s) := by
  dsimp only [Machine.execLogread]
  refine h.command fun _ ht => ?_
  split
  · exact trivial
  · exact ht

theorem State.canonical.execPwrlim (h : s.canonical) : NextCanonical (execPwrlim s) := by
  dsimp only [Machine.execPwrlim]
  refine h.command fun _ ht => ?_
  split
  · exact trivial
  · exact ht.frame

theorem State.canonical.execPortrst (h : s.canonical) : NextCanonical (execPortrst s) := by
  dsimp only [Machine.execPortrst]
  refine h.command fun _ ht => ?_
  split
  · exact trivial
  · split
    · exact ht.setPort
    · exact ht

theorem State.canonical.execDieup (h : s.canonical) : NextCanonical (execDieup s) := by
  dsimp only [Machine.execDieup]
  refine h.command fun _ ht => ?_
  split
  · exact trivial
  · exact ht.frame

theorem State.canonical.execCtxrel (h : s.canonical) : NextCanonical (execCtxrel s) := by
  dsimp only [Machine.execCtxrel]
  refine h.command fun _ ht => ?_
  split
  · exact trivial
  · split
    · exact trivial
    · exact ht.frame

theorem State.canonical.execSqcreate (h : s.canonical) : NextCanonical (execSqcreate s) := by
  dsimp only [Machine.execSqcreate]
  refine h.command fun _ ht => ?_
  split
  · exact trivial
  · split
    · exact trivial
    · split
      · next e => exact (ht.seqNew.of_eq e).count
      · exact trivial
      · exact trivial

theorem State.canonical.execFlfill (h : s.canonical) : NextCanonical (execFlfill s) := by
  dsimp only [Machine.execFlfill]
  refine h.command fun _ ht => ?_
  split
  · exact trivial
  · split
    · exact trivial
    · split
      · exact trivial
      · exact (ht.foldl (fun _ _ hu => hu.flGive)).count

theorem State.canonical.execSqdel (h : s.canonical) : NextCanonical (execSqdel s) := by
  dsimp only [Machine.execSqdel]
  refine h.command fun _ ht => ?_
  split
  · exact trivial
  · exact ht.seqRelease.count

theorem State.canonical.execPackageReset (h : s.canonical) : NextCanonical (execPackageReset s) :=
  h

theorem State.canonical.execRomCheckComplete {ok : Bool} (h : s.canonical) : NextCanonical (execRomCheckComplete ok s) := by
  unfold Machine.execRomCheckComplete
  split
  · exact h.frame
  · exact h

theorem State.canonical.execSelftestComplete {code repaired : Nat} (h : s.canonical) : NextCanonical (execSelftestComplete code repaired s) := by
  unfold Machine.execSelftestComplete
  split
  · exact h
  · exact (h.foldl (fun _ _ ht => ht.logErr)).frame

theorem State.canonical.spdmSend {ch code : Nat} {body : List Nat} (h : s.canonical) : (s.spdmSend ch code body).canonical :=
  h.pcie.ite (h.linkSend.ite h)

theorem State.canonical.spdmError {ch code : Nat} (h : s.canonical) : (s.spdmError ch code).canonical :=
  h.spdmSend

theorem State.canonical.spdmAsk {ch need : Nat} {f : State → State} (h : s.canonical) (hf : ∀ t, t.canonical → (f t).canonical) :
    NextCanonical (s.spdmAsk ch need f) := by
  unfold State.spdmAsk
  split
  · exact h.spdmError
  · exact hf _ h

theorem State.canonical.execGetVersion {ch : Nat} (h : s.canonical) : NextCanonical (execGetVersion ch s) :=
  h.spdmTo.spdmSend

theorem State.canonical.execGetCapabilities {ch : Nat} (h : s.canonical) : NextCanonical (execGetCapabilities ch s) :=
  h.spdmAsk fun _ ht => ht.spdmTo.spdmSend

theorem State.canonical.execNegotiateAlgorithms {ch : Nat} {sigs hashes : List Nat} (h : s.canonical) :
    NextCanonical (execNegotiateAlgorithms ch sigs hashes s) :=
  h.spdmAsk fun _ ht => ht.spdmTo.spdmSend.ite ht.spdmSend

theorem State.canonical.execGetDigests {ch : Nat} (h : s.canonical) : NextCanonical (execGetDigests ch s) :=
  h.spdmAsk fun _ ht => ht.spdmSend

theorem State.canonical.execGetCertificate {ch slot off len : Nat} (h : s.canonical) : NextCanonical (execGetCertificate ch slot off len s) :=
  h.spdmAsk fun _ ht => ht.spdmSend.ite ht.spdmError

theorem State.canonical.execChallenge {ch slot nonce : Nat} (h : s.canonical) : NextCanonical (execChallenge ch slot nonce s) :=
  h.spdmAsk fun _ ht => ht.spdmSend.ite ht.spdmError

theorem State.canonical.execGetMeasurements {ch idx nonce : Nat} (h : s.canonical) : NextCanonical (execGetMeasurements ch idx nonce s) :=
  h.spdmAsk fun _ ht => ht.spdmSend.ite ht.spdmError

theorem State.canonical.execPowerControl {isl : List IslandSet} {links : List LinkOrder} (h : s.canonical) :
    NextCanonical (execPowerControl isl links s) :=
  (h.foldl (fun _ _ ht => ht.frame.ite ht)).foldl fun _ _ ht => ht.setMlink.push.ite ht

theorem State.canonical.execThermalThrottle {isl : Nat} (h : s.canonical) : NextCanonical (execThermalThrottle isl s) := by
  dsimp only [Machine.execThermalThrottle]
  split
  · exact h
  · exact h.frame.logErr

theorem State.canonical.execDieOverheat {die : Nat} (h : s.canonical) : NextCanonical (execDieOverheat die s) := by
  unfold Machine.execDieOverheat
  split
  · exact h
  · exact h.frame.push

/-! ### Bridge -/

theorem State.canonical.writeCdb {v : Nat} (h : s.canonical) : NextCanonical (s.writeCdb v) := by
  unfold State.writeCdb
  split
  · exact h.bellFail
  · split
    · exact h.execReserve
    · exact h.execCommit
    · exact h.execRefresh
    · exact h.bellFail

theorem State.canonical.writeRply {v : Nat} (h : s.canonical) : NextCanonical (s.writeRply v) := by
  unfold State.writeRply
  split
  · exact h.count
  · split
    · exact h.execReplayPage
    · exact h.execReplayContext

theorem State.canonical.writeIrqb {off size val : Nat} (h : s.canonical) : (s.writeIrqb off size val).canonical :=
  h

theorem State.canonical.writeMsix {off size val : Nat} (h : s.canonical) : (s.writeMsix off size val).canonical :=
  h.frame.foldl fun _ _ ht => ht.frame.pcie.ite ht

theorem State.canonical.startCommand (h : s.canonical) : (s.startCommand).canonical := by
  unfold State.startCommand
  split
  · exact h.mboxEnd
  · exact h.push.ite h.mboxEnd

theorem State.canonical.writeMbox {off size val : Nat} (h : s.canonical) : (s.writeMbox off size val).canonical :=
  h.setMbox.ite (h.setMbox.count.ite (h.setMbox.startCommand.ite h.setMbox))

theorem State.canonical.execRegisterWrite {off size val : Nat} (h : s.canonical) : NextCanonical (execRegisterWrite off size val s) := by
  unfold Machine.execRegisterWrite
  split
  · exact h.writeMbox
  · split
    · exact h.writeMsix
    · split
      · exact h
      · split
        · exact h.writeCdb
        · split
          · exact h.writeRply
          · split
            · exact h.frame
            · split
              · exact h.writeIrqb
              · exact h

theorem State.canonical.hostPort {ctx adr n : Nat} {k : PKind} (h : s.canonical) : (s.hostPort ctx adr n k).1.canonical := by
  unfold State.hostPort
  split
  · exact h
  · rename_i e
    split
    · next e₁ => exact h.portCheck.of_eq e₁
    · next e₁ => exact h.portCheck.of_eq e₁

theorem State.canonical.hostPorts {ctx : Nat} {ps : List (Nat × Nat)} {k : PKind} (h : s.canonical) : (s.hostPorts ctx ps k).1.canonical := by
  unfold State.hostPorts
  refine h.foldlFst fun _ _ ht => ?_
  split
  · exact ht
  · exact ht.hostPort

theorem State.canonical.hostRefused {off : Nat} (h : s.canonical) : (s.hostRefused off).canonical :=
  h.count.logErr

theorem State.canonical.hostLater {e : Event} (h : s.canonical) : (s.hostLater e).canonical :=
  h

theorem State.canonical.complete {bs : List Nat} (h : s.canonical) : (s.complete bs).canonical :=
  h.foldl fun _ _ ht => ht.pcie

theorem State.canonical.execHostApertureRead {off size : Nat} (h : s.canonical) : NextCanonical (execHostApertureRead off size s) := by
  dsimp only [Machine.execHostApertureRead]
  split
  · exact h.hostRefused.pcie
  · rename_i e
    split
    · next e₁ => exact (h.hostPorts.of_eq e₁).hostRefused.pcie
    · rename_i e₁
      split
      · exact (h.hostPorts.of_eq e₁).homeWant.pcie
      · exact (h.hostPorts.of_eq e₁).homeWant.complete

theorem State.canonical.execHostApertureWrite {off : Nat} {bytes : List Nat} (h : s.canonical) :
    NextCanonical (execHostApertureWrite off bytes s) := by
  dsimp only [Machine.execHostApertureWrite]
  split
  · exact h.hostRefused
  · rename_i e
    split
    · next e₁ => exact (h.hostPorts.of_eq e₁).hostRefused
    · next e₁ => exact ((h.hostPorts.of_eq e₁).homeWant.foldl (fun _ _ ht => ht.tearLine.allocL2.dwrite)).cleanSectors

theorem State.canonical.execHostAtomicopReceived {tag : Nat} (h : s.canonical) : NextCanonical (execHostAtomicopReceived tag s) :=
  h.pcie

theorem State.canonical.execPcieLinkDown (h : s.canonical) : NextCanonical (execPcieLinkDown s) :=
  (h.count.ite h).frame.foldl fun _ _ ht => ht.ite (ht.setOp.reportOp.ite ht.setOp.push)

theorem State.canonical.execPcieLinkUp (h : s.canonical) : NextCanonical (execPcieLinkUp s) :=
  h

/-! ### Control -/

theorem State.canonical.leavePath {n : Nat} {g : Group} (h : s.canonical) : (s.leavePath n g).canonical := by
  unfold State.leavePath
  split
  · exact h.setGrp
  · exact h.setGrp.groupEnd

theorem State.canonical.jump {n : Nat} {g : Group} {t : Word} (h : s.canonical) : (s.jump n g t).canonical :=
  h.setGrp.ite h.trapHere

theorem State.canonical.execYield {c : Option (Fin 12)} {o : BitVec 21} (h : s.canonical) : NextCanonical (execYield c o s) := by
  unfold Machine.execYield
  refine h.issueWord fun _ _ => ?_
  split
  · exact h.setGrp.ite h.enterWait
  · exact h.setGrp

/-! ### Dispatch -/

/-- An instruction: one arm for each, grouped by the shared operation that issues it. -/
theorem State.canonical.exec {i : Instr} (h : s.canonical) : NextCanonical (exec i s) := by
  cases i
  all_goals dsimp only [Machine.exec]
  case nop | mrd | mwr | mand | hrd | fmtr | ucmp | caprd => exact h.groupWord
  case bra | call => exact h.issueWord fun _ _ => h.setGrp
  case brd => exact h.issueWord fun _ _ => h.setGrp.ite (h.setGrp.ite (h.trapHere.ite h.setGrp))
  case pushj | wbase | caprr => exact h.issueWord fun _ _ => h.trapHere.ite h.setGrp
  case join => exact h.issueWord fun _ _ => h.trapHere.ite h.leavePath
  case ret | brx => exact h.issueWord fun _ _ => h.jump
  case fmts => exact h.issueWord fun _ _ => h.setGrp.ite h.trapHere
  case yield => exact h.execYield
  case exit => exact h.issueWord fun _ _ => h.leavePath
  case trap | brk => exact h.issueWord fun _ _ => h.takeTrap
  case tret | swr => exact h.issueChecked fun _ _ => h.setGrp
  case srd => exact h.issueWord fun _ _ => h.issueOp.push.ite (h.draw.setGrp.ite (h.setGrp.ite h.setGrp))
  case tcinv => exact h.issueChecked fun _ _ => h.issueOp.setGrp.foldl fun _ _ hu => hu.push
  case iadd | isub | imin | imax | iminu | imaxu | iabsd | iadds | isubs | imul | imulh | imulhu | and | or | xor | andn | orn | xnor |
    shl | shr | sar | rol | ror | bfe | bfeu | fadd | fsub | fmul | fmin | fmax | fdiv | fcpys | cvtcf | hmix => exact h.lane2
  case imad | bfi | ffma | ffms | prmt => exact h.lane3
  case popc | clz | ctz | brev | bswap | mov | addi | andi | ori | xori | shli | shri | sari | muli | fabs | fneg | frcp | frsq | fsqrt |
    fexp2 | flog2 | fsinpi | fcospi | ftanh | frne | frtz | fflr | fceil | cvtfi | cvtfu => exact h.lane1
  case icmp | movp | icmpi | fcmp => exact h.lanePred
  case sel | pmov | movi | movhi | cvtif | cvtuf | cvtfc | rdfadd => exact h.laneWrite
  case hadd2 | hmul2 | hfma2 | hmin2 | hmax2 => exact h.lanePacked
  case cvtfn | cvtnf | cvtnfh | cvtfnt => exact h.laneConvert
  case qswh | qswv | qswd | qbc | shfli | shflu | shfld | shflx => exact h.laneExchange
  case vany | vall | vbal => exact h.issueWord fun _ _ => h.laneEnd
  case rdadd | rdmin | rdmax | rdand | rdor | rdxor => exact h.laneReduce
  case movxr => exact h.execMovxr
  case movxw => exact h.execMovxw
  case addw | subw | mulw | mulwu | shlw | shrw => exact h.laneWide
  case ld | lda | lds | ldw => exact h.loadOp
  case st | stl | sts | stw => exact h.storeOp
  case atom | atoma | atoml | atomr | atoms => exact h.atomicOp
  case fence => exact h.issueWord fun _ _ => h.issueOp.settle
  case capld => exact h.issueWord fun _ _ => h.trapHere.ite (h.setGrp.ite h.issueOp.push)
  case capnar => exact h.issueWord fun _ _ => h.trapHere.ite (h.trapHere.ite (h.trapHere.ite h.setGrp))
  case discard => exact h.issueWord fun _ _ => h.trapHere.ite (h.trapOpen.ite (h.trapHere.ite h.issueOp.push))
  case pref => exact h.issueWord fun _ _ => h.trapHere.ite (h.trapHere.ite (h.trapHere.ite (h.trapHere.ite h.issueOp.push)))
  case cpygs | cpysg | cpysw | cpygg => exact h.copyIssue
  case cpyx => exact h.execCpyx
  case barinit => exact h.barOp (fun _ _ _ _ ht => ht.barRetired) fun _ _ _ _ => h.setGrp.barInit.ite h.issueOp
  case bararr => exact h.barOp (fun _ _ _ _ ht => ht.barRetired) fun _ _ _ _ => (h.barCourse.ite h).issueOp.settle
  case barwait => exact h.barOp (fun _ _ _ _ ht => ht.setGrp.ite ht.barRetired) fun _ _ _ _ => h.setGrp.ite (h.setGrp.ite h.enterWait)
  case bartry => exact h.barOp (fun _ _ _ _ ht => ht.barRetired) fun _ _ _ _ => (h.cmdTrap.ite h.setGrp).ite h.issueOp
  case monarm => exact h.execMonarm
  case monwait => exact h.execMonwait
  case monclr => exact h.issueWord fun _ _ => h.disarm.setGrp
  case mma => exact h.execMma
  case accz => exact h.issueWord fun _ _ => h.cmdTrap.ite (h.cmdTrap.ite h.enqueueMat)
  case accld | accst | accss => exact h.rowIssue
  case accxa => exact h.execAccxa
  case accxr => exact h.execAccxr
  case acccp | cbld => exact h.issueWord fun _ _ => h.cmdTrap.ite (h.cmdTrap.ite (h.cmdTrap.ite h.enqueueMat))
  case ldsb => exact h.execLdsb
  case wset => exact h.issueWord fun _ _ => h.cmdTrap.ite (h.cmdTrap.ite h.enqueueWalk)
  case wgo => exact h.execWgo
  case qpop => exact h.issueWord fun _ _ => h.count.cmdTrap.ite (h.count.cmdTrap.ite h.enqueueWalk)
  case wstop | wstat => exact h.issueWord fun _ _ => h.enqueueWalk
  case sqres | sqcom | sqapp | sqlen | sqrlen | sqwlo | sqmap | sqfork | sqrel | sqwin | sqtake | sqseal => exact h.handleIssue
  case sqnew => exact h.seqIssue
  case flpop | flpush | flcnt => exact h.listIssue
  case mgmatch | mgmerge | mgbias => exact h.mergeIssue
  case mgsplit => exact h.execMgsplit
  case mgpop | mgstat => exact h.stackIssue
  case launch => exact h.issueWord fun _ _ => h.trapHere.ite (h.trapHere.ite (h.trapHere.ite h.issueOp.setGrp.push))
  case lwait | lstat => exact h.tokenIssue
  case rwri | rrd => exact h.rmaIssue
  case clauseFetch => exact h.execClauseFetch
  case clauseAccept => exact h.execClauseAccept
  case deferredTrap => exact h.execDeferredTrap
  case groupAged => exact h.execGroupAged
  case pendingAgeSwap => exact h.execPendingAgeSwap
  case swap => exact h.execSwap
  case swapDone => exact h.execSwapDone
  case waitEventWake => exact h.execWaitEventWake
  case farCheckReport => exact h.execFarCheckReport
  case loadDataReturn => exact h.execLoadDataReturn
  case atomicReturn => exact h.execAtomicReturn
  case atomicResultLost => exact h.execAtomicResultLost
  case capldEntryReturn => exact h.execCapldEntryReturn
  case fenceScComplete => exact h.execFenceScComplete
  case tcinvComplete => exact h.execTcinvComplete
  case prefArrival => exact h.execPrefArrival
  case reclaimComplete => exact h.execReclaimComplete
  case copyComplete => exact h.execCopyComplete
  case seamCompletionMessage => exact h.execSeamCompletionMessage
  case seamCompletionAck => exact h.execSeamCompletionAck
  case monitorReread => exact h.execMonitorReread
  case matrixCommandComplete => exact h.execMatrixCommandComplete
  case walkerReadReturn => exact h.execWalkerReadReturn
  case probeTimeout => exact h.execProbeTimeout
  case sequenceAnswer => exact h.execSequenceAnswer
  case mergeCommandComplete => exact h.execMergeCommandComplete
  case packageTick => exact h.execPackageTick
  case systemTick => exact h.execSystemTick
  case rotation => exact h.execRotation
  case spillComplete => exact h.execSpillComplete
  case predictorDecay => exact h.execPredictorDecay
  case mappingBoundExceeded => exact h.execMappingBoundExceeded
  case recordAccept => exact h.execRecordAccept
  case launchComplete => exact h.execLaunchComplete
  case blockRetire => exact h.execBlockRetire
  case dieFatalFailure => exact h.execDieFatalFailure
  case reserve => exact h.execReserve
  case commit => exact h.execCommit
  case refresh => exact h.execRefresh
  case replayPage => exact h.execReplayPage
  case replayContext => exact h.execReplayContext
  case status => exact h.execStatus
  case ctxreg => exact h.execCtxreg
  case seqarea => exact h.execSeqarea
  case flset => exact h.execFlset
  case objtab => exact h.execObjtab
  case faultseq => exact h.execFaultseq
  case notetab => exact h.execNotetab
  case quantum => exact h.execQuantum
  case tclimset => exact h.execTclimset
  case domain => exact h.execDomain
  case protdom => exact h.execProtdom
  case poisondel => exact h.execPoisondel
  case cntread => exact h.execCntread
  case logrot => exact h.execLogrot
  case logread => exact h.execLogread
  case pwrlim => exact h.execPwrlim
  case portrst => exact h.execPortrst
  case dieup => exact h.execDieup
  case ctxrel => exact h.execCtxrel
  case sqcreate => exact h.execSqcreate
  case flfill => exact h.execFlfill
  case sqdel => exact h.execSqdel
  case registerWrite => exact h.execRegisterWrite
  case hostApertureRead => exact h.execHostApertureRead
  case hostApertureWrite => exact h.execHostApertureWrite
  case hostAtomicopReceived => exact h.execHostAtomicopReceived
  case getVersion => exact h.execGetVersion
  case getCapabilities => exact h.execGetCapabilities
  case negotiateAlgorithms => exact h.execNegotiateAlgorithms
  case getDigests => exact h.execGetDigests
  case getCertificate => exact h.execGetCertificate
  case challenge => exact h.execChallenge
  case getMeasurements => exact h.execGetMeasurements
  case packageReset => exact h.execPackageReset
  case selftestComplete => exact h.execSelftestComplete
  case powerControl => exact h.execPowerControl
  case thermalThrottle => exact h.execThermalThrottle
  case dieOverheat => exact h.execDieOverheat
  case portCheck => exact h.execPortCheck
  case faultReport => exact h.execFaultReport
  case hbmReadComplete => exact h.execHbmReadComplete
  case farAtomic => exact h.execFarAtomic
  case hostAtomic => exact h.execHostAtomic
  case atomicopCompletion => exact h.execAtomicopCompletion
  case sliceTcinv => exact h.execSliceTcinv
  case sliceTcinvDrained => exact h.execSliceTcinvDrained
  case pcieCompletion => exact h.execPcieCompletion
  case completionTimeout => exact h.execCompletionTimeout
  case pcieLinkDown => exact h.execPcieLinkDown
  case pcieLinkUp => exact h.execPcieLinkUp
  case linkTrained => exact h.execLinkTrained
  case discovery => exact h.execDiscovery
  case flitReceived => exact h.execFlitReceived
  case nak => exact h.execNak
  case ackTimeout => exact h.execAckTimeout
  case lossOfSignal => exact h.execLossOfSignal
  case retrainComplete => exact h.execRetrainComplete
  case inboundRwri => exact h.execInboundRwri
  case inboundRrd => exact h.execInboundRrd
  case rwriAck => exact h.execRwriAck
  case rrdData => exact h.execRrdData
  case channelRequest => exact h.execChannelRequest
  case slabRead => exact h.execSlabRead
  case slabExclusive => exact h.execSlabExclusive
  case slabDowngrade => exact h.execSlabDowngrade
  case slabTeardown => exact h.execSlabTeardown
  case rd => exact h.execRd
  case xreq => exact h.execXreq
  case srdSteeredRead => exact h.execSrdSteeredRead
  case inv => exact h.execInv
  case tkeep => exact h.execTkeep
  case grant => exact h.execGrant
  case data => exact h.execData
  case ack => exact h.execAck
  case prune => exact h.execPrune
  case jdone => exact h.execJdone
  case leave => exact h.execLeave
  case wb => exact h.execWb
  case wback => exact h.execWback
  case snoop => exact h.execSnoop
  case quiet => exact h.execQuiet
  case heldMessageRelease => exact h.execHeldMessageRelease
  case wreq => exact h.execWreq
  case wack => exact h.execWack
  case trainingEnd => exact h.execTrainingEnd
  case frame => exact h.execFrame
  case frameLockTimeout => exact h.execFrameLockTimeout
  case wnak => exact h.execWnak
  case romCheckComplete => exact h.execRomCheckComplete
  case slotMoveComplete => exact h.execSlotMoveComplete
  case poolAllocationComplete => exact h.execPoolAllocationComplete
  case imageFillComplete => exact h.execImageFillComplete
  case bankSwitchComplete => exact h.execBankSwitchComplete
  case walkerCommandComplete => exact h.execWalkerCommandComplete
  case walkerEntryGenerate => exact h.execWalkerEntryGenerate
  case residencyProbeAnswer => exact h.execResidencyProbeAnswer
  case fixedLatencyComplete => exact h.execFixedLatencyComplete

/-! ### Events -/

/-- An event: its own transition. -/
theorem State.canonical.run {e : Event} (h : s.canonical) : NextCanonical (e.run s) :=
  match e with
  | .clauseFetch .. => h.execClauseFetch
  | .clauseAccept .. => h.execClauseAccept
  | .deferredTrap .. => h.execDeferredTrap
  | .groupAged .. => h.execGroupAged
  | .pendingAgeSwap .. => h.execPendingAgeSwap
  | .swap .. => h.execSwap
  | .swapDone .. => h.execSwapDone
  | .waitEventWake .. => h.execWaitEventWake
  | .farCheckReport .. => h.execFarCheckReport
  | .loadDataReturn .. => h.execLoadDataReturn
  | .atomicReturn .. => h.execAtomicReturn
  | .atomicResultLost .. => h.execAtomicResultLost
  | .capldEntryReturn .. => h.execCapldEntryReturn
  | .fenceScComplete .. => h.execFenceScComplete
  | .tcinvComplete .. => h.execTcinvComplete
  | .prefArrival .. => h.execPrefArrival
  | .reclaimComplete .. => h.execReclaimComplete
  | .copyComplete .. => h.execCopyComplete
  | .seamCompletionMessage .. => h.execSeamCompletionMessage
  | .seamCompletionAck .. => h.execSeamCompletionAck
  | .monitorReread .. => h.execMonitorReread
  | .matrixCommandComplete .. => h.execMatrixCommandComplete
  | .walkerReadReturn .. => h.execWalkerReadReturn
  | .probeTimeout .. => h.execProbeTimeout
  | .sequenceAnswer .. => h.execSequenceAnswer
  | .mergeCommandComplete .. => h.execMergeCommandComplete
  | .packageTick => h.execPackageTick
  | .systemTick => h.execSystemTick
  | .rotation .. => h.execRotation
  | .spillComplete .. => h.execSpillComplete
  | .predictorDecay => h.execPredictorDecay
  | .mappingBoundExceeded .. => h.execMappingBoundExceeded
  | .recordAccept .. => h.execRecordAccept
  | .launchComplete .. => h.execLaunchComplete
  | .blockRetire .. => h.execBlockRetire
  | .dieFatalFailure .. => h.execDieFatalFailure
  | .reserve .. => h.execReserve
  | .commit .. => h.execCommit
  | .refresh .. => h.execRefresh
  | .replayPage .. => h.execReplayPage
  | .replayContext .. => h.execReplayContext
  | .status => h.execStatus
  | .ctxreg => h.execCtxreg
  | .seqarea => h.execSeqarea
  | .flset => h.execFlset
  | .objtab => h.execObjtab
  | .faultseq => h.execFaultseq
  | .notetab => h.execNotetab
  | .quantum => h.execQuantum
  | .tclimset => h.execTclimset
  | .domain => h.execDomain
  | .protdom => h.execProtdom
  | .poisondel => h.execPoisondel
  | .cntread => h.execCntread
  | .logrot => h.execLogrot
  | .logread => h.execLogread
  | .pwrlim => h.execPwrlim
  | .portrst => h.execPortrst
  | .dieup => h.execDieup
  | .ctxrel => h.execCtxrel
  | .sqcreate => h.execSqcreate
  | .flfill => h.execFlfill
  | .sqdel => h.execSqdel
  | .registerWrite .. => h.execRegisterWrite
  | .hostApertureRead .. => h.execHostApertureRead
  | .hostApertureWrite .. => h.execHostApertureWrite
  | .hostAtomicopReceived .. => h.execHostAtomicopReceived
  | .getVersion .. => h.execGetVersion
  | .getCapabilities .. => h.execGetCapabilities
  | .negotiateAlgorithms .. => h.execNegotiateAlgorithms
  | .getDigests .. => h.execGetDigests
  | .getCertificate .. => h.execGetCertificate
  | .challenge .. => h.execChallenge
  | .getMeasurements .. => h.execGetMeasurements
  | .packageReset => h.execPackageReset
  | .selftestComplete .. => h.execSelftestComplete
  | .powerControl .. => h.execPowerControl
  | .thermalThrottle .. => h.execThermalThrottle
  | .dieOverheat .. => h.execDieOverheat
  | .portCheck .. => h.execPortCheck
  | .faultReport .. => h.execFaultReport
  | .hbmReadComplete .. => h.execHbmReadComplete
  | .farAtomic .. => h.execFarAtomic
  | .hostAtomic .. => h.execHostAtomic
  | .atomicopCompletion .. => h.execAtomicopCompletion
  | .sliceTcinv .. => h.execSliceTcinv
  | .sliceTcinvDrained .. => h.execSliceTcinvDrained
  | .pcieCompletion .. => h.execPcieCompletion
  | .completionTimeout .. => h.execCompletionTimeout
  | .pcieLinkDown => h.execPcieLinkDown
  | .pcieLinkUp => h.execPcieLinkUp
  | .linkTrained .. => h.execLinkTrained
  | .discovery .. => h.execDiscovery
  | .flitReceived .. => h.execFlitReceived
  | .nak .. => h.execNak
  | .ackTimeout .. => h.execAckTimeout
  | .lossOfSignal .. => h.execLossOfSignal
  | .retrainComplete .. => h.execRetrainComplete
  | .inboundRwri .. => h.execInboundRwri
  | .inboundRrd .. => h.execInboundRrd
  | .rwriAck .. => h.execRwriAck
  | .rrdData .. => h.execRrdData
  | .channelRequest .. => h.execChannelRequest
  | .slabRead .. => h.execSlabRead
  | .slabExclusive .. => h.execSlabExclusive
  | .slabDowngrade .. => h.execSlabDowngrade
  | .slabTeardown .. => h.execSlabTeardown
  | .rd .. => h.execRd
  | .xreq .. => h.execXreq
  | .srdSteeredRead .. => h.execSrdSteeredRead
  | .inv .. => h.execInv
  | .tkeep .. => h.execTkeep
  | .grant .. => h.execGrant
  | .data .. => h.execData
  | .ack .. => h.execAck
  | .prune .. => h.execPrune
  | .jdone .. => h.execJdone
  | .leave .. => h.execLeave
  | .wb .. => h.execWb
  | .wback .. => h.execWback
  | .snoop .. => h.execSnoop
  | .quiet .. => h.execQuiet
  | .heldMessageRelease .. => h.execHeldMessageRelease
  | .wreq .. => h.execWreq
  | .wack .. => h.execWack
  | .trainingEnd .. => h.execTrainingEnd
  | .frame .. => h.execFrame
  | .frameLockTimeout .. => h.execFrameLockTimeout
  | .wnak .. => h.execWnak
  | .romCheckComplete .. => h.execRomCheckComplete
  | .slotMoveComplete .. => h.execSlotMoveComplete
  | .poolAllocationComplete .. => h.execPoolAllocationComplete
  | .imageFillComplete .. => h.execImageFillComplete
  | .bankSwitchComplete .. => h.execBankSwitchComplete
  | .walkerCommandComplete .. => h.execWalkerCommandComplete
  | .walkerEntryGenerate .. => h.execWalkerEntryGenerate
  | .residencyProbeAnswer .. => h.execResidencyProbeAnswer
  | .fixedLatencyComplete .. => h.execFixedLatencyComplete

/-! ### Sched -/

theorem State.canonical.noteStall {g : Nat} (h : s.canonical) : (s.noteStall g).canonical :=
  (h.ite h.setGrp).foldl fun _ _ ht => ht.setGrp.count.ite ht.setGrp.count

theorem State.canonical.noteStalls (h : s.canonical) : (s.noteStalls).canonical :=
  h.foldl fun _ _ ht => ht.noteStall

theorem State.canonical.advance (h : s.canonical) : (s.advance).canonical :=
  h.noteStalls.noteLost.frame

theorem State.canonical.issueFor {g : Nat} (h : s.canonical) : (s.issueFor g).canonical :=
  ((h.count.ite h).foldl (fun _ _ ht => ht.setGrp)).frame

theorem State.canonical.issueNow {g : Nat} (h : s.canonical) : NextCanonical (s.issueNow g) := by
  dsimp only [State.issueNow]
  split
  · exact h.issueFor.execDeferredTrap
  · split
    · exact h.issueFor.setGrp
    · split
      · exact h.issueFor.exec
      · exact h.issueFor.trapHere

theorem State.canonical.desched {g : Nat} (h : s.canonical) : (s.desched g).canonical :=
  h.setGrp.count.stopWaiting

theorem State.canonical.retry {e : Event} (h : s.canonical) : (s.retry e).canonical :=
  h.hostLater.ite h.push

theorem State.canonical.noteFlits {e : Event} (h : s.canonical) : (s.noteFlits e).canonical :=
  h.count.count.ite h

theorem State.canonical.orRecall {again : Option Event} {r : Host.Outcome State Fault Refusal} (h : s.canonical) (hr : NextCanonical r) :
    NextCanonical (s.orRecall again r) := by
  unfold State.orRecall
  split
  · split
    · exact hr
    split
    · extract_lets t
      have ht : t.canonical := h.foldl fun _ _ h => h.recall.getD h
      simp only [NextCanonical]
      split
      · exact ht.retry
      · exact ht
    · exact State.canonical.frame hr
  · exact hr

theorem State.canonical.stepOnce (h : s.canonical) : NextCanonical s.stepOnce := by
  unfold State.stepOnce
  extract_lets t
  have ht : t.canonical := h.advance
  split
  · extract_lets j u
    have hu : u.canonical := ht.frame
    split
    · split
      · exact hu.onLink
      · exact hu.orRecall hu.noteActive.noteFlits.run
    · exact ht
  · exact ht.orRecall ht.run
  · exact ht.orRecall ht.issueNow
  · exact ht.desched
  · exact ht.orRecall ht.run

/-! ### Step -/

/-- One step of the machine. -/
theorem State.canonical.step (h : s.canonical) : NextCanonical (step s) := by
  unfold Machine.step
  split
  · exact trivial
  · exact h.stepOnce

/-- Settles O60: a step is an event's transition, and each function a transition is made of keeps memory canonical (`State.canonical.step`). -/
theorem stepsKeepMemoryCanonical : Obligations.StepsKeepMemoryCanonical := fun _ _ h e => h.step.of_eq e

end Sys2Proof.Machine
end

section
/-! ## A word that issues traps, changes its group, or goes into flight

What `Laws/Issue` says of `issueWord` and `State.issueOp`, carried on to the shapes in which the statements about the engines' words are written:
`TakesTrap`, `OnlyGroup` and `InFlight`. -/

namespace Sys2Proof.Machine

open Sys2Proof

/-- A word that issues answers with what its meaning `r` does to its group. -/
theorem Issues.answers {i : Instr} {s : State} {g : Group} {body : Nat → Group → State} {P : State → Prop} (h : Issues s g i)
    (r : Host.Outcome State Fault Refusal) (hx : exec i s = r) (hr : r = issueWord i s body) (hP : P (body s.cur g)) : Answers i s P :=
  ⟨_, hx.trans (hr.trans (issueWord_next h body)), hP⟩

/-- A group reads as it was set, and every other as before. -/
theorem grp_setGrp (s : State) (n k : Nat) (x : Group) :
    (s.setGrp n x).grp k = if k = n ∧ n < s.groups.length then x else s.grp k := by
  simp only [State.grp, State.setGrp_groups, List.getD_eq_getElem?_getD, List.getElem?_set]
  by_cases hk : n = k
  · subst hk
    by_cases hl : n < s.groups.length <;> simp [hl]
  · simp [hk, Ne.symm hk]

/-! ### Traps -/

/-- A group that may trap enters its handler (R187). -/
theorem takeTrap_inHandler {s : State} {n : Nat} {g : Group} (hg : s.groups[n]? = some g) (hh : g.trap.handler = false)
    (hl : (s.glch n).lr.handler ≠ 0xFFFFFFFF) (t : Trap) (pc : Nat) (c : Clause) (d : Bool) :
    s.takeTrap n t pc c d =
      { s with
        groups := s.groups.set n (g.inHandler t pc c d (s.glch n).lr.handler)
        cnt := (s.count 1 (s.partOf n) 5 1).cnt } := by
  have hc : (s.count 1 (s.partOf n) 5 1).grp n = g := grp_of_getElem? hg
  have hk : ((s.count 1 (s.partOf n) 5 1).glch n).lr.handler = (s.glch n).lr.handler := rfl
  unfold State.takeTrap
  simp only [hc, hk]
  rw [if_neg (by simp [hh, hl])]
  rfl

/-- The trap of the word at which the current group stands. -/
theorem trapHere_takesTrap {s : State} {g : Group} (h : AtIssue s g) (hm : MayTrap s g) (t : Trap) :
    TakesTrap s (s.trapHere s.cur t) g t (g.clause.hdr + 4 * (g.idx + 1)) g.clause false := by
  obtain ⟨hg, ha⟩ := h
  obtain ⟨hh, hl⟩ := hm
  rw [State.trapHere, grp_of_getElem? hg, takeTrap_inHandler hg hh hl, pc_of_atIssue ha]
  rfl

/-- A word that issues into a trap. -/
theorem Issues.traps {i : Instr} {s : State} {g : Group} {body : Nat → Group → State} (h : Issues s g i) (hm : MayTrap s g)
    (r : Host.Outcome State Fault Refusal) (hx : exec i s = r) (hr : r = issueWord i s body) {cause : Nat} {val valhi : Word}
    (hb : body s.cur g = s.trapHere s.cur (g.wide cause val valhi)) : Answers i s fun t => TrapsAtWord s t g cause val valhi :=
  h.answers r hx hr (hb ▸ trapHere_takesTrap h.1 hm _)

/-- The trap of an engine command, its values given as numbers. -/
theorem cmdTrap_eq {s : State} {g : Group} (hg : s.groups[s.cur]? = some g) (cause v w : Nat) :
    s.cmdTrap s.cur (cause, v, w) = s.trapHere s.cur (g.wide cause (w32 v) (w32 w)) := by
  rw [State.cmdTrap, grp_of_getElem? hg]

@[simp] theorem w32_toNat (w : Word) : w32 w.toNat = w := by simp [w32]

theorem Answers.mono {i : Instr} {s : State} {P Q : State → Prop} (h : Answers i s P) (hpq : ∀ t, P t → Q t) : Answers i s Q := by
  obtain ⟨t, ht, hp⟩ := h
  exact ⟨t, ht, hpq t hp⟩

/-! ### Operations that go into flight -/

/-- Operation `o` has what an issue of word `i` by the current group `g` gives it. -/
def Op.IssuedBy (o : Op) (s : State) (g : Group) (i : Instr) : Prop :=
  o.instr = i ∧ o.gid = s.cur ∧ o.tok = g.nextTok ∧ o.flag = g.flagFor (i.cls g)

theorem issuedOp_inFlight {s : State} {g : Group} {i : Instr} {o : Op} {P : Op → Prop} (hg : s.groups[s.cur]? = some g) (ho : o.IssuedBy s g i)
    (hP : ∀ n, P { o with relTo := n }) : InFlight s (s.issueOp s.cur o) g i P :=
  issueOp_inFlight hg ho.1 ho.2.1 ho.2.2.1 ho.2.2.2 P hP

theorem InFlight.mono {s t : State} {g : Group} {i : Instr} {P Q : Op → Prop} (h : InFlight s t g i P) (hpq : ∀ o, P o → Q o) :
    InFlight s t g i Q := by
  obtain ⟨o, h1, h2, h3, h4, h5, hP, hrest⟩ := h
  exact ⟨o, h1, h2, h3, h4, h5, hpq o hP, hrest⟩

theorem InFlight.around {s t : State} {g : Group} {i : Instr} {P : Op → Prop} (h : InFlight s t g i P) : s.Around t s.cur := by
  obtain ⟨_, -, -, -, -, -, -, -, -, -, -, -, ha⟩ := h
  exact ha

theorem InFlight.sameRegs {s t : State} {g : Group} {i : Instr} {P : Op → Prop} (h : InFlight s t g i P) : g.SameRegs (t.grp s.cur) := by
  obtain ⟨_, -, -, -, -, -, -, -, -, -, -, hr, -⟩ := h
  exact hr

/-- Later changes that keep the operations, and of the group all but its place, leave an operation in flight. -/
theorem InFlight.keep {s t u : State} {g : Group} {i : Instr} {P : Op → Prop} (h : InFlight s t g i P) (ho : u.ops = t.ops)
    (hn : u.nextOp = t.nextOp) (hf : (u.grp s.cur).flags = (t.grp s.cur).flags) (hp : (u.grp s.cur).pend = (t.grp s.cur).pend)
    (hr : g.SameRegs (u.grp s.cur)) (ha : s.Around u s.cur) : InFlight s u g i P := by
  obtain ⟨o, h1, h2, h3, h4, h5, h6, h7, h8, h9, h10, -, -⟩ := h
  exact ⟨o, by rw [ho, h1], h2, h3, h4, h5, h6, by rw [hn, h7], fun k hk => by rw [ho, h8 k hk], by rw [hf, h9], by rw [hp, h10], hr, ha⟩

theorem State.Around.frame {s t : State} {n : Nat} (h : s.Around t n) (agenda : List Event) (cores : SMap Core) (cnt : SMap Nat) :
    s.Around { t with agenda := agenda, cores := cores, cnt := cnt } n := by
  have e := congrArg (fun u : State => { u with agenda := agenda, cores := cores, cnt := cnt }) h
  exact e

/-- Due steps, cores and counters have no part in what is in flight. -/
theorem InFlight.frame {s t : State} {g : Group} {i : Instr} {P : Op → Prop} (h : InFlight s t g i P) (agenda : List Event) (cores : SMap Core)
    (cnt : SMap Nat) : InFlight s { t with agenda := agenda, cores := cores, cnt := cnt } g i P :=
  h.keep rfl rfl rfl rfl h.sameRegs (h.around.frame _ _ _)

theorem InFlight.push {s t : State} {g : Group} {i : Instr} {P : Op → Prop} (h : InFlight s t g i P) (e : Event) :
    InFlight s (t.push e) g i P := h.frame _ _ _

theorem InFlight.setCore {s t : State} {g : Group} {i : Instr} {P : Op → Prop} (h : InFlight s t g i P) (c : Nat) (x : Core) :
    InFlight s (t.setCore c x) g i P := h.frame _ _ _

@[simp] theorem core_setCore_self (s : State) (c : Nat) (x : Core) : (s.setCore c x).core c = x := tget_tset_self ..

/-- State `t` with core `c` as `x`, and with event `e` due when `q` holds: a command has joined a queue, whose oldest is taken up. -/
def State.queued (t : State) (c : Nat) (x : Core) (q : Prop) [Decidable q] (e : Event) : State :=
  if q then (t.setCore c x).push e else t.setCore c x

theorem InFlight.queued {s t : State} {g : Group} {i : Instr} {P : Op → Prop} (h : InFlight s t g i P) (c : Nat) (x : Core) (q : Prop)
    [Decidable q] (e : Event) :
    InFlight s (t.queued c x q e) g i P ∧ (t.queued c x q e).core c = x ∧ (q → e ∈ (t.queued c x q e).agenda) := by
  unfold State.queued
  split
  · exact ⟨(h.setCore c x).push e, core_setCore_self t c x, fun _ => by simp⟩
  · next hq => exact ⟨h.setCore c x, core_setCore_self t c x, fun hq' => absurd hq' hq⟩

end Sys2Proof.Machine
end

section
/-! ## The step runs the decoded word (O4)

`State.issueFor` and `State.advance` change scheduling records and counters only. -/

namespace Sys2Proof.Machine

open Sys2Proof

/-- From `s` to `t` each group keeps all but its scheduling record. -/
def State.SameButSched (s t : State) : Prop := ∀ k, ∃ c, t.grp k = { s.grp k with sched := c }

namespace State.SameButSched

variable {s t u : State}

theorem of_groups (h : t.groups = s.groups) : s.SameButSched t :=
  fun k => ⟨(s.grp k).sched, by simp [State.grp, h]⟩

theorem trans (h : s.SameButSched t) (h' : t.SameButSched u) : s.SameButSched u := by
  intro k
  obtain ⟨c, hc⟩ := h k
  obtain ⟨d, hd⟩ := h' k
  exact ⟨d, by rw [hd, hc]⟩

theorem setGrp (t : State) (g : Nat) (c : Sched) : t.SameButSched (t.setGrp g { t.grp g with sched := c }) := by
  intro k
  rw [grp_setGrp]
  split
  · next hk => exact ⟨c, by rw [hk.1]⟩
  · exact ⟨_, rfl⟩

theorem foldl {α : Type} {f : State → α → State} (hf : ∀ (t : State) (x : α), t.SameButSched (f t x)) (l : List α) (s : State) : s.SameButSched (l.foldl f s) :=
  List.foldlRecOn l f (of_groups rfl) fun t ht x _ => ht.trans (hf t x)

end State.SameButSched

theorem noteStall_sameButSched (s : State) (g : Nat) : s.SameButSched (s.noteStall g) := by
  unfold State.noteStall
  refine State.SameButSched.trans (t := if (s.grp g).atIssue ∨ (s.grp g).sched.stalls = 0 then s
    else s.setGrp g { s.grp g with sched := { (s.grp g).sched with stalls := 0 } }) ?_ (.foldl (fun t k => ?_) _ _)
  · split
    · exact .of_groups rfl
    · exact .setGrp _ _ _
  · dsimp only
    split <;> exact (State.SameButSched.setGrp _ _ _).trans (.of_groups rfl)

theorem advance_sameButSched {s : State} (h : ∀ e ∈ s.slices, e.2.lost = []) : s.SameButSched s.advance := by
  have hs : s.noteStalls.slices = s.slices := State.noteStalls_keeps (·.slices) (fun _ _ _ => rfl) (fun _ _ _ _ _ => rfl) s
  rw [State.advance, State.noteLost_none _ (hs ▸ h)]
  exact (State.SameButSched.foldl noteStall_sameButSched _ s).trans (.of_groups rfl)

theorem issueFor_sameButSched (s : State) (g : Nat) : s.SameButSched (s.issueFor g) := by
  unfold State.issueFor
  refine (State.SameButSched.trans (.of_groups ?_) (.foldl (fun t k => .setGrp _ _ _) _ _)).trans (.of_groups rfl)
  split <;> rfl

/-- What neither a group nor a counter nor the current group shows is as before when a partition issues for a group. -/
theorem issueFor_keeps {γ : Type} (f : State → γ) (hg : ∀ s g x, f (State.setGrp s g x) = f s) (hc : ∀ s b i k n, f (State.count s b i k n) = f s)
    (hr : ∀ (s : State) n, f { s with cur := n } = f s) (s : State) (g : Nat) : f (s.issueFor g) = f s := by
  unfold State.issueFor
  rw [hr, foldl_keeps f _ fun t k => hg ..]
  split <;> simp [hc]

/-- What neither a group's scheduling record nor a counter shows is as before at an issue. -/
theorem issueFor_advance_keeps {γ : Type} (f : State → γ) (hg : ∀ s g x, f (State.setGrp s g x) = f s)
    (hc : ∀ s b i k n, f (State.count s b i k n) = f s) (ht : ∀ (s : State) l n, f { s with sched := l, turn := n } = f s)
    (hr : ∀ (s : State) n, f { s with cur := n } = f s) (s : State) (h : ∀ e ∈ s.slices, e.2.lost = []) (g : Nat) :
    f (s.advance.issueFor g) = f s := by
  have hs : s.noteStalls.slices = s.slices := State.noteStalls_keeps (·.slices) (fun _ _ _ => rfl) (fun _ _ _ _ _ => rfl) s
  rw [issueFor_keeps f hg hc hr, State.advance_keeps f hg hc ht s (hs ▸ h)]

/-- A step that issues for a group runs the instruction its word decodes to. -/
theorem step_of_issue {s : State} {g : Nat} {i : Instr} (hs : s.stuck = none) (hc : s.choose = .issue g)
    (hd : (s.advance.issueFor g).deferredDue g = false) (hk : ((s.advance.issueFor g).grp g).skips = false)
    (hi : decodeWord ((s.advance.issueFor g).grp g).word.toNat = .ok i) :
    step s = s.advance.orRecall none (exec i (s.advance.issueFor g)) := by
  simp [step, hs, State.stepOnce, hc, State.issueNow, hd, hk, hi]

/-- Settles O4: at an issue the step is `exec` of the decoded word, and what comes before `exec` keeps all but scheduling records and counters. -/
theorem stepRunsTheDecodedWord : Obligations.StepRunsTheDecodedWord := by
  intro s g i hs hc t hd hk hi
  have he : step s = s.advance.orRecall none (exec i t) := step_of_issue hs hc hd hk hi
  refine ⟨he, fun u hu hw => ?_, fun f hf => ?_, rfl, fun hl => ?_⟩
  · rw [he, hu, State.orRecall, if_pos hw]
  · rw [he, hf]
    rfl
  · have hkeep : (t.mem, t.ops, t.blocks, t.agenda) = (s.mem, s.ops, s.blocks, s.agenda) :=
      issueFor_advance_keeps (fun s => (s.mem, s.ops, s.blocks, s.agenda)) (fun _ _ _ => rfl) (fun _ _ _ _ _ => rfl) (fun _ _ _ => rfl)
        (fun _ _ => rfl) s hl g
    simp only [Prod.mk.injEq] at hkeep
    obtain ⟨hmem, hops, hblocks, hagenda⟩ := hkeep
    exact ⟨hmem, hops, hblocks, hagenda, (advance_sameButSched hl).trans (issueFor_sameButSched _ g)⟩

end Sys2Proof.Machine
end

section
/-! ## Clause acceptance, deferred traps and the ends of waits (O24) -/

namespace Sys2Proof.Machine

open Sys2Proof

/-- A WAIT mask is met when every flag it names is clear (R18). -/
theorem waitMet_iff (g : Group) (wait : Nat) : g.waitMet wait = true ↔ ∀ f, f < 12 → fld wait f 1 = 1 → tget 0 g.flags f = 0 := by
  simp only [Group.waitMet, Group.flagOf, fld, List.all_eq_true, List.mem_range, Bool.or_eq_true, beq_iff_eq, pow_one]
  refine forall₂_congr fun f _ => ?_
  have := Nat.mod_two_eq_zero_or_one (wait / 2 ^ f)
  constructor
  · intro h h1
    omega
  · intro h
    rcases this with h0 | h1
    · exact .inl h0
    · exact .inr (h h1)

/-- CLAUSE_ACCEPT waits for the flags, then the group stands at the word it goes on with. -/
theorem clauseAcceptWaits : Claims.ClauseAcceptWaits := by
  intro s n g hg met
  have hs : s.grp n = g := grp_of_getElem? hg
  have hmet : g.waitMet g.clause.wait = true ↔ met := waitMet_iff g _
  refine ⟨fun hm hp hst => ⟨_, ?_, rfl⟩, fun k hm hp => ⟨_, ?_, rfl⟩, fun hm => ⟨s, ?_, rfl⟩⟩
  · show execClauseAccept n s = _
    simp only [execClauseAccept, hs, hmet.2 hm, hp, if_neg hst]
    rfl
  · show execClauseAccept n s = _
    simp only [execClauseAccept, hs, hmet.2 hm, hp]
    rfl
  · show execClauseAccept n s = _
    rw [execClauseAccept, hs, if_pos (by simpa using fun h => hm (hmet.1 h))]

/-- What a deferred trap that is due requires of its group (R191). -/
theorem deferredDue_iff (s : State) (n : Nat) :
    s.deferredDue n = true ↔ (s.grp n).atIssue = true ∧ (s.grp n).deferred ≠ [] ∧ (s.grp n).trap.handler = false ∧
      (s.grp n).lanes.only = none ∧ s.uncleared n = false := by
  simp [State.deferredDue, and_assoc]

/-- DEFERRED_TRAP enters the handler with the earliest deferred trap, or leaves the package as it is. -/
theorem deferredTrapIsTaken : Claims.DeferredTrapIsTaken := by
  intro s n g d rest hg hd
  have hs : s.grp n = g := grp_of_getElem? hg
  refine ⟨fun hdue hh => ⟨_, ?_, rfl⟩, fun hno => ⟨s, ?_, rfl⟩⟩
  · obtain ⟨ha, -, hm, -, -⟩ := (deferredDue_iff s n).1 hdue
    rw [hs] at ha hm
    have hx := setGrp_getElem? hg { g with deferred := rest }
    have hgr : (s.setGrp n { g with deferred := rest }).grp n = { g with deferred := rest } := grp_of_getElem? hx
    have hl : (s.setGrp n { g with deferred := rest }).glch n = s.glch n := by simp only [State.glch, State.gblk, hgr, hs]; rfl
    have hp : (s.setGrp n { g with deferred := rest }).partOf n = s.partOf n := by simp only [State.partOf, State.gblk, hgr, hs]; rfl
    show execDeferredTrap n s = _
    simp only [execDeferredTrap, hdue, hs, hd]
    rw [takeTrap_inHandler hx hm (by rw [hl]; exact hh), hl, hp, pc_of_atIssue ha]
    simp [State.setGrp, State.count]
  · have hdue : s.deferredDue n = false := by
      rw [Bool.eq_false_iff, ne_eq, deferredDue_iff, hs]
      rintro ⟨-, -, h1, -, h2⟩
      simp [h1, h2] at hno
    show execDeferredTrap n s = _
    simp only [execDeferredTrap, hdue]

/-- WAIT_EVENT_WAKE lets a group test its word again when its wait is over. -/
theorem execWaitEventWake_waiting {s : State} {n k : Nat} {g : Group} {w : WaitOn} (hg : s.groups[n]? = some g) (hp : g.phase = .waiting k w) :
    execWaitEventWake n s = .next (if s.waitOver n w then { s with groups := s.groups.set n { g with phase := .issue k } } else s) := by
  simp only [execWaitEventWake, grp_of_getElem? hg, hp]
  split <;> rfl

/-- A stalled group is descheduled no more when it stalls on its object no longer. -/
theorem execWaitEventWake_stalled {s : State} {n : Nat} {g : Group} (hg : s.groups[n]? = some g) (hp : ∀ i w, g.phase ≠ .waiting i w) :
    execWaitEventWake n s = .next (if g.sched.sv.isSome ∧ s.stallObject n = g.sched.sv then s
      else { s with groups := s.groups.set n { g with sched := { g.sched with sv := none } } }) := by
  simp only [execWaitEventWake, grp_of_getElem? hg]
  split <;> rfl

theorem waitsEndAtTheirEvent : Claims.WaitsEndAtTheirEvent := by
  intro s n g k hg
  have hs : s.grp n = g := grp_of_getElem? hg
  have ends : ∀ w, g.phase = .waiting k w → s.waitOver n w = true → Answers (.waitEventWake n) s fun t =>
      t = { s with groups := s.groups.set n { g with phase := .issue k } } := fun w hp h =>
    ⟨_, (execWaitEventWake_waiting hg hp).trans (by rw [if_pos h]), rfl⟩
  have goesOn : ∀ w, g.phase = .waiting k w → s.waitOver n w = false → Answers (.waitEventWake n) s fun t => t = s := fun w hp h =>
    ⟨_, (execWaitEventWake_waiting hg hp).trans (by rw [if_neg (by simp [h])]), rfl⟩
  refine ⟨fun f hp => ⟨fun hf => ends _ hp ?_, fun hf => goesOn _ hp ?_⟩, fun m v hp => ⟨fun hm => ends _ hp ?_, fun f c a hm => goesOn _ hp ?_⟩,
    fun hp hsv => ⟨fun h => ⟨_, (execWaitEventWake_stalled hg hp).trans (by rw [if_neg (by simp [h])]), rfl⟩, fun h =>
      ⟨_, (execWaitEventWake_stalled hg hp).trans (by rw [if_pos ⟨Option.isSome_iff_ne_none.2 hsv, h⟩]), rfl⟩⟩,
    fun b off w hp hb => ends _ hp ?_⟩
  · simp [State.waitOver, hs, Group.flagOf, hf]
  · simpa [State.waitOver, hs, Group.flagOf] using hf
  · simp [State.waitOver, hs, hm]
  · simp [State.waitOver, hs, hm]
  · simp [State.waitOver, hb]

/-- Settles O24: `clauseAcceptWaits`, `deferredTrapIsTaken` and `waitsEndAtTheirEvent`, each for one event. -/
theorem clausesWaitsAndDeferredTraps : Obligations.ClausesWaitsAndDeferredTraps :=
  ⟨clauseAcceptWaits, deferredTrapIsTaken, waitsEndAtTheirEvent⟩

end Sys2Proof.Machine
end

section
/-! ## The capability instructions (O20) -/

namespace Sys2Proof.Machine

open Sys2Proof

/-! ### A group-wide result in a run of registers -/

theorem putsAll_run (g : Group) (d : RF) (n : Nat) (m hs : Mask) (v : Nat → Word) (r : Nat → PReg)
    (h : g.destRegs d n = (List.range n).map r) :
    g.putsAll (g.destRegs d n) m hs ((List.range n).map v) = (List.range n).foldl (fun x k => x.putAll (r k) m hs (v k)) g := by
  rw [Group.putsAll, h, List.zip_map', List.foldl_map]

theorem destRegs_lane (g : Group) {d : RF} (n : Nat) (h : d.val < 96) :
    g.destRegs d n = (List.range n).map fun k => .lane (g.wb + d.val + k) := by
  simp [Group.destRegs, run, Opnd.pregs, h]

theorem destRegs_uni (g : Group) {d : RF} (n : Nat) (h : 96 ≤ d.val) (h' : d.val < 127) :
    g.destRegs d n = (List.range n).map fun k => .uni (d.val - 96 + k) := by
  simp [Group.destRegs, run, Opnd.pregs, h', Nat.not_lt.2 h]

theorem destRegs_sz (g : Group) {d : RF} (n : Nat) (h : 127 ≤ d.val) : g.destRegs d n = [] := by
  simp [Group.destRegs, run, Opnd.pregs, Nat.not_lt.2 h, show ¬ d.val < 96 by omega]

/-- In lane registers a group-wide result is the result of a lane instruction with one value in every active lane. -/
theorem foldl_putAll_lane (g : Group) (d : RF) (hd : d.val < 96) (v : Nat → Word) (l : List Nat) :
    ∀ x : Group, x = { g with regs := x.regs, uregs := x.uregs } →
      l.foldl (fun x k => x.putAll (.lane (g.wb + d.val + k)) g.launchAct g.helperAct (v k)) x = l.foldl (fun x k => x.dst d k fun _ => v k) x := by
  induction l with
  | nil => exact fun _ _ => rfl
  | cons a t ih =>
    intro x hx
    have hstep : x.putAll (.lane (g.wb + d.val + a)) g.launchAct g.helperAct (v a) = x.dst d a fun _ => v a := by
      rw [hx]
      simp only [Group.putAll, Group.put, Group.dst, if_pos hd]
      rfl
    rw [List.foldl_cons, List.foldl_cons, hstep]
    exact ih _ (by rw [dst_eq x d a, hx])

/-- Uniform registers after a run of them is set. -/
theorem tget_foldl_setUni (g : Group) (b : Nat) (v : Nat → Word) (n m : Nat) :
    tget 0 ((List.range n).foldl (fun x k => x.setUni (b + k) (v k)) g).uregs m = if b ≤ m ∧ m < b + n then v (m - b) else g.uni m := by
  induction n with
  | zero => rw [if_neg (by omega)]; rfl
  | succ n ih =>
    rw [List.range_succ, List.foldl_append, List.foldl_cons, List.foldl_nil]
    simp only [Group.setUni] at ih ⊢
    rw [tget_tset, ih]
    by_cases hm : m = b + n
    · rw [if_pos hm, if_pos (by omega), hm, Nat.add_sub_cancel_left]
    · rw [if_neg hm]
      exact if_congr (by omega) rfl rfl

theorem foldl_setUni_eq (g : Group) (b : Nat) (v : Nat → Word) (l : List Nat) :
    l.foldl (fun x k => x.setUni (b + k) (v k)) g = { g with uregs := (l.foldl (fun x k => x.setUni (b + k) (v k)) g).uregs } := by
  induction l generalizing g with
  | nil => rfl
  | cons a t ih => exact ih (g.setUni (b + a) (v a))

/-- A group-wide result goes to every active lane of lane registers, or to uniform registers whatever lanes are active (R44, R213). -/
theorem putsAll_destRegs (g : Group) (d : RF) (n : Nat) (v : Nat → Word) :
    ∃ regs uregs, g.putsAll (g.destRegs d n) g.launchAct g.helperAct ((List.range n).map v) = { g with regs := regs, uregs := uregs } ∧
      LaneRegs g d n (fun k _ => v k) regs ∧
      ∀ m, tget 0 uregs m = if 96 ≤ d.val ∧ d.val < 127 ∧ d.val - 96 ≤ m ∧ m < d.val - 96 + n then v (m - (d.val - 96)) else g.uni m := by
  by_cases hl : d.val < 96
  · have hf := foldl_putAll_lane g d hl v (List.range n) g rfl
    have hu : (g.dsts d n fun k _ => v k).uregs = g.uregs :=
      foldl_keeps (·.uregs) _ (fun x k => by simp only [Group.dst, if_pos hl]) _ g
    refine ⟨(g.dsts d n fun k _ => v k).regs, (g.dsts d n fun k _ => v k).uregs, ?_, laneRegs_dsts g d n _, fun m => ?_⟩
    · rw [putsAll_run g d n _ _ v _ (destRegs_lane g n hl), hf]
      exact dsts_eq g d _ (List.range n) g rfl
    · rw [hu, if_neg (by omega)]
      rfl
  · have hr : ∀ regs, regs = g.regs → LaneRegs g d n (fun k _ => v k) regs := by
      rintro regs rfl k L -
      rw [if_neg (by omega)]
      rfl
    by_cases hs : d.val < 127
    · refine ⟨g.regs, _, ?_, hr _ rfl, fun m => (tget_foldl_setUni g (d.val - 96) v n m).trans (if_congr (by omega) rfl rfl)⟩
      rw [putsAll_run g d n _ _ v _ (destRegs_uni g n (by omega) hs)]
      exact foldl_setUni_eq ..
    · refine ⟨g.regs, g.uregs, ?_, hr _ rfl, fun m => by rw [if_neg (by omega)]; rfl⟩
      rw [destRegs_sz g n (by omega)]
      rfl

/-! ### Issue -/

theorem params_getD (g : Group) (f : RF) {n k : Nat} (h : k < n) : (g.params f n).getD k 0 = (g.src f k 0).toNat := by
  simp [Group.params, List.getD_eq_getElem?_getD, h]

/-- A 40-bit value whose high word is in range (R211). -/
theorem wide40_of_lt {lo hi : Nat} (h : hi < 256) : wide40 lo hi = hi * 2 ^ 32 + lo := by
  rw [wide40, Nat.mod_eq_of_lt h]

theorem capabilityResults : Claims.CapabilityResults := by
  intro s g e a d c x p off len value word
  refine ⟨fun h h0 => ?_, fun h h0 hlt => ?_, fun h h1 h3 hobj hk1 hk3 hlen => ?_, fun h hr => ?_, fun h => ?_⟩
  · refine h.answers (execCapld e a s) rfl rfl ?_
    simp only [h0]
    rfl
  · have hne : (g.usrc a).toNat ≠ 0 := fun hz => h0 (BitVec.eq_of_toNat_eq hz)
    have hdiv : ¬ (g.usrc a).toNat / 2 ^ 24 ≠ 0 := by simpa using hlt
    refine h.answers (execCapld e a s) rfl rfl ?_
    simp only [if_neg hdiv, if_neg hne]
    exact ⟨(issuedOp_inFlight h.1.1 ⟨rfl, rfl, rfl, rfl⟩ fun n => ⟨rfl, rfl⟩).push _, by simp⟩
  · have hget : ∀ k, k < 4 → (g.params a 4).getD k 0 = p k := fun k hk => params_getD g a hk
    refine h.answers (execCapnar e a c s) rfl rfl ?_
    simp only [hget 0 (by omega), hget 1 (by omega), hget 2 (by omega), hget 3 (by omega), wide40_of_lt h1, wide40_of_lt h3]
    rw [if_neg (by omega), if_neg (by simp only [x] at hobj hk1 hk3; omega), if_neg (Nat.not_lt.2 hlen)]
    rfl
  · refine h.answers (execCaprr e a c s) rfl rfl ?_
    rw [if_neg (by simpa using hr)]
    rfl
  · obtain ⟨regs, uregs, hp, hl, hu⟩ := putsAll_destRegs g d 4 fun k => w32 ((g.cap c.val).bits / 2 ^ (32 * k))
    refine h.answers (execCaprd d c s) (body := fun n g => s.setGrp n (g.putsAll (g.destRegs d 4) g.launchAct g.helperAct
      ((List.range 4).map fun k => w32 ((g.cap c.val).bits / 2 ^ (32 * k)))).next) rfl rfl ⟨regs, uregs, ?_, hl, hu⟩
    simp only [hp]
    rfl

theorem capabilityTraps : Claims.CapabilityTraps := by
  intro s g e a c hm x p
  have hget : ∀ k, k < 4 → (g.params a 4).getD k 0 = p k := fun k hk => params_getD g a hk
  refine ⟨fun h hb => ?_, fun h hb => ?_, fun h h1 h3 hk => ?_, fun h h1 h3 hobj hk1 hk3 hlen => ?_, fun h hb => ?_⟩
  · refine h.traps hm (execCapld e a s) rfl rfl ?_
    rw [if_pos (by omega)]
  · refine h.traps hm (execCapnar e a c s) rfl rfl ?_
    simp only [hget 1 (by omega), hget 3 (by omega)]
    rw [if_pos (by omega)]
  · refine h.traps hm (execCapnar e a c s) rfl rfl ?_
    simp only [hget 1 (by omega), hget 3 (by omega)]
    rw [if_neg (by omega), if_pos (by simp only [x] at hk; omega)]
  · refine h.traps hm (execCapnar e a c s) rfl rfl ?_
    have hlo : w32 (p 1 * 2 ^ 32 + p 0) = g.src a 0 0 := BitVec.eq_of_toNat_eq (by simp only [w32, BitVec.toNat_ofNat, p]; omega)
    have hhi : w32 ((p 1 * 2 ^ 32 + p 0) / 2 ^ 32) = g.src a 1 0 :=
      BitVec.eq_of_toNat_eq (by simp only [w32, BitVec.toNat_ofNat, p]; omega)
    simp only [hget 0 (by omega), hget 1 (by omega), hget 2 (by omega), hget 3 (by omega), wide40_of_lt h1, wide40_of_lt h3]
    rw [if_neg (by omega), if_neg (by simp only [x] at hobj hk1 hk3; omega), if_pos hlen, hlo, hhi]
  · refine h.traps hm (execCaprr e a c s) rfl rfl ?_
    rw [if_pos (by omega)]

/-! ### The entry that returns -/

/-- With one operation in flight nothing younger is discarded when it traps. -/
theorem discardYounger_single {s : State} {op : Nat} {p : Op} (h : s.ops = [(op, p)]) (g : Nat) : s.discardYounger g op = s := by
  have hnone : (s.opsOf g).filter (fun e => decide (op < e.1) && e.2.instr.isLoad) = [] := by
    rw [List.filter_eq_nil_iff]
    intro e he
    have : e = (op, p) := by simpa [h] using List.mem_of_mem_filter he
    simp [this]
  rw [State.discardYounger, hnone]
  rfl

theorem op_single {s : State} {op : Nat} {p : Op} (h : s.ops = [(op, p)]) : s.op op = p := by
  simp [State.op, h, tget]

theorem tfind_single {s : State} {op : Nat} {p : Op} (h : s.ops = [(op, p)]) : tfind s.ops op = some p := by
  simp [h, tfind]

/-- Group `g` as an operation's end leaves it: the operation has left its flag, and its registers are no longer pending (R17, R20). -/
def Group.ended (g : Group) (p : Op) : Group := (g.unmark p.flag).clearPend p.tok

theorem unmark_eq (g : Group) (n : Nat) : g.unmark n = { g with flags := (g.unmark n).flags } := by
  unfold Group.unmark
  split <;> rfl

theorem ended_eq (g : Group) (p : Op) :
    g.ended p = { g with flags := (g.unmark p.flag).flags, pend := g.pend.filter fun r => r.2 != p.tok } := by
  rw [Group.ended, unmark_eq]
  rfl

/-- The end of an operation changes its group and the steps due, and takes the operation out of flight. -/
theorem endOp_eq (s : State) (o : Nat) : ∃ agenda, s.endOp o =
    { s with
      groups := s.groups.set (s.op o).gid ((s.grp (s.op o).gid).ended (s.op o)), ops := tdel s.ops o, agenda := agenda } := by
  have hwake : ∀ (t : State) (g : Nat), ∃ agenda, t.wakeFlag g = { t with agenda := agenda } := by
    intro t g
    unfold State.wakeFlag
    split
    · split
      · exact ⟨_, rfl⟩
      · exact ⟨_, rfl⟩
    · exact ⟨_, rfl⟩
  obtain ⟨agenda, h⟩ := hwake ((s.setGrp (s.op o).gid ((s.grp (s.op o).gid).ended (s.op o))).delOp o) (s.op o).gid
  unfold State.endOp
  simp only [Group.ended] at h ⊢
  rw [h]
  split <;> exact ⟨_, rfl⟩

/-- When an operation completes, its group may go on besides (R117, R231). -/
theorem completeOp_eq (s : State) (o : Nat) : ∃ agenda phase lanes, s.completeOp o =
    { s with
      groups := s.groups.set (s.op o).gid { (s.grp (s.op o).gid).ended (s.op o) with phase := phase, lanes := lanes }
      ops := tdel s.ops o, agenda := agenda } := by
  obtain ⟨agenda, h⟩ := endOp_eq s o
  have hends : ∃ agenda phase lanes, s.endOp o =
      { s with
        groups := s.groups.set (s.op o).gid { (s.grp (s.op o).gid).ended (s.op o) with phase := phase, lanes := lanes }
        ops := tdel s.ops o, agenda := agenda } := ⟨agenda, _, _, h⟩
  by_cases hl : (s.op o).gid < s.groups.length
  · have hg : (s.endOp o).grp (s.op o).gid = (s.grp (s.op o).gid).ended (s.op o) := by
      rw [h]
      exact grp_of_getElem? (by simp [hl])
    have hgoes : ∀ i, ∃ agenda phase lanes, (s.endOp o).setGrp (s.op o).gid (((s.endOp o).grp (s.op o).gid).after i) =
        { s with
          groups := s.groups.set (s.op o).gid { (s.grp (s.op o).gid).ended (s.op o) with phase := phase, lanes := lanes }
          ops := tdel s.ops o, agenda := agenda } := by
      intro i
      refine ⟨agenda, (((s.endOp o).grp (s.op o).gid).after i).phase, (((s.endOp o).grp (s.op o).gid).after i).lanes, ?_⟩
      rw [hg, h]
      simp [State.setGrp, Group.after]
    unfold State.completeOp
    dsimp only
    split
    · split
      · exact hgoes _
      · exact hends
    · split
      · exact hgoes _
      · exact hends
    · exact hends
  · have hg : (s.endOp o).grp (s.op o).gid = .empty := by
      rw [h]
      simp [State.grp, List.getD_eq_getElem?_getD, Nat.not_lt.1 hl]
    unfold State.completeOp
    dsimp only
    rw [hg]
    exact hends

/-- What the completion of an operation of a group that is there leaves. -/
theorem completeOp_around {s : State} {o : Nat} {p : Op} {g : Group} (h : s.op o = p) (hg : s.groups[p.gid]? = some g) :
    (s.completeOp o).ops = tdel s.ops o ∧ s.Around (s.completeOp o) p.gid ∧
      ∃ phase lanes, (s.completeOp o).grp p.gid = { g.ended p with phase := phase, lanes := lanes } := by
  obtain ⟨agenda, phase, lanes, hd⟩ := completeOp_eq s o
  rw [h, grp_of_getElem? hg] at hd
  have hgt : (s.completeOp o).grp p.gid = { g.ended p with phase := phase, lanes := lanes } := by
    rw [hd]
    exact grp_of_getElem? (by simp [lt_of_getElem? hg])
  refine ⟨by rw [hd], ?_, phase, lanes, hgt⟩
  rw [State.Around, hgt, hd]

theorem State.Around.of_setGrp {s t : State} {n : Nat} {x : Group} (h : (s.setGrp n x).Around t n) : s.Around t n := by
  unfold State.Around at h ⊢
  rwa [State.setGrp, List.set_set] at h

theorem tfind_tdel_self {α : Type} (m : SMap α) (k : Nat) : tfind (tdel m k) k = none := by
  induction m with
  | nil => rfl
  | cons e t ih =>
    rw [tdel, List.filter_cons]
    split
    · next h => simpa [tfind, show e.1 ≠ k by simpa using h, tdel] using ih
    · exact ih

/-- An operation alone in flight whose word traps: the group enters its handler at that word (R19, R188). -/
theorem trapOp_single {s : State} {op : Nat} {p : Op} {g : Group} (h : s.ops = [(op, p)]) (hg : s.groups[p.gid]? = some g)
    (hh : g.trap.handler = false) (hl : (s.glch p.gid).lr.handler ≠ 0xFFFFFFFF) (h1 : g.phase ≠ .stopped) (h2 : g.phase ≠ .exited) (r : Trap) :
    (s.trapOp op r).ops = tdel s.ops op ∧
      (s.trapOp op r).grp p.gid = (g.ended p).inHandler r (p.clause.at p.idx) p.clause false (s.glch p.gid).lr.handler := by
  have hgrp : s.grp p.gid = g := grp_of_getElem? hg
  obtain ⟨agenda, he⟩ := endOp_eq s op
  rw [op_single h, hgrp] at he
  have hx : (s.endOp op).groups[p.gid]? = some (g.ended p) := by
    rw [he]
    simp [lt_of_getElem? hg]
  have hxg : (s.endOp op).grp p.gid = g.ended p := grp_of_getElem? hx
  have hlch : (s.endOp op).glch p.gid = s.glch p.gid := by
    simp only [State.glch, State.gblk, hxg, hgrp, ended_eq]
    rw [he]
    rfl
  have hph : (g.ended p).phase = g.phase := by rw [ended_eq]
  have ht : s.trapOp op r = (s.endOp op).takeTrap p.gid r (p.clause.at p.idx) p.clause false := by
    unfold State.trapOp
    simp only [op_single h, discardYounger_single h, hxg]
    split
    · next hs => exact absurd (hph.symm.trans hs) h1
    · next hs => exact absurd (hph.symm.trans hs) h2
    · rfl
  rw [ht, takeTrap_inHandler hx (by rw [ended_eq]; exact hh) (by rw [hlch]; exact hl), hlch]
  refine ⟨by rw [he], grp_of_getElem? ?_⟩
  rw [he]
  simp [lt_of_getElem? hg]

theorem capabilityEntryReturns : Claims.CapabilityEntryReturns := by
  intro s op p g e a hops hg hi
  have hgrp : s.grp p.gid = g := grp_of_getElem? hg
  refine ⟨fun c hc => ?_, fun hc hh hl h1 h2 => ?_⟩
  · have hops' : (s.setGrp p.gid (g.setCap e.val c)).ops = [(op, p)] := hops
    obtain ⟨hd, ha, phase, lanes, hx⟩ := completeOp_around (op_single hops') (setGrp_getElem? hg (g.setCap e.val c))
    refine ⟨(s.setGrp p.gid (g.setCap e.val c)).completeOp op, ?_, by rw [hd]; exact tfind_tdel_self .., ha.of_setGrp, ?_⟩
    · show execCapldEntryReturn op s = _
      simp only [execCapldEntryReturn, tfind_single hops, hi, hc, hgrp]
    · rw [hx, ended_eq]
      exact ⟨tget_tset_self .., fun k hk => tget_tset_ne _ _ _ _ _ hk, rfl, rfl, rfl, rfl⟩
  · obtain ⟨hd, hx⟩ := trapOp_single hops hg hh hl h1 h2 ⟨0x09, w32 (p.ps.getD 0 0), 0, p.mask, []⟩
    refine ⟨s.trapOp op ⟨0x09, w32 (p.ps.getD 0 0), 0, p.mask, []⟩, ?_, by rw [hd]; exact tfind_tdel_self .., ?_⟩
    · show execCapldEntryReturn op s = _
      simp only [execCapldEntryReturn, tfind_single hops, hi, hc]
    · rw [hx, ended_eq]
      exact ⟨rfl, rfl, rfl, rfl, rfl, rfl⟩

/-- Settles O20: `capabilityResults` and `capabilityTraps` at issue, `capabilityEntryReturns` for the entry that CAPLD waits for. -/
theorem capabilities : Obligations.Capabilities :=
  ⟨capabilityResults, capabilityTraps, capabilityEntryReturns⟩

end Sys2Proof.Machine
end

section
/-! ## Merge commands issue and are checked (O37) -/

namespace Sys2Proof.Machine

open Sys2Proof

/-- The word has gone into flight and joined its core's merge engine; with none before it, it is taken up (R380). -/
def MergeEnters (s t : State) (g : Group) (i : Instr) (P : Op → Prop) : Prop :=
  InFlight s t g i P ∧ (t.core (s.gblk s.cur).core).mq = (s.core (s.gblk s.cur).core).mq ++ [s.nextOp] ∧
    ((s.core (s.gblk s.cur).core).mq = [] → .mergeCommandComplete s.nextOp ∈ t.agenda)

theorem enqueueMerge_enters {s : State} {g : Group} {i : Instr} {o : Op} {P : Op → Prop} (hg : s.groups[s.cur]? = some g)
    (ho : o.IssuedBy s g i) (hP : ∀ n, P { o with relTo := n }) : MergeEnters s (s.enqueueMerge s.cur o) g i P := by
  obtain ⟨hi, hc, he⟩ := (issuedOp_inFlight hg ho hP).queued (s.gblk s.cur).core
    { s.core (s.gblk s.cur).core with mq := (s.core (s.gblk s.cur).core).mq ++ [s.nextOp] } ((s.core (s.gblk s.cur).core).mq = [])
    (.mergeCommandComplete s.nextOp)
  exact ⟨hi, congrArg Core.mq hc, he⟩

/-- A merge command with a legal block whose regions pass the checks issues. -/
theorem mergeIssue_answers {i : Instr} {s : State} {g : Group} {a : RF} {n : Nat} {dest : Group → List PReg}
    {plan : List Nat → Option (List Reg × List Reg)} {rs ws : List Reg} (h : Issues s g i) (hx : exec i s = mergeIssue i a n dest plan s)
    (hp : plan (g.params a n) = some (rs, ws)) (hr : regTrap (s.glch s.cur).scr rs ws = none) :
    Answers i s fun t => MergeEnters s t g i fun o => o.ps = g.params a n ∧ o.dest = dest g := by
  refine h.answers _ hx rfl ?_
  simp only [hp, hr]
  exact enqueueMerge_enters h.1.1 ⟨rfl, rfl, rfl, rfl⟩ fun _ => ⟨rfl, rfl⟩

/-- A command of a map stack whose header is whole and in place issues. -/
theorem stackIssue_answers {i : Instr} {s : State} {g : Group} {a : RF} {dest : Group → List PReg} (h : Issues s g i)
    (hx : exec i s = stackIssue i a dest s) (hs : (g.src a 0 0).toNat + 256 ≤ (s.glch s.cur).scr) (hal : (g.src a 0 0).toNat % 16 = 0) :
    Answers i s fun t => MergeEnters s t g i fun o => o.ps = g.params a 1 ∧ o.dest = dest g := by
  have hh : headerTrap (s.glch s.cur).scr ((g.params a 1).getD 0 0) = none := by
    rw [params_getD g a (by omega), headerTrap, if_neg (by omega)]
  refine h.answers _ hx rfl ?_
  simp only [hh]
  exact enqueueMerge_enters h.1.1 ⟨rfl, rfl, rfl, rfl⟩ fun _ => ⟨rfl, rfl⟩

/-- A command of a map stack whose header is not whole in the scratchpad, or not in place, traps. -/
theorem stackIssue_traps {i : Instr} {s : State} {g : Group} {a : RF} {dest : Group → List PReg} (h : Issues s g i) (hm : MayTrap s g)
    (hx : exec i s = stackIssue i a dest s) (hs : (s.glch s.cur).scr < (g.src a 0 0).toNat + 256 ∨ (g.src a 0 0).toNat % 16 ≠ 0) :
    Answers i s fun t => TrapsAtWord s t g 0x06 (g.src a 0 0) 0 := by
  have hh : headerTrap (s.glch s.cur).scr ((g.params a 1).getD 0 0) = some (0x06, (g.src a 0 0).toNat, 0) := by
    rw [params_getD g a (by omega), headerTrap, if_pos hs]
  refine h.traps hm _ hx rfl ?_
  simp only [hh]
  rw [cmdTrap_eq h.1.1, w32_toNat]
  rfl

theorem mergeCommandsEnterTheirQueue : Claims.MergeCommandsEnterTheirQueue := by
  intro s g d a rs ws core scr enters sb
  refine ⟨fun h hp hr => mergeIssue_answers h rfl hp hr, fun h hp hr => mergeIssue_answers h rfl hp hr, fun h hp hr hs hal => ?_,
    fun h hp hr => mergeIssue_answers h rfl hp hr, fun h hs hal => stackIssue_answers h rfl hs hal, fun h hs hal => stackIssue_answers h rfl hs hal⟩
  refine h.answers (execMgsplit a s) rfl rfl ?_
  have hr' : regTrap (s.glch s.cur).scr rs ws = none := hr
  have hsb : (g.params a 6).getD 0 0 = sb := params_getD g a (by omega)
  simp only [hp, hsb]
  rw [if_neg (Nat.not_lt.2 hs)]
  simp only [hr', hal]
  exact enqueueMerge_enters h.1.1 ⟨rfl, rfl, rfl, rfl⟩ fun _ => ⟨rfl, rfl⟩

/-! ### The checks of a command's regions -/

/-- The checks of R397 on one region read and one written, in their order. -/
theorem regTrap_pair (scr : Nat) (x y : Reg) : regTrap scr [x] [y] =
    if scr < x.off + x.len then some (0x06, x.off, 0)
    else if scr < y.off + y.len then some (0x06, y.off, 0)
    else if y.off < x.off + x.len ∧ x.off < y.off + y.len then some (0x06, y.off, 0)
    else if x.off % x.align ≠ 0 then some (0x05, x.off, 1)
    else if y.off % y.align ≠ 0 then some (0x05, y.off, 1) else none := by
  have hfind : ∀ p : Reg → Bool, ([x] ++ [y]).find? p = if p x then some x else if p y then some y else none := by
    intro p
    cases hx : p x <;> cases hy : p y <;> simp [hx, hy]
  simp only [regTrap, hfind, firstMeet, Reg.meets, List.any_cons, List.any_nil, Bool.or_false, Bool.and_eq_true, decide_eq_true_eq, bne_iff_ne]
  split_ifs <;> rfl

theorem mergeChecks : Claims.MergeChecks := by
  refine ⟨fun s g d a h hm hp => ?_, fun s g d a hm hs => ⟨fun h => stackIssue_traps h hm rfl hs, fun h => stackIssue_traps h hm rfl hs⟩,
    fun scr x y => ?_⟩
  · refine h.traps hm (mergeIssue (.mgmatch d a) a 5 (fun g => g.destRegs d 1) matchPlan s) rfl rfl ?_
    simp only [hp]
  · rw [regTrap_pair]
    refine ⟨fun h1 => if_pos h1, fun h1 h2 => ?_, fun h1 h2 => ⟨fun h3 h4 => ?_, fun h3 => ⟨fun h4 => ?_, fun h4 h5 => ?_, fun h4 h5 => ?_⟩⟩⟩ <;>
      rw [if_neg (by omega)]
    · rw [if_pos h2]
    all_goals rw [if_neg (by omega)]
    · rw [if_pos ⟨h4, h3⟩]
    all_goals rw [if_neg (by omega)]
    · rw [if_pos h4]
    all_goals rw [if_neg (by omega)]
    · rw [if_pos h5]
    · rw [if_neg (by omega)]

/-- Settles O37: `mergeCommandsEnterTheirQueue` for the words that issue, `mergeChecks` for those that are refused. -/
theorem mergeCommandsIssue : Obligations.MergeCommandsIssue :=
  ⟨mergeCommandsEnterTheirQueue, mergeChecks⟩

end Sys2Proof.Machine
end

section
/-! ## Sequence, free-list, launch and link commands issue and are checked (O35) -/

namespace Sys2Proof.Machine

open Sys2Proof

/-! ### The sequence engine's words -/

theorem Op.eq_of_dest_nil (o : Op) (h : o.dest = []) : o = { o with dest := [], vals := o.vals } := by
  rw [← h]

/-- What a word that goes to the sequence engine leaves: its block, its capability and its destinations in flight, and its answer due. -/
def SeqSent (s t : State) (g : Group) (i : Instr) (a : RF) (n : Nat) (dest : List PReg) : Prop :=
  InFlight s t g i (fun o => o.ps = g.params a n ∧ o.cap1 = g.cap ((g.src a 0 0).toNat / 2 ^ 24 % 16) ∧ o.dest = dest) ∧
    .sequenceAnswer s.nextOp ∈ t.agenda

/-- The capability that a handle or list word names is a brick pool's with S (R356). -/
def Group.poolCap (g : Group) (a : RF) : Prop :=
  (g.cap ((g.src a 0 0).toNat / 2 ^ 24 % 16)).kind = 3 ∧ (g.cap ((g.src a 0 0).toNat / 2 ^ 24 % 16)).rights &&& rightS ≠ 0

/-- A word whose parameter block is legal and whose capability is a brick pool's with S goes to the sequence engine (R356). -/
theorem seqIssue_answers {i : Instr} {s : State} {g : Group} {a : RF} {n : Nat} {legal priv : List Nat → Bool} {die : Nat → Nat}
    {mk : Group → Op → Op} {dest : List PReg} (h : Issues s g i) (r : Host.Outcome State Fault Refusal)
    (hx : exec i s = r) (hr : r = seqIssue i a n legal priv die s mk) (hn : 0 < n)
    (hw : (g.src a 0 0).toNat < 2 ^ 28) (hl : legal (g.params a n) = true) (hp : priv (g.params a n) = false) (hc : g.poolCap a)
    (hmk : ∀ o : Op, o.dest = [] → mk g o = { o with dest := dest, vals := (mk g o).vals }) : Answers i s fun t => SeqSent s t g i a n dest := by
  have hw0 : (g.params a n).getD 0 0 = (g.src a 0 0).toNat := params_getD g a hn
  have hres : fld (g.src a 0 0).toNat 28 4 = 0 := by simp only [fld]; omega
  refine h.answers r hx hr ?_
  simp only [hw0, hres, hl, hp]
  rw [if_neg (by simp), if_neg (by simp), if_neg (by simpa [Group.poolCap, fld] using hc)]
  refine ⟨InFlight.push (issuedOp_inFlight h.1.1 ?_ fun _ => ?_) _, by simp⟩
  · rw [hmk _ rfl]
    exact ⟨rfl, rfl, rfl, rfl⟩
  · rw [hmk _ rfl]
    exact ⟨rfl, rfl, rfl⟩

theorem handleLegal_iff {g : Group} {a : RF} {n : Nat} (hn : 0 < n) :
    handleLegal (g.params a n) = true ↔ (g.src a 0 0).toNat / 2 ^ 20 % 16 = 0 := by
  rw [handleLegal, params_getD g a hn, beq_iff_eq]
  rfl

theorem listLegal_iff {g : Group} {a : RF} {n : Nat} (hn : 0 < n) :
    listLegal (g.params a n) = true ↔ (g.src a 0 0).toNat / 2 ^ 6 % 2 ^ 18 = 0 := by
  rw [listLegal, params_getD g a hn, beq_iff_eq]
  rfl

theorem handleIssue_answers {i : Instr} {s : State} {g : Group} {a : RF} {n : Nat} {legal : List Nat → Bool}
    {mk : Group → Op → Op} {dest : List PReg} (h : Issues s g i) (r : Host.Outcome State Fault Refusal)
    (hx : exec i s = r) (hr : r = handleIssue i a n legal s mk) (hn : 0 < n)
    (hw : (g.src a 0 0).toNat < 2 ^ 28) (hh : (g.src a 0 0).toNat / 2 ^ 20 % 16 = 0) (hl : legal (g.params a n) = true) (hc : g.poolCap a)
    (hmk : ∀ o : Op, o.dest = [] → mk g o = { o with dest := dest, vals := (mk g o).vals }) : Answers i s fun t => SeqSent s t g i a n dest :=
  seqIssue_answers h r hx hr hn hw (by simp only [(handleLegal_iff hn).2 hh, hl, Bool.and_self]) rfl hc hmk

theorem listIssue_answers {i : Instr} {s : State} {g : Group} {a : RF} {n : Nat} {mk : Group → Op → Op} {dest : List PReg}
    (h : Issues s g i) (r : Host.Outcome State Fault Refusal) (hx : exec i s = r) (hr : r = listIssue i a n s mk) (hn : 0 < n)
    (hw : (g.src a 0 0).toNat < 2 ^ 28) (hl : (g.src a 0 0).toNat / 2 ^ 6 % 2 ^ 18 = 0) (hc : g.poolCap a)
    (hmk : ∀ o : Op, o.dest = [] → mk g o = { o with dest := dest, vals := (mk g o).vals }) : Answers i s fun t => SeqSent s t g i a n dest :=
  seqIssue_answers h r hx hr hn hw ((listLegal_iff hn).2 hl) rfl hc hmk

theorem sequenceOperationsIssue : Claims.SequenceOperationsIssue := by
  intro s g d a b p cap sends handle list
  have hget : ∀ n k, k < n → (g.params a n)[k]?.getD 0 = p k := fun n k hk => params_getD g a hk
  refine ⟨fun h hw hl hk hs => ?_, fun h hw hl hk hs => ?_, fun h hw hl hk hs => ?_, fun h hw hl hk hs => ?_, fun h hw hl hk hs => ?_,
    fun h hw hl hk hs => ?_, fun h hw hl hk hs => ?_, fun h hw hl hk hs => ?_, fun h hw hl hk hs => ?_, fun h hw hl hk hs => ?_,
    fun h hw hl hk hs => ?_, fun h hw hl hk hs => ?_, fun h hw hl hk hs => ?_, fun h hw hl hk hs => ?_, fun h hw hl hk hs => ?_,
    fun h hw hl hk hs => ?_⟩
  · exact handleIssue_answers h (execSqres d a s) rfl rfl (by omega) hw hl.1 (by simpa [hget] using hl.2) ⟨hk, hs⟩ fun _ _ => rfl
  · exact handleIssue_answers h (execSqcom a s) rfl rfl (by omega) hw hl.1 (by simpa [hget, and_assoc] using hl.2) ⟨hk, hs⟩ Op.eq_of_dest_nil
  · exact handleIssue_answers h (execSqapp d a b s) rfl rfl (by omega) hw hl.1 (by simpa [hget] using hl.2) ⟨hk, hs⟩ fun _ _ => rfl
  · exact handleIssue_answers h (execSqlen d a s) rfl rfl (by omega) hw hl rfl ⟨hk, hs⟩ fun _ _ => rfl
  · exact handleIssue_answers h (execSqrlen d a s) rfl rfl (by omega) hw hl rfl ⟨hk, hs⟩ fun _ _ => rfl
  · exact handleIssue_answers h (execSqwlo d a s) rfl rfl (by omega) hw hl rfl ⟨hk, hs⟩ fun _ _ => rfl
  · exact handleIssue_answers h (execSqmap d a b s) rfl rfl (by omega) hw hl.1 (by simpa [hget] using hl.2) ⟨hk, hs⟩ fun _ _ => rfl
  · exact handleIssue_answers h (execSqfork d a s) rfl rfl (by omega) hw hl.1 (by simpa [hget] using hl.2) ⟨hk, hs⟩ fun _ _ => rfl
  · exact seqIssue_answers h (execSqnew d a s) rfl rfl (by omega) hw (by simpa [hget, (handleLegal_iff (g := g) (a := a) (n := 3) (by omega)).2 hl.1] using hl.2.1)
      (by simpa [hget, fld] using hl.2.2) ⟨hk, hs⟩ fun _ _ => rfl
  · exact handleIssue_answers h (execSqrel a s) rfl rfl (by omega) hw hl rfl ⟨hk, hs⟩ Op.eq_of_dest_nil
  · exact handleIssue_answers h (execSqwin a s) rfl rfl (by omega) hw hl.1 (by simpa [hget] using hl.2) ⟨hk, hs⟩ Op.eq_of_dest_nil
  · exact handleIssue_answers h (execSqtake d a s) rfl rfl (by omega) hw hl.1 (by simpa [hget] using hl.2) ⟨hk, hs⟩ fun _ _ => rfl
  · exact handleIssue_answers h (execSqseal a s) rfl rfl (by omega) hw hl rfl ⟨hk, hs⟩ Op.eq_of_dest_nil
  · exact listIssue_answers h (execFlpop d a s) rfl rfl (by omega) hw hl ⟨hk, hs⟩ fun _ _ => rfl
  · exact listIssue_answers h (execFlpush a s) rfl rfl (by omega) hw hl ⟨hk, hs⟩ Op.eq_of_dest_nil
  · exact listIssue_answers h (execFlcnt d a s) rfl rfl (by omega) hw hl ⟨hk, hs⟩ fun _ _ => rfl

/-- A handle word with a reserved bit set, or a block that is not legal, traps (R356). -/
theorem handleIssue_traps_illegal {i : Instr} {s : State} {g : Group} {a : RF} {n : Nat} {legal : List Nat → Bool} {mk : Group → Op → Op}
    (h : Issues s g i) (hm : MayTrap s g) (r : Host.Outcome State Fault Refusal) (hx : exec i s = r) (hr : r = handleIssue i a n legal s mk)
    (hn : 0 < n) (hb : 2 ^ 28 ≤ (g.src a 0 0).toNat ∨ (g.src a 0 0).toNat / 2 ^ 20 % 16 ≠ 0 ∨ legal (g.params a n) = false) :
    Answers i s fun t => TrapsAtWord s t g 0x01 g.word 0 := by
  have hlt : (g.src a 0 0).toNat < 2 ^ 32 := (g.src a 0 0).isLt
  refine h.traps hm (seqIssue i a n (fun p => handleLegal p && legal p) (fun _ => false) wordDie s mk) (hx.trans hr) rfl ?_
  simp only [params_getD g a hn]
  rw [if_pos]
  rcases hb with hb | hb | hb
  · exact .inl (by simp only [fld]; omega)
  · have hf : handleLegal (g.params a n) = false := by rwa [Bool.eq_false_iff, ne_eq, handleLegal_iff hn]
    exact .inr (by simp [hf])
  · exact .inr (by simp [hb])

/-- A legal block whose capability is no brick pool's with S traps (R356). -/
theorem handleIssue_traps_noPool {i : Instr} {s : State} {g : Group} {a : RF} {n : Nat} {legal : List Nat → Bool} {mk : Group → Op → Op}
    (h : Issues s g i) (hm : MayTrap s g) (r : Host.Outcome State Fault Refusal) (hx : exec i s = r) (hr : r = handleIssue i a n legal s mk)
    (hn : 0 < n) (hw : (g.src a 0 0).toNat < 2 ^ 28) (hh : (g.src a 0 0).toNat / 2 ^ 20 % 16 = 0) (hl : legal (g.params a n) = true)
    (hc : ¬ g.poolCap a) : Answers i s fun t => TrapsAtWord s t g 0x07 (BitVec.ofNat 32 ((g.src a 0 0).toNat / 2 ^ 24 % 16)) 0 := by
  have hres : fld (g.src a 0 0).toNat 28 4 = 0 := by simp only [fld]; omega
  refine h.traps hm (seqIssue i a n (fun p => handleLegal p && legal p) (fun _ => false) wordDie s mk) (hx.trans hr) rfl ?_
  simp only [params_getD g a hn]
  rw [if_neg (by simp [hres, (handleLegal_iff hn).2 hh, hl]), if_neg (by simp)]
  exact if_pos (by simpa [Group.poolCap, fld, imp_iff_not_or] using hc)

theorem sequenceChecksAtIssue : Claims.SequenceChecksAtIssue := by
  intro s g d a h hm w cap
  refine ⟨fun hb => handleIssue_traps_illegal h hm (execSqlen d a s) rfl rfl (by omega) (hb.imp_right .inl), fun hw hh hc => ?_⟩
  exact handleIssue_traps_noPool h hm (execSqlen d a s) rfl rfl (by omega) hw hh rfl fun hp => hc.elim (absurd hp.1) hp.2

/-! ### Launches, tokens and remote commands -/

/-- LWAIT and LSTAT go into flight with their token (R161, R162). -/
theorem tokenIssue_answers {i : Instr} {s : State} {g : Group} {d a : RF} (h : Issues s g i) (hx : exec i s = tokenIssue i d a s) :
    Answers i s fun t => InFlight s t g i (fun o => o.ps = [(g.usrc a).toNat] ∧ o.dest = g.destRegs d 1) ∧
      .sequenceAnswer s.nextOp ∈ t.agenda :=
  h.answers _ hx rfl ⟨(issuedOp_inFlight h.1.1 ⟨rfl, rfl, rfl, rfl⟩ fun _ => ⟨rfl, rfl⟩).push _, by simp⟩

/-- A remote command that passes the checks of R459 goes into flight with its block and the barrier that it counts on. -/
theorem rmaIssue_answers {i : Instr} {s : State} {g : Group} {w : Bool} {a : RF} {c : Fin 16} {bar : Option (Nat × Nat)} (h : Issues s g i)
    (hx : exec i s = rmaIssue i w a c s) (hc : s.rmaCheck s.cur w (g.params a 4) (g.cap c.val) = .ok bar) :
    Answers i s fun t => InFlight s t g i (fun o => o.ps = g.params a 4 ++ bar.elim [] (fun x => [x.1, x.2]) ∧
      o.cap1 = g.cap c.val) ∧ .sequenceAnswer s.nextOp ∈ t.agenda := by
  refine h.answers _ hx rfl ?_
  simp only [hc]
  exact ⟨(issuedOp_inFlight h.1.1 ⟨rfl, rfl, rfl, rfl⟩ fun _ => ⟨by cases bar <;> rfl, rfl⟩).push _, by simp⟩

/-- A group that is held or waits at its word has the same registers and flags (R177). -/
theorem InFlight.setPhase {s t : State} {g : Group} {i : Instr} {P : Op → Prop} (h : InFlight s t g i P) (hl : s.cur < s.groups.length) (ph : Phase) :
    InFlight s (t.setGrp s.cur { t.grp s.cur with phase := ph }) g i P ∧
      ((t.setGrp s.cur { t.grp s.cur with phase := ph }).grp s.cur).phase = ph := by
  have hlt : s.cur < t.groups.length := by
    rw [h.around]
    simpa using hl
  have hx : (t.setGrp s.cur { t.grp s.cur with phase := ph }).grp s.cur = { t.grp s.cur with phase := ph } := by
    rw [grp_setGrp, if_pos ⟨rfl, hlt⟩]
  refine ⟨h.keep rfl rfl (by rw [hx]) (by rw [hx]) (by rw [hx]; exact h.sameRegs) ?_, by rw [hx]⟩
  have e := congrArg (fun u : State => u.setGrp s.cur { t.grp s.cur with phase := ph }) h.around
  rw [State.Around, hx]
  simpa [State.setGrp] using e

theorem launchAndLinkCommandsIssue : Claims.LaunchAndLinkCommandsIssue := by
  intro s g d a c off issues
  refine ⟨fun h hk hr hlen hal => ?_, fun h => ?_, fun h => ?_, fun h hc => ?_, fun b h hc => ?_⟩
  · have hoff : (g.params a 2).getD 1 0 = off := params_getD g a (by omega)
    have hps : g.params a 2 = [(g.src a 0 0).toNat, off] := rfl
    obtain ⟨hf, hp⟩ := (issuedOp_inFlight (P := fun o => o.ps = [(g.src a 0 0).toNat, off] ∧ o.cap1 = g.cap c.val ∧ o.dest = g.destRegs d 1)
      (o := { g.newOp s.cur (.launch d a c) with
        ps := g.params a 2, cap1 := g.cap c.val, dest := g.destRegs d 1, stage := .issued, cls := 6 }) h.1.1 ⟨rfl, rfl, rfl, rfl⟩
      fun _ => ⟨hps, rfl, rfl⟩).setPhase (lt_of_getElem? h.1.1) (.held g.idx s.nextOp)
    refine ⟨h.answers (execLaunch d a c s) rfl rfl ?_, h.answers (execLaunch d a c s) rfl rfl ?_⟩ <;> simp only [hoff] <;>
      rw [if_neg (by simp [hk, hr]), if_neg (Nat.not_lt.2 hlen), if_neg (by simp [hal])]
    · exact ⟨hf.push _, by simp⟩
    · exact hp
  · exact tokenIssue_answers h rfl
  · exact tokenIssue_answers h rfl
  · simpa using rmaIssue_answers h rfl hc
  · refine Answers.mono (rmaIssue_answers h rfl hc) fun t ht => ⟨ht.1.mono fun o ho => ⟨?_, ho.2⟩, ht.2⟩
    rw [ho.1]
    rfl

/-- Settles O35: the words that go to the sequence engine, their checks, and the launch and link words, each by the operation that it issues. -/
theorem sequenceAndLaunchCommandsIssue : Obligations.SequenceAndLaunchCommandsIssue :=
  ⟨sequenceOperationsIssue, sequenceChecksAtIssue, launchAndLinkCommandsIssue⟩

end Sys2Proof.Machine
end

section
/-! ## Lines that a command asks for when it issues

A command that writes global memory asks for its lines at once (R29, R108). Whatever the answer, that leaves the command in flight and its queue as they
were. -/

namespace Sys2Proof.Machine

open Sys2Proof

/-- From `t` to `u` an engine has at most asked for lines on behalf of operation `o`: the operation notes lines, accesses and a latency class, agents'
lines change, and more steps are due; the command queues are as before. -/
structure State.Asked (o : Nat) (t u : State) : Prop where
  frame : u = { t with ops := u.ops, agenda := u.agenda, cores := u.cores }
  op : ∀ p, tfind t.ops o = some p → ∃ owns accs cls, tfind u.ops o = some { p with owns := owns, accs := accs, cls := cls }
  others : ∀ k, k ≠ o → tfind u.ops k = tfind t.ops k
  cq : ∀ c, (u.core c).cq = (t.core c).cq
  matq : ∀ c, (u.core c).matq = (t.core c).matq
  due : ∀ e ∈ t.agenda, e ∈ u.agenda

namespace State.Asked

variable {o : Nat} {s t u : State}

theorem refl (o : Nat) (t : State) : t.Asked o t :=
  ⟨rfl, fun p hp => ⟨p.owns, p.accs, p.cls, hp⟩, fun _ _ => rfl, fun _ => rfl, fun _ => rfl, fun _ he => he⟩

theorem trans (h : s.Asked o t) (k : t.Asked o u) : s.Asked o u where
  frame := by rw [k.frame, h.frame]
  op p hp := by
    obtain ⟨a, b, c, ht⟩ := h.op p hp
    obtain ⟨a', b', c', hu⟩ := k.op _ ht
    exact ⟨a', b', c', hu⟩
  others j hj := (k.others j hj).trans (h.others j hj)
  cq c := (k.cq c).trans (h.cq c)
  matq c := (k.matq c).trans (h.matq c)
  due e he := k.due e (h.due e he)

theorem ite {c : Prop} [Decidable c] {v : State} (h : t.Asked o u) (k : t.Asked o v) : t.Asked o (if c then u else v) := by
  split
  · exact h
  · exact k

theorem push (e : Event) : t.Asked o (t.push e) :=
  { refl o t with frame := rfl, due := fun e' he => by simp [he] }

/-- What a command notes about its lines. -/
theorem note (owns : List Nat) (accs : List Acc) (cls : Nat) :
    t.Asked o (t.setOp o { t.op o with owns := owns, accs := accs, cls := cls }) :=
  { refl o t with
    frame := rfl
    op := fun p hp => ⟨owns, accs, cls, by simp [State.op, tget_eq_tfind, hp]⟩
    others := fun k hk => tfind_tins_ne _ _ _ _ hk }

theorem setLine (c a l : Nat) (x : CLine) : t.Asked o (t.setLine c a l x) := by
  have hcore : ∀ k, (t.setLine c a l x).core k =
      if k = c then { t.core c with lines := tset .none (t.core c).lines (4 * l + a) x } else t.core k := fun k => tget_tset ..
  refine { refl o t with frame := rfl, cq := fun k => ?_, matq := fun k => ?_ } <;>
  · rw [hcore]
    split
    · next hk => rw [hk]
    · rfl

theorem sendXREQ (c a l tag : Nat) : t.Asked o (t.sendXREQ c a l tag) :=
  (refl o t).ite ((setLine ..).trans (push _))

theorem sendSlab {c a l pa ctx tag : Nat} {excl hint : Bool} (h : t.sendSlab c a l pa ctx tag excl hint = some u) : t.Asked o u := by
  obtain ⟨p, -, rfl⟩ := Option.map_eq_some_iff.1 h
  exact (refl o t).ite ((setLine ..).trans (push _))

theorem lineFailed {l c : Nat} (h : t.lineFailed o l = some (u, c)) : t.Asked o u := by
  unfold State.lineFailed at h
  split at h
  · cases h
    exact note ..
  · cases h

theorem askLine (ctx pa adr : Nat) (excl : Bool) : t.Asked o (t.askLine o ctx pa adr excl).1 := by
  unfold State.askLine
  dsimp only
  split
  · next h => exact lineFailed h
  · split
    · next h => exact (sendSlab h).trans (note ..)
    · exact refl o t

/-- The command notes a line as one of its own. -/
theorem noteOwn (l : Nat) : t.Asked o (if (t.op o).owns.contains l then t else t.setOp o { t.op o with owns := (t.op o).owns ++ [l] }) :=
  (refl o t).ite (note ..)

theorem takePeer (ctx pa adr : Nat) : t.Asked o (t.takePeer o ctx pa adr).1 := by
  unfold State.takePeer
  extract_lets p l v
  split
  · exact noteOwn _
  · exact (noteOwn _).trans (askLine ..)

theorem takeLine (adr : Nat) : t.Asked o ((t.takeLine o adr).getD t) := by
  unfold State.takeLine
  extract_lets p core l v
  split
  · exact refl o t
  · split
    · exact refl o t
    · exact (noteOwn _).trans (sendXREQ ..)

theorem foldl {α : Type} {f : State → α → State} (hf : ∀ (t : State) x, t.Asked o (f t x)) (l : List α) :
    ∀ t : State, t.Asked o (l.foldl f t) := by
  induction l with
  | nil => exact refl o
  | cons x xs ih => exact fun t => (hf t x).trans (ih (f t x))

theorem takeLines (a n gen : Nat) : t.Asked o (t.takeLines o a n gen) := by
  refine foldl (fun t l => ?_) _ t
  dsimp only
  split
  · exact takeLine _
  · exact (refl o t).ite (takePeer ..)
  · exact refl o t

/-- The operation stays in flight, as far as what is said of it does not turn on its lines. -/
theorem inFlight {g : Group} {i : Instr} {P : Op → Prop} (h : t.Asked s.nextOp u) (hf : InFlight s t g i P)
    (hP : ∀ p owns accs cls, P p → P { p with owns := owns, accs := accs, cls := cls }) : InFlight s u g i P := by
  obtain ⟨p, hp, h2, h3, h4, h5, h6, h7, h8, h9, h10, h11, h12⟩ := hf
  obtain ⟨owns, accs, cls, hu⟩ := h.op p hp
  have hgrp : u.grp s.cur = t.grp s.cur := by rw [h.frame]; rfl
  have hnext : u.nextOp = t.nextOp := by rw [h.frame]
  refine ⟨_, hu, h2, h3, h4, h5, hP _ _ _ _ h6, by rw [hnext, h7], fun k hk => (h.others k hk).trans (h8 k hk), by rw [hgrp, h9],
    by rw [hgrp, h10], by rw [hgrp]; exact h11, ?_⟩
  rw [h.frame]
  have e := congrArg (fun v : State => { v with ops := u.ops, agenda := u.agenda, cores := u.cores }) h12
  exact e

end State.Asked

end Sys2Proof.Machine
end

section
/-! ## Matrix commands issue and are checked (O30) -/

namespace Sys2Proof.Machine

open Sys2Proof

/-- The word has gone into flight behind the group's earlier matrix commands; with none before it, it is taken up (R312). -/
def MatEnters (s t : State) (g : Group) (i : Instr) (P : Op → Prop) : Prop :=
  InFlight s t g i P ∧
    tget [] (t.core (s.gblk s.cur).core).matq s.cur = tget [] (s.core (s.gblk s.cur).core).matq s.cur ++ [s.nextOp] ∧
    (tget [] (s.core (s.gblk s.cur).core).matq s.cur = [] → .matrixCommandComplete s.nextOp ∈ t.agenda)

theorem enqueueMat_queued (s : State) (n : Nat) (o : Op) : s.enqueueMat n o =
    (s.issueOp n o).queued (s.gblk n).core
      { s.core (s.gblk n).core with matq := tset [] (s.core (s.gblk n).core).matq n (tget [] (s.core (s.gblk n).core).matq n ++ [s.nextOp]) }
      (tget [] (s.core (s.gblk n).core).matq n = []) (.matrixCommandComplete s.nextOp) := rfl

theorem enqueueMat_enters {s : State} {g : Group} {i : Instr} {o : Op} {P : Op → Prop} (hg : s.groups[s.cur]? = some g)
    (ho : o.IssuedBy s g i) (hP : ∀ n, P { o with relTo := n }) : MatEnters s (s.enqueueMat s.cur o) g i P := by
  obtain ⟨hi, hc, he⟩ := (issuedOp_inFlight hg ho hP).queued (s.gblk s.cur).core _ (tget [] (s.core (s.gblk s.cur).core).matq s.cur = [])
    (.matrixCommandComplete s.nextOp)
  rw [enqueueMat_queued]
  exact ⟨hi, by rw [hc, tget_tset_self], he⟩

/-- Lines that the command asks for leave it in its queue. -/
theorem State.Asked.matEnters {s t u : State} {g : Group} {i : Instr} {P : Op → Prop} (h : t.Asked s.nextOp u) (hm : MatEnters s t g i P)
    (hP : ∀ p owns accs cls, P p → P { p with owns := owns, accs := accs, cls := cls }) : MatEnters s u g i P := by
  obtain ⟨hf, hq, hd⟩ := hm
  exact ⟨h.inFlight hf hP, by rw [h.matq, hq], fun he => h.due _ (hd he)⟩

/-! ### MMA and its latch -/

theorem issueOp_latch {s : State} {n : Nat} {g : Group} (hg : s.groups[n]? = some g) (o : Op) : ((s.issueOp n o).grp n).latch = g.latch := by
  have hx : (s.issueOp n o).grp n =
      { ((((s.grp n).mark o.flag).addPend o.dest o.tok).ordered o.instr s.nextOp).next with
        nextTok := ((((s.grp n).mark o.flag).addPend o.dest o.tok).ordered o.instr s.nextOp).nextTok + 1 } :=
    grp_of_getElem? (setGrp_getElem? hg _)
  rw [hx, grp_of_getElem? hg]
  unfold Group.mark
  split <;> rfl

theorem enqueueMat_latch {s : State} {n : Nat} {g : Group} (hg : s.groups[n]? = some g) (o : Op) : ((s.enqueueMat n o).grp n).latch = g.latch := by
  rw [enqueueMat_queued, State.queued, ← issueOp_latch hg o]
  split <;> rfl

/-- A count and a new latch before the issue do not touch what the issue is said to do. -/
theorem MatEnters.of_latch {s t : State} {g : Group} {i : Instr} {P : Op → Prop} (cnt : SMap Nat) (latch : Option (SMap Word))
    (hg : s.groups[s.cur]? = some g) (hi : i.cls { g with latch := latch } = i.cls g)
    (h : MatEnters ({ s with cnt := cnt }.setGrp s.cur { g with latch := latch }) t { g with latch := latch } i P) : MatEnters s t g i P := by
  have hgrp : ({ s with cnt := cnt }.setGrp s.cur { g with latch := latch }).grp s.cur = { g with latch := latch } :=
    grp_of_getElem? (setGrp_getElem? (s := { s with cnt := cnt }) hg _)
  have hcore : ({ s with cnt := cnt }.setGrp s.cur { g with latch := latch }).gblk s.cur = s.gblk s.cur := by
    simp only [State.gblk, hgrp, grp_of_getElem? hg]
    rfl
  obtain ⟨⟨o, h1, h2, h3, h4, h5, h6, h7, h8, h9, h10, h11, h12⟩, hq, hd⟩ := h
  simp only [State.setGrp_cur, hcore] at hq hd
  have hmark : (Group.mark { g with latch := latch } o.flag).flags = (g.mark o.flag).flags := by
    unfold Group.mark
    split <;> rfl
  refine ⟨⟨o, h1, h2, h3, h4, by rw [h5, hi]; rfl, h6, h7, h8, h9.trans hmark, h10, h11, ?_⟩, hq, hd⟩
  have e := congrArg (fun u : State => { u with cnt := t.cnt }) (State.Around.of_setGrp h12)
  exact e

theorem mma_answers {s : State} {g : Group} {d a b : RF} {z t_ r : Bool} (h : Issues s g (.mma r z t_ d a b))
    (hc : s.mmaCheck s.cur g t_ (g.usrc d).toNat (g.params b 3) = none) : Answers (.mma r z t_ d a b) s fun t =>
      MatEnters s t g (.mma r z t_ d a b) (fun o => o.ps = (g.usrc d).toNat :: g.params b 3 ∧ o.vals = g.latch.getD (g.aVals a)) ∧
      (t.grp s.cur).latch = if r then some (g.latch.getD (g.aVals a)) else none := by
  refine h.answers (execMma r z t_ d a b s) rfl rfl ?_
  simp only [hc]
  obtain ⟨cnt, hs⟩ : ∃ cnt, (if g.latch.isSome then s.count 4 (s.gblk s.cur).core 1 1 else s) = { s with cnt := cnt } := by
    split
    · exact ⟨_, rfl⟩
    · exact ⟨s.cnt, rfl⟩
  rw [hs]
  generalize (if r then some (g.latch.getD (g.aVals a)) else none) = latch
  have hg := setGrp_getElem? (s := { s with cnt := cnt }) h.1.1 { g with latch := latch }
  refine ⟨.of_latch cnt latch h.1.1 rfl ?_, enqueueMat_latch hg _⟩
  exact enqueueMat_enters hg ⟨rfl, rfl, rfl, rfl⟩ fun _ => ⟨rfl, rfl⟩

/-! ### Rows, cells, codebooks and operand runs -/

/-- ACCLD, ACCST or ACCSS that passes its checks enters the queue, asking for the lines that it is to write. -/
theorem rowIssue_answers {i : Instr} {s : State} {g : Group} {fn : RowFn} {a : RF} {m : MemForm} (h : Issues s g i)
    (r : Host.Outcome State Fault Refusal) (hx : exec i s = r) (hr : r = rowIssue i fn a m s)
    (hc : s.rowCheck s.cur g fn m (g.params a 4) = none) : Answers i s fun t => MatEnters s t g i fun o => o.ps = g.params a 4 := by
  refine h.answers (rowIssue i fn a m s) (hx.trans hr) rfl ?_
  simp only [hc]
  have he : ∀ c, MatEnters s (s.enqueueMat s.cur { g.newOp s.cur i with ps := g.params a 4, cap1 := c }) g i fun o => o.ps = g.params a 4 :=
    fun _ => enqueueMat_enters h.1.1 ⟨rfl, rfl, rfl, rfl⟩ fun _ => rfl
  split
  · exact State.Asked.matEnters (.foldl (fun _ _ => .takeLines ..) _ _) (he _) fun _ _ _ _ hp => hp
  · exact State.Asked.matEnters (.foldl (fun _ _ => .takeLines ..) _ _) (he _) fun _ _ _ _ hp => hp
  · exact he _

/-- Every launch lane's cells lie inside the region (R324). -/
theorem cellTrap_none {g : Group} {limit : Nat} {idx : Nat → List Nat} (h : ∀ L ∈ lanesOf g.launchAct, ∀ c ∈ idx L, c < limit) :
    cellTrap g limit idx = none := by
  have hf : ((lanesOf g.launchAct).find? fun L => (idx L).any fun c => decide (limit ≤ c)) = none := by
    simp only [List.find?_eq_none, List.any_eq_true, decide_eq_true_eq, not_exists, not_and, not_le]
    exact h
  rw [cellTrap, hf]

/-- The first launch lane's only cell lies beyond the region (R324). -/
theorem cellTrap_head {g : Group} {limit : Nat} {c : Nat → Word} {L : Nat} {rest : List Nat} (hl : lanesOf g.launchAct = L :: rest)
    (h : limit ≤ (c L).toNat) : cellTrap g limit (fun L => [(c L).toNat]) =
      some ⟨0x18, c L, 0, g.launchAct, (lanesOf g.launchAct).foldl (fun m L => tset 0 m L (c L)) []⟩ := by
  have hf : ((lanesOf g.launchAct).find? fun L => [(c L).toNat].any fun c => decide (limit ≤ c)) = some L := by
    rw [hl]
    exact List.find?_cons_of_pos (by simpa using h)
  have hbad : ∀ L, (([(c L).toNat].find? fun c => decide (limit ≤ c)).getD ([(c L).toNat].getD 0 0)) = (c L).toNat := by
    intro L
    by_cases hb : limit ≤ (c L).toNat <;> simp [hb]
  rw [cellTrap, hf]
  simp only [hbad, w32_toNat]

theorem tget_lanes (c : Nat → Word) {m : Mask} {k : Nat} (hk : m.getLsbD k = true) :
    tget 0 ((lanesOf m).foldl (fun r L => tset 0 r L (c L)) []) k = c k := by
  have hlt : ∀ L ∈ lanesOf m, L < 32 := fun L hL => List.mem_range.1 (List.mem_filter.1 hL).1
  have hf := tget_fold_lanes c 0 (lanesOf m) hlt [] 0 k (hlt k (mem_lanesOf.2 hk))
  simpa [mem_lanesOf.2 hk] using hf

theorem matrixCommandsEnterTheirQueue : Claims.MatrixCommandsEnterTheirQueue := by
  intro s g d a b m z t_ r f c enters p rows
  have hget : ∀ n k, k < n → (g.params a n).getD k 0 = p k := fun n k hk => params_getD g a hk
  refine ⟨fun h hc => ⟨(mma_answers h hc).mono fun _ ht => ht.1, (mma_answers h hc).mono fun _ ht => ht.2⟩, fun h h1 h2 h3 => ?_,
    fun h h1 h2 h3 h4 => ?_, fun h hc => rowIssue_answers h (execAccld a f s) rfl rfl hc, fun h hc => rowIssue_answers h (execAccst a f s) rfl rfl hc,
    fun h hc => rowIssue_answers h (execAccss a f s) rfl rfl hc, fun h hl => ?_, fun h hl => ?_, fun n h hk hin hal => ?_,
    fun n h haf hscl hk hin => ?_⟩
  · refine h.answers (execAccz a s) rfl rfl ?_
    simp only [hget 2 0 (by omega), hget 2 1 (by omega)]
    rw [if_neg (by omega), if_neg (by omega)]
    exact enqueueMat_enters h.1.1 ⟨rfl, rfl, rfl, rfl⟩ fun _ => rfl
  · refine h.answers (execAcccp a s) rfl rfl ?_
    simp only [hget 3 0 (by omega), hget 3 1 (by omega), hget 3 2 (by omega)]
    rw [if_neg (by omega), if_neg (by omega), if_neg (by omega)]
    exact enqueueMat_enters h.1.1 ⟨rfl, rfl, rfl, rfl⟩ fun _ => rfl
  · refine h.answers (execAccxa d a m s) rfl rfl ?_
    have hcells : cellTrap g (2 * (s.glch s.cur).accRows)
        (fun L => if m then [(g.src d 0 L).toNat, (g.src a 0 L).toNat] else [(g.src d 0 L).toNat]) = none := by
      refine cellTrap_none fun L hL x hx => ?_
      obtain ⟨hd, ha⟩ := hl L hL
      cases m
      · rw [List.mem_singleton.1 hx]
        exact hd
      · rcases List.mem_pair.1 hx with rfl | rfl
        · exact hd
        · exact ha rfl
    simp only [hcells]
    exact enqueueMat_enters h.1.1 ⟨rfl, rfl, rfl, rfl⟩ fun _ => rfl
  · refine h.answers (execAccxr d a m s) rfl rfl ?_
    have hcells : cellTrap g (2 * (s.glch s.cur).accRows) (fun L => [(g.src a 0 L).toNat]) = none :=
      cellTrap_none fun L hL x hx => List.mem_singleton.1 hx ▸ hl L hL
    simp only [hcells]
    exact enqueueMat_enters h.1.1 ⟨rfl, rfl, rfl, rfl⟩ fun _ => ⟨rfl, rfl⟩
  · refine h.answers (execCbld n a c s) rfl rfl ?_
    have hp : (g.usrc a).toNat = p 0 := rfl
    simp only [hp, hk]
    rw [if_neg (by simp), if_neg (by omega), if_neg (by omega)]
    exact enqueueMat_enters h.1.1 ⟨rfl, rfl, rfl, rfl⟩ fun _ => ⟨rfl, rfl⟩
  · refine h.answers (execLdsb n d a c s) rfl rfl ?_
    have hlegal : ldsbLegal g.fmt = true := by simp [ldsbLegal, hscl]; omega
    have hsize : (ldsbShape g.fmt).2.2 = if fmtAF g.fmt = 4 then 17 else 33 := by unfold ldsbShape; split <;> rfl
    have hfind : ((lanesOf g.launchAct).find? fun L => !(g.cap c.val).allows (rightR + rightM) ||
        decide ((g.cap c.val).len < (g.src a 0 L).toNat + (n.val + 1) * (ldsbShape g.fmt).2.2)) = none := by
      simp only [List.find?_eq_none, hk, hsize, Bool.not_true, Bool.false_or, decide_eq_true_eq, not_lt]
      exact hin
    simp only [hlegal, hfind]
    exact enqueueMat_enters h.1.1 ⟨rfl, rfl, rfl, rfl⟩ fun _ => ⟨rfl, rfl, rfl⟩

theorem matrixChecks : Claims.MatrixChecks := by
  intro s g d a m c hm p
  have hget : ∀ n k, k < n → (g.params a n).getD k 0 = p k := fun n k hk => params_getD g a hk
  refine ⟨fun h hk => ?_, fun h h1 h2 h3 => ?_, fun L rest h hl hb => ?_, fun n h hf => ?_⟩
  · refine h.traps hm (execAccz a s) rfl rfl ?_
    simp only [hget 2 0 (by omega), hget 2 1 (by omega)]
    rw [if_pos hk, cmdTrap_eq h.1.1, w32_toNat]
    rfl
  · refine h.traps hm (execAccz a s) rfl rfl ?_
    simp only [hget 2 0 (by omega), hget 2 1 (by omega)]
    rw [if_neg (by omega), if_pos h3, cmdTrap_eq h.1.1, w32_toNat]
    rfl
  · refine h.answers (execAccxr d a m s) rfl rfl ⟨_, ?_, fun k hk => tget_lanes (g.src a 0) hk⟩
    simp only [cellTrap_head (c := g.src a 0) hl hb]
    exact trapHere_takesTrap h.1 hm _
  · refine h.traps hm (execLdsb n d a c s) rfl rfl ?_
    have hlegal : ldsbLegal g.fmt = false := by simp [ldsbLegal]; omega
    simp only [hlegal]
    rw [if_pos (by rfl), cmdTrap_eq h.1.1, w32_toNat]
    rfl

/-- Settles O30: `matrixCommandsEnterTheirQueue` for the words that issue, `matrixChecks` for those that are refused. -/
theorem matrixCommandsIssue : Obligations.MatrixCommandsIssue :=
  ⟨matrixCommandsEnterTheirQueue, matrixChecks⟩

end Sys2Proof.Machine
end

section
/-! ## Copies enter their queue and are checked (O29) -/

namespace Sys2Proof.Machine

open Sys2Proof

/-- The words that a command's barrier adds to its block: the target block and the offset. -/
def barWords (bar : Option (Nat × Nat)) : List Nat := bar.elim [] fun x => [x.1, x.2]

/-- The word has gone into flight and joined copy queue `q`; with none before it, it is taken up (R273, R274). -/
def CopyEnters (s t : State) (g : Group) (i : Instr) (q : Nat) (P : Op → Prop) : Prop :=
  InFlight s t g i P ∧
    tget [] (t.core (s.gblk s.cur).core).cq q = tget [] (s.core (s.gblk s.cur).core).cq q ++ [s.nextOp] ∧
    (tget [] (s.core (s.gblk s.cur).core).cq q = [] → .copyComplete s.nextOp ∈ t.agenda)

theorem enqueueCopy_queued (s : State) (n q : Nat) (o : Op) (bar : Option (Nat × Nat)) : s.enqueueCopy n q o bar =
    (s.issueOp n { o with ps := o.ps ++ barWords bar }).queued (s.gblk n).core
      { s.core (s.gblk n).core with cq := tset [] (s.core (s.gblk n).core).cq q (tget [] (s.core (s.gblk n).core).cq q ++ [s.nextOp]) }
      (tget [] (s.core (s.gblk n).core).cq q = []) (.copyComplete s.nextOp) := by
  cases bar <;> rfl

theorem enqueueCopy_enters {s : State} {g : Group} {i : Instr} {o : Op} {P : Op → Prop} (hg : s.groups[s.cur]? = some g) (q : Nat)
    {bar : Option (Nat × Nat)} (ho : o.IssuedBy s g i) (hP : ∀ n, P { o with ps := o.ps ++ barWords bar, relTo := n }) :
    CopyEnters s (s.enqueueCopy s.cur q o bar) g i q P := by
  obtain ⟨hi, hc, he⟩ := (issuedOp_inFlight (o := { o with ps := o.ps ++ barWords bar }) hg ho hP).queued (s.gblk s.cur).core _
    (tget [] (s.core (s.gblk s.cur).core).cq q = []) (.copyComplete s.nextOp)
  rw [enqueueCopy_queued]
  exact ⟨hi, by rw [hc, tget_tset_self], he⟩

/-- Lines that the command asks for leave it in its queue. -/
theorem State.Asked.copyEnters {s t u : State} {g : Group} {i : Instr} {q : Nat} {P : Op → Prop} (h : t.Asked s.nextOp u)
    (hm : CopyEnters s t g i q P) (hP : ∀ p owns accs cls, P p → P { p with owns := owns, accs := accs, cls := cls }) :
    CopyEnters s u g i q P := by
  obtain ⟨hf, hq, hd⟩ := hm
  exact ⟨h.inFlight hf hP, by rw [h.cq, hq], fun he => h.due _ (hd he)⟩

/-- The capability that a copy names for a side, null where the side is a scratchpad. -/
def Group.capOf (g : Group) (c : Option (Fin 16)) : Cap := c.elim .null fun k => g.cap k.val

/-- A copy that passes its checks enters its queue, asking for the lines of a global destination. -/
theorem copyIssue_answers {i : Instr} {s : State} {g : Group} {fn : CopyFn} {q : Nat} {a : RF} {c e : Option (Fin 16)} {bar : Option (Nat × Nat)}
    (h : Issues s g i) (r : Host.Outcome State Fault Refusal) (hx : exec i s = r) (hr : r = copyIssue i fn q a c e s)
    (hc : s.copyCheck s.cur fn (g.params a 4) (g.capOf c) (g.capOf e) = .ok bar) : Answers i s fun t =>
      CopyEnters s t g i q fun o => o.ps = g.params a 4 ++ barWords bar ∧ o.cap1 = g.capOf c ∧ o.cap2 = g.capOf e := by
  have key : ∀ cls, CopyEnters s
      (s.enqueueCopy s.cur q { g.newOp s.cur i with ps := g.params a 4, cap1 := g.capOf c, cap2 := g.capOf e, cls := cls } bar) g i q
      fun o => o.ps = g.params a 4 ++ barWords bar ∧ o.cap1 = g.capOf c ∧ o.cap2 = g.capOf e :=
    fun _ => enqueueCopy_enters h.1.1 q ⟨rfl, rfl, rfl, rfl⟩ fun _ => ⟨rfl, rfl, rfl⟩
  refine h.answers (copyIssue i fn q a c e s) (hx.trans hr) rfl ?_
  cases c <;> cases e <;>
  · simp only [Group.capOf, Option.elim] at hc key
    simp only [hc]
    generalize (s.copySides _ _ _ _ _ _).2 = dst
    cases dst with
    | glob cap d => exact State.Asked.copyEnters (.takeLines ..) (key _) fun _ _ _ _ hp => hp
    | scr b off => exact key _

theorem copiesEnterTheirQueue : Claims.CopiesEnterTheirQueue := by
  intro s g q a c e core enters
  refine ⟨fun bar h hc => ?_, fun bar h hc => ?_, fun bar h hc => ?_, fun bar h hc => ?_, fun bar h hc => ?_⟩
  · have := copyIssue_answers (c := some c) (e := none) h (execCpygs q a c s) rfl rfl hc
    cases bar <;> exact this
  · have := copyIssue_answers (c := none) (e := some e) h (execCpysg q e a s) rfl rfl hc
    cases bar <;> exact this
  · have := copyIssue_answers (c := none) (e := none) h (execCpysw q a s) rfl rfl hc
    cases bar <;> exact this
  · have := copyIssue_answers (c := some c) (e := some e) h (execCpygg q e a c s) rfl rfl hc
    cases bar <;> exact this
  · have := h.answers (P := fun t => CopyEnters s t g (.cpyx q a c) q.val fun o => o.ps = g.params a 6 ++ barWords bar ∧ o.cap1 = g.cap c.val ∧ o.cap2 = .null)
      (execCpyx q a c s) rfl rfl (by
        simp only [hc]
        exact enqueueCopy_enters h.1.1 q.val ⟨rfl, rfl, rfl, rfl⟩ fun _ => ⟨rfl, rfl, rfl⟩)
    cases bar <;> exact this

/-! ### The checks of a copy to scratchpad -/

/-- The checks of R277 and R301 on a copy to scratchpad, in their order. -/
theorem copyCheck_gs (s : State) (n p0 p1 len w : Nat) (c : Cap) : s.copyCheck n .gs [p0, p1, len, w] c .null =
    if 2 ^ 24 < len then .error (0x01, (s.grp n).word.toNat, 0)
    else ((s.copyBar n w).bad 0x01).elim
      (if c.allows (rightR + rightM) = false then .error (0x07, p0, 0)
      else if c.len < p0 + len then .error (0x06, p0, 0)
      else if (s.glch n).scr < p1 + len then .error (0x06, p1, 0)
      else ((s.copyBar n w).bad 0x06).elim
        (if p0 % 16 ≠ 0 then .error (0x05, p0, 1)
        else if p1 % 16 ≠ 0 then .error (0x05, p1, 1)
        else if len % 16 ≠ 0 then .error (0x05, len, 1)
        else s.copyBar n w) .error) .error := by
  unfold State.copyCheck
  cases h1 : (s.copyBar n w).bad 0x01 <;> cases h6 : (s.copyBar n w).bad 0x06 <;>
    simp [State.copySides, Side.overlaps, h1, h6]

theorem copyChecks : Claims.CopyChecks := by
  intro s n p0 p1 len w c
  dsimp only
  rw [copyCheck_gs]
  refine ⟨fun h1 => if_pos h1, fun e h1 h2 => ?_, fun h1 h2 h3 => ?_, fun h1 h2 h3 => ⟨fun h4 => ?_, fun h4 h5 => ?_, fun e h4 h5 h6 => ?_,
    fun h4 h5 h6 => ⟨fun h7 => ?_, fun h7 h8 => ?_, fun h7 h8 h9 => ?_, fun h7 h8 h9 => ⟨?_, fun hw => ?_⟩⟩⟩⟩ <;>
    rw [if_neg (by omega), h2]
  · rfl
  all_goals rw [Option.elim_none]
  · rw [if_pos h3]
  all_goals rw [if_neg (by simp [h3])]
  · rw [if_pos h4]
  all_goals rw [if_neg (by omega)]
  · rw [if_pos h5]
  all_goals rw [if_neg (by omega), h6]
  · rfl
  all_goals rw [Option.elim_none]
  · rw [if_pos h7]
  all_goals rw [if_neg (by omega)]
  · rw [if_pos h8]
  all_goals rw [if_neg (by omega)]
  · rw [if_pos h9]
  all_goals rw [if_neg (by omega)]
  exact if_pos hw

end Sys2Proof.Machine
end

section
/-! ## A copy within the course window moves its bytes (O29) -/

namespace Sys2Proof.Machine

open Sys2Proof

/-! ### Bytes of a written number -/

theorem ofBytes_byte : ∀ (l : List Nat) (i : Nat), i < l.length → ofBytes l / 256 ^ i % 256 = l.getD i 0 % 256
  | b :: t, 0, _ => by
    simp only [ofBytes, pow_zero, Nat.div_one, List.getD_cons_zero]
    omega
  | b :: t, i + 1, h => by
    have hstep : ofBytes (b :: t) / 256 = ofBytes t := by
      simp only [ofBytes]
      omega
    rw [Nat.pow_succ', ← Nat.div_div_eq_div_mul, hstep, List.getD_cons_succ]
    exact ofBytes_byte t i (Nat.lt_of_succ_lt_succ h)

@[simp] theorem length_mbytes (m : List Host.Cell) (a n : Nat) : (mbytes m a n).length = n := by simp [mbytes]

/-- The bytes read from one place, taken as one number, give back each byte. -/
theorem ofBytes_mbytes_byte (m : List Host.Cell) (a n : Nat) {i : Nat} (h : i < n) :
    ofBytes (mbytes m a n) / 256 ^ i % 256 = (mget m (a + i)).toNat := by
  rw [ofBytes_byte _ _ (by simpa using h)]
  have hlt : (mget m (a + i)).toNat < 256 := (mget m (a + i)).isLt
  simp [mbytes, h, Nat.mod_eq_of_lt hlt]

/-! ### What keeps every byte and every operation -/

/-- Device memory, the blocks, and the operations in flight. -/
def State.contents (s : State) : List Host.Cell × List Block × SMap Op := (s.mem, s.blocks, s.ops)

theorem touchScr_contents (s : State) (b a n : Nat) : (s.touchScr b a n).contents = s.contents := by
  refine foldl_keeps State.contents _ (fun s g => foldl_keeps State.contents _ (fun s e => ?_) _ s) _ s
  split
  · split <;> rfl
  · split <;> rfl
  · rfl

theorem dropLine_contents (s : State) (core a l tag by_ : Nat) : (s.dropLine core a l tag by_).contents = s.contents := by
  unfold State.dropLine
  dsimp only
  split <;> rfl

theorem freeLines_contents (s : State) (core k : Nat) : (s.freeLines core k).contents = s.contents :=
  foldl_keeps State.contents _ (fun _ _ => dropLine_contents ..) _ s

theorem unqueue_contents (s : State) (o : Nat) (next : Nat → Event) : (s.unqueue o next).contents = s.contents := by
  unfold State.unqueue
  extract_lets core c heads cut s1 s2 s3 s4
  have h1 : s1.contents = s.contents := rfl
  have h2 : s2.contents = s1.contents := by
    unfold s2
    split
    · exact freeLines_contents ..
    · rfl
  have h3 : s3.contents = s2.contents := by
    unfold s3
    split
    · exact freeLines_contents ..
    · rfl
  have h4 : s4.contents = s3.contents := by
    refine foldl_keeps State.contents _ (fun s e => ?_) _ s3
    split <;> rfl
  rw [← h1, ← h2, ← h3, ← h4]
  split
  · split <;> rfl
  · rfl

@[simp] theorem swrite_ops (s : State) (b a n v : Nat) : (s.swrite b a n v).ops = s.ops :=
  congrArg (fun c => c.2.2) (touchScr_contents _ b a n)

@[simp] theorem swrite_mem (s : State) (b a n v : Nat) : (s.swrite b a n v).mem = s.mem :=
  congrArg (fun c => c.1) (touchScr_contents _ b a n)

theorem sread_byte (s : State) (k x : Nat) : s.sread k x 1 = (mget (s.blk k).scr x).toNat := by simp [State.sread, mread]

theorem sread_of_blocks {s t : State} (h : s.blocks = t.blocks) (k x n : Nat) : s.sread k x n = t.sread k x n := by
  simp only [State.sread, State.blk, h]

/-- A write to a scratchpad changes its bytes there and no other byte. -/
theorem sread_swrite {s : State} {b : Nat} (hb : b < s.blocks.length) (a n v k x : Nat) : (s.swrite b a n v).sread k x 1 =
    if k = b ∧ a ≤ x ∧ x < a + n then v / 256 ^ (x - a) % 256 else s.sread k x 1 := by
  have hblocks : (s.swrite b a n v).blocks = s.blocks.set b
      { s.blk b with
        scr := mwrite (s.blk b).scr a n v
        marked := (s.blk b).marked.filter fun w => !(decide (a < w + 4) && decide (w < a + n)) } :=
    congrArg (fun c => c.2.1) (touchScr_contents _ b a n)
  by_cases hk : k = b
  · subst hk
    have hscr : ((s.swrite k a n v).blk k).scr = mwrite (s.blk k).scr a n v := by
      simp [State.blk, hblocks, List.getD_eq_getElem?_getD, hb]
    rw [sread_byte, sread_byte, hscr]
    by_cases hin : a ≤ x ∧ x < a + n
    · obtain ⟨i, rfl⟩ := Nat.exists_eq_add_of_le hin.1
      rw [if_pos ⟨rfl, hin⟩, mget_mwrite_in _ _ _ _ _ (by omega), Nat.add_sub_cancel_left]
      simp
    · rw [if_neg (by tauto), mget_mwrite_out _ _ _ _ _ (by omega)]
  · have hblk : (s.swrite b a n v).blk k = s.blk k := by
      simp [State.blk, hblocks, List.getD_eq_getElem?_getD, List.getElem?_set_ne (Ne.symm hk)]
    rw [if_neg (by tauto), sread_byte, sread_byte, hblk]

/-! ### The copy -/

/-- With one operation in flight, nothing older holds it back. -/
theorem mayPerform_single {s : State} {op : Nat} {p : Op} (h : s.ops = [(op, p)]) : s.mayPerform op = true := by
  simp only [State.mayPerform, State.opsOf, List.all_eq_true]
  intro e he
  have : e = (op, p) := by simpa [h] using List.mem_of_mem_filter he
  simp [this]

/-- A copy that counts on no barrier is over when it is done (R274). -/
theorem copyDone_noBar {s : State} {o k : Nat} (h : (s.op o).bar k = none) (n : Nat) :
    s.copyDone o k n = (s.unqueue o .copyComplete).completeOp o := by
  unfold State.copyDone
  simp only [h]

/-- A command that is over leaves its queue and is in flight no longer; no byte changes. -/
theorem unqueue_completeOp (s : State) (o : Nat) (next : Nat → Event) :
    ((s.unqueue o next).completeOp o).contents = (s.mem, s.blocks, tdel s.ops o) := by
  obtain ⟨agenda, phase, lanes, h⟩ := completeOp_eq (s.unqueue o next) o
  have hu := unqueue_contents s o next
  simp only [State.contents, Prod.mk.injEq] at hu
  obtain ⟨hm, hb, ho⟩ := hu
  rw [h]
  simp only [State.contents, hm, hb, ho]

/-- A copy within the window whose target is there: the source's bytes are written at the target, and the command is over (R274, R277). -/
theorem runCopy_sw {s : State} {op : Nat} {p : Op} {p0 p1 n dst : Nat} (h : s.ops = [(op, p)]) (hp : p.ps = [p0, p1, n, 0xFFFFFFFF])
    (hd : dst = s.peer (s.grp p.gid).blk (windowRank (s.blk (s.grp p.gid).blk).rank p1)) (hg : s.peerGone dst = false) : s.runCopy op .sw =
      (((s.count 3 (s.gblk p.gid).core 0 n).swrite dst (windowOff p1) n (ofBytes (mbytes (s.blk (s.grp p.gid).blk).scr p0 n))).unqueue
        op .copyComplete).completeOp op := by
  have hw : ∀ c a v, (((s.count 3 c 0 n).swrite dst a n v).op op).bar 4 = none := by
    intro c a v
    rw [op_single (p := p) (by rw [swrite_ops]; exact h), Op.bar, hp]
    rfl
  unfold State.runCopy
  simp only [op_single h, hp, State.copySides, List.getD_cons_zero, List.getD_cons_succ, ← hd, hg, State.readSide, State.ownSide, State.writeSide,
    length_mbytes]
  rw [if_neg (by simp), copyDone_noBar (hw _ _ _)]

theorem copyMovesItsBytes : Claims.CopyMovesItsBytes := by
  intro s op p q a p0 p1 n dst hops hi hps hhead hstage hn b hdst hlt hgone hapart
  refine ⟨s.runCopy op .sw, ?_, ?_⟩
  · show execCopyComplete op s = _
    simp only [execCopyComplete, tfind_single hops, hhead, hstage, mayPerform_single hops, hi]
    rfl
  · have hrun := congrArg State.contents (runCopy_sw hops hps hdst hgone)
    rw [unqueue_completeOp] at hrun
    simp only [State.contents, Prod.mk.injEq] at hrun
    obtain ⟨hm, hb, ho⟩ := hrun
    refine ⟨by rw [hm, swrite_mem]; rfl, ?_, fun k x => ?_⟩
    · rw [ho, swrite_ops]
      show tdel s.ops op = []
      simp [hops, tdel]
    · have hwritten := sread_swrite (s := s.count 3 (s.gblk p.gid).core 0 n) hlt (windowOff p1) n (ofBytes (mbytes (s.blk b).scr p0 n)) k x
      rw [sread_of_blocks hb, hwritten]
      split
      · rw [ofBytes_mbytes_byte _ _ _ (by omega), sread_byte]
      · rfl

/-- Settles O29: `copiesEnterTheirQueue` for the words that issue, `copyChecks` for their checks, `copyMovesItsBytes` for a copy that is performed. -/
theorem copiesMoveBytes : Obligations.CopiesMoveBytes :=
  ⟨copiesEnterTheirQueue, copyChecks, copyMovesItsBytes⟩

end Sys2Proof.Machine
end

section
/-! ## The encoding of instruction words (O1, O2, O3) -/

namespace Sys2Proof

/-! ### Codes of operand kinds -/

@[simp] theorem lsizeOf_eq_some {n : Nat} {z : LSize} : lsizeOf n = some z ↔ n = z.code := by
  constructor
  · unfold lsizeOf; split <;> intro h <;> cases h <;> rfl
  · rintro rfl; cases z <;> rfl

@[simp] theorem scopeOf_eq_some {n : Nat} {z : Scope} : scopeOf n = some z ↔ n = z.code := by
  constructor
  · unfold scopeOf; split <;> intro h <;> cases h <;> rfl
  · rintro rfl; cases z <;> rfl

@[simp] theorem ssizeOf_eq_some {n : Nat} {z : SSize} : ssizeOf n = some z ↔ n = z.code := by
  constructor
  · unfold ssizeOf; split <;> intro h <;> cases h <;> rfl
  · rintro rfl; cases z <;> rfl

@[simp] theorem icondOf_eq_some {n : Nat} {z : ICond} : icondOf n = some z ↔ n = z.code := by
  constructor
  · unfold icondOf; split <;> intro h <;> cases h <;> rfl
  · rintro rfl; cases z <;> rfl

@[simp] theorem fcondOf_eq_some {n : Nat} {z : FCond} : fcondOf n = some z ↔ n = z.code := by
  constructor
  · unfold fcondOf; split <;> intro h <;> cases h <;> rfl
  · rintro rfl; cases z <;> rfl

@[simp] theorem atomOpOf_eq_some {n : Nat} {z : AtomOp} : atomOpOf n = some z ↔ n = z.code := by
  constructor
  · unfold atomOpOf; split <;> intro h <;> cases h <;> rfl
  · rintro rfl; cases z <;> rfl

@[simp] theorem atomSOpOf_eq_some {n : Nat} {z : AtomSOp} : atomSOpOf n = some z ↔ n = z.code := by
  constructor
  · unfold atomSOpOf; split <;> intro h <;> cases h <;> rfl
  · rintro rfl; cases z <;> rfl

@[simp] theorem yieldFlagOf_eq_some {n : Nat} {c : Option (Fin 12)} : yieldFlagOf n = some c ↔ n = yieldFlagCode c := by
  unfold yieldFlagOf
  cases c with
  | none => grind [yieldFlagCode]
  | some f => grind [yieldFlagCode]

@[simp] theorem spIdx_eq_some {n : Nat} {i : Fin 30} : spIdx n = some i ↔ n = i.val := by
  unfold spIdx; grind

@[simp] theorem memFormOf_eq_some {n : Nat} {f : MemForm} : memFormOf n = some f ↔ n = memFormCode f := by
  unfold memFormOf
  cases f with
  | glob c => simp only [memFormCode]; grind [Fin.ofNat]
  | scratch => grind [memFormCode]
  | window => grind [memFormCode]

@[simp] theorem orderOf_eq {n : Nat} {r : Order} : Sys2Proof.orderOf n = r ↔ min n 3 = r.code := by
  unfold Sys2Proof.orderOf
  rcases n with _ | _ | _ | n <;> cases r <;> simp [Order.code]

@[simp] theorem rmodeOf_eq {n : Nat} {m : RMode} : rmodeOf n = m ↔ min n 3 = m.code := by
  unfold rmodeOf
  rcases n with _ | _ | _ | n <;> cases m <;> simp [RMode.code]

theorem orderOf_code {n : Nat} (h : n < 4) : (Sys2Proof.orderOf n).code = n := by
  rw [← orderOf_eq.1 rfl]; omega

theorem rmodeOf_code {n : Nat} (h : n < 4) : (rmodeOf n).code = n := by
  rw [← rmodeOf_eq.1 rfl]; omega

theorem bits_lt (w hi lo : Nat) : bits w hi lo < 2 ^ (hi - lo + 1) := Nat.mod_lt _ (Nat.two_pow_pos _)

/-- A field of one bit is 0 or 1. -/
theorem bit_lt (w k : Nat) : bits w k k < 2 := by simpa using bits_lt w k k

theorem beq_one_toNat {n : Nat} (h : n < 2) : (n == 1).toNat = n := by
  interval_cases n <;> rfl

/-! ### Fields of a word -/

/-- The low `k` bits of a word. -/
def lowBits (w k : Nat) : Nat := w % 2 ^ k

/-- The field's value `b` and the bits below it are the low bits up to the field's end. -/
def Placed (w hi lo b : Nat) : Prop := lowBits w (hi + 1) = 2 ^ lo * b + lowBits w lo

theorem placed_bits {w hi lo : Nat} (h : lo ≤ hi) : Placed w hi lo (bits w hi lo) := by
  have hk : hi + 1 = lo + (hi - lo + 1) := by omega
  rw [Placed, lowBits, lowBits, bits, hk, Nat.pow_add, Nat.mod_mul]
  omega

theorem rf_bits {w hi lo : Nat} (h : hi - lo = 6) : (rf (bits w hi lo)).val = bits w hi lo := by
  have := bits_lt w hi lo
  rw [h] at this
  exact Nat.mod_eq_of_lt this

theorem fin_bits {w hi lo m : Nat} [NeZero m] (h : 2 ^ (hi - lo + 1) = m) : (Fin.ofNat m (bits w hi lo)).val = bits w hi lo :=
  Nat.mod_eq_of_lt (h ▸ bits_lt w hi lo)

theorem bv_bits {w hi lo n : Nat} (h : hi - lo + 1 = n) : (BitVec.ofNat n (bits w hi lo)).toNat = bits w hi lo := by
  rw [BitVec.toNat_ofNat]
  exact Nat.mod_eq_of_lt (h ▸ bits_lt w hi lo)

/-! ### A word that decodes is the word of its instruction -/

/-- What a decoder's answer `r` for the word `w` names has the word `w`. -/
def Encodes (w : Nat) (r : Except DecodeError Instr) : Prop := ∀ i, r = .ok i → encode i = some w

theorem encodes_zero {w hi lo : Nat} {k : Except DecodeError Instr} : Encodes w (zero w hi lo k) ↔ (bits w hi lo = 0 → Encodes w k) := by
  unfold zero Encodes
  split <;> simp_all

theorem encodes_need {α : Type} {w : Nat} {o : Option α} {e : DecodeError} {k : α → Except DecodeError Instr} :
    Encodes w (need o e k) ↔ ∀ x, o = some x → Encodes w (k x) := by
  unfold need Encodes
  cases o <;> simp

theorem encodes_error {w : Nat} {e : DecodeError} : Encodes w (.error e) := nofun

theorem encodes_ok {w : Nat} {i : Instr} : Encodes w (.ok i) ↔ encode i = some w := by simp [Encodes]

/-- Row by row of the opcode table: the row's number, the fields that it assigns and the zeros that it asks for are placed one above the
other up to bit 31, so that the sum of the encoding is the whole word. -/
theorem encodes_decodeWord {w : Nat} (hw : w < 2 ^ 32) : Encodes w (decodeWord w) := by
  have hlow : lowBits w 32 = w := Nat.mod_eq_of_lt hw
  have hlow0 : lowBits w 0 = 0 := Nat.mod_one w
  clear hw
  unfold decodeWord
  split
  all_goals try split
  all_goals try exact encodes_error
  all_goals simp only [encodes_zero, encodes_need, encodes_ok, lsizeOf_eq_some, scopeOf_eq_some, ssizeOf_eq_some, icondOf_eq_some,
    fcondOf_eq_some, atomOpOf_eq_some, atomSOpOf_eq_some, yieldFlagOf_eq_some, spIdx_eq_some, memFormOf_eq_some]
  all_goals intros
  all_goals refine congrArg some ?_
  all_goals simp -failIfUnchanged only [rf_bits, fin_bits, bv_bits, Nat.reduceSub, Nat.reduceAdd, Nat.reducePow, beq_one_toNat, bit_lt,
    orderOf_code (bits_lt w 4 3), rmodeOf_code (bits_lt w 1 0)]
  all_goals grind -ring only [Placed, placed_bits]

/-- Settles O2: `encodes_decodeWord`. -/
theorem encodeOfDecode : Obligations.EncodeOfDecode :=
  fun _ i hw h => encodes_decodeWord hw i h

/-! ### The word of an instruction decodes to it -/

@[simp] theorem zero_eq_ok {w hi lo : Nat} {k : Except DecodeError Instr} {i : Instr} :
    zero w hi lo k = .ok i ↔ bits w hi lo = 0 ∧ k = .ok i := by
  unfold zero
  split <;> simp_all

@[simp] theorem need_eq_ok {α : Type} {o : Option α} {e : DecodeError} {k : α → Except DecodeError Instr} {i : Instr} :
    need o e k = .ok i ↔ ∃ x, o = some x ∧ k x = .ok i := by
  cases o <;> simp [need]

theorem rf_eq {n : Nat} {d : RF} : rf n = d ↔ n % 128 = d.val := by simp [rf, Fin.ext_iff]

theorem flag_eq {n : Nat} {b : Bool} : (n == 1) = b ↔ (n = 1 ↔ b.toNat = 1) := by cases b <;> simp

theorem finOfNat_eq {m n : Nat} [NeZero m] {q : Fin m} : Fin.ofNat m n = q ↔ n % m = q.val := by simp [Fin.ext_iff]

theorem bvOfNat_eq {m n : Nat} {q : BitVec m} : BitVec.ofNat m n = q ↔ n % 2 ^ m = q.toNat := by simp [BitVec.toNat_eq]

/-- The row of the opcode table with the number `op`, and `fn` where the row's words are told apart by it. Naming both as literals selects
the row by computation, so that no proof about one row walks through the table. -/
def decodeAt (w op fn : Nat) : { r : Except DecodeError Instr // bits w 31 25 = op → bits w 24 21 = fn → decodeWord w = r } := by
  apply Subtype.mk
  intro hop hfn
  rw [decodeWord, hop, hfn]

/-- The word has 32 bits and decodes to the instruction. -/
def Reads (w : Nat) (i : Instr) : Prop := w < 2 ^ 32 ∧ decodeWord w = .ok i

/-- A row whose words share bits [31:21]. -/
theorem reads_fn {C x w : Nat} {i : Instr} (hw : C + x = w) (hC : C % 2 ^ 21 = 0) (hC' : C / 2 ^ 32 = 0) (hx : x < 2 ^ 21)
    (h : ∀ w, C + x = w → (decodeAt w (C / 2 ^ 25) (C / 2 ^ 21 % 16)).1 = .ok i) : Reads w i := by
  refine ⟨by omega, ?_⟩
  rw [← h w hw]
  exact (decodeAt w _ _).2 (by unfold bits; omega) (by unfold bits; omega)

/-- A row that has bits [31:25] for its own. -/
theorem reads_op {C x w : Nat} {i : Instr} (hw : C + x = w) (hC : C % 2 ^ 25 = 0) (hC' : C / 2 ^ 32 = 0) (hx : x < 2 ^ 25)
    (h : ∀ w, C + x = w → (decodeAt w (C / 2 ^ 25) (bits w 24 21)).1 = .ok i) : Reads w i := by
  refine ⟨by omega, ?_⟩
  rw [← h w hw]
  exact (decodeAt w _ _).2 (by unfold bits; omega) rfl

/-- The row of a word with three register operands. -/
theorem reads_dab {C w : Nat} {d a b : RF} {mk : RF → RF → RF → Instr} (e : some (C + 0x4000 * d.val + 0x80 * a.val + b.val) = some w)
    (hC : C % 2 ^ 21 = 0) (hC' : C / 2 ^ 32 = 0)
    (h : ∀ w, (decodeAt w (C / 2 ^ 25) (C / 2 ^ 21 % 16)).1 = .ok (mk (rf (bits w 20 14)) (rf (bits w 13 7)) (rf (bits w 6 0)))) :
    Reads w (mk d a b) := by
  have hw := Option.some.inj e
  rw [Nat.add_assoc, Nat.add_assoc] at hw
  refine reads_fn hw hC hC' (by omega) fun w hw => ?_
  have hd : rf (bits w 20 14) = d := rf_eq.2 (by unfold bits; omega)
  have ha : rf (bits w 13 7) = a := rf_eq.2 (by unfold bits; omega)
  have hb : rf (bits w 6 0) = b := rf_eq.2 (by unfold bits; omega)
  rw [h, hd, ha, hb]

/-- The row of a word with a destination and one operand. -/
theorem reads_da {C w : Nat} {d a : RF} {mk : RF → RF → Instr} (e : some (C + 0x4000 * d.val + 0x80 * a.val) = some w)
    (hC : C % 2 ^ 21 = 0) (hC' : C / 2 ^ 32 = 0)
    (h : ∀ w, (decodeAt w (C / 2 ^ 25) (C / 2 ^ 21 % 16)).1 = zero w 6 0 (.ok (mk (rf (bits w 20 14)) (rf (bits w 13 7))))) :
    Reads w (mk d a) := by
  have hw := Option.some.inj e
  rw [Nat.add_assoc] at hw
  refine reads_fn hw hC hC' (by omega) fun w hw => ?_
  have hd : rf (bits w 20 14) = d := rf_eq.2 (by unfold bits; omega)
  have ha : rf (bits w 13 7) = a := rf_eq.2 (by unfold bits; omega)
  rw [h, hd, ha, zero_eq_ok]
  exact ⟨by unfold bits; omega, rfl⟩

/-- The instruction words from the one numbered `lo`, in the opcode table's order, to the one before `hi`. -/
def wordBetween (lo hi : Nat) (i : Instr) : Bool := i.isWord && Nat.ble lo i.ctorIdx && Nat.blt i.ctorIdx hi

/-! The five parts of the table below are proved alike. A word of three registers, or of two, is a case of `reads_dab` or `reads_da`. Of every other
word the bounds of its operands' codes come first; its encoding is then one number with the rest below it, `show` selects its row, and field by
field what the row reads is the operand. -/

section
open Laws.EncodeFits (icond_lt fcond_lt atomOp_lt atomSOp_lt scope_lt lsize_lt ssize_lt order_lt rmode_lt memForm_lt yieldFlag_lt bool_lt)

/-- The words from NOP to BRK: control, masks, formats and the handler. -/
theorem reads_controlWord {i : Instr} {w : Nat} (hi : wordBetween 0 24 i = true) (e : encode i = some w) : Reads w i := by
  cases i
  case nop | join | exit | tret | brk =>
    cases e
    exact ⟨by decide, rfl⟩
  case' bra i _ _ | brd i _ _ | mand i _ =>
    have := bool_lt i
  case' yield c _ =>
    have := yieldFlag_lt c
  case' ucmp c _ _ _ =>
    have := icond_lt c
  case bra | brd =>
    have hw := Option.some.inj e
    simp -failIfUnchanged only [Nat.add_assoc] at hw
    clear e hi
    refine reads_op hw rfl rfl (by omega) fun w hw => ?_
    show Except.ok _ = _
    simp [flag_eq, finOfNat_eq, bvOfNat_eq, -Bool.toNat_eq_one, -Fin.ofNat_eq_cast]
    simp only [bits, Nat.reduceAdd, Nat.reduceSub, Nat.reducePow]
    and_intros <;> omega
  case pushj | call | ret | brx | wbase | trap | srd | swr | ucmp | tcinv =>
    have hw := Option.some.inj e
    simp -failIfUnchanged only [Nat.add_assoc] at hw
    clear e hi
    refine reads_op hw rfl rfl (by omega) fun w hw => ?_
    show zero _ _ _ _ = _
    simp [rf_eq, finOfNat_eq, bvOfNat_eq, -Bool.toNat_eq_one, -Fin.ofNat_eq_cast]
    simp only [bits, Nat.reduceAdd, Nat.reduceSub, Nat.reducePow]
    and_intros <;> omega
  case yield =>
    have hw := Option.some.inj e
    simp -failIfUnchanged only [Nat.add_assoc] at hw
    clear e hi
    refine reads_op hw rfl rfl (by omega) fun w hw => ?_
    show need _ _ _ = _
    simp [bvOfNat_eq, -Bool.toNat_eq_one, -Fin.ofNat_eq_cast]
    simp only [bits, Nat.reduceAdd, Nat.reduceSub, Nat.reducePow]
    and_intros <;> omega
  case mrd | mwr | mand | hrd | fmts | fmtr =>
    have hw := Option.some.inj e
    simp -failIfUnchanged only [Nat.add_assoc] at hw
    clear e hi
    refine reads_fn hw rfl rfl (by omega) fun w hw => ?_
    show zero _ _ _ _ = _
    simp [rf_eq, flag_eq, finOfNat_eq, -Bool.toNat_eq_one, -Fin.ofNat_eq_cast]
    simp only [bits, Nat.reduceAdd, Nat.reduceSub, Nat.reducePow]
    and_intros <;> omega
  all_goals nomatch hi

/-- The words from IADD to SHRW: arithmetic, conversions and exchanges between lanes. -/
theorem reads_laneWord {i : Instr} {w : Nat} (hi : wordBetween 24 139 i = true) (e : encode i = some w) : Reads w i := by
  cases i
  case iadd | isub | imin | imax | iminu | imaxu | iabsd | iadds | isubs | imul | imulh | imulhu | imad
     | and | or | xor | andn | orn | xnor | shl | shr | sar | rol | ror | bfe | bfeu | bfi | fadd | fsub
     | fmul | ffma | ffms | fmin | fmax | fdiv | fcpys | hadd2 | hmul2 | hfma2 | hmin2 | hmax2 | cvtfn
     | cvtnf | cvtnfh | cvtcf | cvtfnt | shfli | shflu | shfld | shflx | movxr | movxw | addw | subw
     | mulw | mulwu | shlw | shrw => exact reads_dab e rfl rfl fun _ => rfl
  case popc | clz | ctz | brev | bswap | mov | fabs | fneg | frcp | frsq | fsqrt | fexp2 | flog2 | fsinpi
     | fcospi | ftanh | frne | frtz | fflr | fceil | cvtif | cvtuf | cvtfc | qswh | qswv | qswd | rdadd
     | rdmin | rdmax | rdand | rdor | rdxor | rdfadd => exact reads_da e rfl rfl fun _ => rfl
  case' icmp c _ _ _ | icmpi _ _ c _ =>
    have := icond_lt c
  case' fcmp c _ _ _ =>
    have := fcond_lt c
  case' cvtfi _ _ m | cvtfu _ _ m =>
    have := rmode_lt m
  case' vany _ i _ | vall _ i _ | vbal _ i _ =>
    have := bool_lt i
  case addi | andi | ori | xori | muli | movi | movhi =>
    have hw := Option.some.inj e
    simp -failIfUnchanged only [Nat.add_assoc] at hw
    clear e hi
    refine reads_op hw rfl rfl (by omega) fun w hw => ?_
    show Except.ok _ = _
    simp [rf_eq, bvOfNat_eq, -Bool.toNat_eq_one, -Fin.ofNat_eq_cast]
    simp only [bits, Nat.reduceAdd, Nat.reduceSub, Nat.reducePow]
    and_intros <;> omega
  case icmp | sel | shli | shri | sari | icmpi | fcmp | hmix | prmt =>
    have hw := Option.some.inj e
    simp -failIfUnchanged only [Nat.add_assoc] at hw
    clear e hi
    refine reads_op hw rfl rfl (by omega) fun w hw => ?_
    show zero _ _ _ _ = _
    simp [rf_eq, finOfNat_eq, bvOfNat_eq, -Bool.toNat_eq_one, -Fin.ofNat_eq_cast]
    simp only [bits, Nat.reduceAdd, Nat.reduceSub, Nat.reducePow]
    and_intros <;> omega
  case pmov | movp | cvtfi | cvtfu | qbc | vany | vall | vbal =>
    have hw := Option.some.inj e
    simp -failIfUnchanged only [Nat.add_assoc] at hw
    clear e hi
    refine reads_fn hw rfl rfl (by omega) fun w hw => ?_
    show zero _ _ _ _ = _
    simp [rf_eq, flag_eq, finOfNat_eq, -Bool.toNat_eq_one, -Fin.ofNat_eq_cast]
    simp only [bits, Nat.reduceAdd, Nat.reduceSub, Nat.reducePow]
    and_intros <;> omega
  all_goals nomatch hi

/-- The words from LD to FENCE: loads, stores, atomics and fences. -/
theorem reads_accessWord {i : Instr} {w : Nat} (hi : wordBetween 139 153 i = true) (e : encode i = some w) : Reads w i := by
  cases i
  case' ld h z _ _ _ | lds h z _ _ _ | ldw h z _ _ =>
    have := bool_lt h
    have := lsize_lt z
  case' lda h z _ _ k _ =>
    have := bool_lt h
    have := lsize_lt z
    have := scope_lt k
  case' st h z _ _ _ | sts h z _ _ _ | stw h z _ _ =>
    have := bool_lt h
    have := ssize_lt z
  case' stl h z _ _ k _ =>
    have := bool_lt h
    have := ssize_lt z
    have := scope_lt k
  case' atom f _ _ _ =>
    have := atomOp_lt f
  case' atoma f _ _ k _ | atoml f _ _ k _ | atomr f _ _ k _ =>
    have := atomOp_lt f
    have := scope_lt k
  case' atoms f _ _ _ =>
    have := atomSOp_lt f
  case' fence r k =>
    have := order_lt r
    have := scope_lt k
  case ld | st | ldw | stw | atom | fence =>
    have hw := Option.some.inj e
    simp -failIfUnchanged only [Nat.add_assoc] at hw
    clear e hi
    refine reads_op hw rfl rfl (by omega) fun w hw => ?_
    show zero _ _ _ _ = _
    simp [rf_eq, flag_eq, finOfNat_eq, -Bool.toNat_eq_one, -Fin.ofNat_eq_cast]
    simp only [bits, Nat.reduceAdd, Nat.reduceSub, Nat.reducePow]
    and_intros <;> omega
  case lda | stl | lds | sts | atoma | atoml | atomr | atoms =>
    have hw := Option.some.inj e
    simp -failIfUnchanged only [Nat.add_assoc] at hw
    clear e hi
    refine reads_op hw rfl rfl (by omega) fun w hw => ?_
    show need _ _ _ = _
    simp [rf_eq, flag_eq, finOfNat_eq, -Bool.toNat_eq_one, -Fin.ofNat_eq_cast]
    simp only [bits, Nat.reduceAdd, Nat.reduceSub, Nat.reducePow]
    and_intros <;> omega
  all_goals nomatch hi

/-- The words from CAPLD to MONCLR: capabilities, copies, barriers and monitors. -/
theorem reads_memoryWord {i : Instr} {w : Nat} (hi : wordBetween 153 171 i = true) (e : encode i = some w) : Reads w i := by
  cases i
  case' bartry _ _ x =>
    have := bool_lt x
  case' monarm _ _ f =>
    have := memForm_lt f
  case cpyx =>
    have hw := Option.some.inj e
    simp -failIfUnchanged only [Nat.add_assoc] at hw
    clear e hi
    refine reads_op hw rfl rfl (by omega) fun w hw => ?_
    show zero _ _ _ _ = _
    simp [rf_eq, finOfNat_eq, -Bool.toNat_eq_one, -Fin.ofNat_eq_cast]
    simp only [bits, Nat.reduceAdd, Nat.reduceSub, Nat.reducePow]
    and_intros <;> omega
  case capld | capnar | caprd | caprr | discard | pref | cpygs | cpysg | cpysw | cpygg | barinit | bararr
     | barwait | bartry | monarm | monwait | monclr =>
    have hw := Option.some.inj e
    simp -failIfUnchanged only [Nat.add_assoc] at hw
    clear e hi
    refine reads_fn hw rfl rfl (by omega) fun w hw => ?_
    show zero _ _ _ _ = _
    simp [rf_eq, flag_eq, finOfNat_eq, -Bool.toNat_eq_one, -Fin.ofNat_eq_cast]
    simp only [bits, Nat.reduceAdd, Nat.reduceSub, Nat.reducePow]
    and_intros <;> omega
  all_goals nomatch hi

/-- The words from MMA to RRD: matrix unit, windows, sequences, free lists, merges, launches and channels. -/
theorem reads_engineWord {i : Instr} {w : Nat} (hi : wordBetween 171 213 i = true) (e : encode i = some w) : Reads w i := by
  cases i
  case wstop =>
    cases e
    exact ⟨by decide, rfl⟩
  case sqlen | sqrlen | sqwlo | sqnew | sqtake | flpop | flcnt | mgstat | lwait | lstat => exact reads_da e rfl rfl fun _ => rfl
  case' mma r z t _ _ _ =>
    have := bool_lt r
    have := bool_lt z
    have := bool_lt t
  case' accld _ f | accst _ f | accss _ f =>
    have := memForm_lt f
  case' accxa _ _ m | accxr _ _ m =>
    have := bool_lt m
  case' wset n _ | wgo n =>
    have := bool_lt n
  case mma | cbld | ldsb | wset | wgo | qpop | sqres | sqcom | sqapp | sqmap | sqfork | mgmatch | mgmerge
     | mgsplit =>
    have hw := Option.some.inj e
    simp -failIfUnchanged only [Nat.add_assoc] at hw
    clear e hi
    refine reads_op hw rfl rfl (by omega) fun w hw => ?_
    show zero _ _ _ _ = _
    simp [rf_eq, flag_eq, finOfNat_eq, -Bool.toNat_eq_one, -Fin.ofNat_eq_cast]
    simp only [bits, Nat.reduceAdd, Nat.reduceSub, Nat.reducePow]
    and_intros <;> omega
  case accz | accld | accst | accss | accxa | accxr | acccp | wstat | sqrel | sqwin | sqseal | flpush
     | mgbias | mgpop | launch | rwri | rrd =>
    have hw := Option.some.inj e
    simp -failIfUnchanged only [Nat.add_assoc] at hw
    clear e hi
    refine reads_fn hw rfl rfl (by omega) fun w hw => ?_
    show zero _ _ _ _ = _
    simp [rf_eq, flag_eq, finOfNat_eq, -Bool.toNat_eq_one, -Fin.ofNat_eq_cast]
    simp only [bits, Nat.reduceAdd, Nat.reduceSub, Nat.reducePow]
    and_intros <;> omega
  all_goals nomatch hi

end

theorem encode_isSome (i : Instr) : (encode i).isSome = i.isWord := by
  cases i <;> rfl

theorem wordBetween_cases {i : Instr} (hi : i.isWord = true) :
    wordBetween 0 24 i = true ∨ wordBetween 24 139 i = true ∨ wordBetween 139 153 i = true ∨
      wordBetween 153 171 i = true ∨ wordBetween 171 213 i = true := by
  have hlast : (!i.isWord || Nat.blt i.ctorIdx 213) = true := by cases i <;> rfl
  simp only [wordBetween, hi, Bool.not_true, Bool.false_or, Bool.true_and, Bool.and_eq_true, Nat.ble_eq, Nat.blt_eq] at hlast ⊢
  omega

theorem reads_of_encode {i : Instr} {w : Nat} (hi : i.isWord = true) (e : encode i = some w) : Reads w i := by
  rcases wordBetween_cases hi with h | h | h | h | h
  · exact reads_controlWord h e
  · exact reads_laneWord h e
  · exact reads_accessWord h e
  · exact reads_memoryWord h e
  · exact reads_engineWord h e

theorem decodeTableWord_eq {w : Nat} {i : Instr} (h : Reads w i) : decodeTableWord 32 w = some i := by
  obtain ⟨hw, hi⟩ := h
  have hbytes : wordOfBytes (BitVec.ofNat 8 w) (BitVec.ofNat 8 (w / 256)) (BitVec.ofNat 8 (w / 65536)) (BitVec.ofNat 8 (w / 16777216)) = w := by
    simp only [wordOfBytes, BitVec.toNat_ofNat]
    omega
  rw [decodeTableWord, Nat.mod_eq_of_lt hw]
  simp only [decodeBytes, bytesOfWord, hbytes, hi, Except.map]

/-- Settles O1: `encode_isSome` for the word, `reads_of_encode` for its decoding, `decodeTableWord_eq` for the decoder by bytes. -/
theorem decodeOfEncode : Obligations.DecodeOfEncode := by
  intro i hi
  obtain ⟨w, e⟩ := Option.isSome_iff_exists.1 ((encode_isSome i).trans hi)
  have hreads := reads_of_encode hi e
  exact ⟨w, e, hreads.2, decodeTableWord_eq hreads⟩

/-- Settles O3: each printed word decodes by computation. -/
theorem exampleWordsDecode : Obligations.ExampleWordsDecode := by
  refine List.forall_iff_forall_mem.1 ?_
  and_intros <;> rfl

end Sys2Proof
end

section
/-! ## A step at a word that names nothing and at a due event (O5) -/

namespace Sys2Proof.Machine

open Sys2Proof

/-! ### What a trap keeps of the links -/

theorem dropParked_link (s : State) (g : Nat) : (s.dropParked g).link = s.link := by
  unfold State.dropParked
  split <;> rfl

theorem delOps_link {α : Type} (n : α → Nat) (l : List α) (s : State) : (l.foldl (fun s e => s.delOp (n e)) s).link = s.link :=
  foldl_keeps (fun t : State => t.link) _ (fun _ _ => State.delOp_link ..) l s

theorem withdraw_link (s : State) (g : Nat) : (s.withdraw g).link = s.link := delOps_link Prod.fst _ _

theorem dropIdle_link (s : State) (g : Nat) : (s.dropIdle g).link = s.link := by
  unfold State.dropIdle
  refine (foldl_keeps (fun t : State => t.link) _ (fun t e => ?_) _ _).trans (delOps_link Prod.fst _ s)
  split <;> rfl

theorem stopGroup_link (s : State) (g : Nat) : (s.stopGroup g).link = s.link := by
  simp only [State.stopGroup, State.push_link, State.setGrp_link, dropIdle_link, withdraw_link, dropParked_link]

theorem unhandled_link (s : State) (g : Nat) (t : Trap) (pc : Nat) : (s.unhandled g t pc).link = s.link := by
  unfold State.unhandled
  refine (foldl_keeps (fun t : State => t.link) _ (fun t k => ?_) _ _).trans ((stopGroup_link ..).trans ?_)
  · split <;> simp only [stopGroup_link]
  · split <;> rfl

/-- A trap, handled or not, changes no link. -/
theorem takeTrap_link (s : State) (g : Nat) (t : Trap) (pc : Nat) (c : Clause) (d : Bool) : (s.takeTrap g t pc c d).link = s.link := by
  unfold State.takeTrap
  dsimp only
  split
  · exact (unhandled_link ..).trans (State.count_link ..)
  · exact (State.setGrp_link ..).trans (State.count_link ..)

/-! ### Steps -/

theorem orRecall_next {s u : State} (e : Option Event) (h : u.link.wants = []) : s.orRecall e (.next u) = .next u := if_pos h

theorem orRecall_fault (s : State) (e : Option Event) (f : Fault) : s.orRecall e (.fault f) = .fault f := rfl

/-- A step that issues a word which names no instruction. -/
theorem step_of_unassigned {s : State} {g : Nat} {e : DecodeError} (hs : s.stuck = none) (hc : s.choose = .issue g)
    (hd : (s.advance.issueFor g).deferredDue g = false) (hk : ((s.advance.issueFor g).grp g).skips = false)
    (he : decodeWord ((s.advance.issueFor g).grp g).word.toNat = .error e) :
    step s = s.advance.orRecall none (.next ((s.advance.issueFor g).trapHere g
      (((s.advance.issueFor g).grp g).wide 0x01 ((s.advance.issueFor g).grp g).word 0))) := by
  simp [step, hs, State.stepOnce, hc, State.issueNow, hd, hk, he]

theorem stepTrapsAnUnassignedWord : Claims.StepTrapsAnUnassignedWord := by
  intro s g e hs hc t hw hd hk he
  refine (step_of_unassigned hs hc hd hk he).trans (orRecall_next none ?_)
  rw [State.trapHere, takeTrap_link, hw]

/-- The row of the opcode table that an event is. It is not compiled: the runtime has no tag for so late a constructor of `Instr`. -/
noncomputable def Event.row : Event → Instr
  | .clauseFetch g => .clauseFetch g
  | .clauseAccept g => .clauseAccept g
  | .deferredTrap g => .deferredTrap g
  | .groupAged g => .groupAged g
  | .pendingAgeSwap g => .pendingAgeSwap g
  | .swap inn out => .swap inn out
  | .swapDone inn out => .swapDone inn out
  | .waitEventWake g => .waitEventWake g
  | .farCheckReport op => .farCheckReport op
  | .loadDataReturn op => .loadDataReturn op
  | .atomicReturn op => .atomicReturn op
  | .atomicResultLost op => .atomicResultLost op
  | .capldEntryReturn op => .capldEntryReturn op
  | .fenceScComplete op => .fenceScComplete op
  | .tcinvComplete op => .tcinvComplete op
  | .prefArrival op => .prefArrival op
  | .reclaimComplete core => .reclaimComplete core
  | .copyComplete op => .copyComplete op
  | .seamCompletionMessage blk off => .seamCompletionMessage blk off
  | .seamCompletionAck blk off => .seamCompletionAck blk off
  | .monitorReread g i => .monitorReread g i
  | .matrixCommandComplete op => .matrixCommandComplete op
  | .walkerReadReturn g ent => .walkerReadReturn g ent
  | .probeTimeout g => .probeTimeout g
  | .sequenceAnswer op => .sequenceAnswer op
  | .mergeCommandComplete op => .mergeCommandComplete op
  | .packageTick => .packageTick
  | .systemTick => .systemTick
  | .rotation ctx qn => .rotation ctx qn
  | .spillComplete course => .spillComplete course
  | .predictorDecay => .predictorDecay
  | .mappingBoundExceeded ctx qn => .mappingBoundExceeded ctx qn
  | .recordAccept ctx qn => .recordAccept ctx qn
  | .launchComplete launch => .launchComplete launch
  | .blockRetire blk => .blockRetire blk
  | .dieFatalFailure die => .dieFatalFailure die
  | .reserve ctx qn n => .reserve ctx qn n
  | .commit ctx qn n => .commit ctx qn n
  | .refresh ctx qn => .refresh ctx qn
  | .replayPage ctx obj page => .replayPage ctx obj page
  | .replayContext ctx => .replayContext ctx
  | .status => .status
  | .ctxreg => .ctxreg
  | .seqarea => .seqarea
  | .flset => .flset
  | .objtab => .objtab
  | .faultseq => .faultseq
  | .notetab => .notetab
  | .quantum => .quantum
  | .tclimset => .tclimset
  | .domain => .domain
  | .protdom => .protdom
  | .poisondel => .poisondel
  | .cntread => .cntread
  | .logrot => .logrot
  | .logread => .logread
  | .pwrlim => .pwrlim
  | .portrst => .portrst
  | .dieup => .dieup
  | .ctxrel => .ctxrel
  | .sqcreate => .sqcreate
  | .flfill => .flfill
  | .sqdel => .sqdel
  | .registerWrite off size val => .registerWrite off size val
  | .hostApertureRead off size => .hostApertureRead off size
  | .hostApertureWrite off bytes => .hostApertureWrite off bytes
  | .hostAtomicopReceived tag => .hostAtomicopReceived tag
  | .getVersion ch => .getVersion ch
  | .getCapabilities ch => .getCapabilities ch
  | .negotiateAlgorithms ch sigs hashes => .negotiateAlgorithms ch sigs hashes
  | .getDigests ch => .getDigests ch
  | .getCertificate ch slot off len => .getCertificate ch slot off len
  | .challenge ch slot nonce => .challenge ch slot nonce
  | .getMeasurements ch idx nonce => .getMeasurements ch idx nonce
  | .packageReset => .packageReset
  | .selftestComplete code repaired => .selftestComplete code repaired
  | .powerControl isl links => .powerControl isl links
  | .thermalThrottle isl => .thermalThrottle isl
  | .dieOverheat die => .dieOverheat die
  | .portCheck op line => .portCheck op line
  | .faultReport r => .faultReport r
  | .hbmReadComplete line sector ecc => .hbmReadComplete line sector ecc
  | .farAtomic op lane => .farAtomic op lane
  | .hostAtomic op lane => .hostAtomic op lane
  | .atomicopCompletion op lane st val => .atomicopCompletion op lane st val
  | .sliceTcinv op slice => .sliceTcinv op slice
  | .sliceTcinvDrained op slice => .sliceTcinvDrained op slice
  | .pcieCompletion op lane st val => .pcieCompletion op lane st val
  | .completionTimeout op lane => .completionTimeout op lane
  | .pcieLinkDown => .pcieLinkDown
  | .pcieLinkUp => .pcieLinkUp
  | .linkTrained port => .linkTrained port
  | .discovery port m => .discovery port m
  | .flitReceived port seq acked crcOk msg => .flitReceived port seq acked crcOk msg
  | .nak port last => .nak port last
  | .ackTimeout port => .ackTimeout port
  | .lossOfSignal port => .lossOfSignal port
  | .retrainComplete port => .retrainComplete port
  | .inboundRwri port r => .inboundRwri port r
  | .inboundRrd port r => .inboundRrd port r
  | .rwriAck op st => .rwriAck op st
  | .rrdData op st bytes => .rrdData op st bytes
  | .channelRequest port r => .channelRequest port r
  | .slabRead port m => .slabRead port m
  | .slabExclusive port m => .slabExclusive port m
  | .slabDowngrade port m => .slabDowngrade port m
  | .slabTeardown port m => .slabTeardown port m
  | .rd m => .rd m
  | .xreq m => .xreq m
  | .srdSteeredRead m => .srdSteeredRead m
  | .inv m => .inv m
  | .tkeep m => .tkeep m
  | .grant m => .grant m
  | .data m => .data m
  | .ack m => .ack m
  | .prune m => .prune m
  | .jdone m => .jdone m
  | .leave m => .leave m
  | .wb m => .wb m
  | .wback m => .wback m
  | .snoop m => .snoop m
  | .quiet tag router => .quiet tag router
  | .heldMessageRelease router tag slab => .heldMessageRelease router tag slab
  | .wreq link width => .wreq link width
  | .wack link => .wack link
  | .trainingEnd link => .trainingEnd link
  | .frame link => .frame link
  | .frameLockTimeout link => .frameLockTimeout link
  | .wnak link => .wnak link
  | .romCheckComplete ok => .romCheckComplete ok
  | .slotMoveComplete ctx qn => .slotMoveComplete ctx qn
  | .poolAllocationComplete blk => .poolAllocationComplete blk
  | .imageFillComplete course bad => .imageFillComplete course bad
  | .bankSwitchComplete course => .bankSwitchComplete course
  | .walkerCommandComplete op => .walkerCommandComplete op
  | .walkerEntryGenerate g => .walkerEntryGenerate g
  | .residencyProbeAnswer g tile rank => .residencyProbeAnswer g tile rank
  | .fixedLatencyComplete g tok => .fixedLatencyComplete g tok

theorem exec_row (e : Event) (s : State) : exec e.row s = e.run s := by
  cases e <;> rfl

theorem isWord_row (e : Event) : e.row.isWord = false := by
  cases e <;> rfl

/-- A step that a group's state enables. -/
theorem step_of_run {s : State} {e : Event} (hs : s.stuck = none) (hc : s.choose = .run e) :
    step s = s.advance.orRecall none (e.run s.advance) := by
  simp only [step, hs, State.stepOnce, hc]

/-- A step that is due. -/
theorem step_of_due {s : State} {k : Nat} {e : Event} (hs : s.stuck = none) (hc : s.choose = .due k)
    (he : s.advance.agenda[s.advance.inOrder k]? = some e) :
    let t := { s.advance with agenda := s.advance.agenda.eraseIdx (s.advance.inOrder k) }
    step s = if s.advance.widthWaits e then .next (t.onLink e) else t.orRecall (some e) (e.run ((t.noteActive e).noteFlits e)) := by
  simp only [step, hs, State.stepOnce, hc, he]

theorem stepRunsTheDueEvent : Claims.StepRunsTheDueEvent := by
  refine ⟨fun e => ⟨e.row, isWord_row e, fun s => (exec_row e s).symm⟩, fun s e hs hc => ?_, fun s k e hs hc he => ?_⟩
  · rw [step_of_run hs hc]
    exact ⟨fun u hu hw => by rw [hu, orRecall_next none hw], fun f hf => by rw [hf, orRecall_fault]⟩
  · rw [step_of_due hs hc he]
    refine ⟨fun hw => if_pos hw, fun hw => ?_⟩
    rw [if_neg (by simp [hw])]
    exact ⟨fun u hu hw => by rw [hu, orRecall_next (some e) hw], fun f hf => by rw [hf, orRecall_fault]⟩

/-- Settles O5: `stepTrapsAnUnassignedWord` for a word, `stepRunsTheDueEvent` for an event. -/
theorem stepRunsOtherChoices : Obligations.StepRunsOtherChoices :=
  ⟨stepTrapsAnUnassignedWord, stepRunsTheDueEvent⟩

end Sys2Proof.Machine
end

section
/-! ## The checks of a word at issue (O7) -/

namespace Sys2Proof.Machine

open Sys2Proof

/-- The trap that the checks of R50 give, of a word whose own check is `pre`. -/
theorem issueTrap_of_not_wf {g : Group} {i : Instr} (pre : Option Nat) (h : i.wfAt g.fmt = false) :
    g.issueTrap pre i = some (g.wide 0x01 g.word 0) := by
  simp [Group.issueTrap, h]

theorem issueTrap_of_pre {g : Group} {i : Instr} {c : Nat} (h : i.wfAt g.fmt = true) :
    g.issueTrap (some c) i = some (g.wide c g.word 0) := by
  simp [Group.issueTrap, h]

theorem issueTrap_of_beyondAlloc {g : Group} {i : Instr} {n : Nat} (h : i.wfAt g.fmt = true) (ha : i.beyondAlloc g.fmt g.wb g.alloc = some n) :
    g.issueTrap none i = some (g.wide 0x04 (w32 n) 0) := by
  simp [Group.issueTrap, h, ha]

theorem issueTrap_of_misaligned {g : Group} {i : Instr} {v : Nat} (h : i.wfAt g.fmt = true) (ha : i.beyondAlloc g.fmt g.wb g.alloc = none)
    (hm : i.misaligned g.fmt = some v) : g.issueTrap none i = some (g.wide 0x05 (w32 v) 0) := by
  simp [Group.issueTrap, h, ha, hm]

/-- A word that fails a check takes the trap of the check where it stands. -/
theorem issueChecked_answers {i : Instr} {s : State} {g : Group} {pre : Group → Option Nat} {body : Nat → Group → State} {c : Nat} {v : Word}
    (hx : exec i s = issueChecked pre i s body) (h : AtIssue s g) (hm : MayTrap s g) (ht : g.issueTrap (pre g) i = some (g.wide c v 0)) :
    Answers i s fun t => TrapsAtWord s t g c v 0 :=
  ⟨_, hx.trans (issueChecked_trap h pre ht body), trapHere_takesTrap h hm _⟩

/-- Every word issues under the checks of R50, with a check of its own or none. -/
theorem exec_issueChecked {i : Instr} (hw : i.isWord = true) (s : State) : ∃ pre body, exec i s = issueChecked pre i s body := by
  by_cases h1 : ∃ a, i = .tcinv a
  · obtain ⟨a, rfl⟩ := h1
    exact ⟨_, _, (rfl : execTcinv a s = issueChecked _ _ s _)⟩
  by_cases h2 : ∃ a n, i = .swr a n
  · obtain ⟨a, n, rfl⟩ := h2
    exact ⟨_, _, (rfl : execSwr a n s = issueChecked _ _ s _)⟩
  by_cases h3 : i = .tret
  · subst h3
    exact ⟨_, _, (rfl : execTret s = issueChecked _ _ s _)⟩
  obtain ⟨body, hx⟩ := exec_word i s hw (fun a h => h1 ⟨a, h⟩) (fun a n h => h2 ⟨a, n, h⟩) h3
  exact ⟨_, body, hx⟩

theorem issueChecksInOrder : Claims.IssueChecksInOrder := by
  intro i s g hw h hm
  refine ⟨fun hwf => ?_, fun hwf h1 h2 h3 => ?_⟩
  · obtain ⟨pre, body, hx⟩ := exec_issueChecked hw s
    exact issueChecked_answers hx h hm (issueTrap_of_not_wf _ hwf)
  · obtain ⟨body, hx⟩ := exec_word i s hw h1 h2 h3
    exact ⟨fun n ha => issueChecked_answers hx h hm (issueTrap_of_beyondAlloc hwf ha),
      fun v ha hv => issueChecked_answers hx h hm (issueTrap_of_misaligned hwf ha hv)⟩

/-- The reserved bits of the parameters of a TCINV are clear. -/
theorem params_fit {g : Group} {a : RF} (h0 : (g.src a 0 0).toNat < 2 ^ 12) (h1 : (g.src a 1 0).toNat < 2 ^ 24) :
    ¬ ((g.params a 3).getD 0 0 / 4096 ≠ 0 ∨ (g.params a 3).getD 1 0 / 2 ^ 24 ≠ 0) := by
  rw [params_getD _ _ (by decide), params_getD _ _ (by decide)]
  omega

theorem privilegedWordsTrap : Claims.PrivilegedWordsTrap := by
  intro s g h hm
  have hhandler := hm.1
  refine ⟨issueChecked_answers (rfl : execTret s = _) h hm ?_, fun a n hwf => issueChecked_answers (rfl : execSwr a n s = _) h hm ?_,
    fun a hwf h0 h1 hp => issueChecked_answers (rfl : execTcinv a s = _) h hm ?_⟩
  · rw [hhandler]
    exact issueTrap_of_pre rfl
  · rw [hhandler]
    split
    · rw [if_neg (by omega)]
      exact issueTrap_of_pre hwf
    · rw [if_neg Bool.false_ne_true, if_pos (by omega)]
      exact issueTrap_of_pre hwf
  · dsimp only
    rw [if_neg (params_fit h0 h1), hp]
    exact issueTrap_of_pre hwf

/-- Settles O7: `issueChecksInOrder` for the checks of R50, `privilegedWordsTrap` for the words with a check of their own. -/
theorem wordChecksAtIssue : Obligations.WordChecksAtIssue :=
  ⟨issueChecksInOrder, privilegedWordsTrap⟩

end Sys2Proof.Machine
end

section
/-! ## Every row has a meaning (O6) -/

namespace Sys2Proof.Machine

open Sys2Proof

theorem safe_next (t : State) : Safe (.next t) := ⟨t, rfl⟩

theorem Safe.ite {c : Prop} [Decidable c] {a b : Host.Outcome State Fault Refusal} (ha : Safe a) (hb : Safe b) : Safe (if c then a else b) := by
  split
  · exact ha
  · exact hb

theorem Safe.not_refused {o : Host.Outcome State Fault Refusal} (h : Safe o) (r : Refusal) : o ≠ .refused r := by
  obtain ⟨t, rfl⟩ := h
  exact nofun

/-- A mailbox command ends with a status, whatever its body answers. -/
theorem command_safe (s : State) (early : Bool) (f : ArgBits) (body : State → Cmd) : Safe (s.command early f body) := by
  unfold State.command
  (repeat' split) <;> exact safe_next _

theorem execReserve_safe (ctx qn n : Nat) (s : State) : Safe (execReserve ctx qn n s) := by
  unfold execReserve
  dsimp only
  (repeat' split) <;> exact safe_next _

theorem execCommit_safe (ctx qn n : Nat) (s : State) : Safe (execCommit ctx qn n s) := by
  unfold execCommit
  dsimp only
  (repeat' split) <;> exact safe_next _

theorem execRefresh_safe (ctx qn : Nat) (s : State) : Safe (execRefresh ctx qn s) :=
  .ite (safe_next _) (.ite (safe_next _) (.ite (safe_next _) (safe_next _)))

theorem writeCdb_safe (s : State) (v : Nat) : Safe (s.writeCdb v) := by
  unfold State.writeCdb
  refine .ite (safe_next _) ?_
  split
  · exact execReserve_safe ..
  · exact execCommit_safe ..
  · exact execRefresh_safe ..
  · exact safe_next _

theorem writeRply_safe (s : State) (v : Nat) : Safe (s.writeRply v) :=
  .ite (safe_next _) (.ite ⟨_, rfl⟩ ⟨_, rfl⟩)

theorem execAck_safe (m : TMsg) (s : State) : Safe (execAck m s) := by
  unfold execAck
  dsimp only
  (repeat' split) <;> exact safe_next _

theorem execRd_safe (m : TMsg) (s : State) : Safe (execRd m s) := by
  unfold execRd
  dsimp only
  (repeat' split) <;> exact safe_next _

theorem execXreq_safe (m : TMsg) (s : State) : Safe (execXreq m s) := by
  unfold execXreq
  dsimp only
  (repeat' split) <;> exact safe_next _

theorem execSrdSteeredRead_safe (m : TMsg) (s : State) : Safe (execSrdSteeredRead m s) := by
  unfold execSrdSteeredRead
  dsimp only
  (repeat' split) <;> exact safe_next _

/-- An event has a next state always: it ends in one outright, as a command of the mailbox, after tests, through another event's meaning, or
after a look at what it names. -/
theorem event_safe {i : Instr} (hi : i.isWord = false) (s : State) : Safe (exec i s) := by
  cases i
  case systemTick | predictorDecay | replayPage | replayContext | hostAtomicopReceived | getVersion | packageReset | powerControl
     | pcieLinkDown | pcieLinkUp | lossOfSignal | inv | tkeep | snoop | wreq | fixedLatencyComplete => exact ⟨_, rfl⟩
  case cntread | ctxreg | ctxrel | dieup | domain | faultseq | flfill | flset | logread | logrot | notetab | objtab | poisondel
     | portrst | pwrlim | quantum | seqarea | sqcreate | sqdel | status | tclimset =>
    unfold exec
    exact command_safe ..
  case bankSwitchComplete | frame | frameLockTimeout | imageFillComplete | jdone | leave | poolAllocationComplete | quiet
     | romCheckComplete | slotMoveComplete | trainingEnd | wack | wb | wback | wnak | ackTimeout | blockRetire | channelRequest
     | data | dieFatalFailure | dieOverheat | discovery | flitReceived | groupAged | hbmReadComplete | linkTrained
     | mappingBoundExceeded | nak | packageTick | pendingAgeSwap | retrainComplete | rotation | seamCompletionAck
     | seamCompletionMessage | selftestComplete | slabDowngrade | slabExclusive | slabRead | slabTeardown | spillComplete | swap
     | thermalThrottle | challenge | getCapabilities | getCertificate | getDigests | getMeasurements | negotiateAlgorithms =>
    repeat' first | exact safe_next _ | refine Safe.ite ?_ ?_
  case protdom =>
    unfold exec execProtdom
    exact command_safe ..
  case ack => exact execAck_safe ..
  case rd => exact execRd_safe ..
  case xreq => exact execXreq_safe ..
  case srdSteeredRead => exact execSrdSteeredRead_safe ..
  case reserve => exact execReserve_safe ..
  case commit => exact execCommit_safe ..
  case refresh => exact execRefresh_safe ..
  case prune => exact .ite (safe_next _) (.ite (execAck_safe ..) (safe_next _))
  case heldMessageRelease router tag slab =>
    unfold exec execHeldMessageRelease
    dsimp only
    split
    · exact safe_next _
    · split
      · exact execRd_safe ..
      · exact execXreq_safe ..
      · exact .ite (safe_next _) (execSrdSteeredRead_safe ..)
  case registerWrite off size val =>
    refine .ite (safe_next _) (.ite (safe_next _) (.ite (safe_next _) (.ite ?_ (.ite ?_ (.ite (safe_next _) (.ite (safe_next _) (safe_next _)))))))
    · exact writeCdb_safe ..
    · exact writeRply_safe ..
  case' clauseFetch => unfold exec execClauseFetch
  case' clauseAccept => unfold exec execClauseAccept
  case' deferredTrap => unfold exec execDeferredTrap
  case' swapDone => unfold exec execSwapDone
  case' waitEventWake => unfold exec execWaitEventWake
  case' farCheckReport => unfold exec execFarCheckReport
  case' loadDataReturn => unfold exec execLoadDataReturn
  case' atomicReturn => unfold exec execAtomicReturn
  case' atomicResultLost => unfold exec execAtomicResultLost
  case' capldEntryReturn => unfold exec execCapldEntryReturn
  case' fenceScComplete => unfold exec execFenceScComplete
  case' tcinvComplete => unfold exec execTcinvComplete
  case' prefArrival => unfold exec execPrefArrival
  case' reclaimComplete => unfold exec execReclaimComplete
  case' copyComplete => unfold exec execCopyComplete
  case' monitorReread => unfold exec execMonitorReread
  case' matrixCommandComplete => unfold exec execMatrixCommandComplete
  case' walkerReadReturn => unfold exec execWalkerReadReturn
  case' probeTimeout => unfold exec execProbeTimeout
  case' sequenceAnswer => unfold exec execSequenceAnswer
  case' mergeCommandComplete => unfold exec execMergeCommandComplete
  case' recordAccept => unfold exec execRecordAccept
  case' launchComplete => unfold exec execLaunchComplete
  case' hostApertureRead => unfold exec execHostApertureRead
  case' hostApertureWrite => unfold exec execHostApertureWrite
  case' portCheck => unfold exec execPortCheck
  case' faultReport => unfold exec execFaultReport
  case' farAtomic => unfold exec execFarAtomic
  case' hostAtomic => unfold exec execHostAtomic
  case' atomicopCompletion => unfold exec execAtomicopCompletion
  case' sliceTcinv => unfold exec execSliceTcinv
  case' sliceTcinvDrained => unfold exec execSliceTcinvDrained
  case' pcieCompletion => unfold exec execPcieCompletion
  case' completionTimeout => unfold exec execCompletionTimeout
  case' inboundRwri => unfold exec execInboundRwri
  case' inboundRrd => unfold exec execInboundRrd
  case' rwriAck => unfold exec execRwriAck
  case' rrdData => unfold exec execRrdData
  case' grant => unfold exec execGrant
  case' walkerCommandComplete => unfold exec execWalkerCommandComplete
  case' walkerEntryGenerate => unfold exec execWalkerEntryGenerate
  case' residencyProbeAnswer => unfold exec execResidencyProbeAnswer
  case clauseFetch | clauseAccept | deferredTrap | swapDone | waitEventWake | farCheckReport | loadDataReturn | atomicReturn
     | atomicResultLost | capldEntryReturn | fenceScComplete | tcinvComplete | prefArrival | reclaimComplete | copyComplete
     | monitorReread | matrixCommandComplete | walkerReadReturn | probeTimeout | sequenceAnswer | mergeCommandComplete | recordAccept
     | launchComplete | hostApertureRead | hostApertureWrite | portCheck | faultReport | farAtomic | hostAtomic
     | atomicopCompletion | sliceTcinv | sliceTcinvDrained | pcieCompletion | completionTimeout | inboundRwri | inboundRrd | rwriAck
     | rrdData | grant | walkerCommandComplete | walkerEntryGenerate | residencyProbeAnswer =>
    dsimp -failIfUnchanged only
    repeat' split
    all_goals exact safe_next _
  all_goals nomatch hi

/-- A word at an issue traps or is performed. -/
theorem word_safe {i : Instr} (hi : i.isWord = true) {s : State} (h : ∃ g, AtIssue s g) : Safe (exec i s) := by
  obtain ⟨pre, body, hx⟩ := exec_issueChecked hi s
  obtain ⟨g, hg, ha⟩ := h
  rw [hx, issueChecked, hg]
  dsimp only
  rw [if_pos ha]
  split <;> exact safe_next _

theorem everyRowHasANextState : Claims.EveryRowHasANextState := by
  intro i s h
  cases hi : i.isWord with
  | true => exact word_safe hi (h.resolve_right (by simp [hi]))
  | false => exact event_safe hi s

theorem nothingIsRefused : Claims.NothingIsRefused := by
  intro i s r
  cases hi : i.isWord with
  | true =>
    obtain ⟨pre, body, hx⟩ := exec_issueChecked hi s
    rw [hx]
    rcases issueChecked_cases pre i s body with h | ⟨g, -, ⟨t, -, h⟩ | ⟨-, h⟩⟩ <;> rw [h] <;> exact nofun
  | false => exact (event_safe hi s).not_refused r

/-- Settles O6: a word is issued by `issueChecked` and goes on at an issue (`word_safe`), an event always (`event_safe`). -/
theorem everyRowHasAMeaning : Obligations.EveryRowHasAMeaning :=
  ⟨nothingIsRefused, everyRowHasANextState⟩

end Sys2Proof.Machine
end

section
/-! ## Load data return (O19) -/

namespace Sys2Proof.Machine

open Sys2Proof

/-! ### Loaded words -/

/-- The sign-extended low bits of a number are the bit vector of that width, extended. -/
theorem ofInt_sextBits (v n : Nat) : BitVec.ofInt 32 (sextBits v n) = (BitVec.ofNat n v).signExtend 32 := by
  rw [BitVec.signExtend, BitVec.toInt_eq_toNat_cond, BitVec.toNat_ofNat]
  simp [sextBits]

theorem sextBits_getLsbD (v n : Nat) {i : Nat} (hn : 0 < n) (hi : i < 32) :
    (BitVec.ofInt 32 (sextBits v n)).getLsbD i = v.testBit (min i (n - 1)) := by
  rw [ofInt_sextBits, BitVec.getLsbD_signExtend, BitVec.msb_eq_getLsbD_last]
  by_cases h : i < n
  · simp [BitVec.getElem_eq_testBit_toNat, hi, h, show min i (n - 1) = i by omega]
  · simp [BitVec.getElem_eq_testBit_toNat, hi, h, hn, show min i (n - 1) = n - 1 by omega]

theorem w32_div_getLsbD (v k : Nat) {i : Nat} (hi : i < 32) : (w32 (v / 2 ^ (32 * k))).getLsbD i = v.testBit (32 * k + i) := by
  rw [w32, BitVec.getLsbD_ofNat, Nat.testBit_div_two_pow, Nat.add_comm]
  simp [hi]

theorem loadedWords : Claims.LoadedWords := fun v =>
  ⟨rfl, rfl, fun _ hi => sextBits_getLsbD v 8 (by decide) hi, fun _ hi => sextBits_getLsbD v 16 (by decide) hi,
    fun k _ hi => ⟨w32_div_getLsbD v k hi, w32_div_getLsbD v k hi⟩⟩

/-! ### Values into lane registers -/

theorem phys_setPhys (g : Group) (n L : Nat) (v : Word) {r M : Nat} (hL : L < 32) (hM : M < 32) :
    (g.setPhys n L v).phys r M = if r = n ∧ M = L then v else g.phys r M := by
  simp only [Group.setPhys, Group.phys, tget_tset]
  by_cases h : r = n ∧ M = L
  · rw [if_pos (by omega), if_pos h]
  · rw [if_neg (by omega), if_neg h]

/-- Lane `L` of `m` registers from `n` gets the words `w`. -/
def Group.setLane (g : Group) (n m L : Nat) (w : Nat → Word) : Group := (List.range m).foldl (fun g k => g.setPhys (n + k) L (w k)) g

theorem setLane_succ (g : Group) (n m L : Nat) (w : Nat → Word) : g.setLane n (m + 1) L w = (g.setLane n m L w).setPhys (n + m) L (w m) := by
  simp [Group.setLane, List.range_succ]

theorem setLane_eq (g : Group) (n m L : Nat) (w : Nat → Word) : g.setLane n m L w = { g with regs := (g.setLane n m L w).regs } := by
  induction m with
  | zero => rfl
  | succ m ih => rw [setLane_succ, Group.setPhys, ih]

theorem phys_setLane (g : Group) (n m L : Nat) (w : Nat → Word) {r M : Nat} (hL : L < 32) (hM : M < 32) :
    (g.setLane n m L w).phys r M = if M = L ∧ n ≤ r ∧ r < n + m then w (r - n) else g.phys r M := by
  induction m with
  | zero => rw [if_neg (by omega)]; rfl
  | succ m ih =>
    rw [setLane_succ, phys_setPhys _ _ _ _ hL hM, ih]
    by_cases h : r = n + m ∧ M = L
    · rw [if_pos h, if_pos (by omega), h.1, Nat.add_sub_cancel_left]
    · rw [if_neg h]
      by_cases h' : M = L ∧ n ≤ r ∧ r < n + m
      · rw [if_pos h', if_pos (by omega)]
      · rw [if_neg h', if_neg (by omega)]

/-- Every access's lane gets the words of its value. -/
def Group.setLanes (g : Group) (n m : Nat) (w : Acc → Nat → Word) (as : List Acc) : Group := as.foldl (fun g a => g.setLane n m a.lane (w a)) g

theorem setLanes_eq (n m : Nat) (w : Acc → Nat → Word) (as : List Acc) :
    ∀ g : Group, g.setLanes n m w as = { g with regs := (g.setLanes n m w as).regs } := by
  induction as with
  | nil => exact fun _ => rfl
  | cons a as ih =>
    intro g
    show (g.setLane n m a.lane (w a)).setLanes n m w as = { g with regs := ((g.setLane n m a.lane (w a)).setLanes n m w as).regs }
    rw [ih, setLane_eq]

/-- A lane whose access is not among them, and every register beside those written, stays. -/
theorem phys_setLanes_of_ne {n m : Nat} {w : Acc → Nat → Word} {r L : Nat} (hL : L < 32) (as : List Acc) (h32 : ∀ a ∈ as, a.lane < 32)
    (h : (∀ a ∈ as, a.lane ≠ L) ∨ r < n ∨ n + m ≤ r) : ∀ g : Group, (g.setLanes n m w as).phys r L = g.phys r L := by
  induction as with
  | nil => exact fun _ => rfl
  | cons a as ih =>
    intro g
    show ((g.setLane n m a.lane (w a)).setLanes n m w as).phys r L = g.phys r L
    rw [ih (fun b hb => h32 b (by simp [hb])) (h.imp_left fun h b hb => h b (by simp [hb])), phys_setLane _ _ _ _ _ (h32 a (by simp)) hL, if_neg]
    rcases h with h | h
    · exact fun hn => h a (by simp) hn.1.symm
    · omega

theorem phys_setLanes {n m : Nat} {w : Acc → Nat → Word} (as : List Acc) (h32 : ∀ a ∈ as, a.lane < 32) (hd : (as.map fun a => a.lane).Nodup) :
    ∀ g : Group, ∀ a ∈ as, ∀ k, k < m → (g.setLanes n m w as).phys (n + k) a.lane = w a k := by
  induction as with
  | nil => exact fun _ _ h => nomatch h
  | cons b as ih =>
    intro g a ha k hk
    simp only [List.map_cons, List.nodup_cons] at hd
    have htail : ∀ c ∈ as, c.lane < 32 := fun c hc => h32 c (by simp [hc])
    show ((g.setLane n m b.lane (w b)).setLanes n m w as).phys (n + k) a.lane = w a k
    rcases List.mem_cons.1 ha with rfl | ha
    · have hne : ∀ c ∈ as, c.lane ≠ a.lane := fun c hc e => hd.1 (List.mem_map.2 ⟨c, hc, e⟩)
      rw [phys_setLanes_of_ne (h32 a (by simp)) as htail (.inl hne), phys_setLane _ _ _ _ _ (h32 a (by simp)) (h32 a (by simp)), if_pos (by omega),
        Nat.add_sub_cancel_left]
    · exact ih htail hd.2 _ a ha k hk

/-! ### The return -/

/-- With nothing in flight nothing settles. -/
theorem settle_of_ops_nil {s : State} (h : s.ops = []) (n : Nat) : s.settle n = s := by
  induction n with
  | zero => rfl
  | succ n ih => rw [State.settle, h]; exact ih


/-- What a load is: no atomic, no store, no read of another kind. -/
theorem isLoad_facts {i : Instr} (h : i.isLoad = true) : i.atomOp = none ∧ i.isStore = false := by
  cases i <;> first | exact ⟨rfl, rfl⟩ | cases h

/-- A load with every lane ready is performed when its data return. -/
theorem execLoadDataReturn_ready {s : State} {op : Nat} {p : Op} (hops : s.ops = [(op, p)]) (hi : p.instr.isLoad = true) (hst : p.stage = .cleared)
    (hr : ∀ x ∈ p.accs, x.st = .ready) :
    execLoadDataReturn op s =
      .next ((((s.performReady op).writeBack op ((s.performReady op).op op).accs).completeOp op).settle 2) := by
  have hwoken : p.accs.any (s.woken p) = false := by
    rw [List.any_eq_false]
    intro x hx
    simp [State.woken, hr x hx]
  have hhand : p.accs.all Acc.atHand = true := by
    rw [List.all_eq_true]
    intro x hx
    simp [Acc.atHand, hr x hx]
  unfold execLoadDataReturn
  rw [tfind_single hops]
  dsimp only
  split
  · next h => rw [h] at hi; cases hi
  · next h => rw [h] at hi; cases hi
  · rw [if_neg (by simp [hi]), if_pos ⟨hst, hi⟩, if_neg (by simp [mayPerform_single hops]), if_neg (by simp [hwoken]), if_pos hhand]

/-- Performing a load reads every ready lane. -/
theorem performReady_load {s : State} {op : Nat} {p : Op} (hops : s.ops = [(op, p)]) (hi : p.instr.isLoad = true)
    (hr : ∀ x ∈ p.accs, x.st = .ready) :
    s.performReady op = s.setOp op { p with accs := p.accs.map fun a => { a with st := .done (s.accRead a) } } := by
  obtain ⟨ha, hs⟩ := isLoad_facts hi
  have hmap : (p.accs.map fun a => if a.st = .ready ∨ a.st = .zero then { a with st := .done (s.accRead a) } else a) =
      p.accs.map fun a => { a with st := .done (s.accRead a) } := List.map_congr_left fun a h => if_pos (.inl (hr a h))
  simp only [State.performReady, op_single hops, ha, hs, hmap]
  rfl

theorem zipIdx_map_range {α : Type} (f : Nat → α) (m : Nat) : ((List.range m).map f).zipIdx = (List.range m).map fun k => (f k, k) :=
  List.ext_getElem (by simp) fun i h h' => by simp

/-- The values of a load's lanes go to the lanes of its destination registers. -/
theorem writeBack_load {s : State} {op n : Nat} {p : Op} {g : Group} {v : Acc → Nat} (hp : s.op op = p) (hg : s.groups[p.gid]? = some g)
    (hi : p.instr.isLoad = true) (hd : p.dest = (List.range p.instr.lsize.regs).map fun k => .lane (n + k)) (as : List Acc) :
    s.writeBack op (as.map fun a => { a with st := .done (v a) }) =
      s.setGrp p.gid (g.setLanes n p.instr.lsize.regs (fun a k => p.instr.lsize.word (v a) k) as) := by
  have hword : ∀ a k, p.word a k = p.instr.lsize.word a k := fun a k => by rw [Op.word, (isLoad_facts hi).1]
  unfold State.writeBack
  simp only [hp, hd, grp_of_getElem? hg, zipIdx_map_range, List.foldl_map, hword]
  rfl

/-- The group of an operation that completes: it goes on at the next word if it was parked on the operation or held by it. -/
theorem completeOp_grp {s : State} {o : Nat} {p : Op} {g : Group} (h : s.op o = p) (hg : s.groups[p.gid]? = some g) :
    (s.completeOp o).grp p.gid = g.ended p ∨ ∃ i, (s.completeOp o).grp p.gid = (g.ended p).after i := by
  obtain ⟨agenda, he⟩ := endOp_eq s o
  rw [h, grp_of_getElem? hg] at he
  have hx : (s.endOp o).groups[p.gid]? = some (g.ended p) := by
    rw [he]
    simp [lt_of_getElem? hg]
  have hend : (s.endOp o).grp p.gid = g.ended p := grp_of_getElem? hx
  have hafter : ∀ i, ((s.endOp o).setGrp p.gid (((s.endOp o).grp p.gid).after i)).grp p.gid = (g.ended p).after i :=
    fun i => by rw [hend, grp_setGrp_self hx]
  unfold State.completeOp
  simp only [h]
  split
  · split
    · exact .inr ⟨_, hafter _⟩
    · exact .inl hend
  · split
    · exact .inr ⟨_, hafter _⟩
    · exact .inl hend
  · exact .inl hend

/-- An operation that completes leaves its group's registers and control as they are. -/
theorem completeOp_keeps {s : State} {o : Nat} {p : Op} {g : Group} (h : s.op o = p) (hg : s.groups[p.gid]? = some g) :
    g.SameRegs ((s.completeOp o).grp p.gid) := by
  rcases completeOp_grp h hg with e | ⟨i, e⟩ <;> rw [e, ended_eq] <;>
    exact ⟨rfl, rfl, rfl, rfl, rfl, rfl, rfl, rfl, rfl, rfl, rfl, rfl, rfl⟩

/-- Lane registers that get values change nothing else of a group. -/
theorem setLanes_keeps (g : Group) (n m : Nat) (w : Acc → Nat → Word) (as : List Acc) :
    g.SameControl (g.setLanes n m w as) ∧ (g.setLanes n m w as).preds = g.preds ∧ (g.setLanes n m w as).upreds = g.upreds ∧
      (g.setLanes n m w as).uregs = g.uregs := by
  rw [setLanes_eq]
  exact ⟨⟨rfl, rfl, rfl, rfl, rfl, rfl, rfl, rfl, rfl⟩, rfl, rfl, rfl⟩

/-- What a load's end leaves, the values of its lanes being in group `x`. -/
def State.loaded (s : State) (op : Nat) (p : Op) (x : Group) : State :=
  ((s.setOp op { p with accs := p.accs.map fun a => { a with st := .done (s.accRead a) } }).setGrp p.gid x).completeOp op

theorem loaded_keeps {s : State} {op : Nat} {p : Op} {g : Group} (hops : s.ops = [(op, p)]) (hg : s.groups[p.gid]? = some g) (x : Group) :
    (s.loaded op p x).ops = [] ∧ s.Around (s.loaded op p x) p.gid ∧ x.SameRegs ((s.loaded op p x).grp p.gid) := by
  let q : Op := { p with accs := p.accs.map fun a => { a with st := .done (s.accRead a) } }
  let u : State := (s.setOp op q).setGrp p.gid x
  have hq : u.ops = [(op, q)] := by simp [u, hops, tins]
  have hx : u.groups[q.gid]? = some x := setGrp_getElem? (s := s.setOp op q) hg x
  obtain ⟨hend, haround, -⟩ := completeOp_around (op_single hq) hx
  have hkeeps : x.SameRegs ((u.completeOp op).grp q.gid) := completeOp_keeps (op_single hq) hx
  refine ⟨hend.trans ?_, haround.of_setGrp, hkeeps⟩
  rw [hq]
  simp [tdel]

/-- A load with every lane ready answers its values in its destination registers. -/
theorem exec_loadDataReturn {s : State} {op n : Nat} {p : Op} {g : Group} (hops : s.ops = [(op, p)]) (hg : s.groups[p.gid]? = some g)
    (hi : p.instr.isLoad = true) (hst : p.stage = .cleared) (hd : p.dest = (List.range p.instr.lsize.regs).map fun k => .lane (n + k))
    (hr : ∀ x ∈ p.accs, x.st = .ready) : exec (.loadDataReturn op) s =
      .next (s.loaded op p (g.setLanes n p.instr.lsize.regs (fun a k => p.instr.lsize.word (s.accRead a) k) p.accs)) := by
  have hq : (s.setOp op { p with accs := p.accs.map fun a => { a with st := .done (s.accRead a) } }).ops =
      [(op, { p with accs := p.accs.map fun a => { a with st := .done (s.accRead a) } })] := by simp [hops, tins]
  show execLoadDataReturn op s = _
  rw [execLoadDataReturn_ready hops hi hst hr, performReady_load hops hi hr, op_single hq,
    writeBack_load (p := { p with accs := _ }) (op_single hq) hg hi hd, ← settle_of_ops_nil (loaded_keeps hops hg _).1 2]
  rfl

theorem loadDataReturns : Claims.LoadDataReturns := by
  intro s op p g n hops hg hi hst hd hacc hnodup
  have h32 : ∀ x ∈ p.accs, x.lane < 32 := fun x h => (hacc x h).2
  refine ⟨_, exec_loadDataReturn hops hg hi hst hd fun x h => (hacc x h).1, ?_⟩
  generalize hx : g.setLanes n p.instr.lsize.regs (fun a k => p.instr.lsize.word (s.accRead a) k) p.accs = x
  obtain ⟨hends, haround, hregs, huregs, hpreds, hupreds, hcaps, hfmt, hwb, hem, hlive, hlaunch, hhelper, hjoin, htrap⟩ := loaded_keeps hops hg x
  obtain ⟨⟨kcaps, kfmt, kwb, kem, klive, klaunch, khelper, kjoin, ktrap⟩, kpreds, kupreds, kuregs⟩ :=
    hx ▸ setLanes_keeps g n p.instr.lsize.regs (fun a k => p.instr.lsize.word (s.accRead a) k) p.accs
  have hphys : ∀ r L, ((s.loaded op p x).grp p.gid).phys r L = x.phys r L := fun r L => congrArg (fun m => tget 0 m (32 * r + L)) hregs
  refine ⟨by rw [hends]; rfl, haround, ⟨hcaps.trans kcaps, hfmt.trans kfmt, hwb.trans kwb, hem.trans kem, hlive.trans klive,
    hlaunch.trans klaunch, hhelper.trans khelper, hjoin.trans kjoin, htrap.trans ktrap⟩, fun a ha k hk => ?_, fun r L hL h => ?_,
    hpreds.trans kpreds, hupreds.trans kupreds, huregs.trans kuregs⟩
  · rw [hphys, ← hx]
    exact phys_setLanes p.accs h32 hnodup g a ha k hk
  · rw [hphys, ← hx]
    exact phys_setLanes_of_ne hL p.accs h32 h g

/-- Settles O19: `loadDataReturns` for the return, `loadedWords` for the words of a value. -/
theorem loadsReturn : Obligations.LoadsReturn :=
  ⟨loadDataReturns, loadedWords⟩

end Sys2Proof.Machine
end

section
/-! ## Clause fetch (O23) -/

namespace Sys2Proof.Machine

open Sys2Proof

/-- A fetch of a group whose launch goes on. -/
theorem execClauseFetch_fetch {s : State} {n pc : Nat} (hp : (s.grp n).phase = .fetch pc) (hst : (s.glch n).status ≠ 1) :
    exec (.clauseFetch n) s = .next (s.fetchClause n pc) := by
  show execClauseFetch n s = _
  simp only [execClauseFetch, hp, if_neg hst]

/-- A fetch that has read its header and its words. -/
theorem fetchClause_words {s s1 s2 : State} {n pc h : Nat} {ws : List Nat}
    (h1 : (s.withFetchOp n).1.fetchWords n (s.withFetchOp n).2 pc 1 = (s1, .words [h]))
    (h2 : s1.fetchWords n (s.withFetchOp n).2 pc (fld h 7 5 + 2) = (s2, .words (h :: ws))) :
    s.fetchClause n pc = (s2.delOp (s.withFetchOp n).2).fetched n pc h ws := by
  simp only [State.fetchClause, h1, List.getD_cons_zero, h2, List.drop_succ_cons, List.drop_zero]

/-- A trap of a fetch whose group has a handler to enter (R37, R187). -/
theorem fetchTrap_inHandler {s : State} {n : Nat} {g : Group} (hg : s.groups[n]? = some g) (hh : g.trap.handler = false)
    (hl : (s.glch n).lr.handler ≠ 0xFFFFFFFF) (pc : Nat) (t : Trap) :
    (s.fetchTrap n pc t).grp n = g.inHandler t pc .none false (s.glch n).lr.handler ∧ s.SameBytes (s.fetchTrap n pc t) := by
  rw [State.fetchTrap, takeTrap_inHandler hg hh hl]
  exact ⟨grp_of_getElem? (by simp [lt_of_getElem? hg]), rfl, rfl⟩

theorem getElem?_grp {s : State} {n : Nat} (h : n < s.groups.length) : s.groups[n]? = some (s.grp n) := by
  simp [State.grp, List.getD_eq_getElem?_getD, h]

/-- Fetched words with a legal header and transfers placed last become the group's clause (R37, R38). -/
theorem fetched_of_legal {s : State} {h : Nat} {ws : List Nat} (hl : headerLegal h = true) (hm : misplaced 1 ws = none) (n pc : Nat) :
    s.fetched n pc h ws =
      s.setGrp n { s.grp n with clause := ⟨pc, fld h 20 12, fld h 16 4, fld h 12 4, ws⟩, phase := .fetched } := by
  rw [State.fetched, hl, hm]
  rfl

theorem fetched_of_not_legal {h : Nat} (hl : headerLegal h = false) (s : State) (n pc : Nat) (ws : List Nat) :
    s.fetched n pc h ws = s.fetchTrap n pc ((s.grp n).wide 0x02 (w32 h) 0) := by
  rw [State.fetched, hl]
  rfl

theorem fetched_of_misplaced {h k w : Nat} {ws : List Nat} (hl : headerLegal h = true) (hm : misplaced 1 ws = some (k, w)) (s : State) (n pc : Nat) :
    s.fetched n pc h ws = s.fetchTrap n pc ((s.grp n).wide 0x02 (w32 w) (w32 k)) := by
  rw [State.fetched, hl, hm]
  rfl

theorem clauseFetchHoldsTheClause : Claims.ClauseFetchHoldsTheClause := by
  intro s n pc hp hst s0 o s1 s2 h ws h1 h2 hn
  have hx : exec (.clauseFetch n) s = .next ((s2.delOp o).fetched n pc h ws) := by
    rw [execClauseFetch_fetch hp hst, fetchClause_words h1 h2]
  have hg : (s2.delOp o).groups[n]? = some (s2.grp n) := getElem?_grp hn
  refine ⟨fun hl hm => ⟨_, hx, ?_⟩, fun hl hh hr => ⟨_, hx, ?_⟩, fun k w hl hm hh hr => ⟨_, hx, ?_⟩⟩
  · simp only [fetched_of_legal hl hm, grp_setGrp_self hg]
    exact ⟨trivial, trivial, ⟨rfl, rfl, rfl, rfl, rfl, rfl, rfl, rfl, rfl, rfl, rfl, rfl, rfl⟩, rfl, rfl⟩
  · simp only [fetched_of_not_legal hl, (fetchTrap_inHandler hg hh hr ..).1]
    exact ⟨rfl, rfl, rfl, rfl⟩
  · simp only [fetched_of_misplaced hl hm, (fetchTrap_inHandler hg hh hr ..).1]
    exact ⟨rfl, rfl, rfl, rfl⟩

/-- A group of a stopped launch stops at the clause boundary; with nothing in flight, that is all (R158). -/
theorem stopGroup_of_fetch {s : State} {n pc : Nat} {g : Group} (hg : s.groups[n]? = some g) (ho : s.ops = []) (hp : g.phase = .fetch pc) :
    s.stopGroup n = (s.setGrp n (g.finish .stopped)).push (.blockRetire g.blk) := by
  have hgrp : s.grp n = g := grp_of_getElem? hg
  have hpark : s.dropParked n = s := by rw [State.dropParked, hgrp, hp]
  have hdraw : s.withdraw n = s := by
    simp only [State.withdraw, ho, List.filter_nil, List.any_nil, Bool.not_false, List.filter_true, List.foldl_nil]
    rw [← ho]
  have hidle : s.dropIdle n = s := by
    simp only [State.dropIdle, ho, List.filter_nil, List.foldl_nil]
  simp only [State.stopGroup, hpark, hdraw, hidle, hgrp]

/-- The operation that holds a fetch's answers changes neither groups, nor what a group's launch is, nor any byte. -/
theorem withFetchOp_keeps {s u : State} {n o : Nat} (h : s.withFetchOp n = (u, o)) :
    u.groups = s.groups ∧ u.glch n = s.glch n ∧ s.SameBytes u := by
  obtain rfl : (s.withFetchOp n).1 = u := by rw [h]
  unfold State.withFetchOp
  split <;> exact ⟨rfl, rfl, rfl, rfl⟩

/-- The header's fetch that traps: the group enters its handler, and the operation that held the answers is over (R37). -/
theorem fetchClause_traps {s u : State} {n o pc : Nat} {g : Group} {t : Trap} (hw : s.withFetchOp n = (u, o)) (hg : s.groups[n]? = some g)
    (hh : g.trap.handler = false) (hl : (s.glch n).lr.handler ≠ 0xFFFFFFFF) (ht : u.fetchWords n o pc 1 = (u, .trap t)) :
    (s.fetchClause n pc).grp n = g.inHandler t pc .none false (s.glch n).lr.handler ∧ s.SameBytes (s.fetchClause n pc) := by
  obtain ⟨hgroups, hlch, hmem, hblocks⟩ := withFetchOp_keeps hw
  have hfetch : s.fetchClause n pc = (u.delOp o).fetchTrap n pc t := by simp only [State.fetchClause, hw, ht]
  have hlch' : (u.delOp o).glch n = s.glch n := hlch
  obtain ⟨hgrp, hmem', hblocks'⟩ := fetchTrap_inHandler (s := u.delOp o) (hgroups ▸ hg) hh (hlch' ▸ hl) pc t
  rw [hfetch, hgrp, hlch']
  exact ⟨rfl, hmem'.trans hmem, hblocks'.trans hblocks⟩

theorem clauseFetchChecks : Claims.ClauseFetchChecks := by
  intro s n pc g hg ho hp c
  have hgrp : s.grp n = g := grp_of_getElem? hg
  have hph : (s.grp n).phase = .fetch pc := hgrp ▸ hp
  refine ⟨fun hst => ⟨s.stopGroup n, ?_, ?_⟩, fun hst hh hl => ?_⟩
  · show execClauseFetch n s = _
    simp only [execClauseFetch, hph, if_pos hst]
  · rw [stopGroup_of_fetch hg ho hp]
    exact ⟨congrArg Group.phase (grp_setGrp_self hg _), by simp⟩
  · intro traps
    rcases hw : s.withFetchOp n with ⟨u, o⟩
    obtain ⟨hgroups, hlch, -⟩ := withFetchOp_keeps hw
    have hgrpu : u.grp n = g := grp_of_getElem? (hgroups ▸ hg)
    have htraps : ∀ cause val, u.fetchWords n o pc 1 = (u, .trap ⟨cause, w32 val, 0, g.launchAct, []⟩) → traps cause val := by
      intro cause val ht
      obtain ⟨hx, hbytes⟩ := fetchClause_traps hw hg hh hl ht
      refine ⟨_, execClauseFetch_fetch hph hst, ?_⟩
      simp only [hx]
      exact ⟨rfl, rfl, rfl, rfl, rfl, hbytes⟩
    refine ⟨fun hr => htraps _ _ ?_, fun hr hlen => htraps _ _ ?_⟩
    · simp only [State.fetchWords, hlch, hgrpu]
      rw [if_pos hr]
    · simp only [State.fetchWords, hlch, hgrpu]
      rw [if_neg hr, if_pos hlen]

/-- Settles O23: `clauseFetchHoldsTheClause` for words that are read, `clauseFetchChecks` for a fetch that is refused and for a stopped launch. -/
theorem clausesAreFetched : Obligations.ClausesAreFetched :=
  ⟨clauseFetchHoldsTheClause, clauseFetchChecks⟩

end Sys2Proof.Machine
end

section
/-! ## Results of lane instructions: FP32 and packed arithmetic, conversions (O13, O14)

A lane instruction is named by the shared operation that its row runs: `laneWrite`, `lanePred`, `lanePacked` or `laneConvert`. One lemma says of each
what such a row answers, and a row cites it with the equation that its dispatch gives. -/

namespace Sys2Proof.Machine

open Sys2Proof

variable {i : Instr} {s : State} {g : Group} {d a b : RF}

/-- A row that runs `laneWrite` writes what it computes. -/
theorem laneWrites_of_exec {k : Nat} {v : Group → Nat → Nat → Word} (hx : ∀ s, exec i s = laneWrite i s d k v) : LaneWrites i d k v := by
  intro s g h
  obtain ⟨t, ht, hw⟩ := laneWrite_wrote h d k v
  exact ⟨t, (hx s).trans ht, hw⟩

/-- A row that runs `lanePred` writes the predicate it computes. -/
theorem laneTests_of_exec {p : Fin 8} {t : Group → Nat → Bool} (hx : ∀ s, exec i s = lanePred i s p t) : LaneTests i p t := by
  intro s g h
  obtain ⟨u, hu, hw⟩ := lanePred_wrote h p t
  exact ⟨u, (hx s).trans hu, hw⟩

/-- The end of a lane instruction after the write of `k` registers. -/
theorem laneEnd_dsts_wrote (s : State) (g : Group) (d : RF) (k : Nat) (v : Nat → Nat → Word) :
    Wrote s (s.laneEnd s.cur (g.dsts d k v) (g.destRegs d k)) g d k v := by
  refine ⟨(g.dsts d k v).regs, (g.dsts d k v).uregs, ?_, laneRegs_dsts g d k v, uniRegs_dsts g d k v⟩
  have hx : g.dsts d k v = { g with regs := (g.dsts d k v).regs, uregs := (g.dsts d k v).uregs } := dsts_eq g d v (List.range k) g rfl
  exact hx ▸ laneEnd_due s g (g.destRegs d k) (g.dsts d k v).regs (g.dsts d k v).uregs

/-! ### FP32 (O13) -/

/-- An FP32 encoding is a NaN beyond the encoding of infinity (R62). -/
theorem isNan_fp32 (x : Nat) : fp32.isNan x = decide (0x7F800000 < x % 2 ^ 31) := rfl

theorem unlessNan_eq (x y : Word) : unlessNan x y = if 0x7F800000 < x.toNat % 2 ^ 31 then 0x7FC00000 else y := by
  rw [unlessNan, isNan_fp32]
  exact if_congr decide_eq_true_iff rfl rfl

theorem floatResults : Claims.FloatResults := by
  intro d a b
  refine ⟨?fadd, ?fsub, ?fmul, ?ffma, ?ffms, ?fmin, ?fmax, ?fdiv, ?fabs, ?fneg, ?fcpys, ?fcmp, ?frcp, ?frsq, ?fsqrt, ?fexp2, ?flog2, ?fsinpi, ?fcospi,
    ?ftanh, ?frne, ?frtz, ?fflr, ?fceil⟩
  case fcmp => exact fun c p => laneTests_of_exec fun _ => rfl
  case fabs => simpa only [Lane1, unlessNan_eq] using laneWrites_of_exec (i := .fabs d a) fun _ => rfl
  case fneg => simpa only [Lane1, unlessNan_eq] using laneWrites_of_exec (i := .fneg d a) fun _ => rfl
  case fcpys => simpa only [Lane2, unlessNan_eq] using laneWrites_of_exec (i := .fcpys d a b) fun _ => rfl
  all_goals exact laneWrites_of_exec fun _ => rfl

/-- One NaN operand gives the other operand (R254). -/
theorem fminmaxF_one_nan {F : FltFmt} {x y : Nat} (hx : F.isNan x = true) (hy : F.isNan y = false) (greater : Bool) :
    fminmaxF F greater x y = y ∧ fminmaxF F greater y x = y := by
  simp [fminmaxF, hx, hy]

/-- Two NaN operands give the canonical NaN (R254). -/
theorem fminmaxF_two_nans {F : FltFmt} {x y : Nat} (hx : F.isNan x = true) (hy : F.isNan y = true) (greater : Bool) :
    fminmaxF F greater x y = F.nan := by
  simp [fminmaxF, hx, hy]

theorem floatSpecialValues : Claims.FloatSpecialValues := by
  refine ⟨by decide, by decide, fun x y hx hy => ?_, fun x y hx hy => ⟨fminmaxF_two_nans hx hy _, fminmaxF_two_nans hx hy _⟩, ?rest⟩
  · obtain ⟨hlx, hly⟩ := fminmaxF_one_nan hx hy false
    obtain ⟨hgx, hgy⟩ := fminmaxF_one_nan hx hy true
    exact ⟨hlx, hgx, hly, hgy⟩
  case rest => decide

/-- Settles O13: `floatResults` of the rows, `floatSpecialValues` of the functions that they compute. -/
theorem floatResultsAndSpecials : Obligations.FloatResultsAndSpecials := ⟨floatResults, floatSpecialValues⟩

/-! ### Packed arithmetic and conversions (O14) -/

/-- A packed row writes both halves in a format of 16 bits, and traps with 0x17 in any other (R258). -/
theorem lanePacked_answers {f : FltFmt → Nat → Nat → Nat → Nat} (r : Host.Outcome State Fault Refusal) (hx : exec i s = r)
    (hr : r = lanePacked i s d a b f) (h : Issues s g i) :
    let half := fun (r : RF) (L k : Nat) => (g.src r 0 L).toNat / 65536 ^ k % 65536
    (fmtAF g.fmt < 2 → Answers i s fun t => Wrote s t g d 1 fun _ L =>
      let F := if fmtAF g.fmt = 0 then bf16 else fp16
      BitVec.ofNat 32 (f F (half a L 0) (half b L 0) (half d L 0) + 65536 * f F (half a L 1) (half b L 1) (half d L 1))) ∧
    (2 ≤ fmtAF g.fmt → MayTrap s g → Answers i s fun t => TrapsAtWord s t g 0x17 g.fmt 0) := by
  intro half
  refine ⟨fun haf => h.answers r hx hr ?_, fun haf hm => h.traps hm r hx hr ?_⟩
  · simp only [if_pos haf]
    exact laneEnd_dsts_wrote s g d 1 _
  · simp only [if_neg (Nat.not_lt.2 haf)]

theorem packedResults : Claims.PackedResults := by
  intro d a b s g half packed
  have hadd2 := lanePacked_answers (g := g) (execHadd2 d a b s) rfl rfl
  have hmul2 := lanePacked_answers (g := g) (execHmul2 d a b s) rfl rfl
  have hfma2 := lanePacked_answers (g := g) (execHfma2 d a b s) rfl rfl
  have hmin2 := lanePacked_answers (g := g) (execHmin2 d a b s) rfl rfl
  have hmax2 := lanePacked_answers (g := g) (execHmax2 d a b s) rfl rfl
  exact ⟨hadd2, hmul2, hfma2, hmin2, hmax2⟩

/-- A conversion writes its value when its form takes the format register, and traps with 0x17 otherwise (R259). -/
theorem laneConvert_answers {ok : Word → Bool} {v : Block → Group → Nat → Nat} (r : Host.Outcome State Fault Refusal) (hx : exec i s = r)
    (hr : r = laneConvert i s d ok v) (h : Issues s g i) :
    (ok g.fmt = true → Answers i s fun t => Wrote s t g d 1 fun _ L => BitVec.ofNat 32 (v (s.gblk s.cur) g L)) ∧
    (ok g.fmt = false → MayTrap s g → Answers i s fun t => TrapsAtWord s t g 0x17 g.fmt 0) := by
  refine ⟨fun hok => h.answers r hx hr ?_, fun hok hm => h.traps hm r hx hr ?_⟩
  · simp only [if_pos hok]
    exact laneEnd_dsts_wrote s g d 1 _
  · simp only [hok, Bool.false_eq_true, if_false]

theorem conversionResults : Claims.ConversionResults := by
  intro d a b s g writes formed af book
  have cvtfn := laneConvert_answers (g := g) (execCvtfn d a b s) rfl rfl
  have cvtfnt := laneConvert_answers (g := g) (execCvtfnt d a b s) rfl rfl
  have cvtnf := laneConvert_answers (g := g) (execCvtnf d a b s) rfl rfl
  have cvtnfh := laneConvert_answers (g := g) (execCvtnfh d a b s) rfl rfl
  refine ⟨fun m => ?cvtfi, fun m => ?cvtfu, ?cvtif, ?cvtuf, ?cvtfc, ?cvtcf, cvtfn, cvtfnt, cvtnf, cvtnfh⟩
  case cvtfi => exact (laneWrites_of_exec (i := .cvtfi d a m) fun _ => rfl) s g
  case cvtfu => exact (laneWrites_of_exec (i := .cvtfu d a m) fun _ => rfl) s g
  case cvtif => exact (laneWrites_of_exec (i := .cvtif d a) fun _ => rfl) s g
  case cvtuf => exact (laneWrites_of_exec (i := .cvtuf d a) fun _ => rfl) s g
  case cvtfc => exact (laneWrites_of_exec (i := .cvtfc d a) fun _ => rfl) s g
  case cvtcf => exact (laneWrites_of_exec (i := .cvtcf d a b) fun _ => rfl) s g

/-- Settles O14: `packedResults` and `conversionResults`, each row by what its shared operation answers. -/
theorem packedAndConvertedResults : Obligations.PackedAndConvertedResults := ⟨packedResults, conversionResults⟩

end Sys2Proof.Machine
end

section
/-! ## Control and special registers (O10) -/

namespace Sys2Proof.Machine

open Sys2Proof

/-! ### Words that write control registers -/

/-- A word that changes its group alone answers with the changed group at its next word. -/
theorem Issues.groupWord {i : Instr} {s : State} {g : Group} {f : Group → Group} {P : State → Prop} (h : Issues s g i)
    (hx : exec i s = Machine.groupWord i s f) (hP : P (s.setGrp s.cur (f g).next)) : Answers i s P :=
  h.answers _ hx rfl hP

/-- The lanes of a predicate, inverted or not. -/
theorem getLsbD_predLanes (g : Group) (inv : Bool) (p L : Nat) (hL : L < 32) : (g.predLanes inv p).getLsbD L = ((g.pred p).getLsbD L ^^ inv) := by
  cases inv <;> simp [Group.predLanes, hL]

/-- An FMTS source is legal when bits [31:19] are zero (R73). -/
theorem fmtLegal_iff (f : Word) : fmtLegal f = true ↔ f.toNat < 2 ^ 19 := by
  rw [fmtLegal, beq_iff_eq, Nat.div_eq_zero_iff_lt (by decide)]

/-- A write of uniform predicate `q` changes no other, and is discarded for q7 (R244). -/
theorem setUpred_writes (g : Group) (q : Nat) (b : Bool) :
    ∃ u, g.setUpred q b = { g with upreds := u } ∧ (∀ k, k ≠ q → tget false u k = tget false g.upreds k) ∧ (q = 7 → u = g.upreds) ∧
      (q ≠ 7 → tget false u q = b) := by
  by_cases hq : q = 7
  · exact ⟨g.upreds, if_pos hq, fun _ _ => rfl, fun _ => rfl, fun h => absurd hq h⟩
  · exact ⟨_, if_neg hq, fun _ hk => tget_tset_ne _ _ _ _ _ hk, fun h => absurd h hq, fun _ => tget_tset_self ..⟩

/-- A write of trap register `n` shapes its value as R194 states and changes no other trap register. -/
theorem writeTrap_trap (g : Group) (n : Nat) (v : Word) (h17 : 17 ≤ n) (h21 : n ≤ 21) :
    (g.writeTrap n v).trap =
      { g.trap with
        tem := if n = 17 then v &&& g.lanes.launch else g.trap.tem
        tfm := if n = 18 then v &&& g.lanes.launch else g.trap.tfm
        tpc := if n = 19 then v &&& 0xFFFFFFFC else g.trap.tpc
        tcause := if n = 20 then v &&& 0xFF else g.trap.tcause
        tval := if n = 21 then v else g.trap.tval
        tpcWritten := n == 19 || g.trap.tpcWritten } := by
  obtain rfl | rfl | rfl | rfl | rfl : n = 17 ∨ n = 18 ∨ n = 19 ∨ n = 20 ∨ n = 21 := by omega
  all_goals rfl

/-- SWR of a register that may be written, in handler mode, writes it (R196). -/
theorem execSwr_next {s : State} {g : Group} {a : RF} {n : Fin 30} (h : Issues s g (.swr a n)) (h17 : 17 ≤ n.val) (h21 : n.val ≤ 21)
    (hh : g.trap.handler = true) : execSwr a n s = .next (s.setGrp s.cur (g.writeTrap n.val (g.usrc a)).next) :=
  issueChecked_next h _ (by simp only [if_neg (show ¬(n.val < 17 ∨ 21 < n.val) by omega), if_pos hh]) _

theorem controlRegistersAreWritten : Claims.ControlRegistersAreWritten := by
  intro s g
  refine ⟨fun n h hn => ?wbase, fun a h => ?mwr, fun inv p h => ?mand, fun a h ha => ?fmts, fun c q a b h => ?ucmp, fun a n h h17 h21 hh => ?swr⟩
  case wbase =>
    refine h.answers (execWbase n s) rfl rfl ?_
    simp only [if_neg (Nat.not_le.2 hn)]
    rfl
  case mwr => exact h.groupWord rfl ⟨_, rfl, rfl⟩
  case mand =>
    refine h.groupWord rfl ⟨g.lanes.em &&& g.predLanes inv p.val, rfl, fun L hL => ?_⟩
    rw [BitVec.getLsbD_and, getLsbD_predLanes g inv p.val L hL]
  case fmts =>
    refine h.answers (execFmts a s) rfl rfl ?_
    simp only [if_pos ((fmtLegal_iff _).2 ha)]
    rfl
  case ucmp =>
    obtain ⟨u, hu, hothers, hseven, hone⟩ := setUpred_writes g q.val (c.holds (g.usrc a) (g.usrc b))
    refine h.groupWord rfl ⟨u, ?_, hothers, hseven, hone⟩
    simp only [hu]
    rfl
  case swr =>
    refine ⟨_, execSwr_next h h17 h21 hh, _, rfl, ?_⟩
    rw [writeTrap_trap g n.val _ h17 h21]
    exact ⟨rfl, rfl, rfl, rfl, rfl, rfl, rfl, rfl, hh⟩

/-! ### Words that read control registers -/

/-- One value to a field: every active lane of a lane register, or a uniform register whatever lanes are active (R195, R203). -/
theorem bcast_writes (g : Group) (d : RF) (v : Word) :
    ∃ regs uregs, g.bcast d v = { g with regs := regs, uregs := uregs } ∧ LaneRegs g d 1 (fun _ _ => v) regs ∧
      ∀ n, tget 0 uregs n = if 96 ≤ d.val ∧ d.val < 127 ∧ n = d.val - 96 then v else g.uni n := by
  by_cases hl : d.val < 96
  · refine ⟨(g.dst d 0 fun _ => v).regs, g.uregs, ?_, laneRegs_dsts g d 1 _, fun n => ?_⟩
    · simp only [Group.bcast, Group.dst, if_pos hl]
    · rw [if_neg (by omega)]
      rfl
  · refine ⟨g.regs, (g.udst d 0 v).uregs, ?_, fun n L _ => ?_, fun n => ?_⟩
    · simp only [Group.bcast, Group.udst, if_neg hl]
      split <;> rfl
    · rw [if_neg (by omega)]
      rfl
    · by_cases hu : 96 ≤ d.val ∧ d.val < 127
      · simp only [Group.udst, if_pos hu, Group.setUni, tget_tset, Nat.add_zero]
        exact if_congr (by omega) rfl rfl
      · simp only [Group.udst, if_neg hu]
        rw [if_neg (by omega)]
        rfl

/-- A group whose field takes one value, and which goes on, has read that value. -/
theorem setGrp_bcast_readsOne (s : State) (g : Group) (d : RF) (v : Word) : ReadsOne s (s.setGrp s.cur (g.bcast d v).next) g d v := by
  obtain ⟨regs, uregs, hb, hlane, huni⟩ := bcast_writes g d v
  refine ⟨regs, uregs, ?_, hlane, huni⟩
  rw [hb]
  rfl

/-- SRD of a register that has a value for each lane writes each lane's own. -/
theorem setGrp_dst_writes (s : State) (g : Group) (d : RF) (v : Nat → Word) :
    ∃ regs uregs, OnlyGroup s (s.setGrp s.cur (g.dst d 0 v).next) { g.onward with regs := regs, uregs := uregs } ∧
      LaneRegs g d 1 (fun _ => v) regs ∧ UniRegs g d 1 (fun _ => v) uregs := by
  refine ⟨(g.dst d 0 v).regs, (g.dst d 0 v).uregs, ?_, laneRegs_dsts g d 1 _, uniRegs_dsts g d 1 _⟩
  have hd := dst_eq g d 0 v
  generalize g.dst d 0 v = x at hd ⊢
  rw [hd]
  rfl

theorem perLane_iff (n : Nat) : perLane n = true ↔ n = 0 ∨ n = 1 ∨ n = 23 := by
  simp [perLane, or_assoc]

theorem controlRegistersAreRead : Claims.ControlRegistersAreRead := by
  intro s g
  refine ⟨fun d h => ?mrd, fun d h => ?hrd, fun d h => ?fmtr, fun d n h h0 h1 h23 h9 h11 => ?one, fun d n h hn => ?lanes, fun d n h hn => ?clocklo,
    fun d n h hn => ?tick⟩
  case mrd | hrd | fmtr => exact h.groupWord rfl (setGrp_bcast_readsOne s g d _)
  case one =>
    refine h.answers (execSrd d n s) rfl rfl ?_
    have hp : ¬perLane n.val = true := by rw [perLane_iff]; omega
    simp only [if_neg h11, if_neg h9, if_neg hp]
    exact setGrp_bcast_readsOne s g d _
  case lanes =>
    refine h.answers (execSrd d n s) rfl rfl ?_
    have h11 : ¬n.val = 11 := by omega
    have h9 : ¬n.val = 9 := by omega
    simp only [if_neg h11, if_neg h9, if_pos ((perLane_iff _).2 hn)]
    exact setGrp_dst_writes s g d _
  case clocklo =>
    refine h.answers (execSrd d n s) rfl rfl ?_
    have h11 : ¬n.val = 11 := by omega
    simp only [if_neg h11, if_pos hn]
    exact setGrp_bcast_readsOne s.draw { g with clockHi := _ } d _
  case tick =>
    refine h.answers (execSrd d n s) rfl rfl ?_
    simp only [if_pos hn]
    exact ⟨(issuedOp_inFlight h.1.1 ⟨rfl, rfl, rfl, rfl⟩ fun _ => rfl).push _, by simp⟩

/-! ### The special registers -/

/-- The sum of distinct powers of two for the indices below `n` whose count is not zero: bit `i` tells whether the count of `i` is not zero. -/
theorem foldl_twoPow_testBit (f : Nat → Nat) (n : Nat) :
    let t := (List.range n).foldl (fun t i => if f i = 0 then t else t + 2 ^ i) 0
    t < 2 ^ n ∧ ∀ i, i < n → t.testBit i = decide (f i ≠ 0) := by
  induction n with
  | zero => exact ⟨Nat.zero_lt_one, fun i h => absurd h (Nat.not_lt_zero i)⟩
  | succ n ih =>
    obtain ⟨hlt, hbit⟩ := ih
    simp only [List.range_succ, List.foldl_append, List.foldl_cons, List.foldl_nil]
    generalize (List.range n).foldl (fun t i => if f i = 0 then t else t + 2 ^ i) 0 = t at hlt hbit ⊢
    have htop : t.testBit n = false := Nat.testBit_lt_two_pow hlt
    have hpow : 2 ^ (n + 1) = 2 ^ n + 2 ^ n := by rw [pow_succ, Nat.mul_two]
    by_cases hf : f n = 0
    · rw [if_pos hf]
      refine ⟨by omega, fun i hi => ?_⟩
      obtain hin | rfl := Nat.lt_succ_iff_lt_or_eq.1 hi
      · exact hbit i hin
      · simp [htop, hf]
    · rw [if_neg hf, Nat.add_comm]
      refine ⟨by omega, fun i hi => ?_⟩
      obtain hin | rfl := Nat.lt_succ_iff_lt_or_eq.1 hi
      · rw [Nat.testBit_two_pow_add_gt hin, hbit i hin]
      · simp [Nat.testBit_two_pow_add_eq, htop, hf]

/-- FLAGS: bit i below 12 for a completion flag that is not clear, bit 16 for handler mode, bit 17 for a deferred trap (R194). -/
theorem flagsReg_getLsbD (g : Group) :
    (∀ i, i < 12 → g.flagsReg.getLsbD i = decide (g.flagOf i ≠ 0)) ∧ g.flagsReg.getLsbD 16 = g.trap.handler ∧
      g.flagsReg.getLsbD 17 = g.trap.tdef := by
  obtain ⟨hlt, hbit⟩ := foldl_twoPow_testBit g.flagOf 12
  have hreg : g.flagsReg = w32 (2 ^ 12 * (16 * g.trap.handler.toNat + 32 * g.trap.tdef.toNat) +
      (List.range 12).foldl (fun t i => if g.flagOf i = 0 then t else t + 2 ^ i) 0) := by
    rw [Group.flagsReg, Nat.add_assoc, Nat.add_comm]
    cases g.trap.handler <;> cases g.trap.tdef <;> rfl
  rw [hreg]
  simp only [w32, BitVec.getLsbD_ofNat, Nat.testBit_two_pow_mul_add _ hlt]
  refine ⟨fun i hi => ?_, ?_, ?_⟩
  · rw [if_pos hi, hbit i hi, decide_eq_true (by omega), Bool.true_and]
  · cases g.trap.handler <;> cases g.trap.tdef <;> rfl
  · cases g.trap.handler <;> cases g.trap.tdef <;> rfl

theorem specialRegisterMap : Claims.SpecialRegisterMap := by
  intro s n L _ g b c l
  have hrev : (s.special n 27 L).toNat = 1 + Config.revisionStep.val := by
    have := Config.revisionStep.isLt
    exact Nat.mod_eq_of_lt (by omega)
  obtain ⟨hflags, hhandler, htdef⟩ := flagsReg_getLsbD g
  refine ⟨rfl, rfl, rfl, rfl, rfl, rfl, rfl, rfl, rfl, rfl, rfl, rfl, rfl, rfl, rfl, rfl, rfl, ?_, ?_, rfl, hflags, hhandler, htdef⟩
  · omega
  · omega

/-- Settles O10: `controlRegistersAreWritten` and `controlRegistersAreRead` of the words, `specialRegisterMap` of what SRD reads. -/
theorem controlRegisters : Obligations.ControlRegisters := ⟨controlRegistersAreWritten, controlRegistersAreRead, specialRegisterMap⟩

end Sys2Proof.Machine
end

section
/-! ## What the agents at the homes leave alone

The agents that act at the homes (R30) read and write memory, tear down the trees of its lines, and keep the sequences, the free lists and the error log.
Of the program's own state they change nothing. For each function of theirs there is one lemma `State.AtHome.f`, and the lemmas chain as the model's own
text does. -/

namespace Sys2Proof.Machine

open Sys2Proof

/-- Groups, blocks, courses, launches, the operations in flight, and the dies out of service. -/
def State.work (s : State) : List Group × List Block × List Course × List Launch × SMap Op × List Nat :=
  (s.groups, s.blocks, s.courses, s.launches, s.ops, s.le.deadDies)

/-- From `s` to `t` agents at the homes have worked: the program's own state is as before. -/
def State.AtHome (s t : State) : Prop := t.work = s.work

namespace State.AtHome

variable {s t : State}

theorem refl (s : State) : s.AtHome s := rfl

theorem trans {u : State} (h : s.AtHome t) (h' : t.AtHome u) : s.AtHome u := Eq.trans h' h

theorem fields (h : s.AtHome t) : t.groups = s.groups ∧ t.blocks = s.blocks ∧ t.courses = s.courses ∧ t.launches = s.launches ∧ t.ops = s.ops ∧
    t.le.deadDies = s.le.deadDies := by
  simpa only [State.AtHome, State.work, Prod.mk.injEq] using h

theorem ite {c : Prop} [Decidable c] {a b : State} (ha : s.AtHome a) (hb : s.AtHome b) : s.AtHome (if c then a else b) := by
  split
  · exact ha
  · exact hb

theorem foldl {α : Type} {f : State → α → State} {l : List α} (h : s.AtHome t) (hf : ∀ u x, s.AtHome u → s.AtHome (f u x)) :
    s.AtHome (l.foldl f t) :=
  List.foldlRecOn l f h fun u hu x _ => hf u x hu

theorem foldlFst {α β : Type} {f : State × β → α → State × β} {l : List α} {p : State × β} (h : s.AtHome p.1)
    (hf : ∀ u x, s.AtHome u.1 → s.AtHome (f u x).1) : s.AtHome (l.foldl f p).1 :=
  List.foldlRecOn (motive := fun p => s.AtHome p.1) l f h fun u hu x _ => hf u x hu

theorem of_eq {β : Type} {p : State × β} {r : β} (h : s.AtHome p.1) (e : p = (t, r)) : s.AtHome t := by
  subst e
  exact h

/-- The fields that no part of `State.work` names may be anything. -/
theorem frame {agenda sched cur turn stuck free tick mem nextOp seqWait cores ctxs le slices fab link mg cnt} (h : s.AtHome t)
    (hle : le.deadDies = t.le.deadDies) :
    s.AtHome (State.mk agenda sched cur turn stuck free tick mem t.groups t.blocks t.courses t.launches t.ops nextOp seqWait cores ctxs le slices fab
      link mg cnt) := by
  unfold State.AtHome State.work at h ⊢
  rw [← h, hle]

theorem push {e : Event} (h : s.AtHome t) : s.AtHome (t.push e) := h.frame rfl

theorem count {b i k n : Nat} (h : s.AtHome t) : s.AtHome (t.count b i k n) := h.frame rfl

theorem setSlice {m : Nat} {x : Slice} (h : s.AtHome t) : s.AtHome (t.setSlice m x) := h.frame rfl

theorem setLine {core a l : Nat} {x : CLine} (h : s.AtHome t) : s.AtHome (t.setLine core a l x) := h.frame rfl

/-! ### Caches -/

theorem dropLine {core a l tag by_ : Nat} (h : s.AtHome t) : s.AtHome (t.dropLine core a l tag by_) := h.setLine.push.ite h.setLine.push

theorem fillL2 {l sector : Nat} {stream dirty : Bool} {by_ : Nat} (h : s.AtHome t) : s.AtHome (t.fillL2 l sector stream dirty by_) := h.setSlice

theorem allocL2 {a n : Nat} {stream : Bool} {by_ : Nat} (h : s.AtHome t) : s.AtHome (t.allocL2 a n stream by_) :=
  h.ite (h.foldl fun _ _ hu => hu.fillL2)

theorem touch {a n : Nat} (h : s.AtHome t) : s.AtHome (t.touch a n) := by
  unfold State.touch
  refine h.foldl fun _ _ hu => hu.foldl fun _ _ hv => ?_
  split
  · exact hv.push.ite hv
  · exact hv

theorem tearLine {l : Nat} (h : s.AtHome t) : s.AtHome (t.tearLine l) := by
  unfold State.tearLine
  extract_lets d watched filled _ cleared rerun _ _ u
  have hf : s.AtHome filled := h.foldl fun _ _ hv => hv.fillL2.ite hv
  have hc : s.AtHome cleared := hf.foldl fun _ _ hv => hv.foldl fun _ _ hw => hw.ite hw.setLine
  have hr : s.AtHome rerun := hc.foldl fun _ _ hv => hv.push
  have hu : s.AtHome u := (hr.frame rfl).foldl fun _ _ hv => hv.push
  exact hu.touch.ite hu

theorem tearRange {a n : Nat} (h : s.AtHome t) : s.AtHome (t.tearRange a n) := h.foldl fun _ _ hu => hu.tearLine

/-! ### The port -/

theorem pwrite {a n v : Nat} (h : s.AtHome t) : s.AtHome (t.pwrite a n v) := (h.frame rfl).ite (h.frame rfl)

theorem cleanSectors {a n : Nat} (h : s.AtHome t) : s.AtHome (t.cleanSectors a n) := h.frame rfl

theorem homeWant {a n : Nat} {write : Bool} (h : s.AtHome t) : s.AtHome (t.homeWant a n write) := h.ite (h.frame rfl)

theorem putEntry {ctx a e : Nat} (h : s.AtHome t) : s.AtHome (t.putEntry ctx a e) := by
  unfold State.putEntry
  extract_lets u
  have hu : s.AtHome u := h.frame rfl
  split
  · exact hu.homeWant.tearLine.touch
  · exact hu

theorem zeroFrame {adr mt pfn : Nat} (h : s.AtHome t) : s.AtHome (t.zeroFrame adr mt pfn) := by
  unfold State.zeroFrame
  split
  · exact (h.frame rfl).cleanSectors
  · exact h.foldl fun _ _ hu => hu.frame rfl
  · exact h

theorem dropPage {m ctx n page : Nat} (h : s.AtHome t) : s.AtHome (t.dropPage m ctx n page) := h.setSlice

theorem portObj {m ctx n : Nat} (h : s.AtHome t) : s.AtHome (t.portObj m ctx n).1 := by
  unfold State.portObj
  extract_lets x o
  split
  · exact h
  · split
    · exact h.setSlice
    · exact h

theorem portPage {m ctx n page pmap : Nat} (h : s.AtHome t) : s.AtHome (t.portPage m ctx n page pmap).1 := by
  unfold State.portPage
  extract_lets x e u
  split
  · exact h
  · split
    · exact h.count.setSlice
    · exact h.count

theorem portHead {ctx adr : Nat} {gen : Option Nat} (h : s.AtHome t) : s.AtHome (t.portHead ctx adr gen).1 := by
  dsimp only [State.portHead]
  split
  · exact h
  · split
    · exact h.portObj
    · split <;> exact h.portObj

theorem hpol {m e : Nat} {o : ObjRaw} (h : s.AtHome t) : s.AtHome (t.hpol m e o) := h.count.ite h

theorem frameThere {mt pfn : Nat} (h : s.AtHome t) : s.AtHome (t.frameThere mt pfn) := (h.frame rfl).ite h

/-- By induction on the tries left: the port tries again after it drops a page entry that memory no longer gives. -/
theorem portTry {ctx adr : Nat} {gen : Option Nat} {k : PKind} {fuel : Nat} (h : s.AtHome t) : s.AtHome (t.portTry ctx adr gen k fuel).1 := by
  induction fuel generalizing t with
  | zero => exact h
  | succ fuel ih =>
    unfold State.portTry
    extract_lets m n off
    split
    · next e => exact h.portHead.of_eq e
    next e =>
    have hu := h.portHead.of_eq e
    split
    · split
      · exact hu.hpol
      · exact hu
    split
    next v e' hp =>
    have hv : s.AtHome v := hu.portPage.of_eq hp
    split
    · exact hv
    split
    · exact hv
    split
    · exact hv
    extract_lets pfn pa w peer needA needD dead a x e₁ x₁ x₂ y x₃
    have hw : s.AtHome w := hv.hpol.frameThere
    split
    · exact hw
    split
    · split
      · exact ih hw.count.dropPage
      · exact (hw.count.zeroFrame.ite hw.count).putEntry.dropPage.setSlice
    · exact hw

theorem portCheck {ctx adr : Nat} {gen : Option Nat} {k : PKind} (h : s.AtHome t) : s.AtHome (t.portCheck ctx adr gen k).1 := h.portTry

theorem owrite {ctx obj off n v : Nat} (h : s.AtHome t) : s.AtHome (t.owrite ctx obj off n v) := by
  -- Unfolded by its own equation lemma, `owrite` makes the kernel evaluate the port check too deep.
  rw [show @State.owrite = delta% @State.owrite from rfl]
  beta_reduce
  extract_lets a
  split
  · next e => exact (h.portCheck.of_eq e).homeWant.tearRange.pwrite.cleanSectors.allocL2.touch
  · next e => exact h.portCheck.of_eq e

/-! ### The error log -/

theorem logPut {l : ErrLog} {i bits : Nat} (h : s.AtHome t) : s.AtHome (t.logPut l i bits) :=
  h.portCheck.homeWant.tearRange.pwrite.cleanSectors.allocL2.touch

theorem logErr {srck srci cls code adr ctx : Nat} {ctx2 : Option Nat} {detail : Nat} (h : s.AtHome t) :
    s.AtHome (t.logErr srck srci cls code adr ctx ctx2 detail) :=
  ((h.frame rfl).ite (h.frame rfl).count).ite ((h.logPut.frame rfl).ite (h.frame rfl).count)

/-! ### Sequences, bricks and free lists -/

theorem hwrite {ctx obj off n v : Nat} (h : s.AtHome t) : s.AtHome (t.hwrite ctx obj off n v) := h.owrite

theorem hstore {ctx obj off : Nat} {bs : List Nat} (h : s.AtHome t) : s.AtHome (t.hstore ctx obj off bs) := h.foldl fun _ _ hu => hu.hwrite

theorem imageHeader {c flags : Nat} (h : s.AtHome t) : s.AtHome (t.imageHeader c flags) := by
  unfold State.imageHeader
  extract_lets x l
  split
  · exact h
  · exact h.hstore

theorem seqPut {c k : Nat} {q : SeqD} (h : s.AtHome t) : s.AtHome (t.seqPut c k q) := ((h.frame rfl).ite h).hwrite

theorem flPut {c f : Nat} {x : FreeL} (h : s.AtHome t) : s.AtHome (t.flPut c f x) := h.hwrite

theorem brPut {c pool b : Nat} {x : Brick} (h : s.AtHome t) : s.AtHome (t.brPut c pool b x) := h.hwrite

theorem setEntry {c n i e : Nat} (h : s.AtHome t) : s.AtHome (t.setEntry c n i e) := h.hwrite

theorem flTake {c f : Nat} (h : s.AtHome t) : s.AtHome (t.flTake c f).1 := h.flPut.brPut

theorem seqAgain {c : Nat} (h : s.AtHome t) : s.AtHome (t.seqAgain c) := h.foldl fun _ _ hu => hu.push

theorem flGive {c f b : Nat} (h : s.AtHome t) : s.AtHome (t.flGive c f b) := h.brPut.flPut.seqAgain

theorem newNode {c : Nat} (h : s.AtHome t) : s.AtHome (t.newNode c).1 := h.flTake.hwrite

theorem growMap {c n : Nat} {q : SeqD} (h : s.AtHome t) : s.AtHome (t.growMap c q n).1 := by
  induction n generalizing t q with
  | zero => exact h
  | succ n ih => exact ih h.newNode.setEntry

theorem descend {c n k j : Nat} (h : s.AtHome t) : s.AtHome (t.descend c n k j).1 := by
  induction j using Nat.twoStepInduction generalizing t n with
  | zero => exact h
  | one => exact h
  | more j _ ih =>
    unfold State.descend
    extract_lets i e
    split
    · exact ih h
    · exact ih h.newNode.setEntry

theorem mapEnter {c : Nat} {q : SeqD} {x : Held} (h : s.AtHome t) : s.AtHome (t.mapEnter c q x).1 := by
  unfold State.mapEnter
  refine setEntry (descend ?_)
  split
  · exact h.newNode
  · exact h.growMap

theorem dropFrom {c n k j : Nat} (h : s.AtHome t) : s.AtHome (t.dropFrom c n k j).1 := by
  induction j generalizing t n with
  | zero => exact h
  | succ j ih =>
    unfold State.dropFrom
    extract_lets i e u
    split
    · exact h
    split
    · exact h.setEntry
    split
    · next e => exact ((ih h).of_eq e).setEntry.flGive
    · next e => exact (ih h).of_eq e

theorem mapDrop {c k : Nat} {q : SeqD} (h : s.AtHome t) : s.AtHome (t.mapDrop c q k).1 := by
  unfold State.mapDrop
  split
  · next e => exact (h.dropFrom.of_eq e).flGive
  · next e => exact h.dropFrom.of_eq e

theorem place {c k x : Nat} {q : SeqD} (h : s.AtHome t) : s.AtHome (t.place c k q x).1 := by
  unfold State.place
  extract_lets y p u
  have hu : s.AtHome u := by
    unfold u
    split
    · exact h.brPut
    · exact h
  split
  next v q' e =>
  have hv : s.AtHome v := by
    split at e
    · exact hu.flTake.mapEnter.of_eq e
    · exact of_eq hu e
  exact (hv.logErr.count.ite hv).brPut

theorem places {c k : Nat} {q : SeqD} {xs : List Nat} (h : s.AtHome t) : s.AtHome (t.places c k q xs).1 := h.foldlFst fun _ _ hu => hu.place

theorem reserveAll {c k : Nat} {xs : List Nat} (h : s.AtHome t) : s.AtHome (t.reserveAll c k xs).1 := by
  dsimp only [State.reserveAll]
  split
  · exact h
  split
  · exact h
  split
  · exact h
  split
  · exact h
  · exact h.places.seqPut

theorem brickRelease {c k b : Nat} {q : SeqD} (h : s.AtHome t) : s.AtHome (t.brickRelease c k q b) := h.brPut.flGive.count.ite h.brPut

theorem advanceWindow {c k : Nat} {q : SeqD} (h : s.AtHome t) : s.AtHome (t.advanceWindow c k q).1 := by
  unfold State.advanceWindow
  refine h.foldlFst fun _ _ hu => ?_
  split
  · exact hu.mapDrop.brickRelease
  · exact hu

theorem queueWork {c k : Nat} (h : s.AtHome t) : s.AtHome (t.queueWork c k) := by
  unfold State.queueWork
  extract_lets mine f le u
  have hu : s.AtHome u := h.frame rfl
  exact hu.foldl fun _ _ hv => hv.push

theorem commitAt {c k p m : Nat} (h : s.AtHome t) : s.AtHome (t.commitAt c k p m) := by
  unfold State.commitAt
  extract_lets q u r
  have hu : s.AtHome u := by
    refine h.foldl fun _ _ hv => ?_
    split
    · exact hv.brPut
    · exact hv
  exact hu.advanceWindow.seqPut.seqAgain.queueWork.ite hu.advanceWindow.seqPut.seqAgain

theorem appendRec {c k o : Nat} {bs : List Nat} (h : s.AtHome t) : s.AtHome (t.appendRec c k o bs).1 := by
  unfold State.appendRec
  split
  · exact h
  split
  · next e => exact (h.reserveAll.of_eq e).hstore.commitAt.count
  · exact h.reserveAll

/-! ### Completion counters -/

theorem askTokens {ctx i : Nat} (h : s.AtHome t) : s.AtHome (t.askTokens ctx i) := by
  unfold State.askTokens
  refine h.foldl fun _ _ hu => ?_
  split
  · exact hu.push.ite hu
  · exact hu

theorem countDone {ctx i target : Nat} {err : Bool} (h : s.AtHome t) : s.AtHome (t.countDone ctx i target err) := by
  unfold State.countDone
  extract_lets c k
  split
  next n rest _ =>
  extract_lets u v
  have hu : s.AtHome u := h.frame rfl
  have hv : s.AtHome v := hu.hwrite.askTokens
  exact hv.foldl fun _ _ hw => hw.push.ite hw

end State.AtHome

end Sys2Proof.Machine
end

section
/-! ## Launches complete, blocks retire (O41) -/

namespace Sys2Proof.Machine

open Sys2Proof

/-! ### Launches -/

theorem lch_of_getElem? {s : State} {k : Nat} {l : Launch} (h : s.launches[k]? = some l) : s.lch k = l := by
  simp [State.lch, List.getD_eq_getElem?_getD, h]

theorem lch_setLch (s : State) (j k : Nat) (l : Launch) : (s.setLch j l).lch k = if k = j ∧ j < s.launches.length then l else s.lch k := by
  simp only [State.lch, State.setLch_launches, List.getD_eq_getElem?_getD, List.getElem?_set]
  by_cases hk : j = k
  · subst hk
    by_cases hl : j < s.launches.length <;> simp [hl]
  · simp [hk, Ne.symm hk]

/-- A launch that is finished has its record appended, or dropped and logged, before it is marked complete and counted (R156, R157). -/
theorem finishLaunch_some {s u : State} {k : Nat} (h : s.finishLaunch k = some u) :
    ∃ v, s.AtHome v ∧ (v.setLch k { v.lch k with st := .complete }).AtHome u := by
  unfold State.finishLaunch at h
  extract_lets l status app at h
  obtain ⟨v, hv, hu⟩ := Option.map_eq_some_iff.1 h
  refine ⟨v, ?_, ?_⟩
  · unfold app at hv
    split at hv
    · split at hv
      · next e =>
        cases hv
        exact ((State.AtHome.refl s).appendRec.of_eq e).frame rfl
      · cases hv
      · cases hv
        exact (State.AtHome.refl s).logErr
    · cases hv
      exact .refl s
  · subst hu
    have hr : (v.setLch k { v.lch k with st := .complete }).AtHome (v.setLch k { v.lch k with st := .complete }) := .refl _
    exact (hr.count.ite hr).countDone.ite (hr.count.ite hr)

/-- A finished launch is complete. -/
theorem finishLaunch_complete {s u : State} {k : Nat} (hk : k < s.launches.length) (h : s.finishLaunch k = some u) : (u.lch k).st = .complete := by
  obtain ⟨v, hv, hu⟩ := finishLaunch_some h
  obtain ⟨-, -, -, hlv, -⟩ := hv.fields
  obtain ⟨-, -, -, hlu, -⟩ := hu.fields
  have hlch : u.lch k = (v.setLch k { v.lch k with st := .complete }).lch k := by rw [State.lch, hlu]; rfl
  rw [hlch, lch_setLch, if_pos ⟨rfl, hlv ▸ hk⟩]

theorem fld_one (n i : Nat) : fld n i 1 = n / 2 ^ i % 2 := rfl

/-- A launch without failure, completion sequence or counter only becomes complete. -/
theorem finishLaunch_plain {s : State} {k : Nat} {l : Launch} (hl : s.launches[k]? = some l) (hb : l.broken = false) (hs : l.status ≠ 3)
    (hf : l.flag 5 = false) (hc : l.lr.cctr < 128) : s.finishLaunch k = some { s with launches := s.launches.set k { l with st := .complete } } := by
  have h5 : ¬ fld l.lr.flags 5 1 = 1 := by simpa [Launch.flag, fld_one] using hf
  have h7 : ¬ fld l.lr.cctr 7 1 = 1 := by rw [fld_one]; omega
  simp only [State.finishLaunch, lch_of_getElem? hl, hb, h5, h7, hs, false_and, if_false, Option.map_some, Bool.false_eq_true]
  rfl

theorem execLaunchComplete_of_ne {s : State} {k : Nat} (h : (s.lch k).st ≠ .draining) : exec (.launchComplete k) s = .next s := by
  show execLaunchComplete k s = _
  rw [execLaunchComplete, if_pos (.inl h)]

/-- A draining launch of which nothing is in flight is finished, or waits at its completion sequence (R114, R361). -/
theorem execLaunchComplete_draining {s : State} {k : Nat} (h : (s.lch k).st = .draining) (ho : ∀ e ∈ s.ops, (s.gblk e.2.gid).launch ≠ k) :
    exec (.launchComplete k) s = .next ((s.finishLaunch k).getD (s.launchWaits k)) := by
  have hidle : (s.ops.any fun e => (s.gblk e.2.gid).launch == k) = false := by simpa using fun a b h => ho (a, b) h
  show execLaunchComplete k s = _
  rw [execLaunchComplete, if_neg (by simp [h, hidle])]
  cases s.finishLaunch k <;> rfl

/-! ### Commands that end with a block -/

/-- No command waits in the queues of the core's engines. -/
def Core.Idle (c : Core) : Prop := c.cq = [] ∧ c.mq = [] ∧ c.matq = []

/-- From `s` to `t` commands have ended: they have left the queues of their engines and are in flight no longer, and groups that they held go on. -/
structure State.CommandsEnd (s t : State) : Prop where
  frame : t = { s with agenda := t.agenda, groups := t.groups, ops := t.ops, cores := t.cores }
  size : t.groups.length = s.groups.length
  blk : ∀ g, (t.grp g).blk = (s.grp g).blk
  exited : ∀ g, (s.grp g).phase = .exited → (t.grp g).phase = .exited
  idle : ∀ c, (s.core c).Idle → (t.core c).Idle

namespace State.CommandsEnd

variable {s t u : State}

theorem refl (s : State) : s.CommandsEnd s := ⟨rfl, rfl, fun _ => rfl, fun _ h => h, fun _ h => h⟩

theorem trans (h : s.CommandsEnd t) (k : t.CommandsEnd u) : s.CommandsEnd u where
  frame := by rw [k.frame, h.frame]
  size := k.size.trans h.size
  blk g := (k.blk g).trans (h.blk g)
  exited g hg := k.exited g (h.exited g hg)
  idle c hc := k.idle c (h.idle c hc)

theorem ite {c : Prop} [Decidable c] {v : State} (h : s.CommandsEnd u) (k : s.CommandsEnd v) : s.CommandsEnd (if c then u else v) := by
  split
  · exact h
  · exact k

theorem foldl {α : Type} {f : State → α → State} {l : List α} (h : s.CommandsEnd t) (hf : ∀ (u : State) x, u.CommandsEnd (f u x)) :
    s.CommandsEnd (l.foldl f t) :=
  List.foldlRecOn l f h fun u hu x _ => hu.trans (hf u x)

theorem push (h : s.CommandsEnd t) (e : Event) : s.CommandsEnd (t.push e) :=
  h.trans { refl t with frame := rfl }

/-- A core changes, and its engines' queues do not grow from empty. -/
theorem setCore (h : s.CommandsEnd t) {c : Nat} {x : Core} (hx : (t.core c).Idle → x.Idle) : s.CommandsEnd (t.setCore c x) :=
  h.trans { refl t with
    frame := rfl
    idle := fun k hk => by
      rw [State.core, State.setCore_cores, tget_tset]
      split
      · next e => exact hx (e ▸ hk)
      · exact hk }

theorem setLine (h : s.CommandsEnd t) (core a l : Nat) (x : CLine) : s.CommandsEnd (t.setLine core a l x) := h.setCore fun hc => hc

theorem dropLine (h : s.CommandsEnd t) (core a l tag by_ : Nat) : s.CommandsEnd (t.dropLine core a l tag by_) :=
  ((h.setLine ..).push _).ite ((h.setLine ..).push _)

theorem freeLines (h : s.CommandsEnd t) (core k : Nat) : s.CommandsEnd (t.freeLines core k) :=
  h.foldl fun u _ => (refl u).dropLine ..

theorem unqueue (h : s.CommandsEnd t) (o : Nat) (next : Nat → Event) : s.CommandsEnd (t.unqueue o next) := by
  unfold State.unqueue
  extract_lets core c heads cut s1 s2 s3 s4
  have h1 : s.CommandsEnd s1 := by
    refine h.setCore fun ⟨hc, hm, ht⟩ => ⟨?_, ?_, ?_⟩
    · simp [cut, c, hc]
    · simp [c, hm]
    · simp [cut, c, ht]
  have h2 : s.CommandsEnd s2 := (h1.freeLines core 1).ite h1
  have h3 : s.CommandsEnd s3 := (h2.freeLines core 2).ite h2
  have h4 : s.CommandsEnd s4 := by
    refine h3.foldl fun u e => ?_
    split
    · exact (refl u).push _
    · exact refl u
  split
  · exact (h4.push _).ite h4
  · exact h4

end State.CommandsEnd

theorem grp_congr {s t : State} (h : t.groups = s.groups) (g : Nat) : t.grp g = s.grp g := by rw [State.grp, h]; rfl

/-- The group of an operation that has ended is otherwise as before. -/
theorem endOp_grp (s : State) (o g : Nat) :
    (s.endOp o).grp g = (s.setGrp (s.op o).gid ((s.grp (s.op o).gid).ended (s.op o))).grp g := by
  obtain ⟨agenda, h⟩ := endOp_eq s o
  exact grp_congr (by rw [h]; rfl) g

theorem endOp_exited {s : State} {g : Nat} (h : (s.grp g).phase = .exited) (o : Nat) : ((s.endOp o).grp g).phase = .exited := by
  rw [endOp_grp, grp_setGrp]
  split
  · next e => rw [ended_eq, ← e.1]; exact h
  · exact h

/-- A completion ends the operation, and its group goes on if it was parked on it or held by it (R117, R231). -/
theorem completeOp_cases (s : State) (o : Nat) : s.completeOp o = s.endOp o ∨
    ((s.endOp o).grp (s.op o).gid).phase ≠ .exited ∧
      ∃ i, s.completeOp o = (s.endOp o).setGrp (s.op o).gid (((s.endOp o).grp (s.op o).gid).after i) := by
  unfold State.completeOp
  dsimp only
  split
  · next i k hp =>
    split
    · exact .inr ⟨by simp [hp], i, rfl⟩
    · exact .inl rfl
  · next i k hp =>
    split
    · exact .inr ⟨by simp [hp], i, rfl⟩
    · exact .inl rfl
  · exact .inl rfl

theorem completeOp_exited {s : State} {g : Nat} (h : (s.grp g).phase = .exited) (o : Nat) : ((s.completeOp o).grp g).phase = .exited := by
  have hend := endOp_exited h o
  obtain e | ⟨hne, i, e⟩ := completeOp_cases s o
  · rw [e, hend]
  · rw [e, grp_setGrp, if_neg fun ⟨hg, _⟩ => hne (hg ▸ hend), hend]

theorem completeOp_commandsEnd (s : State) (o : Nat) : s.CommandsEnd (s.completeOp o) := by
  obtain ⟨agenda, phase, lanes, h⟩ := completeOp_eq s o
  have hg : ∀ g, (s.completeOp o).grp g = (s.setGrp (s.op o).gid { (s.grp (s.op o).gid).ended (s.op o) with phase := phase, lanes := lanes }).grp g :=
    grp_congr (by rw [h]; rfl)
  refine ⟨by rw [h], by rw [h]; simp, fun g => ?_, fun g hx => completeOp_exited hx o, fun c hc => by rw [h]; exact hc⟩
  rw [hg, grp_setGrp]
  split
  · next e => rw [ended_eq, e.1]
  · rfl

theorem endHeld_commandsEnd (s : State) (os : List Nat) : s.CommandsEnd (s.endHeld os) := by
  refine (State.CommandsEnd.refl s).foldl fun u o => ?_
  split
  · exact (((State.CommandsEnd.refl u).unqueue ..).ite (.refl u)).trans (completeOp_commandsEnd ..)
  · exact .refl u

/-! ### Blocks -/

theorem blk_of_getElem? {s : State} {b : Nat} {x : Block} (h : s.blocks[b]? = some x) : s.blk b = x := by
  simp [State.blk, List.getD_eq_getElem?_getD, h]

theorem blk_setBlk (s : State) (j b : Nat) (x : Block) : (s.setBlk j x).blk b = if b = j ∧ j < s.blocks.length then x else s.blk b := by
  simp only [State.blk, State.setBlk_blocks, List.getD_eq_getElem?_getD, List.getElem?_set]
  by_cases hb : j = b
  · subst hb
    by_cases hl : j < s.blocks.length <;> simp [hl]
  · simp [hb, Ne.symm hb]

theorem blk_congr {s t : State} (h : t.blocks = s.blocks) (b : Nat) : t.blk b = s.blk b := by rw [State.blk, h]; rfl

/-- A block as its release leaves it (R155). -/
def Block.released (x : Block) : Block := { x with st := .released, scr := [], acc := [], books := [], marked := [], held := [], bars := [] }

/-- A released block's scratchpad is gone, and commands whose updates its barriers held are over. -/
theorem releaseBlock_commandsEnd (s : State) (b : Nat) : (s.setBlk b (s.blk b).released).CommandsEnd (s.releaseBlock b) := by
  refine (endHeld_commandsEnd ..).foldl fun u g => ?_
  split
  · exact ((State.CommandsEnd.refl u).push _).ite (.refl u)
  · exact .refl u

theorem releaseBlock_blk (s : State) (b y : Nat) :
    (s.releaseBlock b).blk y = if y = b ∧ b < s.blocks.length then (s.blk b).released else s.blk y := by
  rw [blk_congr (s := s.setBlk b (s.blk b).released) (by rw [(releaseBlock_commandsEnd s b).frame]), blk_setBlk]

/-- With no update held, no command ends with a block. -/
theorem releaseBlock_groups {s : State} {b : Nat} (h : (s.blk b).held = []) : (s.releaseBlock b).groups = s.groups := by
  unfold State.releaseBlock
  rw [h]
  refine foldl_keeps State.groups _ (fun u g => ?_) _ _
  split
  · split <;> rfl
  · rfl

/-- From `s` to `t` blocks that had retired are released. -/
structure State.Releases (s t : State) : Prop where
  frame : t = { s with agenda := t.agenda, groups := t.groups, blocks := t.blocks, ops := t.ops, cores := t.cores }
  kept : ∀ b, (s.blk b).st ≠ .retired → t.blk b = s.blk b
  quiet : (∀ b, (s.blk b).held = []) → t.groups = s.groups ∧ ∀ b, (t.blk b).held = []
  idle : ∀ c, (s.core c).Idle → (t.core c).Idle

theorem State.Releases.refl (s : State) : s.Releases s := ⟨rfl, fun _ _ => rfl, fun h => ⟨rfl, h⟩, fun _ h => h⟩

theorem State.Releases.releaseBlock {s t : State} (h : s.Releases t) {y : Nat} (hy : (s.blk y).st = .retired) : s.Releases (t.releaseBlock y) where
  frame := by
    rw [(releaseBlock_commandsEnd t y).frame, h.frame]
    rfl
  kept b hb := by
    rw [releaseBlock_blk, if_neg fun ⟨e, _⟩ => hb (e ▸ hy), h.kept b hb]
  quiet hq := by
    obtain ⟨hg, hheld⟩ := h.quiet hq
    refine ⟨(releaseBlock_groups (hheld y)).trans hg, fun b => ?_⟩
    rw [releaseBlock_blk]
    split
    · rfl
    · exact hheld b
  idle c hc := (releaseBlock_commandsEnd t y).idle c (h.idle c hc)

theorem releases_foldl {s : State} {l : List Nat} (h : ∀ y ∈ l, (s.blk y).st = .retired) : s.Releases (l.foldl State.releaseBlock s) :=
  List.foldlRecOn l _ (.refl s) fun _ ht y hy => ht.releaseBlock (h y hy)

theorem launchOver_eq (s : State) (k : Nat) : ∃ launches, s.launchOver k = { s with launches := launches } := by
  unfold State.launchOver
  dsimp only
  split <;> exact ⟨_, rfl⟩

/-- A course with a block that goes on is not over. -/
theorem courseOver_of_live {s : State} {c y : Nat} (hy : y ∈ (s.crs c).blocks) (hl : (s.blk y).st = .live) : s.courseOver c = s := by
  have hany : ((s.crs c).blocks.any fun b => (s.blk b).st == .live || (s.blk b).st == .allocating) = true :=
    List.any_eq_true.2 ⟨y, hy, by simp [hl]⟩
  rw [State.courseOver, if_pos (.inr (.inr hany))]

/-- A course that is over has its retired blocks released, and its launch counts it (R155). -/
theorem courseOver_cases (s : State) (c : Nat) : s.courseOver c = s ∨
    ∃ u x launches, s.Releases u ∧ x.st ≠ .placed ∧ s.courseOver c = { u with courses := s.courses.set c x, launches := launches } := by
  unfold State.courseOver
  extract_lets x u lost z v l
  split
  · exact .inl rfl
  · have hu : s.Releases u := releases_foldl fun y hy => by simpa using (List.mem_filter.1 hy).2
    have hc : u.courses = s.courses := by rw [hu.frame]
    obtain ⟨launches, e⟩ := launchOver_eq (v.setLch x.launch { l with retired := l.retired + 1 }) x.launch
    refine .inr ⟨u, _, launches, hu, ?_, e.trans (by rw [← hc]; rfl)⟩
    dsimp only
    split <;> simp

/-- What the end of a course leaves of a block that had not retired, and of everything else when no update is held. -/
theorem courseOver_keeps (s : State) (c : Nat) : (s.courseOver c).mem = s.mem ∧ (∀ b, (s.blk b).st ≠ .retired → (s.courseOver c).blk b = s.blk b) ∧
    ((∀ b, (s.blk b).held = []) → (s.courseOver c).groups = s.groups) := by
  obtain e | ⟨u, x, launches, hu, -, e⟩ := courseOver_cases s c
  · rw [e]
    exact ⟨rfl, fun _ _ => rfl, fun _ => rfl⟩
  · rw [e]
    exact ⟨by rw [hu.frame], hu.kept, fun hq => (hu.quiet hq).1⟩

/-! ### The block's retirement -/

/-- A group that issues nothing more. -/
def Group.Ended (g : Group) : Prop := g.phase = .exited ∨ g.phase = .stopped

theorem held_nil_of_forall {s : State} (h : ∀ y ∈ s.blocks, y.held = []) (b : Nat) : (s.blk b).held = [] := by
  simp only [State.blk, List.getD_eq_getElem?_getD]
  cases hb : s.blocks[b]? with
  | none => rfl
  | some y => exact h y (List.mem_of_getElem? hb)

/-- A live block whose groups go on stays. -/
theorem execBlockRetire_of_running {s : State} {b : Nat} (h : ∃ g ∈ s.groups, g.blk = b ∧ ¬ g.Ended) : exec (.blockRetire b) s = .next s := by
  obtain ⟨g, hg, hb, hne⟩ := h
  obtain ⟨n, hn⟩ := List.mem_iff_getElem?.1 hg
  show execBlockRetire b s = _
  unfold execBlockRetire
  extract_lets x gs ended
  have hended : ended = false := by
    refine List.all_eq_false.2 ⟨n, ?_, ?_⟩
    · simp [gs, grp_of_getElem? hn, lt_of_getElem? hn, hb]
    · rw [grp_of_getElem? hn]
      unfold Group.Ended at hne
      split
      · next hp => exact absurd (.inl hp) hne
      · next hp => exact absurd (.inr hp) hne
      · simp
  rw [if_pos (.inr (by simp [hended]))]

/-- A live block whose groups have ended with nothing in flight is released or, under HOLD, retires (R155). -/
theorem execBlockRetire_of_ended {s : State} {b : Nat} {x : Block} (hx : s.blocks[b]? = some x) (hst : x.st = .live)
    (hg : ∀ g ∈ s.groups, g.blk = b → g.Ended) (ho : ∀ e ∈ s.ops, (s.grp e.2.gid).blk ≠ b) : exec (.blockRetire b) s = .next
      ((if (s.lch x.launch).flag 2 then s.setBlk b { x with st := .retired, acc := [], books := [] } else s.releaseBlock b).courseOver x.course) := by
  show execBlockRetire b s = _
  unfold execBlockRetire
  extract_lets y gs ended idle u z v
  have hy : y = x := blk_of_getElem? hx
  have hended : ended = true := by
    refine List.all_eq_true.2 fun n hn => ?_
    simp only [gs, List.mem_filter, List.mem_range, beq_iff_eq] at hn
    obtain hp | hp := hg (s.grp n) (List.mem_of_getElem? (getElem?_grp hn.1)) hn.2 <;> simp [hp]
  have hmine : ∀ e ∈ s.ops, e.2.gid ∉ gs := fun e he hm => ho e he (by simpa using (List.mem_filter.1 hm).2)
  have hu : u = s := by
    have hidle : s.ops.filter idle = [] := List.filter_eq_nil_iff.2 fun e he => by simp [idle, hmine e he]
    show (s.ops.filter idle).foldl _ s = s
    rw [hidle]
    rfl
  have hany : (u.ops.any fun e => gs.contains e.2.gid) = false := by
    rw [hu]
    exact List.any_eq_false.2 fun e he => by simp [hmine e he]
  rw [if_neg (by simp [hy, hst, hended]), hany]
  simp only [v, z, hu, hy, blk_of_getElem? hx]
  rfl

/-- Without HOLD the block is released with its scratchpad. -/
theorem blockRetire_released {s : State} {b : Nat} {x : Block} (hx : s.blocks[b]? = some x) (hst : x.st = .live)
    (hg : ∀ g ∈ s.groups, g.blk = b → g.Ended) (ho : ∀ e ∈ s.ops, (s.grp e.2.gid).blk ≠ b) (hf : (s.lch x.launch).flag 2 = false) :
    Answers (.blockRetire b) s fun t => (t.blk b).st = .released ∧ (t.blk b).scr = [] ∧ (t.blk b).acc = [] ∧
      ((∀ y ∈ s.blocks, y.held = []) → t.mem = s.mem ∧ t.groups = s.groups) := by
  have he : exec (.blockRetire b) s = .next ((s.releaseBlock b).courseOver x.course) := by
    rw [execBlockRetire_of_ended hx hst hg ho, hf]
    rfl
  have hb : b < s.blocks.length := (List.getElem?_eq_some_iff.1 hx).1
  have hrel : (s.releaseBlock b).blk b = x.released := by rw [releaseBlock_blk, if_pos ⟨rfl, hb⟩, blk_of_getElem? hx]
  obtain ⟨hmem, hkept, hquiet⟩ := courseOver_keeps (s.releaseBlock b) x.course
  have hblk : ((s.releaseBlock b).courseOver x.course).blk b = x.released := (hkept b (by rw [hrel]; simp [Block.released])).trans hrel
  refine ⟨_, he, by rw [hblk]; rfl, by rw [hblk]; rfl, by rw [hblk]; rfl, fun hheld => ⟨?_, ?_⟩⟩
  · rw [hmem, (releaseBlock_commandsEnd s b).frame]
    rfl
  · have hnil := held_nil_of_forall hheld
    refine (hquiet fun k => ?_).trans (releaseBlock_groups (hnil b))
    rw [releaseBlock_blk]
    split
    · rfl
    · exact hnil k

/-- Under HOLD the block retires with its scratchpad while a block of its course goes on. -/
theorem blockRetire_held {s : State} {b y : Nat} {x : Block} (hx : s.blocks[b]? = some x) (hst : x.st = .live)
    (hg : ∀ g ∈ s.groups, g.blk = b → g.Ended) (ho : ∀ e ∈ s.ops, (s.grp e.2.gid).blk ≠ b) (hf : (s.lch x.launch).flag 2 = true)
    (hy : y ∈ (s.crs x.course).blocks) (hne : y ≠ b) (hl : (s.blk y).st = .live) :
    Answers (.blockRetire b) s fun t => (t.blk b).st = .retired ∧ (t.blk b).scr = x.scr ∧ (t.blk b).acc = [] ∧
      ((∀ y ∈ s.blocks, y.held = []) → t.mem = s.mem ∧ t.groups = s.groups) := by
  have hlive : ((s.setBlk b { x with st := .retired, acc := [], books := [] }).blk y).st = .live := by rwa [blk_setBlk, if_neg fun e => hne e.1]
  have he : exec (.blockRetire b) s = .next (s.setBlk b { x with st := .retired, acc := [], books := [] }) := by
    rw [execBlockRetire_of_ended hx hst hg ho, hf]
    exact congrArg _ (courseOver_of_live (s := s.setBlk b { x with st := .retired, acc := [], books := [] }) hy hlive)
  have hblk := blk_setBlk s b b { x with st := .retired, acc := [], books := [] }
  rw [if_pos ⟨rfl, (List.getElem?_eq_some_iff.1 hx).1⟩] at hblk
  exact ⟨_, he, by rw [hblk], by rw [hblk], by rw [hblk], fun _ => ⟨rfl, rfl⟩⟩

end Sys2Proof.Machine
end

section
/-! ## A die fails (O41)

Log, courses, queues and blocks after DIE_FATAL_FAILURE (R159, R293), and what becomes of the blocks of one course. -/

namespace Sys2Proof.Machine

open Sys2Proof

/-! ### What the end of blocks leaves of the engines -/

/-- From `s` to `t` the launch engine and the courses are as before, and no command has joined a core whose queues were empty. -/
structure State.EnginesStay (s t : State) : Prop where
  le : t.le = s.le
  courses : t.courses = s.courses
  idle : ∀ c, (s.core c).Idle → (t.core c).Idle

theorem State.CommandsEnd.enginesStay {s t : State} (h : s.CommandsEnd t) : s.EnginesStay t := ⟨by rw [h.frame], by rw [h.frame], h.idle⟩

namespace State.EnginesStay

variable {s t u : State}

theorem refl (s : State) : s.EnginesStay s := ⟨rfl, rfl, fun _ h => h⟩

theorem trans (h : s.EnginesStay t) (k : t.EnginesStay u) : s.EnginesStay u :=
  ⟨k.le.trans h.le, k.courses.trans h.courses, fun c hc => k.idle c (h.idle c hc)⟩

/-- Launch engine, courses and cores are untouched. -/
theorem same (h : s.EnginesStay t) (hl : u.le = t.le) (hc : u.courses = t.courses) (hk : u.cores = t.cores) : s.EnginesStay u :=
  h.trans ⟨hl, hc, fun c => by simp only [State.core, hk, imp_self]⟩

theorem ite {c : Prop} [Decidable c] {v : State} (h : s.EnginesStay u) (k : s.EnginesStay v) : s.EnginesStay (if c then u else v) := by
  split
  · exact h
  · exact k

theorem foldl {α : Type} {f : State → α → State} {l : List α} (h : s.EnginesStay t) (hf : ∀ (u : State) x, s.EnginesStay u → s.EnginesStay (f u x)) :
    s.EnginesStay (l.foldl f t) :=
  List.foldlRecOn l f h fun u hu x _ => hf u x hu

theorem push (h : s.EnginesStay t) {e : Event} : s.EnginesStay (t.push e) := h.same rfl rfl rfl

theorem setBlk (h : s.EnginesStay t) {b : Nat} {x : Block} : s.EnginesStay (t.setBlk b x) := h.same rfl rfl rfl

theorem count (h : s.EnginesStay t) {b i k n : Nat} : s.EnginesStay (t.count b i k n) := h.same rfl rfl rfl

theorem endHeld (h : s.EnginesStay t) {os : List Nat} : s.EnginesStay (t.endHeld os) := h.trans (endHeld_commandsEnd t os).enginesStay

theorem swrite (h : s.EnginesStay t) {b a n v : Nat} : s.EnginesStay (t.swrite b a n v) := by
  unfold State.swrite State.touchScr
  refine h.setBlk.foldl fun _ _ hu => hu.foldl fun _ _ hv => ?_
  split
  · exact hv.push.ite hv
  · exact hv.push.ite hv
  · exact hv

theorem setBar (h : s.EnginesStay t) {b off : Nat} {x : Bar} : s.EnginesStay (t.setBar b off x) := h.setBlk.swrite

theorem wakeBar (h : s.EnginesStay t) {b off : Nat} : s.EnginesStay (t.wakeBar b off) := h.foldl fun _ _ hu => hu.push

theorem barCheck (h : s.EnginesStay t) {b off : Nat} : s.EnginesStay (t.barCheck b off) :=
  (h.setBar.push.ite h.setBar.count.wakeBar).ite h

theorem holdBar (h : s.EnginesStay t) {b : Nat} {x : HeldBar} : s.EnginesStay (t.holdBar b x) := h.setBlk.count

theorem barApply (h : s.EnginesStay t) {b off da db : Nat} {op : Option Nat} : s.EnginesStay (t.barApply b off da db op) :=
  h.ite (h.holdBar.ite h.setBar.barCheck)

theorem barInit (h : s.EnginesStay t) {b off arr byt : Nat} {win : Bool} : s.EnginesStay (t.barInit b off arr byt win) :=
  h.ite (h.holdBar.ite (h.setBar.barCheck.ite h.setBar))

theorem freeHeld (h : s.EnginesStay t) {b off : Nat} : s.EnginesStay (t.freeHeld b off) :=
  (h.setBlk.foldl fun _ _ hu => hu.barInit.ite hu.barApply).endHeld

theorem breakBar (h : s.EnginesStay t) {b off : Nat} : s.EnginesStay (t.breakBar b off) := h.ite h.setBar.count.wakeBar

theorem breakCourse (h : s.EnginesStay t) {c : Nat} : s.EnginesStay (t.breakCourse c) := by
  unfold State.breakCourse
  extract_lets u
  have hu : s.EnginesStay u := State.EnginesStay.ite (h.foldl fun _ _ hv => hv.foldl fun _ _ hw => hw.breakBar.freeHeld) h
  refine hu.foldl fun _ _ hv => ?_
  split
  · exact hv.push.ite hv
  · exact hv

end State.EnginesStay

/-! ### A lost block -/

/-- What holds of `s` and is kept comes to hold of a fold's end for what one element of the list brings about. -/
theorem foldl_of_mem {α β : Type} {f : β → α → β} {P Q : β → Prop} {l : List α} {x : α} (hx : x ∈ l) (hP : ∀ u y, P u → P (f u y))
    (hQ : ∀ u y, Q u → Q (f u y)) (h : ∀ u, P u → Q (f u x)) {s : β} (hs : P s) : Q (l.foldl f s) := by
  obtain ⟨l₁, l₂, rfl⟩ := List.append_of_mem hx
  rw [List.foldl_append, List.foldl_cons]
  exact List.foldlRecOn l₂ f (h _ (List.foldlRecOn l₁ f hs fun u hu y _ => hP u y hu)) fun u hu y _ => hQ u y hu

theorem purgeQueues_enginesStay (s : State) (gs : List Nat) : s.EnginesStay (s.purgeQueues gs) := by
  refine (State.EnginesStay.refl s).foldl fun u e hu => ?_
  refine hu.trans (((State.CommandsEnd.refl u).setCore fun ⟨hc, hm, ht⟩ => ⟨?_, ?_, ?_⟩).enginesStay)
  · simp [hc]
  · simp [hm]
  · simp [ht]

/-- Engines forget the commands of some groups, and those are in flight no longer. -/
def State.forget (s : State) (gs : List Nat) : State :=
  ((s.purgeQueues gs).ops.filter fun e => gs.contains e.2.gid).foldl (fun s e => (s.seqLeave e.1).delOp e.1) (s.purgeQueues gs)

/-- Groups are treated as exited (R159). -/
def State.exitAll (s : State) (gs : List Nat) : State :=
  gs.foldl (fun s g => s.setGrp g { (s.grp g).finish .exited with pend := [], flags := [] }) s

/-- A block as its die's failure leaves it (R159). -/
def Block.lost (x : Block) : Block := { x with st := .lost, scr := [], acc := [], books := [], marked := [], held := [], bars := [] }

/-- Groups of a block. -/
def State.groupsAt (s : State) (b : Nat) : List Nat := (List.range s.groups.length).filter fun g => (s.grp g).blk == b

/-- A block's groups are gone with what they had in flight. -/
def State.dropGroups (s : State) (b : Nat) : State := (s.forget (s.groupsAt b)).exitAll (s.groupsAt b)

/-- A block is lost, and commands whose updates its barriers held are over. -/
def State.dropBlock (s : State) (b : Nat) : State :=
  ((s.dropGroups b).setBlk b ((s.dropGroups b).blk b).lost).endHeld (((s.dropGroups b).blk b).held.filterMap HeldBar.op)

theorem loseBlock_eq (s : State) (b : Nat) : s.loseBlock b =
    (s.dropBlock b).setLch ((s.dropBlock b).blk b).launch { (s.dropBlock b).lch ((s.dropBlock b).blk b).launch with broken := true } := rfl

theorem forget_keeps {γ : Type} (f : State → γ) (hc : ∀ s c x, f (State.setCore s c x) = f s)
    (ho : ∀ (s : State) ops w, f { s with ops := ops, seqWait := w } = f s) (s : State) (gs : List Nat) : f (s.forget gs) = f s :=
  (foldl_keeps f _ (fun _ _ => ho ..) _ _).trans (foldl_keeps f _ (fun _ _ => hc ..) _ _)

theorem exitAll_keeps {γ : Type} (f : State → γ) (hg : ∀ s g x, f (State.setGrp s g x) = f s) (s : State) (gs : List Nat) : f (s.exitAll gs) = f s :=
  foldl_keeps f _ (fun _ _ => hg ..) _ _

/-- From `s` to `t` groups have exited, and stay with their blocks. -/
structure State.Exits (s t : State) : Prop where
  size : t.groups.length = s.groups.length
  blk : ∀ g, (t.grp g).blk = (s.grp g).blk
  exited : ∀ g, (s.grp g).phase = .exited → (t.grp g).phase = .exited

theorem State.Exits.trans {s t u : State} (h : s.Exits t) (k : t.Exits u) : s.Exits u :=
  ⟨k.size.trans h.size, fun g => (k.blk g).trans (h.blk g), fun g hg => k.exited g (h.exited g hg)⟩

theorem State.Exits.of_groups {s t : State} (h : t.groups = s.groups) : s.Exits t :=
  ⟨by rw [h], fun g => by rw [grp_congr h], fun g hg => by rw [grp_congr h, hg]⟩

theorem finishGrp_exits (s : State) (g : Nat) : s.Exits (s.setGrp g { (s.grp g).finish .exited with pend := [], flags := [] }) := by
  refine ⟨by simp, fun k => ?_, fun k hk => ?_⟩
  · rw [grp_setGrp]
    split
    · next e => rw [e.1]; rfl
    · rfl
  · rw [grp_setGrp]
    split
    · rfl
    · exact hk

theorem exitAll_exits (s : State) (gs : List Nat) : s.Exits (s.exitAll gs) :=
  List.foldlRecOn (motive := s.Exits) gs _ (.of_groups rfl) fun _ hu g _ => hu.trans (finishGrp_exits _ g)

theorem exitAll_exited {s : State} {gs : List Nat} {g : Nat} (hg : g ∈ gs) (hl : g < s.groups.length) : ((s.exitAll gs).grp g).phase = .exited := by
  refine foldl_of_mem (P := fun u => u.groups.length = s.groups.length) (Q := fun u => (u.grp g).phase = .exited) hg
    (fun u k hu => by simp [hu]) (fun u k hu => (finishGrp_exits u k).exited g hu) (fun u hu => ?_) rfl
  rw [grp_setGrp, if_pos ⟨rfl, hu ▸ hl⟩]
  rfl

theorem dropGroups_keeps {γ : Type} (f : State → γ) (hc : ∀ s c x, f (State.setCore s c x) = f s)
    (ho : ∀ (s : State) ops w, f { s with ops := ops, seqWait := w } = f s) (hg : ∀ s g x, f (State.setGrp s g x) = f s) (s : State) (b : Nat) :
    f (s.dropGroups b) = f s :=
  (exitAll_keeps f hg ..).trans (forget_keeps f hc ho ..)

theorem dropBlock_commandsEnd (s : State) (b : Nat) : ((s.dropGroups b).setBlk b ((s.dropGroups b).blk b).lost).CommandsEnd (s.dropBlock b) :=
  endHeld_commandsEnd ..

/-- A lost block's groups have all exited (R159). -/
theorem loseBlock_exits (s : State) (b : Nat) : s.Exits (s.loseBlock b) ∧
    ∀ g, g < s.groups.length → (s.grp g).blk = b → ((s.loseBlock b).grp g).phase = .exited := by
  have hf : (s.forget (s.groupsAt b)).groups = s.groups := forget_keeps (·.groups) (fun _ _ _ => rfl) (fun _ _ _ => rfl) ..
  obtain ⟨-, hsize, hblk, hexited, -⟩ := dropBlock_commandsEnd s b
  have hv : (s.dropGroups b).Exits (s.loseBlock b) := ⟨hsize, hblk, hexited⟩
  refine ⟨((State.Exits.of_groups hf).trans (exitAll_exits ..)).trans hv, fun g hg hb => hv.exited g (exitAll_exited ?_ (hf ▸ hg))⟩
  simp [State.groupsAt, hg, hb]

theorem dropBlock_blocks (s : State) (b : Nat) : (s.dropBlock b).blocks = s.blocks.set b (s.blk b).lost := by
  have hu : (s.dropGroups b).blocks = s.blocks := dropGroups_keeps (·.blocks) (fun _ _ _ => rfl) (fun _ _ _ => rfl) (fun _ _ _ => rfl) s b
  rw [(dropBlock_commandsEnd s b).frame, State.setBlk_blocks, blk_congr hu, hu]

theorem dropBlock_launches (s : State) (b : Nat) : (s.dropBlock b).launches = s.launches := by
  rw [(dropBlock_commandsEnd s b).frame]
  exact dropGroups_keeps (·.launches) (fun _ _ _ => rfl) (fun _ _ _ => rfl) (fun _ _ _ => rfl) s b

theorem loseBlock_blocks (s : State) (b : Nat) : (s.loseBlock b).blocks = s.blocks.set b (s.blk b).lost := dropBlock_blocks s b

theorem loseBlock_launches (s : State) (b : Nat) :
    (s.loseBlock b).launches = s.launches.set (s.blk b).launch { s.lch (s.blk b).launch with broken := true } := by
  have hl : ((s.dropBlock b).blk b).launch = (s.blk b).launch := by
    rw [blk_congr (s := s.setBlk b (s.blk b).lost) (dropBlock_blocks s b), blk_setBlk]
    split <;> rfl
  rw [loseBlock_eq, State.setLch_launches, hl, State.lch, dropBlock_launches]
  rfl

theorem loseBlock_enginesStay (s : State) (b : Nat) : s.EnginesStay (s.loseBlock b) := by
  have hf : s.EnginesStay (s.forget (s.groupsAt b)) := (purgeQueues_enginesStay ..).foldl fun _ _ hw => hw.same rfl rfl rfl
  have hu : s.EnginesStay (s.dropGroups b) := hf.foldl fun _ _ hw => hw.same rfl rfl rfl
  exact (hu.setBlk.trans (dropBlock_commandsEnd s b).enginesStay).same rfl rfl rfl

/-- Block `b` is lost: its scratchpad is gone, its launch is broken, and its groups have exited. -/
def State.BlockLost (s : State) (b : Nat) : Prop :=
  (s.blk b).st = .lost ∧ (s.blk b).scr = [] ∧ (s.lch (s.blk b).launch).broken = true ∧
    ∀ g, g < s.groups.length → (s.grp g).blk = b → (s.grp g).phase = .exited

/-- From `s` to `t` blocks have been lost. -/
structure State.Loses (s t : State) : Prop where
  exits : s.Exits t
  blocks : t.blocks.length = s.blocks.length
  launch : ∀ b, (t.blk b).launch = (s.blk b).launch
  launches : t.launches.length = s.launches.length
  lost : ∀ b, s.BlockLost b → t.BlockLost b

theorem loseBlock_blk (s : State) (b y : Nat) : (s.loseBlock b).blk y = if y = b ∧ b < s.blocks.length then (s.blk b).lost else s.blk y := by
  rw [blk_congr (s := s.setBlk b (s.blk b).lost) (loseBlock_blocks s b), blk_setBlk]

theorem loseBlock_lch (s : State) (b k : Nat) : (s.loseBlock b).lch k =
    if k = (s.blk b).launch ∧ (s.blk b).launch < s.launches.length then { s.lch (s.blk b).launch with broken := true } else s.lch k := by
  rw [State.lch, loseBlock_launches]
  exact lch_setLch ..

theorem loseBlock_launch (s : State) (b y : Nat) : ((s.loseBlock b).blk y).launch = (s.blk y).launch := by
  rw [loseBlock_blk]
  split
  · next e => rw [e.1]; rfl
  · rfl

theorem loseBlock_loses (s : State) (b : Nat) : s.Loses (s.loseBlock b) := by
  have he := (loseBlock_exits s b).1
  refine ⟨he, by rw [loseBlock_blocks]; simp, loseBlock_launch s b, by rw [loseBlock_launches]; simp, fun y ⟨hst, hscr, hbr, hg⟩ => ?_⟩
  refine ⟨?_, ?_, ?_, fun g hl hb => he.exited g (hg g (he.size ▸ hl) ((he.blk g).symm.trans hb))⟩
  · rw [loseBlock_blk]
    split
    · rfl
    · exact hst
  · rw [loseBlock_blk]
    split
    · rfl
    · exact hscr
  · rw [loseBlock_launch, loseBlock_lch]
    split
    · rfl
    · exact hbr

theorem loseBlock_lost {s : State} {b : Nat} (hb : b < s.blocks.length) (hl : (s.blk b).launch < s.launches.length) : (s.loseBlock b).BlockLost b := by
  obtain ⟨he, hg⟩ := loseBlock_exits s b
  refine ⟨?_, ?_, ?_, fun g hlt h => hg g (he.size ▸ hlt) ((he.blk g).symm.trans h)⟩
  · rw [loseBlock_blk, if_pos ⟨rfl, hb⟩]; rfl
  · rw [loseBlock_blk, if_pos ⟨rfl, hb⟩]; rfl
  · rw [loseBlock_launch, loseBlock_lch, if_pos ⟨rfl, hl⟩]

/-! ### A course with a block on the failed die -/

/-- The blocks that a failed course loses are those which had not ended. -/
theorem loseBlocks_lost {s : State} {l : List Nat} {b : Nat} (hb : b ∈ l) (hlt : b < s.blocks.length) (hl : (s.blk b).launch < s.launches.length) :
    (l.foldl State.loseBlock s).BlockLost b ∧ s.Loses (l.foldl State.loseBlock s) := by
  have htrans : ∀ (u : State) y, s.Loses u → s.Loses (u.loseBlock y) := fun u y hu =>
    have hy := loseBlock_loses u y
    ⟨hu.exits.trans hy.exits, hy.blocks.trans hu.blocks, fun k => (hy.launch k).trans (hu.launch k), hy.launches.trans hu.launches,
      fun k hk => hy.lost k (hu.lost k hk)⟩
  have hrefl : s.Loses s := ⟨.of_groups rfl, rfl, fun _ => rfl, rfl, fun _ h => h⟩
  refine ⟨foldl_of_mem (P := s.Loses) (Q := fun u => u.BlockLost b) hb htrans (fun u y hu => (loseBlock_loses u y).lost b hu) (fun u hu => ?_) hrefl,
    List.foldlRecOn l _ hrefl fun u hu y _ => htrans u y hu⟩
  exact loseBlock_lost (hu.blocks ▸ hlt) (by rw [hu.launch, hu.launches]; exact hl)

/-- A running course without an image loses its live blocks on the die (R159). -/
theorem failCourse_running {s : State} {die c b : Nat} (hst : (s.crs c).st = .running) (hi : (s.crs c).image = none) (hb : b ∈ (s.crs c).blocks)
    (hd : dieOf (s.blk b).core = die) (hl : (s.blk b).st = .live) :
    ∃ l : List Nat, b ∈ l ∧ s.failCourse die c = l.foldl State.loseBlock s := by
  unfold State.failCourse
  extract_lets x there live u
  have hthere : b ∈ there := List.mem_filter.2 ⟨hb, by simp [hd]⟩
  have hlive : live b = true := by simp [live, hl]
  have hnot : ¬ (there.all fun b => !live b) = true := fun h => by simpa [hlive] using List.all_eq_true.1 h b hthere
  refine ⟨there.filter live, List.mem_filter.2 ⟨hthere, hlive⟩, ?_⟩
  have hst' : x.st = .running := hst
  have hi' : x.image = none := hi
  simp only [if_neg hnot, hst', hi']
  rfl

/-- A course without a block on the die that goes on is not touched. -/
theorem failCourse_of_ended {s : State} {die : Nat} (h : ∀ b, dieOf (s.blk b).core = die → (s.blk b).st = .released ∨ (s.blk b).st = .lost) (c : Nat) :
    s.failCourse die c = s := by
  unfold State.failCourse
  extract_lets x there live u
  have hnone : (there.all fun b => !live b) = true := List.all_eq_true.2 fun b hb => by
    obtain hs | hs := h b (by simpa using (List.mem_filter.1 hb).2) <;> simp [live, hs]
  rw [if_pos hnone]

/-! ### The package without the die -/

/-- From `s` to `t` the same dies are out of service, and where no course waited for its first blocks none does. -/
structure State.PlacesNone (s t : State) : Prop where
  dead : t.le.deadDies = s.le.deadDies
  placed : (∀ x ∈ s.courses, x.st ≠ .placed) → ∀ x ∈ t.courses, x.st ≠ .placed

theorem State.EnginesStay.placesNone {s t : State} (h : s.EnginesStay t) : s.PlacesNone t := ⟨by rw [h.le], by rw [h.courses]; exact id⟩

theorem State.AtHome.placesNone {s t : State} (h : s.AtHome t) : s.PlacesNone t := by
  obtain ⟨-, -, hc, -, -, hd⟩ := h.fields
  exact ⟨hd, by rw [hc]; exact id⟩

namespace State.PlacesNone

variable {s t u : State}

theorem trans (h : s.PlacesNone t) (k : t.PlacesNone u) : s.PlacesNone u := ⟨k.dead.trans h.dead, fun hs => k.placed (h.placed hs)⟩

theorem foldl {α : Type} {f : State → α → State} {l : List α} (hf : ∀ (u : State) x, u.PlacesNone (f u x)) (s : State) : s.PlacesNone (l.foldl f s) :=
  List.foldlRecOn l f ⟨rfl, id⟩ fun u hu x _ => hu.trans (hf u x)

/-- A course that changes is not placed. -/
theorem setCourse {c : Nat} {x : Course} (hd : t.le.deadDies = s.le.deadDies) (hc : t.courses = s.courses.set c x) (hx : x.st ≠ .placed) :
    s.PlacesNone t := by
  refine ⟨hd, fun hs y hy => ?_⟩
  rw [hc] at hy
  obtain hy | rfl := List.mem_or_eq_of_mem_set hy
  · exact hs y hy
  · exact hx

end State.PlacesNone

theorem failCourse_placesNone (s : State) (die c : Nat) : s.PlacesNone (s.failCourse die c) := by
  have hlose : ∀ (u : State) (l : List Nat), u.PlacesNone (l.foldl State.loseBlock u) :=
    fun u _ => .foldl (fun v b => (loseBlock_enginesStay v b).placesNone) u
  have hself : s.PlacesNone s := ⟨rfl, id⟩
  unfold State.failCourse
  extract_lets x there live u
  split
  · exact hself
  split
  · exact hself
  · exact hself
  · exact hself
  · have hu : s.AtHome u := (State.AtHome.refl s).imageHeader
    exact hu.placesNone.trans (hlose ..)
  · split
    · exact .setCourse rfl rfl (by simp)
    · exact hlose ..

theorem courseOver_placesNone (s : State) (c : Nat) : s.PlacesNone (s.courseOver c) := by
  obtain e | ⟨u, x, launches, hu, hx, e⟩ := courseOver_cases s c
  · rw [e]
    exact ⟨rfl, id⟩
  · rw [e]
    exact .setCourse (by rw [hu.frame]) rfl hx

theorem courseOver_idle {s : State} {k : Nat} (h : (s.core k).Idle) (c : Nat) : ((s.courseOver c).core k).Idle := by
  obtain e | ⟨u, x, launches, hu, -, e⟩ := courseOver_cases s c
  · rw [e]
    exact h
  · rw [e]
    exact hu.idle k h

theorem dropCore_commandsEnd (s : State) (core : Nat) : s.CommandsEnd (s.dropCore core) :=
  ((State.CommandsEnd.refl s).foldl fun u _ => (State.CommandsEnd.refl u).ite ((State.CommandsEnd.refl u).dropLine ..)).setCore fun _ => ⟨rfl, rfl, rfl⟩

theorem dropCore_idle (s : State) (core : Nat) : ((s.dropCore core).core core).Idle := by
  rw [State.dropCore, core_setCore_self]
  exact ⟨rfl, rfl, rfl⟩

/-- A core whose lines leave their trees changes neither the log nor the program's own state. -/
theorem dropCore_keeps (s : State) (core : Nat) : ((s.dropCore core).mg, (s.dropCore core).work) = (s.mg, s.work) := by
  refine foldl_keeps (fun u : State => (u.mg, u.work)) _ (fun u e => ?_) _ s
  split
  · rfl
  · unfold State.dropLine
    dsimp only
    split <;> rfl

theorem tget_of_forall_ne {α : Type} (d : α) {m : SMap α} {k : Nat} (h : ∀ e ∈ m, e.1 ≠ k) : tget d m k = d := by
  induction m with
  | nil => rfl
  | cons e t ih => rw [tget, if_neg (h e List.mem_cons_self), ih fun x hx => h x (List.mem_cons_of_mem e hx)]

/-- The cores of a die leave their trees with nothing in their queues. -/
def State.dropDie (s : State) (die : Nat) : State := ((s.cores.map (·.1)).filter fun c => dieOf c == die).foldl State.dropCore s

theorem dropDie_idle (s : State) {die k : Nat} (hk : dieOf k = die) : ((s.dropDie die).core k).Idle := by
  have hkeep : ∀ (u : State) c, (u.core k).Idle → ((u.dropCore c).core k).Idle := fun u c hu => (dropCore_commandsEnd u c).idle k hu
  by_cases hmem : k ∈ s.cores.map (·.1)
  · have hin : k ∈ (s.cores.map (·.1)).filter fun c => dieOf c == die := List.mem_filter.2 ⟨hmem, by simp [hk]⟩
    exact foldl_of_mem (P := fun _ => True) (Q := fun u => (u.core k).Idle) hin (fun _ _ _ => trivial) hkeep (fun u _ => dropCore_idle u k) trivial
  · have hempty : s.core k = .empty := tget_of_forall_ne _ fun e he hek => hmem (List.mem_map.2 ⟨e, he, hek⟩)
    refine List.foldlRecOn _ _ (motive := fun u : State => (u.core k).Idle) ?_ fun u hu c _ => hkeep u c hu
    rw [hempty]
    exact ⟨rfl, rfl, rfl⟩

theorem dropDie_placesNone (s : State) (die : Nat) : s.PlacesNone (s.dropDie die) :=
  .foldl (fun u c => (dropCore_commandsEnd u c).enginesStay.placesNone) s

theorem dropDie_keeps (s : State) (die : Nat) : ((s.dropDie die).mg, (s.dropDie die).work) = (s.mg, s.work) :=
  foldl_keeps (fun u : State => (u.mg, u.work)) _ dropCore_keeps _ s

/-- Courses that lost blocks are broken, and those that are over end (R155, R293). -/
theorem endCourses_placesNone (s : State) (cs : List Nat) : s.PlacesNone (cs.foldl (fun s c => (s.breakCourse c).courseOver c) s) :=
  .foldl (fun u c => (State.EnginesStay.refl u).breakCourse.placesNone.trans (courseOver_placesNone _ c)) s

theorem endCourses_idle {s : State} {k : Nat} (h : (s.core k).Idle) (cs : List Nat) :
    ((cs.foldl (fun s c => (s.breakCourse c).courseOver c) s).core k).Idle :=
  List.foldlRecOn cs _ (motive := fun u : State => (u.core k).Idle) h fun u hu c _ => courseOver_idle ((State.EnginesStay.refl u).breakCourse.idle k hu) c

theorem crs_ne_placed {s : State} (h : ∀ x ∈ s.courses, x.st ≠ .placed) (c : Nat) : (s.crs c).st ≠ .placed := by
  simp only [State.crs, List.getD_eq_getElem?_getD]
  cases hc : s.courses[c]? with
  | none => simp [Course.empty]
  | some x => exact h x (List.mem_of_getElem? hc)

/-- The state in which a die's failure has been logged (R159, R469). -/
def State.dieLogged (s : State) (die : Nat) : State :=
  ({ s with le := { s.le with deadDies := s.le.deadDies ++ [die] } } : State).logErr 2 die 7 2 0 0 none 0

theorem dieLogged_keeps (s : State) (die : Nat) : (s.dieLogged die).groups = s.groups ∧ (s.dieLogged die).blocks = s.blocks ∧
    (s.dieLogged die).courses = s.courses ∧ (s.dieLogged die).le.deadDies = s.le.deadDies ++ [die] := by
  have h : ({ s with le := { s.le with deadDies := s.le.deadDies ++ [die] } } : State).AtHome (s.dieLogged die) := (State.AtHome.refl _).logErr
  obtain ⟨hg, hb, hc, -, -, hd⟩ := h.fields
  exact ⟨hg, hb, hc, hd⟩

/-- The blocks of course `c` that are lost. -/
def State.lostIn (s : State) (c : Nat) : Nat := ((s.crs c).blocks.filter fun b => (s.blk b).st == .lost).length

/-- The package once the blocks on a failed die are lost and its cores have left their trees. -/
def State.dieGone (s : State) (die : Nat) : State :=
  ((List.range (s.dieLogged die).courses.length).foldl (fun s c => s.failCourse die c) (s.dieLogged die)).dropDie die

/-- Courses that lose blocks with a die. -/
def State.coursesHit (s : State) (die : Nat) : List Nat :=
  (List.range (s.dieLogged die).courses.length).filter fun c =>
    decide (((List.range (s.dieLogged die).courses.length).map (s.dieLogged die).lostIn).getD c 0 < (s.dieGone die).lostIn c)

/-- The package after a die's failure, but for courses that waited for blocks there: those that lost blocks are broken, and end if they are over. -/
def State.dieDone (s : State) (die : Nat) : State := (s.coursesHit die).foldl (fun s c => (s.breakCourse c).courseOver c) (s.dieGone die)

theorem dieLogged_ne_placed {s : State} (h : ∀ x ∈ s.courses, x.st ≠ .placed) (die : Nat) : ∀ x ∈ (s.dieLogged die).courses, x.st ≠ .placed := by
  rw [(dieLogged_keeps s die).2.2.1]
  exact h

theorem dieDone_placesNone (s : State) (die : Nat) : (s.dieLogged die).PlacesNone (s.dieDone die) :=
  (State.PlacesNone.foldl (fun u c => failCourse_placesNone u die c) _).trans ((dropDie_placesNone ..).trans (endCourses_placesNone ..))

theorem dieDone_idle (s : State) {die k : Nat} (hk : dieOf k = die) : ((s.dieDone die).core k).Idle := endCourses_idle (dropDie_idle _ hk) _

/-- A die that fails where no course waits for its first blocks (R159). -/
theorem execDieFatalFailure_eq {s : State} {die : Nat} (hd : die < 8) (hn : die ∉ s.le.deadDies) (hp : ∀ c ∈ s.courses, c.st ≠ .placed) :
    exec (.dieFatalFailure die) s = .next (s.dieDone die) := by
  have hplaced := crs_ne_placed ((dieDone_placesNone s die).placed (dieLogged_ne_placed hp die))
  show execDieFatalFailure die s = _
  have hrun : execDieFatalFailure die s = .next (((s.coursesHit die).filter fun c =>
      ((s.dieDone die).crs c).st == .placed && ((s.dieDone die).crs c).blocks.all fun b => ((s.dieDone die).blk b).st != .allocating).foldl
        State.courseReady (s.dieDone die)) := by
    rw [execDieFatalFailure, if_neg (by simp [hn]; omega)]
    rfl
  have hready : ((s.coursesHit die).filter fun c =>
      ((s.dieDone die).crs c).st == .placed && ((s.dieDone die).crs c).blocks.all fun b => ((s.dieDone die).blk b).st != .allocating) = [] :=
    List.filter_eq_nil_iff.2 fun c _ => by simp [hplaced c]
  rw [hrun, hready]
  rfl

/-- A die on which every block has ended takes nothing with it but its cores' lines. -/
theorem dieDone_of_ended {s : State} {die : Nat} (h : ∀ b, dieOf (s.blk b).core = die → (s.blk b).st = .released ∨ (s.blk b).st = .lost) :
    ((s.dieDone die).mg, (s.dieDone die).work) = ((s.dieLogged die).mg, (s.dieLogged die).work) := by
  obtain ⟨-, hb, -⟩ := dieLogged_keeps s die
  have hfail : ∀ c, (s.dieLogged die).failCourse die c = s.dieLogged die := failCourse_of_ended (by simpa only [blk_congr hb] using h)
  have hgone : s.dieGone die = (s.dieLogged die).dropDie die := by
    unfold State.dieGone
    congr 1
    generalize List.range (s.dieLogged die).courses.length = cs
    induction cs with
    | nil => rfl
    | cons c cs ih => rw [List.foldl_cons, hfail, ih]
  have hkeep := dropDie_keeps (s.dieLogged die) die
  have hlost : ∀ c, (s.dieGone die).lostIn c = (s.dieLogged die).lostIn c := fun c => by
    have hw : (s.dieLogged die).AtHome ((s.dieLogged die).dropDie die) := congrArg Prod.snd hkeep
    obtain ⟨-, hblocks, hcourses, -⟩ := hw.fields
    simp only [hgone, State.lostIn, State.crs, State.blk, hblocks, hcourses]
  have hhit : s.coursesHit die = [] := List.filter_eq_nil_iff.2 fun c hc => by
    have hlt : c < (s.dieLogged die).courses.length := List.mem_range.1 hc
    simp [List.getD_eq_getElem?_getD, hlt, hlost]
  rw [State.dieDone, hhit, List.foldl_nil, hgone, hkeep]

theorem blocksLaunchesAndDiesEnd : Claims.LaunchesAndBlocksEnd := by
  refine ⟨fun s k l hl => ?launches, fun s b x hx hst => ?blocks, fun s die hd hn hp => ?die, fun s die h => ?noDie, fun s die c b hst hi hb hlt hd hlive hl => ?lost⟩
  case launches =>
    have hlch := lch_of_getElem? hl
    refine ⟨fun hst => ⟨s, execLaunchComplete_of_ne (by rwa [hlch]), rfl⟩, fun hst ho => ?_⟩
    have hx := execLaunchComplete_draining (by rwa [hlch]) ho
    refine ⟨fun u hu => ⟨u, by rw [hx, hu]; rfl, rfl, finishLaunch_complete (List.getElem?_eq_some_iff.1 hl).1 hu⟩,
      fun hn => ⟨_, by rw [hx, hn]; rfl, rfl⟩, fun hb hs hf hc => ⟨_, by rw [hx, finishLaunch_plain hl hb hs hf hc]; rfl, rfl⟩⟩
  case blocks =>
    exact ⟨fun h => ⟨s, execBlockRetire_of_running h, rfl⟩, fun hg ho => ⟨fun hf => blockRetire_released hx hst hg ho hf,
      fun hf ⟨y, hy, hne, hl⟩ => blockRetire_held hx hst hg ho hf hy hne hl⟩⟩
  case die =>
    obtain ⟨hgroups, -, hcourses, hdead⟩ := dieLogged_keeps s die
    refine ⟨_, execDieFatalFailure_eq hd hn hp, (dieDone_placesNone s die).dead.trans hdead, fun e _ he => dieDone_idle s he, fun h => ?_⟩
    obtain ⟨hmg, hwork⟩ := Prod.mk.inj (dieDone_of_ended h)
    obtain ⟨hg, -, hc, -⟩ := State.AtHome.fields hwork
    exact ⟨by rw [hmg]; rfl, hg.trans hgroups, hc.trans hcourses⟩
  case noDie =>
    refine ⟨s, ?_, rfl⟩
    show execDieFatalFailure die s = _
    rw [execDieFatalFailure, if_pos (h.imp_right List.contains_iff_mem.2)]
  case lost =>
    obtain ⟨l, hmem, he⟩ := failCourse_running hst hi hb hd hlive
    have hll : (s.blk b).launch < s.launches.length := by
      rw [← List.getElem?_eq_none_iff.not.trans not_le]; exact hl
    obtain ⟨⟨hlost, hscr, hbr, hexit⟩, hloses⟩ := loseBlocks_lost hmem hlt hll
    rw [he]
    refine ⟨hlost, hscr, hloses.launch b ▸ hbr, fun g x hg hx => hexit g (hloses.exits.size ▸ lt_of_getElem? hg) ?_⟩
    rw [hloses.exits.blk, grp_of_getElem? hg, hx]

end Sys2Proof.Machine
end

section
/-! ## Lent ways return (O41) -/

namespace Sys2Proof.Machine

open Sys2Proof

/-! ### Entries of a table -/

theorem tget_of_mem {α : Type} (d : α) {m : SMap α} {k : Nat} {v : α} (hn : (m.map Prod.fst).Nodup) (h : (k, v) ∈ m) : tget d m k = v := by
  induction m with
  | nil => cases h
  | cons e t ih =>
    obtain ⟨he, ht⟩ := List.nodup_cons.1 hn
    rw [tget]
    obtain rfl | h := List.mem_cons.1 h
    · exact if_pos rfl
    · rw [if_neg fun (hk : e.1 = k) => he (hk ▸ List.mem_map_of_mem h), ih ht h]

theorem mem_of_tget_ne {α : Type} {d : α} {m : SMap α} {k : Nat} (h : tget d m k ≠ d) : (k, tget d m k) ∈ m := by
  induction m with
  | nil => exact absurd rfl h
  | cons e t ih =>
    rw [tget] at h ⊢
    split at h
    · next hk => rw [if_pos hk, ← hk]; exact List.mem_cons_self
    · next hk => rw [if_neg hk]; exact List.mem_cons_of_mem _ (ih h)

/-! ### A line that is dropped -/

theorem line_setLine (s : State) (core l k : Nat) (x : CLine) : (s.setLine core 0 l x).line core 0 k = if k = l then x else s.line core 0 k := by
  rw [State.line, State.setLine, core_setCore_self, tget_tset]
  exact if_congr (by omega) rfl rfl

theorem dropLine_line (s : State) (core l tag by_ k : Nat) : (s.dropLine core 0 l tag by_).line core 0 k =
    if k = l then { CLine.none with pending := (s.line core 0 l).pending } else s.line core 0 k := by
  rw [← line_setLine]
  unfold State.dropLine
  dsimp only
  split <;> rfl

theorem mem_dropLine_agenda {s : State} {e : Event} (h : e ∈ s.agenda) (core l tag by_ : Nat) : e ∈ (s.dropLine core 0 l tag by_).agenda := by
  unfold State.dropLine
  dsimp only
  split <;> exact List.mem_append_left _ h

/-- What a line holds dirty goes home (R437). -/
theorem dropLine_wb {s : State} {core l : Nat} (h : (s.line core 0 l).dirty ≠ 0) (tag by_ : Nat) :
    ∃ m, .wb m ∈ (s.dropLine core 0 l tag by_).agenda ∧ m.core = core := by
  unfold State.dropLine
  dsimp only
  rw [if_neg fun hd => h hd.1]
  refine ⟨_, List.mem_append_right _ List.mem_cons_self, ?_⟩
  split <;> rfl

/-! ### The lines that go -/

/-- Ways that L1 keeps of those it was lent (R237). -/
def State.keptWays (s : State) (core : Nat) : Nat := min (s.core core).lent (s.lendable core)

/-- Line `l` of L1 goes: as many lines of its set as L1 keeps ways were used later (R236, R238). -/
def State.LineGoes (s : State) (core l : Nat) : Prop :=
  (s.line core 0 l).st ≠ .I ∧ 16 + s.keptWays core ≤
    ((s.core core).lines.filter fun f => decide (f.1 % 4 = 0 ∧ f.2.st ≠ .I ∧ f.1 / 4 % 64 = l % 64 ∧ (s.line core 0 l).use < f.2.use)).length

/-- No fill of the line is in flight, no access to it is to be performed and no request names it (R238, R239). -/
def State.LineFree (s : State) (core l : Nat) : Prop := fld (s.line core 0 l).pending 0 3 = 0 ∧ s.lineBusy core l = false

/-- Entries of L1 that a reclaim drops. -/
def State.linesGoing (s : State) (core : Nat) : SMap CLine :=
  (s.core core).lines.filter fun e =>
    e.1 % 4 == 0 && e.2.st != .I &&
      decide (16 + Nat.min (s.core core).lent (s.lendable core) ≤ ((s.core core).lines.filter fun f =>
        f.1 % 4 == 0 && f.2.st != .I && f.1 / 4 % 64 == e.1 / 4 % 64 && decide (e.2.use < f.2.use)).length)

theorem mem_linesGoing {s : State} {core : Nat} (hn : ((s.core core).lines.map Prod.fst).Nodup) (e : Nat × CLine) :
    e ∈ s.linesGoing core ↔ ∃ l, e = (4 * l, s.line core 0 l) ∧ s.LineGoes core l := by
  have hcount : ∀ l x, (((s.core core).lines.filter fun f => f.1 % 4 == 0 && f.2.st != .I && f.1 / 4 % 64 == l % 64 && decide (x < f.2.use)) =
      (s.core core).lines.filter fun f => decide (f.1 % 4 = 0 ∧ f.2.st ≠ .I ∧ f.1 / 4 % 64 = l % 64 ∧ x < f.2.use)) := fun l x =>
    List.filter_congr fun f _ => by rw [Bool.eq_iff_iff]; simp [and_assoc]
  obtain ⟨k, v⟩ := e
  simp only [State.linesGoing, List.mem_filter, hcount, Bool.and_eq_true, beq_iff_eq, bne_iff_ne, decide_eq_true_eq]
  constructor
  · rintro ⟨hmem, ⟨hk, hst⟩, hlen⟩
    have hkey : 4 * (k / 4) = k := by omega
    have hline : s.line core 0 (k / 4) = v := tget_of_mem _ hn (by rwa [Nat.add_zero, hkey])
    exact ⟨k / 4, by rw [hkey, hline], by rwa [hline], by rwa [hline]⟩
  · rintro ⟨l, he, hst, hlen⟩
    obtain ⟨rfl, rfl⟩ := Prod.mk.inj he
    have hdiv : 4 * l / 4 = l := by omega
    refine ⟨mem_of_tget_ne fun h => hst ?_, ⟨by omega, hst⟩, by rwa [hdiv]⟩
    rw [State.line, Nat.add_zero, h]
    rfl

/-- L1 without the lines that go. -/
def State.dropGoing (s : State) (core : Nat) : State := (s.linesGoing core).foldl (fun s e => s.dropLine core 0 (e.1 / 4) 0 e.2.ctx) s

theorem dropGoing_stays {s : State} {core l : Nat} (hn : ((s.core core).lines.map Prod.fst).Nodup) (h : ¬ s.LineGoes core l) :
    (s.dropGoing core).line core 0 l = s.line core 0 l := by
  refine List.foldlRecOn (motive := fun u : State => u.line core 0 l = s.line core 0 l) _ _ rfl fun u hu e he => ?_
  obtain ⟨j, rfl, hj⟩ := (mem_linesGoing hn e).1 he
  rw [dropLine_line, if_neg fun (hl : l = 4 * j / 4) => h ((show l = j by omega) ▸ hj), hu]

/-- Line `l` of `s` has left L1 in `u`, and a write-back of what it held dirty is due. -/
def State.LineGone (s : State) (core l : Nat) (u : State) : Prop :=
  (u.line core 0 l).st = .I ∧ ((s.line core 0 l).dirty ≠ 0 → ∃ m, .wb m ∈ u.agenda ∧ m.core = core)

theorem State.LineGone.dropLine {s u : State} {core l : Nat} (h : s.LineGone core l u) (j tag by_ : Nat) :
    s.LineGone core l (u.dropLine core 0 j tag by_) := by
  obtain ⟨hst, hwb⟩ := h
  refine ⟨?_, fun hd => ?_⟩
  · rw [dropLine_line]
    split
    · rfl
    · exact hst
  · obtain ⟨m, hm, hc⟩ := hwb hd
    exact ⟨m, mem_dropLine_agenda hm .., hc⟩

theorem lineGone_dropLine {s u : State} {core l : Nat} (h : u.line core 0 l = s.line core 0 l) (tag by_ : Nat) :
    s.LineGone core l (u.dropLine core 0 l tag by_) :=
  ⟨by rw [dropLine_line, if_pos rfl]; rfl, fun hd => dropLine_wb (by rwa [h]) ..⟩

theorem dropGoing_gone {s : State} {core l : Nat} (hn : ((s.core core).lines.map Prod.fst).Nodup) (h : s.LineGoes core l) :
    s.LineGone core l (s.dropGoing core) := by
  have hdiv : ∀ j, 4 * j / 4 = j := fun j => by omega
  refine foldl_of_mem (P := fun u => u.line core 0 l = s.line core 0 l ∨ s.LineGone core l u) ((mem_linesGoing hn _).2 ⟨l, rfl, h⟩)
    (fun u e hu => ?_) (fun u e hu => hu.dropLine ..) (fun u hu => ?_) (.inl rfl)
  · obtain hu | hu := hu
    · by_cases hl : l = e.1 / 4
      · exact .inr (hl ▸ lineGone_dropLine hu ..)
      · exact .inl (by rw [dropLine_line, if_neg hl, hu])
    · exact .inr (hu.dropLine ..)
  · rw [hdiv]
    obtain hu | hu := hu
    · exact lineGone_dropLine hu ..
    · exact hu.dropLine ..

theorem dropGoing_atHome (s : State) (core : Nat) : s.AtHome (s.dropGoing core) := (State.AtHome.refl s).foldl fun _ _ hu => hu.dropLine

theorem dropGoing_mem (s : State) (core : Nat) : (s.dropGoing core).mem = s.mem :=
  foldl_keeps (·.mem) _ (fun _ _ => congrArg Prod.fst (dropLine_contents ..)) _ s

/-! ### The reclaim -/

theorem foldl_push (f : Nat → Event) (l : List Nat) (s : State) :
    l.foldl (fun s b => s.push (f b)) s = { s with agenda := s.agenda ++ l.map f } := by
  induction l generalizing s with
  | nil => simp
  | cons b l ih => rw [List.foldl_cons, ih]; simp

theorem lineBusy_of_not_lineFree {s : State} {core l : Nat} (h : ¬ s.LineFree core l) : (fld (s.line core 0 l).pending 0 3 != 0 || s.lineBusy core l) = true := by
  unfold State.LineFree at h
  rw [not_and_or] at h
  simpa using h

theorem execReclaimComplete_waits {s : State} {core l : Nat} (hr : (s.core core).reclaim ≠ [])
    (hn : ((s.core core).lines.map Prod.fst).Nodup) (hl : s.LineGoes core l) (hf : ¬ s.LineFree core l) :
    exec (.reclaimComplete core) s = .next (s.push (.reclaimComplete core)) := by
  have hany : ((s.linesGoing core).any fun e => fld e.2.pending 0 3 != 0 || s.lineBusy core (e.1 / 4)) = true :=
    List.any_eq_true.2 ⟨_, (mem_linesGoing hn _).2 ⟨l, rfl, hl⟩, by simpa using lineBusy_of_not_lineFree hf⟩
  show execReclaimComplete core s = _
  unfold execReclaimComplete
  extract_lets c
  split
  · next h => exact absurd h hr
  · exact if_pos hany

/-- The core's pool is claimed no more for the waiting blocks `bs`, and each of them is to be allocated (R236). -/
def State.poolReturned (s : State) (core keep bytes : Nat) (bs : List Nat) : State :=
  bs.foldl (fun s b => s.push (.poolAllocationComplete b))
    (((s.setCore core { s.core core with lent := keep, reclaim := [] }).count 2 core 2 1).count 2 core 3 bytes)

theorem poolReturned_eq (s : State) (core keep bytes : Nat) (bs : List Nat) : ∃ cnt, s.poolReturned core keep bytes bs =
    { s.setCore core { s.core core with lent := keep, reclaim := [] } with agenda := s.agenda ++ bs.map .poolAllocationComplete, cnt := cnt } :=
  ⟨_, foldl_push ..⟩

theorem poolReturned_core (s : State) (core keep bytes : Nat) (bs : List Nat) : (s.poolReturned core keep bytes bs).core core =
    { s.core core with lent := keep, reclaim := [] } := by
  obtain ⟨cnt, h⟩ := poolReturned_eq s core keep bytes bs
  rw [h]
  exact core_setCore_self ..

theorem poolReturned_line (s : State) (core keep bytes : Nat) (bs : List Nat) (l : Nat) :
    (s.poolReturned core keep bytes bs).line core 0 l = s.line core 0 l := by
  rw [State.line, poolReturned_core]
  rfl

theorem poolReturned_agenda (s : State) (core keep bytes : Nat) (bs : List Nat) :
    (s.poolReturned core keep bytes bs).agenda = s.agenda ++ bs.map .poolAllocationComplete := by
  obtain ⟨cnt, h⟩ := poolReturned_eq s core keep bytes bs
  rw [h]

theorem poolReturned_mem (s : State) (core keep bytes : Nat) (bs : List Nat) : (s.poolReturned core keep bytes bs).mem = s.mem := by
  obtain ⟨cnt, h⟩ := poolReturned_eq s core keep bytes bs
  rw [h]
  rfl

theorem poolReturned_atHome (s : State) (core keep bytes : Nat) (bs : List Nat) : s.AtHome (s.poolReturned core keep bytes bs) := by
  obtain ⟨cnt, h⟩ := poolReturned_eq s core keep bytes bs
  rw [h]
  exact (State.AtHome.refl s).frame rfl

theorem execReclaimComplete_returns {s : State} {core : Nat} (hr : (s.core core).reclaim ≠ [])
    (hn : ((s.core core).lines.map Prod.fst).Nodup) (hf : ∀ l, s.LineGoes core l → s.LineFree core l) :
    ∃ bytes, exec (.reclaimComplete core) s = .next ((s.dropGoing core).poolReturned core (s.keptWays core) bytes (s.core core).reclaim) := by
  have hany : ¬ ((s.linesGoing core).any fun e => fld e.2.pending 0 3 != 0 || s.lineBusy core (e.1 / 4)) = true := by
    rw [List.any_eq_true]
    rintro ⟨e, he, hbusy⟩
    obtain ⟨l, rfl, hl⟩ := (mem_linesGoing hn e).1 he
    obtain ⟨hp, hb⟩ := hf l hl
    have hdiv : 4 * l / 4 = l := by omega
    simp [hdiv, hp, hb] at hbusy
  refine ⟨(s.linesGoing core).foldl (fun n e => n + 128 * (fld e.2.dirty 0 1 + fld e.2.dirty 1 1)) 0, ?_⟩
  show execReclaimComplete core s = _
  unfold execReclaimComplete
  extract_lets c
  split
  · next h => exact absurd h hr
  · exact if_neg hany

theorem execReclaimComplete_of_nil {s : State} {core : Nat} (hr : (s.core core).reclaim = []) : exec (.reclaimComplete core) s = .next s := by
  show execReclaimComplete core s = _
  unfold execReclaimComplete
  extract_lets c
  rw [hr]

theorem reclaimReturnsLentWays : Claims.ReclaimReturnsLentWays := by
  intro s core
  refine ⟨fun hr => ⟨s, execReclaimComplete_of_nil hr, rfl⟩,
    fun hr hn => ⟨fun hf => ?returns, fun ⟨l, hl, hf⟩ => ⟨_, execReclaimComplete_waits hr hn hl hf, rfl⟩⟩⟩
  case returns =>
    obtain ⟨bytes, he⟩ := execReclaimComplete_returns hr hn hf
    refine ⟨_, he, ?_⟩
    obtain ⟨hgroups, hblocks, -, -, hops, -⟩ := ((dropGoing_atHome s core).trans (poolReturned_atHome ..)).fields
    simp only [State.SameBytes, poolReturned_core, poolReturned_agenda, poolReturned_line, poolReturned_mem, dropGoing_mem, true_and]
    refine ⟨rfl, fun l hl => ?_, fun l hl => dropGoing_stays hn hl, fun b hb => List.mem_append_right _ (List.mem_map_of_mem hb),
      hblocks, hgroups, hops⟩
    obtain ⟨hst, hwb⟩ := dropGoing_gone hn hl
    refine ⟨hst, fun hd => ?_⟩
    obtain ⟨m, hm, hc⟩ := hwb hd
    exact ⟨m, List.mem_append_left _ hm, hc⟩

/-- Settles O41, from one lemma per event: what completes or retires takes its case of the rule, a reclaim drops exactly the lines that go. -/
theorem launchesAndBlocksEnd : Obligations.LaunchesAndBlocksEnd := ⟨blocksLaunchesAndDiesEnd, reclaimReturnsLentWays⟩

end Sys2Proof.Machine
end

section
/-! ## Fences, DISCARD and PREF (O21) -/

namespace Sys2Proof.Machine

open Sys2Proof

/-! ### What an issue leaves of the group's place, and what may change around it -/

theorem issueOp_phase {s : State} {g : Group} (hg : s.groups[s.cur]? = some g) (o : Op) :
    ((s.issueOp s.cur o).grp s.cur).phase = g.onward.phase := by
  rw [State.issueOp, grp_of_getElem? hg]
  refine (congrArg Group.phase (grp_of_getElem? (setGrp_getElem? hg _))).trans ?_
  simp only [Group.mark]
  split <;> rfl

/-- Operations and due steps, and the group itself, may change. -/
theorem State.Around.group {s t : State} {n : Nat} (h : s.Around t n) (hn : n < t.groups.length) (x : Group) (ops : SMap Op) (agenda : List Event) :
    s.Around { t with groups := t.groups.set n x, ops := ops, agenda := agenda } n := by
  have hx : ({ t with groups := t.groups.set n x, ops := ops, agenda := agenda } : State).grp n = x := grp_setGrp_self (List.getElem?_eq_getElem hn) x
  unfold State.Around at h ⊢
  rw [hx, h]
  simp

theorem State.Around.setOp {s t : State} {n : Nat} (h : s.Around t n) (o : Nat) (x : Op) : s.Around (t.setOp o x) n := by
  have e := congrArg (fun u : State => { u with ops := tins t.ops o x }) h
  exact e

/-! ### A fence -/

theorem settle_one {s : State} {op : Nat} {p : Op} (h : s.ops = [(op, p)]) : s.settle 1 = s.settleOp op := by
  rw [State.settle, h]
  rfl

/-- With one operation in flight, nothing of its group is older. -/
theorem older_single {s : State} {op : Nat} {p : Op} (h : s.ops = [(op, p)]) :
    ((s.opsOf p.gid).filter fun e => decide (e.1 < op) && e.2.instr.touches) = [] := by
  rw [List.filter_eq_nil_iff]
  intro e he
  have hlone : e = (op, p) := by simpa [h] using List.mem_of_mem_filter he
  simp [hlone]

/-- A fence alone in flight that is not sc is over (R103). -/
theorem settleOp_fence {s : State} {op : Nat} {p : Op} {r : Order} {k : Scope} (h : s.ops = [(op, p)]) (hi : p.instr = .fence r k) (hr : r ≠ .sc) :
    s.settleOp op = s.endOp op := by
  have hf : (p.instr.fenceAcq || p.instr.fenceRel) = true := by
    rw [hi]
    cases r <;> rfl
  have hold := older_single h
  unfold State.settleOp
  simp only [tfind_single h, if_pos hf, State.settleFence, hold]
  cases r with
  | sc => exact absurd rfl hr
  | acq => rw [hi]; rfl
  | _ => rw [hi]; rfl

/-- An sc fence alone in flight waits for its tick (R105). -/
theorem settleOp_fenceSc {s : State} {op : Nat} {p : Op} {k : Scope} (h : s.ops = [(op, p)]) (hi : p.instr = .fence .sc k) (hst : p.stage = .cleared) :
    s.settleOp op = s.setOp op { p with stage := .tick (if k = .system then 8 * (s.tick / 8 + 2) else s.tick + 2) } := by
  have hold := older_single h
  unfold State.settleOp
  simp only [tfind_single h, State.settleFence, hold, hi, hst, if_true]
  cases k <;> rfl

theorem tins_single {α : Type} (k : Nat) (v w : α) : tins [(k, v)] k w = [(k, w)] := by simp [tins]

/-- The end of the one operation in flight. -/
theorem endOp_single {s : State} {op : Nat} {p : Op} (h : s.ops = [(op, p)]) : ∃ agenda, s.endOp op =
    { s with groups := s.groups.set p.gid ((s.grp p.gid).ended p), ops := [], agenda := agenda } := by
  obtain ⟨agenda, he⟩ := endOp_eq s op
  rw [op_single h, h] at he
  exact ⟨agenda, he.trans (by simp [tdel])⟩

theorem ended_sameRegs {g x : Group} (h : g.SameRegs x) (p : Op) : g.SameRegs (x.ended p) := by
  rw [ended_eq]
  exact h

theorem ended_phase (g : Group) (p : Op) : (g.ended p).phase = g.phase := by rw [ended_eq]

theorem execFenceScComplete_due {s : State} {op n : Nat} {p : Op} (h : s.ops = [(op, p)]) (hst : p.stage = .tick n) (hn : n ≤ s.tick) :
    exec (.fenceScComplete op) s = .next (s.endOp op) := by
  obtain ⟨agenda, he⟩ := endOp_single h
  have hbefore : ∀ l : List Nat, before l l = false := fun l => by
    induction l with
    | nil => rfl
    | cons x l ih => simp [before, ih]
  have hfirst : s.scEarlier (op, p) = false := by simp [State.scEarlier, h, hbefore]
  have hsettle : (s.endOp op).settle 1 = s.endOp op := settle_of_ops_nil (by rw [he]) 1
  show execFenceScComplete op s = _
  unfold execFenceScComplete
  simp [tfind_single h, hst, hn, hfirst, hsettle]

theorem execFenceScComplete_early {s : State} {op n : Nat} {p : Op} (h : s.ops = [(op, p)]) (hst : p.stage = .tick n) (hn : s.tick < n) :
    exec (.fenceScComplete op) s = .next s := by
  show execFenceScComplete op s = _
  unfold execFenceScComplete
  simp [tfind_single h, hst, Nat.not_le.2 hn]

theorem fencesComplete : Claims.FencesComplete := by
  refine ⟨fun s g r k h0 h => ?issue, fun s op p n h hst => ⟨fun hn => ?_, fun hn => ⟨s, execFenceScComplete_early h hst hn, rfl⟩⟩⟩
  case issue =>
    let u := s.issueOp s.cur (g.newOp s.cur (.fence r k))
    have hin : InFlight s u g (.fence r k) fun _ => True := issuedOp_inFlight h.1.1 ⟨rfl, rfl, rfl, rfl⟩ fun _ => trivial
    have hphase : (u.grp s.cur).phase = g.onward.phase := issueOp_phase h.1.1 _
    obtain ⟨o, hops, hi, hst, hgid⟩ : ∃ o, u.ops = [(s.nextOp, o)] ∧ o.instr = .fence r k ∧ o.stage = .cleared ∧ o.gid = s.cur :=
      ⟨_, congrArg (tins · s.nextOp _) h0, rfl, rfl, rfl⟩
    have hlen : s.cur < u.groups.length := by
      rw [show u.groups.length = s.groups.length from List.length_set]
      exact lt_of_getElem? h.1.1
    refine h.answers (execFence r k s) rfl rfl ?_
    show s.Around (u.settle 1) s.cur ∧ _
    rw [settle_one hops]
    by_cases hr : r = .sc
    · subst hr
      rw [settleOp_fenceSc hops hi hst]
      exact ⟨hin.around.setOp _ _, hin.sameRegs, hphase, fun hne => absurd rfl hne, fun _ => ⟨_, by rw [State.setOp, hops, tins_single], rfl⟩⟩
    · obtain ⟨agenda, he⟩ := endOp_single hops
      have hgrp : (u.settleOp s.nextOp).grp s.cur = (u.grp s.cur).ended o := by
        rw [settleOp_fence hops hi hr, he, hgid]
        exact grp_setGrp_self (List.getElem?_eq_getElem hlen) _
      rw [hgrp, ended_phase, settleOp_fence hops hi hr, he, hgid]
      exact ⟨hin.around.group hlen _ _ _, ended_sameRegs hin.sameRegs o, hphase, fun _ => rfl, fun hsc => absurd hsc hr⟩
  · obtain ⟨agenda, he⟩ := endOp_single h
    exact ⟨_, execFenceScComplete_due h hst hn, by rw [he], by rw [he]; exact ⟨rfl, rfl⟩⟩

/-! ### DISCARD and PREF issue -/

theorem discardAndPrefetchIssue : Claims.DiscardAndPrefetchIssue := by
  intro s g a c x p
  refine ⟨fun h hp hk hk' hd hb hl => ?_, fun h hr hl hb hs => ?_⟩
  · have hget : ∀ k, k < 2 → (g.params a 2).getD k 0 = p k := fun k hk => params_getD g a hk
    refine h.answers (execDiscard a c s) rfl rfl ?_
    simp only [hget 0 (by omega), hget 1 (by omega), Cap.has]
    rw [if_neg (by omega), if_neg (by simpa using hd), if_neg (by simp only [x] at hb hl; omega)]
    exact ⟨(issuedOp_inFlight h.1.1 ⟨rfl, rfl, rfl, rfl⟩ fun _ => rfl).push _, by simp [lineOf, x]⟩
  · have hget : ∀ k, k < 3 → (g.params a 3).getD k 0 = p k := fun k hk => params_getD g a hk
    refine h.answers (execPref a c s) rfl rfl ?_
    simp only [hget 0 (by omega), hget 1 (by omega), hget 2 (by omega), Cap.has]
    rw [if_neg (by simpa using hr), if_neg (Nat.not_lt.2 hl), if_neg (not_not.2 hb), if_neg (Nat.not_lt.2 hs)]
    exact ⟨(issuedOp_inFlight h.1.1 ⟨rfl, rfl, rfl, rfl⟩ fun _ => ⟨rfl, rfl, rfl⟩).push _, by simp⟩

end Sys2Proof.Machine
end

section
/-! ## A prefetch arrives (O21) -/

namespace Sys2Proof.Machine

open Sys2Proof

/-! ### Reading back part of what was written -/

theorem mread_lt (m : List Host.Cell) (a n : Nat) : mread m a n < 256 ^ n := by
  induction n generalizing a with
  | zero => simp [mread]
  | succ n ih =>
    have hbyte : (mget m a).toNat < 256 := (mget m a).isLt
    have hrest := ih (a + 1)
    rw [mread, Nat.pow_succ']
    omega

/-- What was written is read in any part of it. -/
theorem mread_mwrite_within (m : List Host.Cell) (a v : Nat) {n i k : Nat} (h : i + k ≤ n) :
    mread (mwrite m a n v) (a + i) k = v / 256 ^ i % 256 ^ k := by
  induction k generalizing i with
  | zero => simp [mread, Nat.mod_one]
  | succ k ih =>
    rw [mread, mget_mwrite_in _ _ _ _ _ (by omega), Nat.add_assoc, ih (by omega), Nat.pow_succ' (n := k), Nat.mod_mul, Nat.pow_succ,
      Nat.div_div_eq_div_mul, BitVec.toNat_ofNat]

/-- A write's own words read as that part of the value. -/
theorem sread_swrite_within {s : State} {b : Nat} (hb : b < s.blocks.length) (a v : Nat) {n i k : Nat} (h : i + k ≤ n) :
    (s.swrite b a n v).sread b (a + i) k = v / 256 ^ i % 256 ^ k := by
  have hblk : ((s.swrite b a n v).blk b).scr = mwrite (s.blk b).scr a n v := by
    rw [State.swrite, blk_congr (congrArg (fun c => c.2.1) (touchScr_contents ..)), blk_setBlk, if_pos ⟨rfl, hb⟩]
  rw [State.sread, hblk, mread_mwrite_within _ _ _ h]

/-! ### A barrier written -/

/-- Words of a barrier are written modulo 2^32, and the reserved bits of STAT as zero (R6, R283). -/
def Bar.written (x : Bar) : Bar :=
  ⟨x.rem % 2 ^ 32, x.bal % 2 ^ 32, x.phase % 2 ^ 32, x.arr0 % 2 ^ 32, x.byt0 % 2 ^ 32, statBits x.stat⟩

theorem bar_setBar {s : State} {b : Nat} (hb : b < s.blocks.length) (off : Nat) (x : Bar) : (s.setBar b off x).bar b off = x.written := by
  have hstat : fld x.stat 0 3 + 256 * fld x.stat 8 2 = statBits x.stat := by simp [fld, statBits]
  have hlt : statBits x.stat < 1024 := by rw [statBits]; omega
  have hb' : ∀ k, b < (s.setBlk b k).blocks.length := fun k => by rw [show (s.setBlk b k).blocks.length = s.blocks.length from List.length_set]; exact hb
  simp only [State.setBar, State.bar, Bar.written, hstat]
  rw [show ∀ t : State, t.sread b off 4 = t.sread b (off + 0) 4 from fun _ => rfl]
  simp only [sread_swrite_within (hb' _) off _ (show 0 + 4 ≤ 24 by omega), sread_swrite_within (hb' _) off _ (show 4 + 4 ≤ 24 by omega),
    sread_swrite_within (hb' _) off _ (show 8 + 4 ≤ 24 by omega), sread_swrite_within (hb' _) off _ (show 12 + 4 ≤ 24 by omega),
    sread_swrite_within (hb' _) off _ (show 16 + 4 ≤ 24 by omega), sread_swrite_within (hb' _) off _ (show 20 + 4 ≤ 24 by omega), Bar.mk.injEq]
  refine ⟨?_, ?_, ?_, ?_, ?_, ?_⟩ <;> omega

theorem setBar_keepsOutside {s : State} {b : Nat} (hb : b < s.blocks.length) (off : Nat) (x : Bar) : s.KeepsOutside (s.setBar b off x) b off 24 := by
  refine ⟨swrite_mem .., fun k a ha => ?_⟩
  rw [State.setBar, sread_swrite (by rwa [State.setBlk_blocks, List.length_set]), if_neg (by omega), sread_byte, sread_byte, blk_setBlk]
  split
  · next hk => rw [hk.1]
  · rfl

theorem setBar_ops (s : State) (b off : Nat) (x : Bar) : (s.setBar b off x).ops = s.ops := swrite_ops ..

theorem bar_congr {s t : State} (h : t.blocks = s.blocks) (b off : Nat) : t.bar b off = s.bar b off := by
  simp only [State.bar, sread_of_blocks h]

theorem bar_lt (s : State) (b off : Nat) : (s.bar b off).rem < 2 ^ 32 ∧ (s.bar b off).bal < 2 ^ 32 ∧ (s.bar b off).phase < 2 ^ 32 ∧
    (s.bar b off).arr0 < 2 ^ 32 ∧ (s.bar b off).byt0 < 2 ^ 32 :=
  ⟨mread_lt _ _ 4, mread_lt _ _ 4, mread_lt _ _ 4, mread_lt _ _ 4, mread_lt _ _ 4⟩

/-- A barrier after one arrival without bytes, before its words are cut to 32 bits (R286). -/
def Bar.arrived (x : Bar) : Bar := { x with rem := x.rem + 2 ^ 32 - 1 % 2 ^ 32, bal := x.bal + 2 ^ 32 - 0 % 2 ^ 32 }

theorem arrived_written {s : State} {b off : Nat} (hr : 1 ≤ (s.bar b off).rem) : (s.bar b off).arrived.written =
    { s.bar b off with rem := (s.bar b off).rem - 1, stat := statBits (s.bar b off).stat } := by
  obtain ⟨hrem, hbal, hphase, harr, hbyt⟩ := bar_lt s b off
  simp only [Bar.written, Bar.arrived, Bar.mk.injEq, and_true]
  refine ⟨?_, ?_, Nat.mod_eq_of_lt hphase, Nat.mod_eq_of_lt harr, Nat.mod_eq_of_lt hbyt⟩ <;> omega

/-- One arrival without bytes at a barrier that lacks more than one arrival: REM is one less, and the phase goes on (R286). -/
theorem barApply_arrival {s : State} {b off : Nat} (hb : b < s.blocks.length) (hbr : (s.bar b off).broken = false) (hh : (s.bar b off).h0 = false)
    (hr : 2 ≤ (s.bar b off).rem) : s.barApply b off 1 0 none = s.setBar b off (s.bar b off).arrived := by
  have hrem : ((s.setBar b off (s.bar b off).arrived).bar b off).rem ≠ 0 := by
    rw [bar_setBar hb, arrived_written (by omega)]
    exact Nat.sub_ne_zero_of_lt hr
  have hcheck : (s.setBar b off (s.bar b off).arrived).barCheck b off = s.setBar b off (s.bar b off).arrived :=
    if_neg fun h => hrem h.2.1
  unfold State.barApply
  rw [if_neg (by simp [hbr]), if_neg (by simp [hh])]
  exact hcheck

/-! ### The lines of a prefetch -/

/-- A line of a prefetch has nothing to fill: it is skipped, left as it is, or L2 holds it (R235). -/
def State.NoFill (s : State) (l : Nat) (r : Option Nat) : Prop := ∃ k, r = some k ∧ (k < 2 ∨ (s.inL2 l 0 = true ∧ s.inL2 l 1 = true))

/-- Asking about lines that need no fill changes nothing. -/
theorem foldl_prefLine {s : State} {op : Nat} {ls : List Nat} (h : ∀ l ∈ ls, ∃ r, s.prefLine op l = (s, r) ∧ s.NoFill l r)
    (rs : List (Nat × Option Nat)) (hrs : ∀ e ∈ rs, s.NoFill e.1 e.2) :
    ∃ rs', ls.foldl (fun (r : State × List (Nat × Option Nat)) l => let (s, x) := r.1.prefLine op l; (s, r.2 ++ [(l, x)])) (s, rs) = (s, rs') ∧
      ∀ e ∈ rs', s.NoFill e.1 e.2 := by
  induction ls generalizing rs with
  | nil => exact ⟨rs, rfl, hrs⟩
  | cons l ls ih =>
    obtain ⟨r, hl, hr⟩ := h l List.mem_cons_self
    rw [List.foldl_cons, hl]
    refine ih (fun l' hl' => h l' (List.mem_cons_of_mem _ hl')) _ fun e he => ?_
    obtain he | he := List.mem_append.1 he
    · exact hrs e he
    · rw [List.mem_singleton.1 he]
      exact hr

/-- Lines that L2 holds stay as they are, and no other is filled (R235). -/
theorem foldl_prefFill {s : State} {rs : List (Nat × Option Nat)} (h : ∀ e ∈ rs, s.NoFill e.1 e.2) (by_ : State → Nat) :
    rs.foldl (fun s r => if r.2 = some 2 ∨ r.2 = some 3 then (s.prefFill r.1 0 (r.2 == some 3) (by_ s)).prefFill r.1 1 (r.2 == some 3) (by_ s) else s) s
      = s := by
  refine List.foldlRecOn (motive := fun u : State => u = s) _ _ rfl fun u hu e he => ?_
  subst hu
  obtain ⟨k, hk, hfill⟩ := h e he
  split
  · next h2 =>
    obtain ⟨h0, h1⟩ := hfill.resolve_left fun hlt => by rw [hk] at h2; simp at h2; omega
    simp only [State.prefFill, h0, h1, if_true]
  · rfl

/-- A prefetch with no line to fill makes its one arrival, and is over (R235). -/
theorem execPrefArrival_noFill {s : State} {op : Nat} {p : Op} {a : RF} {c : Fin 16} (h : s.ops = [(op, p)]) (hi : p.instr = .pref a c)
    (hl : ∀ l ∈ linesOf (p.cap1.obj * 2 ^ 40 + p.cap1.base + p.ps.getD 0 0) (p.ps.getD 1 0), ∃ r, s.prefLine op l = (s, r) ∧ s.NoFill l r) :
    ∃ n, exec (.prefArrival op) s =
      .next (((s.count 2 (s.blk (s.grp p.gid).blk).core 4 n).barApply (s.grp p.gid).blk (p.ps.getD 2 0) 1 0 none).completeOp op) := by
  obtain ⟨rs, hfold, hrs⟩ := foldl_prefLine hl [] (by simp)
  have hnone : ¬ (rs.any fun r => r.2.isNone) = true := by
    rw [List.any_eq_true]
    rintro ⟨e, he, hn⟩
    obtain ⟨k, hk, -⟩ := hrs e he
    rw [hk] at hn
    cases hn
  refine ⟨(rs.filter fun r => r.2 == some 0).length, ?_⟩
  show execPrefArrival op s = _
  unfold execPrefArrival
  simp only [tfind_single h, hi, hfold, if_neg hnone, foldl_prefFill hrs fun s => (s.glch p.gid).ctx]

theorem prefetchArrives : Claims.PrefetchArrives := by
  intro s op p a c off h hi hl hoff _ hb x hbr hh hr
  obtain ⟨n, he⟩ := execPrefArrival_noFill h hi fun l hm => by
    obtain ⟨k, hk, hfill⟩ := hl l hm
    exact ⟨some k, hk, k, rfl, hfill⟩
  let u := s.count 2 (s.blk (s.grp p.gid).blk).core 4 n
  have hbar : u.bar (s.grp p.gid).blk off = x := bar_congr rfl ..
  have harr := barApply_arrival (s := u) (off := off) hb (by rwa [hbar]) (by rwa [hbar]) (by rwa [hbar])
  rw [hbar] at harr
  have hback := (bar_setBar (s := u) hb off _).trans (arrived_written (by rw [hbar]; omega))
  rw [hbar] at hback
  have hops : (u.setBar (s.grp p.gid).blk off x.arrived).ops = [(op, p)] := (setBar_ops ..).trans h
  obtain ⟨hmem, hkeep⟩ := setBar_keepsOutside (s := u) hb off x.arrived
  obtain ⟨agenda, phase, lanes, hc⟩ := completeOp_eq (u.setBar (s.grp p.gid).blk off x.arrived) op
  rw [hoff, harr, hc, hops] at he
  refine ⟨_, he, by simp [tdel], (bar_congr rfl ..).trans hback, hmem, fun k i hki => ?_⟩
  exact (sread_of_blocks rfl ..).trans (hkeep k i hki)

/-- Settles O21, from what an issue leaves in flight, the end of the one operation in flight, and a barrier read back from the write of its words. -/
theorem fencesDiscardsAndPrefetches : Obligations.FencesDiscardsAndPrefetches := ⟨fencesComplete, discardAndPrefetchIssue, prefetchArrives⟩

end Sys2Proof.Machine
end

section
/-! ## The package right after reset (O59) -/

namespace Sys2Proof.Machine

/-- A counter that nothing has counted in reads as what is counted there first. -/
theorem tget_cnt_count (s : State) (b i k n : Nat) (h : s.cnt = []) :
    tget 0 (s.count b i k n).cnt ((b * 65536 + i) * 64 + k) = min n (2 ^ 64 - 1) := by
  simp [State.count, h, tget]

/-- Settles O59: each field as `State.reset` lists it; what a table of it does not list reads as the empty entry. -/
theorem resetState : Obligations.ResetState :=
  ⟨rfl, rfl, rfl, rfl, rfl, rfl, rfl, fun _ => rfl, fun _ _ => rfl, fun b i k n => tget_cnt_count _ b i k n rfl, fun _ => rfl, rfl⟩

end Sys2Proof.Machine
end

section
/-! ## What agents at the homes, the fabric and departing courses leave alone

`State.AtHome` says what the agents at the homes (R30) leave of the program's own state. Of the launch engine, the contexts and the management engine they
change nothing either, but for the error log: nor do the teardowns of the fabric and the operations of a course that leaves its cores. `State.SameLedger`
says this, with one lemma `State.SameLedger.f` for each function `f`, which chain as the model's own text does. -/

namespace Sys2Proof.Machine

open Sys2Proof

/-- The time, blocks, courses and launches, the contexts, the launch engine, the management engine but for its log, and the limits of the tree caches. -/
def State.ledger (s : State) : State :=
  { State.reset with
    tick := s.tick, blocks := s.blocks, courses := s.courses, launches := s.launches, ctxs := s.ctxs, le := s.le
    fab := { State.reset.fab with tclim := s.fab.tclim }, mg := { s.mg with log := State.reset.mg.log } }

/-- The two states agree in their ledgers. -/
def State.SameLedger (s t : State) : Prop := t.ledger = s.ledger

namespace State.SameLedger

variable {s t : State}

theorem refl (s : State) : s.SameLedger s := rfl

theorem trans {u : State} (h : s.SameLedger t) (h' : t.SameLedger u) : s.SameLedger u := Eq.trans h' h

theorem at_ledger {α : Type} (h : s.SameLedger t) (f : State → α) : f t.ledger = f s.ledger := congrArg f h

theorem tick (h : s.SameLedger t) : t.tick = s.tick := h.at_ledger State.tick

theorem blocks (h : s.SameLedger t) : t.blocks = s.blocks := h.at_ledger State.blocks

theorem courses (h : s.SameLedger t) : t.courses = s.courses := h.at_ledger State.courses

theorem launches (h : s.SameLedger t) : t.launches = s.launches := h.at_ledger State.launches

theorem ctxs (h : s.SameLedger t) : t.ctxs = s.ctxs := h.at_ledger State.ctxs

theorem le (h : s.SameLedger t) : t.le = s.le := h.at_ledger State.le

theorem tclim (h : s.SameLedger t) : t.fab.tclim = s.fab.tclim := h.at_ledger fun u => u.fab.tclim

theorem islands (h : s.SameLedger t) : t.mg.islands = s.mg.islands := h.at_ledger fun u => u.mg.islands

theorem ctx (h : s.SameLedger t) (c : Nat) : t.ctx c = s.ctx c := by rw [State.ctx, h.ctxs]; rfl

theorem crs (h : s.SameLedger t) (c : Nat) : t.crs c = s.crs c := by rw [State.crs, h.courses]; rfl

theorem queue (h : s.SameLedger t) (c qn : Nat) : t.queue c qn = s.queue c qn := by rw [State.queue, h.le]; rfl

theorem ite {c : Prop} [Decidable c] {a b : State} (ha : s.SameLedger a) (hb : s.SameLedger b) : s.SameLedger (if c then a else b) := by
  split
  · exact ha
  · exact hb

theorem foldl {α : Type} {f : State → α → State} {l : List α} (h : s.SameLedger t) (hf : ∀ u x, s.SameLedger u → s.SameLedger (f u x)) :
    s.SameLedger (l.foldl f t) :=
  List.foldlRecOn l f h fun u hu x _ => hf u x hu

theorem foldlFst {α β : Type} {f : State × β → α → State × β} {l : List α} {p : State × β} (h : s.SameLedger p.1)
    (hf : ∀ u x, s.SameLedger u.1 → s.SameLedger (f u x).1) : s.SameLedger (l.foldl f p).1 :=
  List.foldlRecOn (motive := fun p => s.SameLedger p.1) l f h fun u hu x _ => hf u x hu

theorem of_eq {β : Type} {p : State × β} {r : β} (h : s.SameLedger p.1) (e : p = (t, r)) : s.SameLedger t := by
  subst e
  exact h

/-- The fields that no part of the ledger names may be anything. -/
theorem frame {agenda sched cur turn stuck free mem groups ops nextOp seqWait cores slices fab link mg cnt} (h : s.SameLedger t)
    (hf : fab.tclim = t.fab.tclim) (hm : { mg with log := State.reset.mg.log } = { t.mg with log := State.reset.mg.log }) :
    s.SameLedger (State.mk agenda sched cur turn stuck free t.tick mem groups t.blocks t.courses t.launches ops nextOp seqWait cores t.ctxs t.le slices fab
      link mg cnt) := by
  unfold State.SameLedger State.ledger at h ⊢
  rw [← h, hf, hm]

theorem push {e : Event} (h : s.SameLedger t) : s.SameLedger (t.push e) := h.frame rfl rfl

theorem count {b i k n : Nat} (h : s.SameLedger t) : s.SameLedger (t.count b i k n) := h.frame rfl rfl

theorem setGrp {g : Nat} {x : Group} (h : s.SameLedger t) : s.SameLedger (t.setGrp g x) := h.frame rfl rfl

theorem setOp {o : Nat} {x : Op} (h : s.SameLedger t) : s.SameLedger (t.setOp o x) := h.frame rfl rfl

theorem delOp {o : Nat} (h : s.SameLedger t) : s.SameLedger (t.delOp o) := h.frame rfl rfl

theorem setSlice {m : Nat} {x : Slice} (h : s.SameLedger t) : s.SameLedger (t.setSlice m x) := h.frame rfl rfl

theorem setCore {c : Nat} {x : Core} (h : s.SameLedger t) : s.SameLedger (t.setCore c x) := h.frame rfl rfl

theorem setLine {core a l : Nat} {x : CLine} (h : s.SameLedger t) : s.SameLedger (t.setLine core a l x) := h.frame rfl rfl

theorem setTent {r : Nat} {slab : Bool} {k : Nat} {x : TEntry} (h : s.SameLedger t) : s.SameLedger (t.setTent r slab k x) := h.frame rfl rfl

/-! ### Caches -/

theorem dropLine {core a l tag by_ : Nat} (h : s.SameLedger t) : s.SameLedger (t.dropLine core a l tag by_) := h.setLine.push.ite h.setLine.push

theorem fillL2 {l sector : Nat} {stream dirty : Bool} {by_ : Nat} (h : s.SameLedger t) : s.SameLedger (t.fillL2 l sector stream dirty by_) := h.setSlice

theorem allocL2 {a n : Nat} {stream : Bool} {by_ : Nat} (h : s.SameLedger t) : s.SameLedger (t.allocL2 a n stream by_) :=
  h.ite (h.foldl fun _ _ hu => hu.fillL2)

theorem touch {a n : Nat} (h : s.SameLedger t) : s.SameLedger (t.touch a n) := by
  unfold State.touch
  refine h.foldl fun _ _ hu => hu.foldl fun _ _ hv => ?_
  split
  · exact hv.push.ite hv
  · exact hv

theorem tearLine {l : Nat} (h : s.SameLedger t) : s.SameLedger (t.tearLine l) := by
  unfold State.tearLine
  extract_lets d watched filled _ cleared rerun _ bare u
  have hf : s.SameLedger filled := h.foldl fun _ _ hv => hv.fillL2.ite hv
  have hc : s.SameLedger cleared := hf.foldl fun _ _ hv => hv.foldl fun _ _ hw => hw.ite hw.setLine
  have hr : s.SameLedger rerun := hc.foldl fun _ _ hv => hv.push
  have hb : s.SameLedger bare := hr.frame rfl rfl
  have hu : s.SameLedger u := hb.foldl fun _ _ hv => hv.push
  exact hu.touch.ite hu

theorem tearRange {a n : Nat} (h : s.SameLedger t) : s.SameLedger (t.tearRange a n) := h.foldl fun _ _ hu => hu.tearLine

/-! ### The port -/

theorem pwrite {a n v : Nat} (h : s.SameLedger t) : s.SameLedger (t.pwrite a n v) := (h.frame rfl rfl).ite (h.frame rfl rfl)

theorem cleanSectors {a n : Nat} (h : s.SameLedger t) : s.SameLedger (t.cleanSectors a n) := h.frame rfl rfl

theorem homeWant {a n : Nat} {write : Bool} (h : s.SameLedger t) : s.SameLedger (t.homeWant a n write) := h.ite (h.frame rfl rfl)

theorem putEntry {ctx a e : Nat} (h : s.SameLedger t) : s.SameLedger (t.putEntry ctx a e) := by
  unfold State.putEntry
  extract_lets u
  have hu : s.SameLedger u := h.frame rfl rfl
  split
  · exact hu.homeWant.tearLine.touch
  · exact hu

theorem zeroFrame {adr mt pfn : Nat} (h : s.SameLedger t) : s.SameLedger (t.zeroFrame adr mt pfn) := by
  unfold State.zeroFrame
  split
  · exact cleanSectors (h.frame rfl rfl)
  · exact h.foldl fun _ _ hu => hu.frame rfl rfl
  · exact h

theorem dropPage {m ctx n page : Nat} (h : s.SameLedger t) : s.SameLedger (t.dropPage m ctx n page) := h.setSlice

theorem portObj {m ctx n : Nat} (h : s.SameLedger t) : s.SameLedger (t.portObj m ctx n).1 := by
  unfold State.portObj
  extract_lets x o
  split
  · exact h
  · split
    · exact h.setSlice
    · exact h

theorem portPage {m ctx n page pmap : Nat} (h : s.SameLedger t) : s.SameLedger (t.portPage m ctx n page pmap).1 := by
  unfold State.portPage
  extract_lets x e u
  split
  · exact h
  · split
    · exact h.count.setSlice
    · exact h.count

theorem portHead {ctx adr : Nat} {gen : Option Nat} (h : s.SameLedger t) : s.SameLedger (t.portHead ctx adr gen).1 := by
  dsimp only [State.portHead]
  split
  · exact h
  · split
    · exact h.portObj
    · split <;> exact h.portObj

theorem hpol {m e : Nat} {o : ObjRaw} (h : s.SameLedger t) : s.SameLedger (t.hpol m e o) := h.count.ite h

theorem frameThere {mt pfn : Nat} (h : s.SameLedger t) : s.SameLedger (t.frameThere mt pfn) := ite (h.frame rfl rfl) h

/-- By induction on the tries left: the port tries again after it drops a page entry that memory no longer gives. -/
theorem portTry {ctx adr : Nat} {gen : Option Nat} {k : PKind} {fuel : Nat} (h : s.SameLedger t) : s.SameLedger (t.portTry ctx adr gen k fuel).1 := by
  induction fuel generalizing t with
  | zero => exact h
  | succ fuel ih =>
    unfold State.portTry
    extract_lets m n off
    split
    · next e => exact h.portHead.of_eq e
    next e =>
    have hu := h.portHead.of_eq e
    split
    · split
      · exact hu.hpol
      · exact hu
    split
    next v e' hp =>
    have hv : s.SameLedger v := hu.portPage.of_eq hp
    split
    · exact hv
    split
    · exact hv
    split
    · exact hv
    extract_lets pfn pa w peer needA needD dead a x e₁ x₁ x₂ y x₃
    have hw : s.SameLedger w := hv.hpol.frameThere
    split
    · exact hw
    split
    · split
      · exact ih hw.count.dropPage
      · exact (hw.count.zeroFrame.ite hw.count).putEntry.dropPage.setSlice
    · exact hw

theorem portCheck {ctx adr : Nat} {gen : Option Nat} {k : PKind} (h : s.SameLedger t) : s.SameLedger (t.portCheck ctx adr gen k).1 := h.portTry

theorem noteWrite {ctx adr : Nat} (h : s.SameLedger t) : s.SameLedger (t.noteWrite ctx adr) := h.ite h.portCheck

theorem noteRead {ctx adr : Nat} (h : s.SameLedger t) : s.SameLedger (t.noteRead ctx adr) := h.portCheck.homeWant

theorem noteReads {c : Nat} {as : List Nat} (h : s.SameLedger t) : s.SameLedger (t.noteReads c as) := h.foldl fun _ _ hu => hu.noteRead

theorem owrite {ctx obj off n v : Nat} (h : s.SameLedger t) : s.SameLedger (t.owrite ctx obj off n v) := by
  -- Unfolded by its own equation lemma, `owrite` makes the kernel evaluate the port check too deep.
  rw [show @State.owrite = delta% @State.owrite from rfl]
  beta_reduce
  extract_lets a
  split
  · next e => exact (h.portCheck.of_eq e).homeWant.tearRange.pwrite.cleanSectors.allocL2.touch
  · next e => exact h.portCheck.of_eq e

/-! ### The error log -/

theorem logPut {l : ErrLog} {i bits : Nat} (h : s.SameLedger t) : s.SameLedger (t.logPut l i bits) :=
  h.portCheck.homeWant.tearRange.pwrite.cleanSectors.allocL2.touch

theorem setLog {l : ErrLog} (h : s.SameLedger t) : s.SameLedger { t with mg := { t.mg with log := l } } := h.frame rfl rfl

theorem logErr {srck srci cls code adr ctx : Nat} {ctx2 : Option Nat} {detail : Nat} (h : s.SameLedger t) :
    s.SameLedger (t.logErr srck srci cls code adr ctx ctx2 detail) :=
  (h.setLog.ite h.setLog.count).ite (h.logPut.setLog.ite h.setLog.count)

/-! ### Sequences, bricks and free lists -/

theorem hwrite {ctx obj off n v : Nat} (h : s.SameLedger t) : s.SameLedger (t.hwrite ctx obj off n v) := h.owrite

theorem hstore {ctx obj off : Nat} {bs : List Nat} (h : s.SameLedger t) : s.SameLedger (t.hstore ctx obj off bs) := h.foldl fun _ _ hu => hu.hwrite

theorem seqPut {c k : Nat} {q : SeqD} (h : s.SameLedger t) : s.SameLedger (t.seqPut c k q) := (ite (h.frame rfl rfl) h).hwrite

theorem flPut {c f : Nat} {x : FreeL} (h : s.SameLedger t) : s.SameLedger (t.flPut c f x) := h.hwrite

theorem brPut {c pool b : Nat} {x : Brick} (h : s.SameLedger t) : s.SameLedger (t.brPut c pool b x) := h.hwrite

theorem setEntry {c n i e : Nat} (h : s.SameLedger t) : s.SameLedger (t.setEntry c n i e) := h.hwrite

theorem seqAgain {c : Nat} (h : s.SameLedger t) : s.SameLedger (t.seqAgain c) := h.foldl fun _ _ hu => hu.push

theorem flGive {c f b : Nat} (h : s.SameLedger t) : s.SameLedger (t.flGive c f b) := h.brPut.flPut.seqAgain

theorem dropFrom {c n k j : Nat} (h : s.SameLedger t) : s.SameLedger (t.dropFrom c n k j).1 := by
  induction j generalizing t n with
  | zero => exact h
  | succ j ih =>
    unfold State.dropFrom
    extract_lets i e u
    split
    · exact h
    split
    · exact h.setEntry
    split
    · next e => exact ((ih h).of_eq e).setEntry.flGive
    · next e => exact (ih h).of_eq e

theorem mapDrop {c k : Nat} {q : SeqD} (h : s.SameLedger t) : s.SameLedger (t.mapDrop c q k).1 := by
  unfold State.mapDrop
  split
  · next e => exact (h.dropFrom.of_eq e).flGive
  · next e => exact h.dropFrom.of_eq e

theorem brickRelease {c k b : Nat} {q : SeqD} (h : s.SameLedger t) : s.SameLedger (t.brickRelease c k q b) := h.brPut.flGive.count.ite h.brPut

theorem advanceWindow {c k : Nat} {q : SeqD} (h : s.SameLedger t) : s.SameLedger (t.advanceWindow c k q).1 := by
  unfold State.advanceWindow
  refine h.foldlFst fun _ _ hu => ?_
  split
  · exact hu.mapDrop.brickRelease
  · exact hu

theorem zeroObj {c obj n : Nat} (h : s.SameLedger t) : s.SameLedger (t.zeroObj c obj n) := by
  refine h.foldl fun u i hu => ?_
  split
  · exact hu.tearRange.noteWrite.frame rfl rfl
  · exact hu

/-! ### Slabs and the tree caches -/

theorem linkSend {p : Nat} {m : LinkMsg} (h : s.SameLedger t) : s.SameLedger (t.linkSend p m) := ite h (h.frame rfl rfl)

theorem invCopies {l : Nat} {spare : Nat × Nat → Bool} (h : s.SameLedger t) : s.SameLedger (t.invCopies l spare) :=
  (h.foldl (fun _ _ hu => hu.setLine)).touch

theorem endExport {p slab : Nat} (h : s.SameLedger t) : s.SameLedger (t.endExport p slab) := h.setTent.foldl fun _ _ hu => hu.ite hu.dropLine

theorem putRoot {p slab : Nat} {e : TEntry} (h : s.SameLedger t) : s.SameLedger (t.putRoot p slab e) := h.endExport.ite h.setTent

theorem askHolders {p slab : Nat} {who : Nat → Bool} {down : Bool} (h : s.SameLedger t) : s.SameLedger (t.askHolders p slab who down) := by
  unfold State.askHolders
  refine putRoot (h.foldlFst fun _ _ hu => ?_)
  split
  · exact hu.linkSend
  · exact hu

theorem unready {slab : Nat} {pick : Instr → Bool} (h : s.SameLedger t) : s.SameLedger (t.unready slab pick) :=
  h.foldl fun _ _ hu => (hu.setOp.foldl fun _ _ hv => hv.push).ite hu

theorem returnLines {port : Nat} {m : SlabMsg} {ls : List Nat} {wrap : SlabMsg → LinkMsg} (h : s.SameLedger t) :
    s.SameLedger (t.returnLines port m ls wrap) :=
  (h.foldl fun _ _ hu => hu.linkSend).linkSend

theorem endReads {slab : Nat} (h : s.SameLedger t) : s.SameLedger (t.endReads slab) :=
  h.foldl fun _ _ hu => hu.foldl fun _ _ hv => hv.ite (hv.setLine.ite hv.setLine.push)

theorem clearSlab {slab : Nat} (h : s.SameLedger t) : s.SameLedger (t.clearSlab slab) := by
  unfold State.clearSlab
  extract_lets u v
  have hd : s.SameLedger ((t.unready slab fun _ => true).dropSlabTree slab) := h.unready.frame rfl rfl
  have hv : s.SameLedger v := hd.endReads.foldl fun _ _ hw => hw.invCopies
  have hb : s.SameLedger { v with link := { v.link with peerMem := mzero v.link.peerMem (4096 * slab) 4096 } } := hv.frame rfl rfl
  exact hb.touch.foldl fun _ _ hw => hw.push

theorem giveSlab {port : Nat} {m : SlabMsg} (h : s.SameLedger t) : s.SameLedger (t.giveSlab port m) := h.returnLines.clearSlab

theorem put {m : TMsg} {e : TEntry} (h : s.SameLedger t) : s.SameLedger (t.put m e) := h.frame rfl rfl

theorem dropEnt {r : Nat} {slab : Bool} {key : Nat} (h : s.SameLedger t) : s.SameLedger (t.dropEnt r slab key) := h.setTent.foldl fun _ _ hu => hu.push

theorem invAgent {core a l : Nat} {owned : Bool} (h : s.SameLedger t) : s.SameLedger (t.invAgent core a l owned).1 := by
  unfold State.invAgent
  extract_lets x dirty noted src u v c k had w
  have hu : s.SameLedger u := setLine (h.foldl fun _ _ hw => hw.noteWrite.ite hw)
  have hv : s.SameLedger v := hu.touch.ite hu
  exact hv.setCore.ite hv

theorem invLocal {m : TMsg} {e : TEntry} {owned : Bool} {keep : Nat → Bool} (h : s.SameLedger t) : s.SameLedger (t.invLocal m e owned keep).1 := by
  unfold State.invLocal
  split
  · exact h
  · exact h.foldlFst fun _ _ hu => hu.foldlFst fun _ _ hv => hv.invAgent

theorem sendInv {m : TMsg} {ds : List Nat} (h : s.SameLedger t) : s.SameLedger (t.sendInv m ds) := h.foldl fun _ _ hu => hu.push

theorem endPrune {m : TMsg} (h : s.SameLedger t) : s.SameLedger (t.endPrune m) := h.dropEnt.ite (h.dropEnt.push.ite h.dropEnt.push)

theorem prunedAll {m : TMsg} (h : s.SameLedger t) : s.SameLedger (t.prunedAll m) := h.endPrune.ite h.push

theorem startPrune {m : TMsg} (h : s.SameLedger t) : s.SameLedger (t.startPrune m) := by
  unfold State.startPrune
  extract_lets e m own ds
  split
  · exact h.tearLine
  split
  · exact h.giveSlab.dropEnt
  split
  · exact h.askHolders
  split
  next u e hi =>
  have hu : s.SameLedger u := h.invLocal.of_eq hi
  exact hu.put.sendInv.prunedAll.ite hu.put.sendInv

theorem trimRouter {r : Nat} (h : s.SameLedger t) : s.SameLedger (t.trimRouter r) := by
  unfold State.trimRouter
  split
  · exact h
  · exact h.foldl fun _ _ hu => hu.count.startPrune

/-! ### A course that leaves its cores -/

theorem wakeFlag {g : Nat} (h : s.SameLedger t) : s.SameLedger (t.wakeFlag g) := by
  unfold State.wakeFlag
  split
  · exact h.push.ite h
  · exact h

theorem endOp {o : Nat} (h : s.SameLedger t) : s.SameLedger (t.endOp o) := by
  unfold State.endOp
  extract_lets p x u
  have hu : s.SameLedger u := h.setGrp.delOp.wakeFlag
  split
  · exact hu.push
  · exact hu.push
  · exact hu

theorem completeOp {o : Nat} (h : s.SameLedger t) : s.SameLedger (t.completeOp o) := by
  unfold State.completeOp
  extract_lets p u
  have hu : s.SameLedger u := h.endOp
  split
  · exact hu.setGrp.ite hu
  · exact hu.setGrp.ite hu
  · exact hu

theorem unqueue {o : Nat} {next : Nat → Event} (h : s.SameLedger t) : s.SameLedger (t.unqueue o next) := by
  unfold State.unqueue
  extract_lets core c heads cut t₁ t₂ t₃ u
  have h₁ : s.SameLedger t₁ := h.setCore
  have h₂ : s.SameLedger t₂ := ite (h₁.foldl fun _ _ hv => hv.dropLine) h₁
  have h₃ : s.SameLedger t₃ := ite (h₂.foldl fun _ _ hv => hv.dropLine) h₂
  have hu : s.SameLedger u := by
    refine h₃.foldl fun _ _ hv => ?_
    split
    · exact hv.push
    · exact hv
  split
  · exact hu.push.ite hu
  · exact hu

theorem dropDiscarded {g : Nat} (h : s.SameLedger t) : s.SameLedger (t.dropDiscarded g) := by
  unfold State.dropDiscarded
  refine (h.foldl fun _ _ hu => hu.delOp).foldl fun _ _ hu => ?_
  split
  · exact hu.completeOp
  · exact hu

theorem endLanes {g : Nat} (h : s.SameLedger t) : s.SameLedger (t.endLanes g) := by
  unfold State.endLanes
  extract_lets hit u
  have hu : s.SameLedger u := by
    refine h.foldl fun _ _ hv => ?_
    split
    · exact hv.setGrp
    · exact hv
  exact hu.frame rfl rfl

theorem leavePartition {g : Nat} (h : s.SameLedger t) : s.SameLedger (t.leavePartition g) := by
  unfold State.leavePartition
  extract_lets u hit v w x y
  have hd : s.SameLedger (t.dropReads g) := h.foldl fun _ _ hv => hv.delOp
  have hv : s.SameLedger v := by
    refine hd.dropDiscarded.foldl fun _ _ hv => ?_
    split
    · exact hv.foldl fun _ _ hw => hw.setGrp
    · exact hv
  exact hv.endLanes.setGrp.frame rfl rfl

theorem seqLeave {o : Nat} (h : s.SameLedger t) : s.SameLedger (t.seqLeave o) := h.frame rfl rfl

theorem swapOp {o : Nat} (h : s.SameLedger t) : s.SameLedger (t.swapOp o) := by
  unfold State.swapOp
  extract_lets p u v
  have hu : s.SameLedger u := h.frame rfl rfl
  exact h.ite hu.seqLeave.unqueue.setOp

theorem withdrawOps {c : Nat} (h : s.SameLedger t) : s.SameLedger (t.withdrawOps c) := h.foldl fun _ _ hu => hu.swapOp

theorem dropTables {c : Nat} (h : s.SameLedger t) : s.SameLedger (t.dropTables c) := h.foldl fun _ _ hu => hu.setCore

theorem imageHeader {c flags : Nat} (h : s.SameLedger t) : s.SameLedger (t.imageHeader c flags) := by
  unfold State.imageHeader
  extract_lets x l
  split
  · exact h
  · exact h.hstore

theorem imageBody {c : Nat} (h : s.SameLedger t) : s.SameLedger (t.imageBody c) := by
  unfold State.imageBody
  extract_lets x l
  split
  · exact h
  · exact (h.foldl fun _ _ hv => hv.hstore).frame rfl rfl

end State.SameLedger

end Sys2Proof.Machine
end

section
/-! ## Mailbox commands

A command that succeeds leaves the state its body answers, with the results in ARGS, status 0 and BUSY clear (R464): `State.answered`. -/

namespace Sys2Proof.Machine

open Sys2Proof

/-- The mailbox after a command that succeeded: ARGS holds its results alone, and the command has ended with status 0 (R464, R466). -/
def State.answered (s : State) (out : List (Nat × Nat × Nat)) : State :=
  (s.setMbox (out.foldl (fun m e => mwrite m (0x10 + e.1) e.2.1 e.2.2) (s.mg.mbox.filter fun e => decide (e.1 < 0x10)))).mboxEnd 0

theorem ended_mboxEnd (s : State) (n : Nat) : Ended (s.mboxEnd n) n := by
  refine ⟨by simp [State.mboxEnd, State.setMbox, mget_mset], ?_⟩
  simp only [State.mboxEnd, State.setMbox, mget_mset, if_true]
  rw [BitVec.getLsbD_and]
  simp

theorem ended_answered (s : State) (out : List (Nat × Nat × Nat)) : Ended (s.answered out) 0 := ended_mboxEnd ..

theorem answered_mem (s : State) (out : List (Nat × Nat × Nat)) : (s.answered out).mem = s.mem := rfl

/-- Ending a command changes nothing of ARGS. -/
theorem arg_mboxEnd (s : State) (k off n : Nat) : (s.mboxEnd k).arg off n = s.arg off n :=
  mread_congr _ _ _ _ fun i _ => by
    simp only [State.mboxEnd, State.setMbox, mget_mset]
    rw [if_neg (by omega), if_neg (by omega)]

theorem arg_answered_one (s : State) (off n v : Nat) : (s.answered [(off, n, v)]).arg off n = v % 256 ^ n :=
  (arg_mboxEnd ..).trans (mread_mwrite ..)

/-- In READY a command with no other bit of ARGS set ends as its body says (R463, R466). -/
theorem command_done {s u : State} {f : ArgBits} {body : State → Cmd} {out : List (Nat × Nat × Nat)} (hr : s.mg.boot = .ready)
    (hc : s.argsClean f = true) (h : body s = .done u out) : s.command false f body = .next (u.answered out) := by
  simp only [State.command, hr, hc, h, ne_eq, not_true_eq_false, false_and, if_false, Bool.not_true, Bool.false_eq_true]
  rfl

end Sys2Proof.Machine
end

section
/-! ## Mailbox commands on sequences and on the machine (O45) -/

namespace Sys2Proof.Machine

open Sys2Proof

section

variable {s : State} (hr : s.mg.boot = .ready)

include hr

theorem execQuantum_done (hc : s.argsClean [(0, 0, 2), (4, 0, 32)] = true) (h1 : 1 ≤ s.arg 4 4) (h2 : s.arg 4 4 ≤ 1000) :
    execQuantum s = .next (State.answered { s with le := { s.le with quanta := tset 20 s.le.quanta (s.arg 0 4) (s.arg 4 4) } }
      [(8, 4, s.quantum (s.arg 0 4))]) :=
  command_done hr hc (if_neg (by omega))

/-- Evicting what exceeds the new limit leaves the limit as it was set (R446). -/
theorem execTclimset_done (hc : s.argsClean [(0, 0, 5), (0, 8, 5), (4, 0, 17)] = true) (hy : fld (s.arg 0 4) 8 5 ≤ 19) :
    ∃ u : State, execTclimset s = .next (u.answered []) ∧ tget 0 u.fab.tclim (routerAt (fld (s.arg 0 4) 0 5) (fld (s.arg 0 4) 8 5)) = s.arg 4 4 := by
  refine ⟨_, command_done hr hc (if_neg (by omega)), ?_⟩
  rw [((State.SameLedger.refl _).trimRouter).tclim]
  exact tget_tset_self ..

theorem execDomain_done (hc : s.argsClean [(0, 0, 32), (4, 0, 5)] = true) (h1 : 1 ≤ fld (s.arg 4 4) 2 3) (h4 : fld (s.arg 4 4) 2 3 ≤ 4)
    (hd : ∀ e ∈ s.link.ports, e.2.isDomain = true → e.2.st ≠ .up) :
    execDomain s = .next (State.answered
      { s with link := { s.link with domId := s.arg 0 4, domPkg := fld (s.arg 4 4) 0 2, domSize := fld (s.arg 4 4) 2 3 } } []) := by
  have hup : (s.link.ports.any fun e => e.2.isDomain && e.2.st == .up) = false := by simpa using fun k p hm => hd (k, p) hm
  exact command_done hr hc ((if_neg (by omega)).trans (if_neg (by simp [hup])))

/-- The regions that PROTDOM's arguments name, `n` of them (R461). -/
def State.argRegions (s : State) (n : Nat) : List Region :=
  (List.range n).map fun r => ⟨s.arg (0x10 + 16 * r) 8, fld (s.arg (0x18 + 16 * r) 8) 0 40, fld (s.arg (0x18 + 16 * r) 8) 62 1 == 1,
    fld (s.arg (0x18 + 16 * r) 8) 63 1 == 1⟩

theorem execProtdom_done {n : Nat} (hn : n = fld (s.arg 0 4) 8 5) (h16 : n ≤ 16)
    (hc : s.argsClean ([(0, 0, 6), (0, 8, 5)] ++
      (List.range n).flatMap fun r => [(0x10 + 16 * r, 0, 52), (0x18 + 16 * r, 0, 40), (0x18 + 16 * r, 62, 2)]) = true)
    (hrs : ∀ e ∈ s.argRegions n, e.base % 65536 = 0 ∧ e.len % 65536 = 0) (hp : fld (s.arg 0 4) 0 4 ≤ 11)
    (ha : (s.port (fld (s.arg 0 4) 0 4)).attested = true) :
    execProtdom s = .next (State.answered
      { s with link := { s.link with prot := tset [] s.link.prot (4 * fld (s.arg 0 4) 0 4 + fld (s.arg 0 4) 4 2) (s.argRegions n) } } []) := by
  subst hn
  have hany : ((s.argRegions (fld (s.arg 0 4) 8 5)).any fun x => x.base % 65536 != 0 || x.len % 65536 != 0) = false := by
    simpa using fun x hx => hrs x hx
  unfold execProtdom
  extract_lets w n regs
  rw [if_pos (show n ≤ 16 from h16)]
  refine command_done hr hc ((if_neg ?_).trans (if_neg (by simpa using ha)))
  rintro (h | h | h)
  · exact absurd hp (Nat.not_le.2 h)
  · exact absurd h16 (Nat.not_le.2 h)
  · exact Bool.false_ne_true (hany.symm.trans h)

theorem execPoisondel_done (hc : s.argsClean [(0, 0, 12), (4, 0, 24), (8, 0, 24)] = true) (hx : (s.ctx s.argCtx).reg = true)
    (ho : s.objIn s.argCtx (s.arg 4 4) = true) :
    ∃ (u : State) (out : _), execPoisondel s = .next (u.answered out) ∧ u.mem = s.mem ∧ ∀ e ∈ u.slices, (s.argCtx, s.arg 4 4, s.arg 8 4) ∉ e.2.poison := by
  refine ⟨_, _, command_done hr hc (if_neg (by simp [hx, ho])), rfl, fun e he => ?_⟩
  obtain ⟨x, -, rfl⟩ := List.mem_map.1 (List.mem_filter.1 he).1
  simp

theorem execPwrlim_done (hc : s.argsClean [(0, 0, 32)] = true) (h1 : 1000 ≤ s.arg 0 4) (h2 : s.arg 0 4 ≤ 4500) :
    execPwrlim s = .next (State.answered { s with mg := { s.mg with pwrlim := s.arg 0 4 } } [(4, 4, s.mg.pwrlim)]) :=
  command_done hr hc (if_neg (by omega))

theorem execPortrst_failed (hc : s.argsClean [(0, 0, 32)] = true) (hp : s.arg 0 4 ≤ 11) (hf : (s.port (s.arg 0 4)).st = .failed) :
    execPortrst s = .next ((s.setPort (s.arg 0 4) { s.port (s.arg 0 4) with st := .down, retrains := [] }).answered []) :=
  command_done hr hc ((if_neg (by omega)).trans (if_pos hf))

theorem execDieup_done (hc : s.argsClean [(0, 0, 32)] = true) (hd : s.arg 0 4 ≤ 7) :
    ∃ u : State, execDieup s = .next (u.answered []) ∧ u.mem = s.mem ∧ u.le.deadDies = s.le.deadDies.filter (· != s.arg 0 4) :=
  ⟨_, command_done hr hc (if_neg (by omega)), rfl, rfl⟩

/-- The present log is empty, so the record of the rotation is its first, and finds room (R470, R471). -/
theorem execLogrot_done (hc : s.argsClean [(0, 0, 12), (4, 0, 24)] = true) (hx : (s.ctx s.argCtx).reg = true)
    (ho : s.objIn s.argCtx (s.arg 4 4) = true) (hk : oKind (s.objRaw s.argCtx (s.arg 4 4)) = 1) (h32 : oSize (s.objRaw s.argCtx (s.arg 4 4)) % 32 = 0)
    (h64 : 64 ≤ oSize (s.objRaw s.argCtx (s.arg 4 4))) (hp : s.allPages s.argCtx (s.arg 4 4) = true) (hl : s.everLog (s.arg 4 4) = false)
    (hn : s.arg 4 4 ≠ 0) :
    ∃ u : State, execLogrot s = .next (u.answered [(8, 8, s.mg.log.next)]) ∧ u.mg.log.ctx = s.argCtx ∧ u.mg.log.obj = s.arg 4 4 ∧
      u.mg.log.first = s.mg.log.next ∧ u.mg.log.next = s.mg.log.next + 1 := by
  refine ⟨_, command_done hr hc ((if_neg (by simp [hx, ho])).trans (if_neg ?_)), ?_⟩
  · simp [hk, h32, hp, hl]
    omega
  · unfold State.logErr
    simp only [if_neg hn]
    rw [if_pos (by omega)]
    exact ⟨rfl, rfl, rfl, rfl⟩

theorem execSqcreate_done {u : State} {n : Nat} (hc : s.argsClean [(0, 0, 12), (4, 0, 20), (8, 0, 32), (0x0C, 0, 32)] = true)
    (hl : newLegal (s.arg 8 4) (s.arg 0x0C 4) = true) (hx : (s.ctx s.argCtx).reg = true) (hq : (s.ctx s.argCtx).seq = true)
    (hn : s.seqNew s.argCtx (s.arg 4 4) (s.arg 8 4) (s.arg 0x0C 4) none = (u, .status n)) :
    execSqcreate s = .next ((u.count 6 (seqDie (u.arg 4 4)) 0 1).answered [(0x10, 4, n)]) :=
  command_done hr hc (by simp only [hl, hx, hq, hn, Bool.not_true, Bool.false_eq_true, or_self, if_false])

theorem execFlfill_done {f n at_ : Nat} {u : State} (hc : s.argsClean [(0, 0, 12), (0, 16, 6), (8, 0, 40), (0x10, 0, 32)] = true) (hf : f = fld (s.arg 0 4) 16 6)
    (ha : at_ = s.arg 8 8) (hn : n = s.arg 0x10 4) (h1 : 1 ≤ n) (h2 : n ≤ 2 ^ 20) (hx : (s.ctx s.argCtx).reg = true)
    (hq : (s.ctx s.argCtx).seq = true) (hp : (s.flGet s.argCtx f).pool ≠ 0) (hm : at_ % 2 ^ (s.flGet s.argCtx f).bszl = 0)
    (hb : at_ + n * 2 ^ (s.flGet s.argCtx f).bszl ≤ oSize (s.objRaw s.argCtx (s.flGet s.argCtx f).pool))
    (hi : s.pagesIn s.argCtx (s.flGet s.argCtx f).pool at_ (n * 2 ^ (s.flGet s.argCtx f).bszl) = true)
    (hu : u = (List.range n).foldl (fun t i => t.flGive s.argCtx f (at_ + i * 2 ^ (s.flGet s.argCtx f).bszl)) s) :
    execFlfill s = .next ((u.count 6 (f % 16) 0 n).answered [(0x14, 4, (u.flGet s.argCtx f).count)]) := by
  subst hf ha hn hu
  exact command_done hr hc ((if_neg (by omega)).trans ((if_neg (by simp [hx, hq, hp])).trans (if_neg (by simp [hm, hi]; omega))))

theorem execSqdel_done (hc : s.argsClean [(0, 0, 12), (4, 0, 20)] = true) (hx : (s.ctx s.argCtx).reg = true)
    (hv : s.seqValid s.argCtx (s.arg 4 4) = true) :
    execSqdel s = .next (((s.seqRelease s.argCtx (s.arg 4 4)).count 6 (seqDie (s.arg 4 4)) 0 1).answered []) :=
  command_done hr hc (if_neg (by simp [hx, hv]))

end

/-- Settles O45, each command by the state that it ends in. -/
theorem machineCommands : Obligations.MachineCommands := by
  intro s c hr hc x a
  subst hc
  have hE := ended_answered
  refine ⟨?quantum, ?tclimset, ?domain, ?protdom, ?poisondel, ?logrot, fun hc => ⟨?pwrlim, ?portrst, ?dieup⟩, ?sqcreate, ?flfill, ?sqdel⟩
  case quantum =>
    intro hc h1 h2
    exact ⟨_, execQuantum_done hr hc h1 h2, hE .., rfl, tget_tset_self .., arg_answered_one .., fun _ h => tget_tset_ne _ _ _ _ _ h⟩
  case tclimset =>
    intro hc hy
    obtain ⟨u, he, hu⟩ := execTclimset_done hr hc hy
    exact ⟨_, he, hE .., hu⟩
  case domain =>
    intro hc h1 h4 hd
    exact ⟨_, execDomain_done hr hc h1 h4 hd, hE .., rfl, rfl, rfl, rfl⟩
  case protdom =>
    intro n rs hn h16 hc hrs hm hp ha
    subst hrs
    exact ⟨_, execProtdom_done hr hn h16 hc hm hp ha, hE .., rfl, tget_tset_self ..⟩
  case poisondel =>
    intro hc hx ho
    obtain ⟨u, out, he, hmem, hu⟩ := execPoisondel_done hr hc hx ho
    exact ⟨_, he, hE .., hmem, hu⟩
  case logrot =>
    intro hc hx ho hk h32 h64 hp hl hn
    obtain ⟨u, he, hctx, hobj, hfirst, hnext⟩ := execLogrot_done hr hc hx ho hk h32 h64 hp hl hn
    exact ⟨_, he, hE .., hctx, hobj, hfirst, hnext, arg_answered_one ..⟩
  case pwrlim =>
    intro h1 h2
    exact ⟨_, execPwrlim_done hr hc h1 h2, hE .., rfl, rfl, arg_answered_one ..⟩
  case portrst =>
    intro hp hf
    exact ⟨_, execPortrst_failed hr hc hp hf, hE .., rfl, congrArg Port.st (tget_tset_self ..)⟩
  case dieup =>
    intro hd
    obtain ⟨u, he, hmem, hu⟩ := execDieup_done hr hc hd
    exact ⟨_, he, hE .., hmem, hu⟩
  case sqcreate =>
    intro u n hc hl hx hq hn
    exact ⟨_, execSqcreate_done hr hc hl hx hq hn, hE .., (answered_mem ..).trans (State.count_mem ..), arg_answered_one ..⟩
  case flfill =>
    intro f n at_ u hc hf ha hn h1 h2 hx hq hp hm hb hi hu
    exact ⟨_, execFlfill_done hr hc hf ha hn h1 h2 hx hq hp hm hb hi hu, hE .., (answered_mem ..).trans (State.count_mem ..), arg_answered_one ..⟩
  case sqdel =>
    intro hc hx hv
    exact ⟨_, execSqdel_done hr hc hx hv, hE .., (answered_mem ..).trans (State.count_mem ..)⟩

end Sys2Proof.Machine
end

section
/-! ## Mailbox commands that set up a context (O44) -/

namespace Sys2Proof.Machine

open Sys2Proof

theorem ctx_setCtx (s : State) (c : Nat) (x : Ctx) : (s.setCtx c x).ctx c = x := tget_tset_self ..

theorem ctx_answered_setCtx (s : State) (c : Nat) (x : Ctx) (out : List (Nat × Nat × Nat)) : ((s.setCtx c x).answered out).ctx c = x := ctx_setCtx ..

section

variable {s : State} (hr : s.mg.boot = .ready)

include hr

theorem execCtxreg_done (hc : s.argsClean [(0, 0, 25), (4, 0, 24), (8, 0, 24)] = true) (hx : (s.ctx s.argCtx).reg = false)
    (h4 : s.objIn s.argCtx (s.arg 4 4) = true) (h8 : s.objIn s.argCtx (s.arg 8 4) = true)
    (hp : (s.ctx s.argCtx).aliasCtx ≠ s.argCtx ∨ fld (s.arg 0 4) 24 1 = 1) (hk : oKind (s.objRaw s.argCtx (s.arg 4 4)) = 1)
    (hs : 9216 ≤ oSize (s.objRaw s.argCtx (s.arg 4 4))) :
    execCtxreg s = .next ((s.setCtx s.argCtx { s.ctx s.argCtx with
      reg := true, tenant := fld (s.arg 0 4) 12 12, priv := (fld (s.arg 0 4) 24 1 == 1), launchArea := s.arg 4 4, saveObj := s.arg 8 4 }).answered []) := by
  refine command_done hr hc ((if_neg (by simp [hx])).trans ((if_neg ?_).trans ((if_neg (by simp [h4, h8])).trans (if_neg (by simp [hk]; omega)))))
  rintro ⟨-, ha, hn⟩
  exact hp.elim (fun h => h ha) fun h => by simp [h] at hn

/-- Zeroing the area and chaining the nodes of the map pool changes no context; then the context takes its area and its pool over (R348). -/
theorem execSeqarea_done (hc : s.argsClean [(0, 0, 12), (4, 0, 24), (8, 0, 24)] = true) (hx : (s.ctx s.argCtx).reg = true)
    (hq : (s.ctx s.argCtx).seq = false) (h4 : s.objIn s.argCtx (s.arg 4 4) = true) (h8 : s.objIn s.argCtx (s.arg 8 4) = true)
    (hs : 0x1040 ≤ oSize (s.objRaw s.argCtx (s.arg 4 4))) (hs64 : oSize (s.objRaw s.argCtx (s.arg 4 4)) % 64 = 0)
    (hm : oSize (s.objRaw s.argCtx (s.arg 8 4)) % 256 = 0) (hp4 : s.allPages s.argCtx (s.arg 4 4) = true)
    (hp8 : s.allPages s.argCtx (s.arg 8 4) = true) :
    ∃ u : State, execSeqarea s = .next (u.answered []) ∧ u.ctx s.argCtx = { s.ctx s.argCtx with
      seq := true, seqArea := s.arg 4 4, mapPool := s.arg 8 4, nseq := min ((oSize (s.objRaw s.argCtx (s.arg 4 4)) - 0x1000) / 64) (2 ^ 20) } := by
  refine ⟨_, command_done hr hc ((if_neg (by simp [hx])).trans ((if_neg (by simp [hq])).trans ((if_neg (by simp [h4, h8])).trans
    (if_neg (by simp [hs64, hm, hp4, hp8]; omega))))), ?_⟩
  have hk := ((State.SameLedger.refl s).zeroObj (c := s.argCtx) (obj := s.arg 4 4) (n := oSize (s.objRaw s.argCtx (s.arg 4 4)))).zeroObj
    (c := s.argCtx) (obj := s.arg 8 4) (n := oSize (s.objRaw s.argCtx (s.arg 8 4)))
  rw [((State.SameLedger.refl _).flPut).ctx, State.editCtx, ctx_setCtx, (hk.foldl fun _ _ hu => hu.owrite).ctx]

theorem execFlset_done (hc : s.argsClean [(0, 0, 12), (0, 16, 6), (4, 0, 24), (8, 0, 5)] = true) (h1 : 8 ≤ s.arg 8 4) (h2 : s.arg 8 4 ≤ 20)
    (hx : (s.ctx s.argCtx).reg = true) (hq : (s.ctx s.argCtx).seq = true) (h4 : s.objIn s.argCtx (s.arg 4 4) = true)
    (hp : s.allPages s.argCtx (s.arg 4 4) = true) (hn : (s.flGet s.argCtx (fld (s.arg 0 4) 16 6)).count = 0) :
    execFlset s = .next ((s.flPut s.argCtx (fld (s.arg 0 4) 16 6) ⟨s.arg 4 4, s.arg 8 4, 0, 0, 0⟩).answered []) :=
  command_done hr hc ((if_neg (by omega)).trans ((if_neg (by simp [hx, hq, h4])).trans ((if_neg (by simp [hp])).trans (if_neg (by simp [hn])))))

theorem execObjtab_done
    (hc : s.argsClean [(0, 0, 12), (8, 0, 52), (0x10, 0, 32), (0x18, 0, 52), (0x20, 0, 40), (0x28, 0, 12), (0x2C, 0, 24)] = true)
    (hb : s.arg 8 8 % 32 = 0) (h1 : 2 ≤ s.arg 0x10 4) (h2 : s.arg 0x10 4 ≤ 2 ^ 24) (hrb : s.arg 0x18 8 % 65536 = 0) (hrl : s.arg 0x20 8 % 65536 = 0)
    (hlo : s.arg 0x18 8 ≤ s.arg 8 8) (hhi : s.arg 8 8 + 32 * s.arg 0x10 4 ≤ s.arg 0x18 8 + s.arg 0x20 8)
    (hm : s.arg 0x18 8 + s.arg 0x20 8 ≤ memBytes)
    (ha : if (s.ctx (s.arg 0x28 4)).reg = true then (s.ctx (s.arg 0x28 4)).priv = true else s.arg 0x28 4 = s.argCtx) :
    execObjtab s = .next ((s.editCtx s.argCtx fun x => { x with
      tbl := true, tblBase := s.arg 8 8, tblN := s.arg 0x10 4, regBase := s.arg 0x18 8, regLen := s.arg 0x20 8, aliasCtx := s.arg 0x28 4,
      aliasObj := s.arg 0x2C 4 }).answered []) := by
  refine command_done hr hc ((if_neg (by omega)).trans (if_neg ?_))
  split at ha <;> simp_all

theorem execFaultseq_done (hc : s.argsClean [(0, 0, 12), (4, 0, 20)] = true) (hx : (s.ctx s.argCtx).reg = true)
    (hv : s.seqValid s.argCtx (s.arg 4 4) = true) (h32 : (s.seqGet s.argCtx (s.arg 4 4)).recSize = 32) :
    execFaultseq s = .next ((s.editCtx s.argCtx fun x => { x with faultSeq := some (s.arg 4 4) }).answered []) :=
  command_done hr hc ((if_neg (by simp [hx, hv])).trans (if_neg (by simp [h32])))

theorem execNotetab_done {k : Nat} (hk : k < 13) (hc : s.argsClean [(0, 0, 12), (4, 0, 24), (8, 0, 32)] = true) (hn : s.arg 8 4 = 2 ^ k)
    (hx : (s.ctx s.argCtx).reg = true) (h4 : s.objIn s.argCtx (s.arg 4 4) = true) (hs : 8 * 2 ^ k ≤ oSize (s.objRaw s.argCtx (s.arg 4 4))) :
    execNotetab s = .next ((s.editCtx s.argCtx fun x => { x with noteObj := s.arg 4 4, noteN := 2 ^ k }).answered []) := by
  have hpow : ((List.range 13).any fun k => 2 ^ k == s.arg 8 4) = true :=
    List.any_eq_true.2 ⟨k, List.mem_range.2 hk, beq_iff_eq.2 hn.symm⟩
  rw [← hn] at hs ⊢
  exact command_done hr hc ((if_neg (by simp [hpow])).trans ((if_neg (by simp [hx, h4])).trans (if_neg (by omega))))

/-- A released context keeps its table's registration, and no queue of it is listed any more (R134, R465). -/
theorem execCtxrel_done (hc : s.argsClean [(0, 0, 12)] = true) (hx : (s.ctx s.argCtx).reg = true)
    (hl : ∀ l ∈ s.launches, l.ctx = s.argCtx → l.st = .complete) :
    ∃ u : State, execCtxrel s = .next (u.answered []) ∧ u.mem = s.mem ∧ (u.ctx s.argCtx).reg = false ∧ (u.ctx s.argCtx).seq = false ∧
      u.le.queues = s.le.queues.filter fun e => e.1 / 1024 != s.argCtx := by
  have hany : (s.launches.any fun l => l.ctx == s.argCtx && l.st != .complete) = false := by simpa using hl
  exact ⟨_, command_done hr hc ((if_neg (by simp [hx])).trans (if_neg (by simp [hany]))), rfl, congrArg Ctx.reg (ctx_setCtx ..),
    congrArg Ctx.seq (ctx_setCtx ..), rfl⟩

end

/-- What a table lists at no key of a kind reads as the default there. -/
theorem tget_filter_of_false {α : Type} (d : α) (m : SMap α) (p : Nat × α → Bool) {k : Nat} (h : ∀ v, p (k, v) = false) :
    tget d (m.filter p) k = d := by
  induction m with
  | nil => rfl
  | cons e m ih =>
    obtain ⟨j, v⟩ := e
    rw [List.filter_cons]
    split
    · next hp =>
      rw [tget, if_neg, ih]
      rintro rfl
      exact Bool.false_ne_true ((h v).symm.trans hp)
    · exact ih

/-- Settles O44, each command by the state that it ends in. -/
theorem contextCommands : Obligations.ContextCommands := by
  intro s c hr hc x a
  subst hc
  have hE := ended_answered
  refine ⟨?ctxreg, ?seqarea, ?flset, ?objtab, ?faultseq, ?notetab, ?ctxrel⟩
  case ctxreg =>
    intro hc hx _ h4 h8 hp hk hs
    exact ⟨_, execCtxreg_done hr hc hx h4 h8 hp hk hs, hE .., rfl, ctx_answered_setCtx ..⟩
  case seqarea =>
    intro hc hx hq h4 h8 hs hs64 hm hp4 hp8
    obtain ⟨u, he, hu⟩ := execSeqarea_done hr hc hx hq h4 h8 hs hs64 hm hp4 hp8
    exact ⟨_, he, hE .., hu⟩
  case flset =>
    intro hc h1 h2 hx hq h4 hp hn
    exact ⟨_, execFlset_done hr hc h1 h2 hx hq h4 hp hn, hE .., answered_mem ..⟩
  case objtab =>
    intro hc hb h1 h2 hrb hrl hlo hhi hm ha
    exact ⟨_, execObjtab_done hr hc hb h1 h2 hrb hrl hlo hhi hm ha, hE .., rfl, ctx_answered_setCtx ..⟩
  case faultseq =>
    intro hc hx hv h32
    exact ⟨_, execFaultseq_done hr hc hx hv h32, hE .., rfl, ctx_answered_setCtx ..⟩
  case notetab =>
    intro k hk hc hn hx h4 hs
    exact ⟨_, execNotetab_done hr hk hc hn hx h4 hs, hE .., rfl, ctx_answered_setCtx ..⟩
  case ctxrel =>
    intro hc hx hl
    obtain ⟨u, he, hmem, hreg, hseq, hqs⟩ := execCtxrel_done hr hc hx hl
    refine ⟨_, he, hE .., hmem, hreg, hseq, fun qn hqn => ?_⟩
    show (tget Queue.empty u.le.queues (1024 * s.argCtx + qn)).st = .off
    rw [hqs, tget_filter_of_false _ _ _ fun _ => by simp; omega]
    rfl

end Sys2Proof.Machine
end

section
/-! ## Boot, power and attestation (O47) -/

namespace Sys2Proof.Machine

open Sys2Proof

/-! ### Islands -/

/-- A record of the log takes the next number, and touches no island (R470). -/
theorem logErr_next (s : State) (srck srci cls code adr ctx : Nat) (ctx2 : Option Nat) (detail : Nat) :
    (s.logErr srck srci cls code adr ctx ctx2 detail).mg.log.next = s.mg.log.next + 1 := by
  dsimp only [State.logErr]
  split
  · split <;> rfl
  · split <;> rfl

/-- The islands of a die that is taken out of service, and no others, are marked so (R473). -/
theorem outOf_foldl (m : SMap Island) (d n k : Nat) (hk : k < n) :
    (tget .empty ((List.range n).foldl (fun m k => let i := 4 * d + k; tset .empty m i { tget .empty m i with outOf := true }) m) (4 * d + k)).outOf
      = true := by
  induction n with
  | zero => omega
  | succ n ih =>
    rw [List.range_succ, List.foldl_append, List.foldl_cons, List.foldl_nil, tget_tset]
    split
    · rfl
    · exact ih (by omega)

theorem bootAndPower : Claims.BootAndPower := by
  intro s
  refine ⟨⟨_, rfl, rfl, rfl, rfl, rfl, rfl, rfl, rfl⟩, ?rom, ?selftest, ?power, ?link, ?throttle, ?overheat⟩
  case rom =>
    exact fun h => ⟨⟨_, if_pos h, rfl⟩, ⟨_, if_pos h, rfl⟩⟩
  case selftest =>
    intro n h
    refine ⟨⟨_, if_neg (not_not.2 h), rfl, rfl, rfl⟩, fun k h1 h2 => ⟨_, if_neg (not_not.2 h), ?_⟩⟩
    simp [h1, h2]
  case power =>
    intro i mhz mv hi h1 h2 h25
    have h64 : i < 64 := by omega
    refine ⟨_, congrArg Host.Outcome.next (if_pos h64), ?_, fun k hk => ?_, rfl⟩
    · simp [islandMhz, hi, h1, h2, h25]
    · exact tget_tset_ne _ _ _ _ _ hk
  case link =>
    intro l w hl hw hs hn
    exact ⟨_, congrArg Host.Outcome.next (if_pos ⟨hw, hl, hs, hn⟩), rfl⟩
  case throttle =>
    intro i hi ht
    refine ⟨_, if_neg (by simp [ht]; omega), ?_, ?_, logErr_next ..⟩
    · rw [((State.SameLedger.refl _).logErr).islands]
      simp
    · rw [((State.SameLedger.refl _).logErr).islands]
      simp
  case overheat =>
    intro d hd
    exact ⟨_, if_neg (by omega), by simp, rfl, fun k hk => outOf_foldl _ _ _ _ hk⟩

/-! ### Attestation -/

theorem length_toBytes (n v : Nat) : (toBytes n v).length = n := by
  induction n generalizing v with
  | zero => rfl
  | succ n ih => rw [toBytes, List.length_cons, ih]

/-- On the PCI Express channel an answer leaves through the bridge. -/
theorem spdmSend_zero (s : State) (code : Nat) (b : List Nat) : s.spdmSend 0 code b = s.pcie (.spdm 0 code b) := rfl

theorem spdmAt_spdmTo (s : State) {n : Nat} (hn : n < 4) : (s.spdmTo 0 n).spdmAt 0 = n := by
  simp only [State.spdmAt, State.spdmTo, fld]
  omega

/-- Request `i` is answered with `code` and a body of which `P` holds when its connection has come as far as `need`, and brings it to `next`; before that
it is refused as unexpected (R467). -/
def State.Tells (s : State) (i : Instr) (need code next : Nat) (P : List Nat → Prop) : Prop :=
  (need ≤ s.spdmAt 0 → Answers i s fun t =>
    t.mem = s.mem ∧ t.spdmAt 0 = next ∧ ∃ b, t.link.out = s.link.out ++ [.spdm 0 code b] ∧ P b) ∧
  (s.spdmAt 0 < need → Answers i s fun t => t = { s with link := { s.link with out := s.link.out ++ [.spdm 0 0x7F [4, 0]] } })

theorem tells_of_spdmAsk {s u : State} {i : Instr} {need code next : Nat} {b : List Nat} {P : List Nat → Prop} {f : State → State}
    (hi : exec i s = s.spdmAsk 0 need f) (hf : f s = u.spdmSend 0 code b) (hm : u.mem = s.mem) (ho : u.link.out = s.link.out) (hn : u.spdmAt 0 = next)
    (hb : P b) : s.Tells i need code next P := by
  refine ⟨fun h => ⟨_, hi.trans (if_neg (Nat.not_lt.2 h)), ?_⟩, fun h => ⟨_, hi.trans (if_pos h), rfl⟩⟩
  rw [hf, spdmSend_zero, ← hm, ← ho]
  exact ⟨rfl, hn, _, rfl, hb⟩

theorem attestationAnswers : Claims.AttestationAnswers := by
  intro s
  refine ⟨⟨fun _ => ⟨_, rfl, rfl, spdmAt_spdmTo s (by omega), _, rfl, rfl⟩, fun h => absurd h (Nat.not_lt_zero _)⟩, ?capabilities,
    fun sigs hashes hs hh => ?algorithms, ?digests, fun off len => ?certificate, fun nonce => ?challenge, fun nonce => ?measurements⟩
  case capabilities =>
    exact tells_of_spdmAsk (show _ = execGetCapabilities 0 s from rfl) rfl rfl rfl (spdmAt_spdmTo s (by omega)) (length_toBytes ..)
  case algorithms =>
    exact tells_of_spdmAsk (show _ = execNegotiateAlgorithms 0 sigs hashes s from rfl)
      (if_pos ⟨List.contains_iff_mem.2 hs, List.contains_iff_mem.2 hh⟩) rfl rfl (spdmAt_spdmTo s (by omega)) rfl
  case digests => exact tells_of_spdmAsk (show _ = execGetDigests 0 s from rfl) rfl rfl rfl rfl (length_toBytes ..)
  case certificate =>
    exact tells_of_spdmAsk (show _ = execGetCertificate 0 0 off len s from rfl) (if_pos rfl) rfl rfl rfl (by simp)
  case challenge => exact tells_of_spdmAsk (show _ = execChallenge 0 0 nonce s from rfl) (if_pos rfl) rfl rfl rfl (length_toBytes ..)
  case measurements => exact tells_of_spdmAsk (show _ = execGetMeasurements 0 3 nonce s from rfl) (if_pos (by omega)) rfl rfl rfl rfl

/-- Settles O47. -/
theorem bootPowerAndAttestation : Obligations.BootPowerAndAttestation := ⟨bootAndPower, attestationAnswers⟩

end Sys2Proof.Machine
end

section
/-! ## Host register writes (O58) -/

namespace Sys2Proof.Machine

open Sys2Proof

/-! ### The mailbox is written -/

/-- Bytes set one after another make the write of the number that they are the bytes of. -/
theorem foldl_mset_byte (n : Nat) : ∀ (m : List Host.Cell) (off v : Nat),
    (List.range n).foldl (fun m i => mset m (off + i) (BitVec.ofNat 8 (fld v (8 * i) 8))) m = mwrite m off n v := by
  induction n with
  | zero => exact fun _ _ _ => rfl
  | succ n ih =>
    intro m off v
    have hbyte : BitVec.ofNat 8 (fld v (8 * 0) 8) = BitVec.ofNat 8 v := BitVec.eq_of_toNat_eq (by simp [fld])
    have hrest : ∀ i, fld v (8 * (i + 1)) 8 = fld (v / 256) (8 * i) 8 := fun i => by
      rw [fld, fld, Nat.div_div_eq_div_mul, Nat.mul_add, Nat.add_comm, Nat.pow_add]
    rw [List.range_succ_eq_map, List.foldl_cons, List.foldl_map, hbyte, mwrite, ← ih]
    simp only [Nat.add_zero, Nat.succ_eq_add_one, hrest]
    simp only [Nat.add_assoc, Nat.add_comm 1]

/-- Bytes of which none is withheld are all written. -/
theorem foldl_mset_kept {p : Nat → Prop} [DecidablePred p] {n : Nat} (h : ∀ i, i < n → ¬ p i) (m : List Host.Cell) (off v : Nat) :
    (List.range n).foldl (fun m i => if p i then m else mset m (off + i) (BitVec.ofNat 8 (fld v (8 * i) 8))) m = mwrite m off n v := by
  rw [← foldl_mset_byte]
  exact List.foldl_ext _ _ _ fun m i hi => if_neg (h i (List.mem_range.1 hi))

/-- The command word that the host writes while no command runs starts the command that it names (R464). -/
theorem writeMbox_starts {s : State} {v k : Nat} {e : Event} (hv : v = 2 ^ 31 + k) (hk : k < 2 ^ 16) (he : mboxEvent k = some e)
    (hb : (mget s.mg.mbox 3).toNat < 128) : s.writeMbox 0 4 v = (s.setMbox (mwrite s.mg.mbox 0 4 v)).push e := by
  have hcode : mread (mwrite s.mg.mbox 0 4 v) 0 2 = k := by
    rw [show 0 = 0 + 0 from rfl, mread_mwrite_within _ _ _ (by omega)]
    omega
  have hbits : mread (mwrite s.mg.mbox 0 4 v) 2 2 % 2 ^ 15 = 0 := by
    rw [show mread _ 2 2 = mread (mwrite s.mg.mbox 0 4 v) (0 + 2) 2 from rfl, mread_mwrite_within _ _ _ (by omega)]
    omega
  have hset : 128 ≤ (mget (mwrite s.mg.mbox 0 4 v) 3).toNat := by
    rw [show mget _ 3 = mget (mwrite s.mg.mbox 0 4 v) (0 + 3) from rfl, mget_mwrite_in _ _ _ _ _ (by omega), BitVec.toNat_ofNat]
    omega
  unfold State.writeMbox
  extract_lets busy word m t
  have hm : m = mwrite s.mg.mbox 0 4 v := foldl_mset_kept (fun i hi => by simp [busy]; omega) ..
  have hstart : t.startCommand = t.push e := by
    simp only [State.startCommand, t, State.setMbox, hm, hcode, hbits, he, if_true]
  rw [if_neg (by simp [word]), if_neg (by simpa [busy] using hb), if_pos (hm ▸ hset), hstart]
  simp only [t, hm]

/-- While a command runs, its word takes no write (R464). -/
theorem writeMbox_busy {s : State} (v : Nat) (hb : 128 ≤ (mget s.mg.mbox 3).toNat) : s.writeMbox 0 4 v = s.count 12 0 0 1 := by
  unfold State.writeMbox
  extract_lets busy word m t
  have hbusy : busy = true := decide_eq_true hb
  have hm : m = s.mg.mbox :=
    List.foldlRecOn (motive := fun u => u = s.mg.mbox) _ _ rfl fun u hu i hi => by
      rw [if_pos (Or.inl ⟨by rw [List.mem_range] at hi; omega, hbusy⟩), hu]
  rw [if_neg (by simp [word]), if_pos hbusy]
  simp only [t, hm]
  rfl

/-- ARGS takes every write. -/
theorem writeMbox_args (s : State) {off n : Nat} (v : Nat) (h : 0x10 ≤ off) (hn : off + n ≤ 0x1000) :
    s.writeMbox off n v = s.setMbox (mwrite s.mg.mbox off n v) := by
  unfold State.writeMbox
  extract_lets busy word m t
  have hm : m = mwrite s.mg.mbox off n v := foldl_mset_kept (fun i hi => by omega) ..
  rw [if_pos (by simp [word]; omega)]
  simp only [t, hm]

theorem execRegisterWrite_mbox {off n v : Nat} (s : State) (h : off < 0x1000) :
    exec (.registerWrite (0x4000 + off) n v) s = .next (s.writeMbox off (min n 4096) v) := by
  refine (if_pos (by omega)).trans ?_
  rw [Nat.add_sub_cancel_left]

/-- Outside SAFE a write of CDB is a doorbell's. -/
theorem execRegisterWrite_cdb {v : Nat} {s : State} (hs : s.mg.boot ≠ .safe) (hv : v < 2 ^ 64) : exec (.registerWrite 0x1000 8 v) s = s.writeCdb v := by
  show execRegisterWrite 0x1000 8 v s = _
  have hw : v % 18446744073709551616 = v := Nat.mod_eq_of_lt hv
  simp [execRegisterWrite, hs, hw]

/-- Outside SAFE a write of RPLY is a replay's. -/
theorem execRegisterWrite_rply {v : Nat} {s : State} (hs : s.mg.boot ≠ .safe) (hv : v < 2 ^ 64) :
    exec (.registerWrite 0x1100 8 v) s = s.writeRply v := by
  show execRegisterWrite 0x1100 8 v s = _
  have hw : v % 18446744073709551616 = v := Nat.mod_eq_of_lt hv
  simp [execRegisterWrite, hs, hw]

theorem hostRegisterWrites : Claims.HostRegisterWrites := by
  intro s v
  refine ⟨?cdb, ?rply, ?ignored, ?starts, ?busy, ?args, ?safe⟩
  case cdb =>
    intro hs hv
    rw [execRegisterWrite_cdb hs (by omega), State.writeCdb, if_neg (by omega)]
    refine ⟨fun h => ?_, fun h => ?_, fun h => ?_⟩ <;> rw [h] <;> rfl
  case rply =>
    intro hs hv
    rw [execRegisterWrite_rply hs (by omega), State.writeRply, if_neg (by omega)]
    exact ⟨fun h => if_pos h, fun h => if_neg (by omega)⟩
  case ignored =>
    intro hs h1 h2
    exact ⟨_, (execRegisterWrite_rply hs h2).trans (if_pos h1), rfl⟩
  case starts =>
    intro k e hv hk he hb
    refine ⟨_, execRegisterWrite_mbox (off := 0) s (by omega), ?_⟩
    rw [show min 4 4096 = 4 from rfl, writeMbox_starts hv hk he hb]
    refine ⟨List.mem_append_right _ (List.mem_singleton.2 rfl), ?_, rfl⟩
    exact (mread_mwrite ..).trans (Nat.mod_eq_of_lt (by omega))
  case busy =>
    intro hb
    refine ⟨_, execRegisterWrite_mbox (off := 0) s (by omega), ?_⟩
    rw [show min 4 4096 = 4 from rfl, writeMbox_busy v hb]
    exact ⟨rfl, rfl, rfl⟩
  case args =>
    intro off n h hn
    by_cases hlt : off < 0x1000
    · refine ⟨_, execRegisterWrite_mbox s hlt, ?_⟩
      rw [Nat.min_eq_left (by omega), writeMbox_args s v h hn]
      exact ⟨mread_mwrite .., rfl, rfl⟩
    · obtain rfl : off = 0x1000 := by omega
      obtain rfl : n = 0 := by omega
      refine ⟨s, ?_, by simp [mread, Nat.mod_one], rfl, rfl⟩
      show execRegisterWrite 0x5000 0 v s = _
      unfold execRegisterWrite
      simp
  case safe =>
    intro off n hs h1 h2
    exact ⟨_, (if_neg (by omega)).trans ((if_neg (by omega)).trans (if_pos hs)), rfl⟩

end Sys2Proof.Machine
end

section
/-! ## Apertures and the PCI Express link (O58) -/

namespace Sys2Proof.Machine

open Sys2Proof

/-! ### What the upkeep of a line leaves in memory -/

theorem allocL2_mem (s : State) (a n : Nat) (stream : Bool) (by_ : Nat) : (s.allocL2 a n stream by_).mem = s.mem := by
  unfold State.allocL2
  split
  · rfl
  · exact foldl_keeps State.mem _ (fun u _ => State.setSlice_mem u _ _) ..

theorem touch_mem (s : State) (a n : Nat) : (s.touch a n).mem = s.mem := by
  refine foldl_keeps State.mem _ (fun u g => foldl_keeps State.mem _ (fun v e => ?_) ..) ..
  split
  · split <;> rfl
  · rfl

theorem tearLine_mem (s : State) (l : Nat) : (s.tearLine l).mem = s.mem := by
  unfold State.tearLine
  extract_lets d watched filled _ cleared rerun _ bare u
  have hfilled : filled.mem = s.mem := foldl_keeps State.mem _ (fun v k => by split <;> rfl) ..
  have hcleared : cleared.mem = filled.mem := foldl_keeps State.mem _ (fun v e => foldl_keeps State.mem _ (fun w a => by dsimp only; split <;> rfl) ..) ..
  have hrerun : rerun.mem = cleared.mem := foldl_keeps State.mem _ (fun v _ => State.push_mem v _) ..
  have hu : u.mem = bare.mem := foldl_keeps State.mem _ (fun v _ => State.push_mem v _) ..
  have hbare : bare.mem = s.mem := hrerun.trans (hcleared.trans hfilled)
  split
  · exact (touch_mem ..).trans (hu.trans hbare)
  · exact hu.trans hbare

theorem homeWant_eq (s : State) (a n : Nat) (write : Bool) : ∃ w, s.homeWant a n write = { s with link := { s.link with wants := w } } := by
  unfold State.homeWant
  extract_lets ls
  split
  · exact ⟨s.link.wants, rfl⟩
  · exact ⟨_, rfl⟩

theorem homeWant_mem (s : State) (a n : Nat) (write : Bool) : (s.homeWant a n write).mem = s.mem := by
  obtain ⟨w, hw⟩ := homeWant_eq s a n write
  rw [hw]

theorem homeWant_out (s : State) (a n : Nat) (write : Bool) : (s.homeWant a n write).link.out = s.link.out := by
  obtain ⟨w, hw⟩ := homeWant_eq s a n write
  rw [hw]

theorem homeWant_poisonedSector (s : State) (a n : Nat) (write : Bool) (b : Nat) : (s.homeWant a n write).poisonedSector b = s.poisonedSector b := by
  obtain ⟨w, hw⟩ := homeWant_eq s a n write
  rw [hw]
  rfl

/-- A write within memory sets its bytes and no others. -/
theorem dwrite_mem {s : State} {pa n : Nat} (adr v : Nat) (h : pa + n ≤ memBytes) : (s.dwrite 0 adr pa n v).mem = mwrite s.mem pa n v := by
  rw [State.dwrite, touch_mem, if_neg (by decide), State.pwrite, if_pos h]
  rfl

/-! ### Data of one piece -/

theorem ofBytes_toBytes (n : Nat) : ∀ v, ofBytes (toBytes n v) = v % 256 ^ n := by
  induction n with
  | zero => intro v; simp [toBytes, ofBytes, Nat.mod_one]
  | succ n ih => intro v; rw [toBytes, ofBytes, ih, Nat.mod_mod, Nat.pow_succ', Nat.mod_mul]

/-- One piece has bytes, and no more than its sector. -/
theorem size_of_pieces {a n : Nat} (h : pieces a n = [(a, n)]) : 0 < n ∧ n ≤ 128 := by
  by_cases hn : n = 0
  · simp [pieces, hn] at h
  · rw [pieces, if_neg hn, List.range_succ_eq_map, List.map_cons] at h
    obtain ⟨hlo, hlen⟩ := Prod.mk.injEq .. ▸ (List.cons.inj h).1
    simp only [hlo] at hlen
    have := Nat.min_le_right (a + n) (128 * (a / 128 + 0) + 128)
    exact ⟨Nat.pos_of_ne_zero hn, by change min _ _ - _ = _ at hlen; omega⟩

theorem hostPorts_single {s u : State} {ctx a n pa : Nat} {k : PKind} (h : s.hostPort ctx a n k = (u, some (pa, false))) :
    s.hostPorts ctx [(a, n)] k = (u, some [(pa, false)]) := by
  simp [State.hostPorts, h]

/-- A read of at most 512 bytes has one completion. -/
theorem complete_single (s : State) {bs : List Nat} (h : 0 < bs.length) (h' : bs.length ≤ 512) :
    s.complete bs = s.pcie (.cplData bs.length (ofBytes bs)) := by
  have hone : Nat.max 1 ((bs.length + 511) / 512) = 1 := Nat.max_eq_left (by omega)
  simp only [State.complete, hone, List.range_one, List.foldl_cons, List.foldl_nil, Nat.mul_zero, List.drop_zero, List.take_of_length_le h']

/-- A read of one good piece is answered with its bytes. -/
theorem execHostApertureRead_piece {s u : State} {off n ctx a pa : Nat} (hat : s.apertureAt off n false = some (ctx, a)) (hp : pieces a n = [(a, n)])
    (hport : s.hostPort ctx a n .read = (u, some (pa, false))) (hpoison : u.poisonedSector a = false) :
    execHostApertureRead off n s = .next ((u.homeWant a n false).pcie (.cplData n (mread u.mem pa n))) := by
  obtain ⟨hpos, hle⟩ := size_of_pieces hp
  have hlen := length_toBytes n (mread u.mem pa n)
  have hdata : ofBytes (toBytes n (mread u.mem pa n)) = mread u.mem pa n := (ofBytes_toBytes ..).trans (Nat.mod_eq_of_lt (mread_lt ..))
  have hclean : ¬ ([(a, n)].any fun p => (u.homeWant a n false).poisonedSector p.1) = true := by simp [homeWant_poisonedSector, hpoison]
  simp only [execHostApertureRead, hat, hp, hostPorts_single hport]
  rw [if_neg hclean]
  simp only [pieceBytes, List.zip_cons_cons, List.zip_nil_right, List.map_cons, List.map_nil, List.flatMap_cons, List.flatMap_nil, List.append_nil,
    homeWant_mem, Bool.false_eq_true, if_false]
  rw [complete_single _ (by rw [hlen]; exact hpos) (by omega), hlen, hdata]

/-- A write of one piece sets its bytes. -/
theorem execHostApertureWrite_piece {s u : State} {off ctx a pa : Nat} {bs : List Nat} (hat : s.apertureAt off bs.length true = some (ctx, a))
    (hp : pieces a bs.length = [(a, bs.length)]) (hport : s.hostPort ctx a bs.length .write = (u, some (pa, false))) (hpa : pa + bs.length ≤ memBytes) :
    ∃ t, execHostApertureWrite off bs s = .next t ∧ t.mem = mwrite u.mem pa bs.length (ofBytes bs) := by
  simp only [execHostApertureWrite, hat, hp, hostPorts_single hport]
  refine ⟨_, rfl, ?_⟩
  simp only [List.zip_cons_cons, List.zip_nil_right, List.foldl_cons, List.foldl_nil, Nat.sub_self, List.drop_zero, List.take_length]
  exact (dwrite_mem _ _ hpa).trans (by rw [allocL2_mem, tearLine_mem, homeWant_mem])

/-! ### The link goes down -/

/-- Down, with no answer to come through the link, it ends no operation. -/
theorem execPcieLinkDown_idle {s : State} (h : s.ops = []) : execPcieLinkDown s =
    .next { (if s.link.hostUp then s.count 11 0 2 1 else s : State) with link := { s.link with hostUp := false, locks := [] } } := by
  unfold execPcieLinkDown
  cases hup : s.link.hostUp <;> simp [h]

/-- An operation whose one access failed reports it. -/
theorem reportOp_failed {s : State} {op : Nat} {p : Op} {x : Acc} {cause : Nat} (hops : s.ops = [(op, { p with accs := [x.fails cause] })]) :
    s.reportOp op = s.push (.farCheckReport op) := by
  unfold State.reportOp
  simp [op_single hops, Acc.fails, Acc.waits]

/-- The one access that waits for an answer through the link fails with link error, which its operation reports. -/
theorem execPcieLinkDown_load {s : State} {op : Nat} {p : Op} {x : Acc} (hops : s.ops = [(op, p)]) (haccs : p.accs = [x]) (hi : p.instr.isAccess = true)
    (hst : x.st = .sent) (hblk : x.blk = none) (hmt : x.mt = 1 ∨ x.mt = 3) :
    ∃ t, execPcieLinkDown s = .next (t.push (.farCheckReport op)) ∧ t.link.hostUp = false ∧ t.ops = [(op, { p with accs := [x.fails 0x1B] })] ∧
      s.SameBytes t := by
  have hmine : ((x.st == .sent || x.st == .clear || x.st == .ready) && x.blk.isNone && (x.mt == 1 || x.mt == 3)) = true := by
    simpa [hst, hblk] using hmt
  unfold execPcieLinkDown
  extract_lets u _ d mine
  have hd : d.ops = [(op, p)] ∧ d.link.hostUp = false ∧ s.SameBytes d := by
    simp only [d, u]
    split <;> exact ⟨hops, trivial, rfl, rfl⟩
  obtain ⟨hdops, hup, hb⟩ := hd
  have hany : (p.accs.any mine) = true := by simpa [haccs, mine] using hmine
  have hmap : (p.accs.map fun a => if mine a then a.fails 0x1B else a) = [x.fails 0x1B] := by
    rw [haccs]
    exact congrArg (fun y => [y]) (if_pos hmine)
  have hset : (d.setOp op { p with accs := [x.fails 0x1B] }).ops = [(op, { p with accs := [x.fails 0x1B] })] := by
    rw [State.setOp, hdops, tins_single]
  refine ⟨d.setOp op { p with accs := [x.fails 0x1B] }, ?_, hup, hset, hb⟩
  rw [hdops, List.foldl_cons, List.foldl_nil]
  simp only [hany, hmap, hi, Bool.not_true, Bool.false_eq_true, if_false, if_true]
  rw [reportOp_failed hset]

theorem aperturesAndHostLink : Claims.AperturesAndHostLink := by
  intro s
  refine ⟨?refusedRead, ?refusedWrite, ?read, ?write, fun _ => ⟨_, rfl, rfl⟩, ⟨_, rfl, rfl⟩, fun h => ⟨_, execPcieLinkDown_idle h, rfl⟩, ?down⟩
  case refusedRead =>
    intro off n h
    refine ⟨_, ?_, rfl⟩
    show execHostApertureRead off n s = _
    rw [execHostApertureRead, h]
  case refusedWrite =>
    intro off bs h
    refine ⟨_, ?_, rfl⟩
    show execHostApertureWrite off bs s = _
    rw [execHostApertureWrite, h]
  case read =>
    intro off n ctx a u pa hat hp hport hpoison
    exact ⟨_, execHostApertureRead_piece hat hp hport hpoison, homeWant_mem .., congrArg (· ++ _) (homeWant_out ..)⟩
  case write =>
    intro off bs ctx a u pa hat hp hport hpa _
    obtain ⟨t, ht, hmem⟩ := execHostApertureWrite_piece hat hp hport hpa
    exact ⟨t, ht, hmem⟩
  case down =>
    intro op p x h z d a c hops hi haccs hst hblk hmt
    obtain ⟨t, ht, hup, hop, hb⟩ := execPcieLinkDown_load hops haccs (hi ▸ rfl) hst hblk hmt
    exact ⟨_, ht, hup, hop, List.mem_append_right _ (List.mem_singleton.2 rfl), hb⟩

/-- Settles O58: the register file's windows case by case, and the apertures by what the upkeep of a line leaves in memory. -/
theorem hostWritesAndApertures : Obligations.HostWritesAndApertures := ⟨hostRegisterWrites, aperturesAndHostLink⟩

end Sys2Proof.Machine
end

section
/-! ## The commit doorbell (O39) -/

namespace Sys2Proof.Machine

open Sys2Proof

/-! ### What a doorbell's answer leaves -/

theorem bell_cdbr0 (s : State) (r0 r1 : Nat) : (s.bell r0 r1).le.cdbr0 = r0 := rfl

theorem bell_cdbr1 (s : State) (r0 r1 : Nat) : (s.bell r0 r1).le.cdbr1 = r1 := rfl

theorem bell_mem (s : State) (r0 r1 : Nat) : (s.bell r0 r1).mem = s.mem := rfl

@[simp] theorem queue_bell (s : State) (r0 r1 ctx qn : Nat) : (s.bell r0 r1).queue ctx qn = s.queue ctx qn := rfl

@[simp] theorem queue_count (s : State) (b i k n ctx qn : Nat) : (s.count b i k n).queue ctx qn = s.queue ctx qn := rfl

@[simp] theorem queue_bellFail (s : State) (k ctx qn : Nat) : (s.bellFail k).queue ctx qn = s.queue ctx qn := rfl

@[simp] theorem queue_push (s : State) (e : Event) (ctx qn : Nat) : (s.push e).queue ctx qn = s.queue ctx qn := rfl

@[simp] theorem queue_setQueue (s : State) (ctx qn : Nat) (q : Queue) : (s.setQueue ctx qn q).queue ctx qn = q := tget_tset_self ..

/-! ### What a commit leaves of a queue -/

/-- An entry changed in place, with what `g` reads of it kept, changes nothing that `g` reads of the map. -/
theorem tget_map_keeps {α β : Type} (d : α) (g : α → β) {f : Nat × α → Nat × α} (hk : ∀ e, (f e).1 = e.1) (hg : ∀ e, g (f e).2 = g e.2)
    (m : SMap α) (k : Nat) : g (tget d (m.map f) k) = g (tget d m k) := by
  induction m with
  | nil => rfl
  | cons e t ih =>
    rw [List.map_cons, tget, tget, hk]
    split
    · exact hg e
    · exact ih

/-- What a commit wakes in a queue is not what the host has reserved in it. -/
theorem queueWork_hostRes (s : State) (c h k : Nat) :
    (tget .empty (s.queueWork c h).le.queues k).hostRes = (tget .empty s.le.queues k).hostRes := by
  unfold State.queueWork
  extract_lets mine f _ t
  rw [State.SameLedger.le ((State.SameLedger.refl t).foldl fun _ _ hu => hu.push)]
  refine tget_map_keeps _ Queue.hostRes (fun e => ?_) (fun e => ?_) ..
  all_goals
    simp only [f]
    split
    · split <;> rfl
    · rfl

theorem commitAt_hostRes (s : State) (c h p m k : Nat) :
    (tget .empty (s.commitAt c h p m).le.queues k).hostRes = (tget .empty s.le.queues k).hostRes := by
  unfold State.commitAt
  extract_lets q t r
  have ht : s.SameLedger t := by
    refine (State.SameLedger.refl s).foldl fun _ _ hu => ?_
    split
    · exact hu.brPut
    · exact hu
  have hr := ht.advanceWindow (c := c) (k := h) (q := r)
  split
  next u q' e =>
  have hu := ((hr.of_eq e).seqPut (c := c) (k := h) (q := q')).seqAgain (c := c)
  dsimp only
  split
  · rw [queueWork_hostRes, hu.le]
  · rw [hu.le]

/-- So of what the host has reserved in a queue, commits leave what the doorbell left. -/
theorem commits_hostRes (ps : List Nat) (s : State) (ctx qn h : Nat) :
    ((ps.foldl (fun u p => u.commitAt ctx h p 1) s).queue ctx qn).hostRes = (s.queue ctx qn).hostRes :=
  List.foldlRecOn (motive := fun u : State => (u.queue ctx qn).hostRes = (s.queue ctx qn).hostRes) _ _ rfl fun _ hu _ _ => (commitAt_hostRes ..).trans hu

/-! ### What a doorbell reports -/

theorem execReserve_count {s : State} {n : Nat} (ctx qn : Nat) (h : n = 0 ∨ 256 < n) : execReserve ctx qn n s = .next (s.bellFail 4) := if_pos h

theorem execCommit_count {s : State} {n : Nat} (ctx qn : Nat) (h : n = 0 ∨ 256 < n) : execCommit ctx qn n s = .next (s.bellFail 4) := if_pos h

section

variable {s : State} {ctx qn n : Nat} (hn : 1 ≤ n) (hn' : n ≤ 256)

include hn hn'

theorem execReserve_notHost (hh : s.hostQueue ctx qn = false) : execReserve ctx qn n s = .next (s.bellFail 1) :=
  (if_neg (by omega)).trans (if_pos (Or.inl (by rw [hh]; rfl)))

theorem execCommit_notHost (hh : s.hostQueue ctx qn = false) : execCommit ctx qn n s = .next (s.bellFail 1) :=
  (if_neg (by omega)).trans (if_pos (by rw [hh]; rfl))

/-- A host's reservation of at most 256 records in a sequence that is not sealed goes as `reserveAll` says. -/
theorem execReserve_host (hh : s.hostQueue ctx qn = true) (hst : (s.seqGet ctx (s.queue ctx qn).seq).st = 1) :
    execReserve ctx qn n s =
      let q := s.queue ctx qn
      let d := s.seqGet ctx q.seq
      match s.reserveAll ctx q.seq (List.replicate (s.resCount ctx q.seq (min n (max (256 - (d.rlen - d.clen)) 1)) 0) 0) with
      | (t, .got (p :: ps)) =>
        if s.behind ctx q.seq s.nextOp then .next (s.bellFail 5)
        else .next (((t.setQueue ctx qn { q with hostRes := q.hostRes ++ (p :: ps).map (·.pos) }).count 6 (seqDie q.seq) 0 1).bell
          (p.pos + 2 ^ 40 * (ps.length + 1)) (d.slotAt p.brk p.slot))
      | (_, .wait) => .next (s.bellFail 5)
      | _ => .next (s.bellFail 2) :=
  (if_neg (by omega)).trans (if_neg (by simp [hh, hst]))

theorem execReserve_got {u : State} {p : Placed} {ps : List Placed} (hh : s.hostQueue ctx qn = true) (hst : (s.seqGet ctx (s.queue ctx qn).seq).st = 1)
    (hroom : (s.seqGet ctx (s.queue ctx qn).seq).rlen < (s.seqGet ctx (s.queue ctx qn).seq).clen + 256)
    (hb : s.behind ctx (s.queue ctx qn).seq s.nextOp = false)
    (hr : s.reserveAll ctx (s.queue ctx qn).seq (List.replicate (s.resCount ctx (s.queue ctx qn).seq
      (min n (256 - ((s.seqGet ctx (s.queue ctx qn).seq).rlen - (s.seqGet ctx (s.queue ctx qn).seq).clen))) 0) 0) = (u, .got (p :: ps))) :
    execReserve ctx qn n s = .next (((u.setQueue ctx qn { s.queue ctx qn with
      hostRes := (s.queue ctx qn).hostRes ++ (p :: ps).map fun x => x.pos }).count 6 (seqDie (s.queue ctx qn).seq) 0 1).bell
        (p.pos + 2 ^ 40 * (ps.length + 1)) ((s.seqGet ctx (s.queue ctx qn).seq).slotAt p.brk p.slot)) := by
  rw [execReserve_host hn hn' hh hst]
  dsimp only
  rw [Nat.max_eq_left (by omega), hr]
  exact if_neg (by simp [hb])

theorem execCommit_few (hh : s.hostQueue ctx qn = true) (hf : (s.queue ctx qn).hostRes.length < n) : execCommit ctx qn n s = .next (s.bellFail 3) :=
  (if_neg (by omega)).trans ((if_neg (by simp [hh])).trans (if_pos hf))

theorem execCommit_host (hh : s.hostQueue ctx qn = true) (hf : n ≤ (s.queue ctx qn).hostRes.length) :
    execCommit ctx qn n s = .next (((((s.queue ctx qn).hostRes.take n).foldl (fun u p => u.commitAt ctx (s.queue ctx qn).seq p 1)
      (s.setQueue ctx qn { s.queue ctx qn with hostRes := (s.queue ctx qn).hostRes.drop n })).count 6 (seqDie (s.queue ctx qn).seq) 0 1).bell
        (2 ^ 40 * n) 0) :=
  (if_neg (by omega)).trans ((if_neg (by simp [hh])).trans (if_neg (by omega)))

end

/-! ### REFRESH -/

@[simp] theorem recast_seq (s : State) (q : Queue) (c : Nat) : (s.recast q c).seq = q.seq := by
  simp only [State.recast]
  split <;> rfl

@[simp] theorem recast_cls (s : State) (q : Queue) (c : Nat) : (s.recast q c).cls = c := by
  simp only [State.recast]
  split <;> rfl

theorem refreshed_ne_off (st : QState) (work : Bool) : refreshed st work ≠ .off := by cases st <;> cases work <;> decide

/-- What REFRESH does with the entry `e` that it has read. -/
def State.takeEntry (v : State) (ctx qn e : Nat) : Host.Outcome State Fault Refusal :=
  let h := fld e 0 20
  let q := v.queue ctx qn
  let off := v.setQueue ctx qn { q with st := .off, moving := false }
  if fld e 24 40 ≠ 0 ∨ !v.seqValid ctx h ∨ (v.seqGet ctx h).lq ≠ 1 ∨ (v.seqGet ctx h).recSize ≠ 128 then .next (off.bellFail 1)
  else if fld e 22 1 = 0 then .next (off.bell 0 0)
  else
    let q := { v.recast (if q.seq = h then q else { q with seq := h, cursor := 0, hostRes := [] }) (fld e 20 2) with host := fld e 23 1 == 1 }
    let st := refreshed q.st (v.hasWork ctx q)
    let t := (v.setQueue ctx qn { q with
      st := st, since := if st = .iw ∧ q.st ≠ .iw then v.tick else q.since, bound := q.bound && q.st == .iw
      mostW := if st = .iw ∧ q.st = .iw then q.mostW else 0, leastS := if st = .iw ∧ q.st = .iw then q.leastS else 0 }).bell 0 0
    .next (if st = .mw then t.push (.recordAccept ctx qn) else t)

theorem execRefresh_eq {s : State} {ctx qn : Nat} (hreg : (s.ctx ctx).reg = true) (hqn : qn < 1024) :
    execRefresh ctx qn s =
      let v := s.noteRead ctx ((s.ctx ctx).launchArea * 2 ^ 40 + 0x400 + 8 * qn)
      v.takeEntry ctx qn (v.oread ctx (v.ctx ctx).launchArea (0x400 + 8 * qn) 8) :=
  if_neg (by simp [hreg, hqn])
section

variable {v : State} {ctx qn e : Nat}

/-- A bad entry takes the queue to OFF and is reported. -/
theorem takeEntry_bad (h : fld e 24 40 ≠ 0 ∨ v.seqValid ctx (fld e 0 20) = false ∨ (v.seqGet ctx (fld e 0 20)).lq ≠ 1 ∨
      (v.seqGet ctx (fld e 0 20)).recSize ≠ 128) :
    v.takeEntry ctx qn e = .next ((v.setQueue ctx qn { v.queue ctx qn with st := .off, moving := false }).bellFail 1) :=
  if_pos (by simpa using h)

variable (h24 : fld e 24 40 = 0) (hval : v.seqValid ctx (fld e 0 20) = true) (hlq : (v.seqGet ctx (fld e 0 20)).lq = 1)
  (hrec : (v.seqGet ctx (fld e 0 20)).recSize = 128)

include h24 hval hlq hrec

/-- A disabled entry takes the queue to OFF. -/
theorem takeEntry_disabled (h22 : fld e 22 1 = 0) :
    v.takeEntry ctx qn e = .next ((v.setQueue ctx qn { v.queue ctx qn with st := .off, moving := false }).bell 0 0) :=
  (if_neg (by simp [h24, hval, hlq, hrec])).trans (if_pos h22)

/-- The queue takes an enabled entry over. -/
theorem takeEntry_enabled (h22 : fld e 22 1 = 1) : ∃ t, v.takeEntry ctx qn e = .next t ∧ t.le.cdbr0 = 0 ∧ (t.queue ctx qn).st ≠ .off ∧
    (t.queue ctx qn).seq = fld e 0 20 ∧ (t.queue ctx qn).cls = fld e 20 2 ∧ (t.queue ctx qn).host = (fld e 23 1 == 1) := by
  unfold State.takeEntry
  extract_lets h q off q' q'' st t
  rw [if_neg (by simp [h, h24, hval, hlq, hrec]), if_neg (by omega)]
  have hle : (if st = .mw then t.push (.recordAccept ctx qn) else t).le = t.le := by split <;> rfl
  have hq : (if st = .mw then t.push (.recordAccept ctx qn) else t).queue ctx qn = t.queue ctx qn :=
    congrArg (fun x : LaunchEng => tget .empty x.queues (1024 * ctx + qn)) hle
  refine ⟨_, rfl, congrArg LaunchEng.cdbr0 hle, ?_⟩
  rw [hq]
  simp only [t, queue_bell, queue_setQueue]
  refine ⟨refreshed_ne_off _ _, ?_, recast_cls .., rfl⟩
  simp only [q'', recast_seq, q']
  split
  · assumption
  · rfl

end

/-- Settles O39: the doorbell case by case; commits keep what the host has reserved, and a refreshed queue is never OFF. -/
theorem doorbellCommands : Obligations.DoorbellCommands := by
  intro s ctx qn n q d
  refine ⟨fun h => ⟨⟨_, execReserve_count ctx qn h, rfl⟩, ⟨_, execCommit_count ctx qn h, rfl⟩⟩,
    fun h h' hh => ⟨⟨_, execReserve_notHost h h' hh, rfl⟩, ⟨_, execCommit_notHost h h' hh, rfl⟩⟩, ?got, ?refused,
    fun h h' hh hf => ⟨_, execCommit_few h h' hh hf, rfl⟩, ?commit, ?refresh⟩
  case got =>
    intro k p ps u h h' hh hst hroom hb hk hr
    exact ⟨_, execReserve_got h h' hh hst hroom hb (hk ▸ hr), bell_cdbr0 .., bell_cdbr1 .., by rw [queue_bell, queue_count, queue_setQueue]⟩
  case refused =>
    intro k u h h' hh hst hk
    refine ⟨fun hr => ⟨_, (execReserve_host h h' hh hst).trans ?_, rfl⟩, fun f need hr => ⟨_, (execReserve_host h h' hh hst).trans ?_, rfl⟩⟩ <;>
    · dsimp only
      rw [← hk, hr]
  case commit =>
    intro h h' hh hf
    refine ⟨_, execCommit_host h h' hh hf, rfl, rfl, ?_, ?_⟩
    · rw [queue_bell, queue_count, commits_hostRes, queue_setQueue]
    · rw [bell_mem, State.count_mem]
  case refresh =>
    intro v e x hreg hqn
    refine ⟨fun hbad => ⟨_, (execRefresh_eq hreg hqn).trans (takeEntry_bad hbad), ?_⟩, fun h24 hval hlq hrec => ⟨fun h22 => ?_, fun h22 => ?_⟩⟩
    · exact ⟨by rw [queue_bellFail, queue_setQueue], rfl⟩
    · exact ⟨_, (execRefresh_eq hreg hqn).trans (takeEntry_disabled h24 hval hlq hrec h22), by rw [queue_bell, queue_setQueue], rfl⟩
    · obtain ⟨t, ht, h0, hst, hseq, hcls, hhost⟩ := takeEntry_enabled h24 hval hlq hrec h22
      exact ⟨t, (execRefresh_eq hreg hqn).trans ht, hst, hseq, hcls, hhost, h0⟩

end Sys2Proof.Machine
end

section
/-! ## Launch records are accepted (O40) -/

namespace Sys2Proof.Machine

open Sys2Proof

/-! ### What the launch engine reads -/

theorem State.AtHome.noOps {s t : State} (h : s.AtHome t) (hops : s.ops = []) : t.ops = [] := by
  obtain ⟨-, -, -, -, ht, -⟩ := h.fields
  exact ht.trans hops

theorem State.AtHome.noteReads {s t : State} {c : Nat} {as : List Nat} (h : s.AtHome t) : s.AtHome (t.noteReads c as) :=
  h.foldl fun _ _ hu => hu.portCheck.homeWant

/-! ### Past a record -/

theorem pastRecord_launches (s : State) (ctx qn : Nat) : (s.pastRecord ctx qn).launches = s.launches := by
  unfold State.pastRecord
  dsimp only
  split <;> rfl

theorem pastRecord_cnt (s : State) (ctx qn : Nat) : (s.pastRecord ctx qn).cnt = s.cnt := by
  unfold State.pastRecord
  dsimp only
  split <;> rfl

theorem pastRecord_sameBytes (s : State) (ctx qn : Nat) : s.SameBytes (s.pastRecord ctx qn) := by
  unfold State.pastRecord
  dsimp only
  split <;> exact ⟨rfl, rfl⟩

/-- The cursor goes past the record; the queue's waiting launches stay. -/
theorem pastRecord_queue (s : State) (ctx qn : Nat) : ((s.pastRecord ctx qn).queue ctx qn).cursor = (s.queue ctx qn).cursor + 1 ∧
    ((s.pastRecord ctx qn).queue ctx qn).waiting = (s.queue ctx qn).waiting := by
  unfold State.pastRecord
  dsimp only
  split
  · rw [queue_push, queue_setQueue]
    exact ⟨rfl, rfl⟩
  · rw [queue_setQueue]
    exact ⟨rfl, rfl⟩

/-- Without operations in flight no LAUNCH waits for an answer. -/
theorem answerLaunch_idle {s : State} (h : s.ops = []) (ctx qn pos v : Nat) : s.answerLaunch ctx qn pos v = s := by
  unfold State.answerLaunch
  rw [h]
  rfl

/-! ### A record is accepted -/

/-- The state in which a valid record without a counter has become launch `l`, the last of its queue to wait. -/
def State.AcceptsAs (s t : State) (ctx qn : Nat) (l : Launch) : Prop :=
  t.launches = s.launches ++ [l] ∧ (t.queue ctx qn).waiting = (s.queue ctx qn).waiting ++ [s.launches.length] ∧
    (t.queue ctx qn).cursor = (s.queue ctx qn).cursor ∧ s.SameBytes t

theorem acceptRec_uncounted {s : State} {ctx qn pos : Nat} {r : LRec} (hops : s.ops = []) (hc : r.cctr < 128) (hok : s.recValid ctx r = true) :
    ∃ l : Launch, s.AcceptsAs (s.acceptRec ctx qn pos r) ctx qn l ∧ l.ctx = ctx ∧ l.qn = qn ∧ l.pos = pos ∧
      l.lr = { r with cls := min r.cls (s.queue ctx qn).cls } ∧ l.token = 0 ∧ l.st = .accepted ∧ l.accTick = s.tick % 2 ^ 32 := by
  have hcount : (fld r.cctr 7 1 == 1) = false := by simp [fld]; omega
  unfold State.acceptRec
  extract_lets q i c n counted u token ok clamp v k _ l w _ w' t e
  have hu : u = s := if_neg (by simp [counted, hcount])
  have hok' : ok = true := by rw [← hok, ← hu]
  have hclamp : clamp = decide (q.cls < r.cls) := by simp only [clamp, hok', Bool.true_and]
  have hv : v.ops = s.ops ∧ v.launches = s.launches ∧ v.tick = s.tick ∧ v.le = s.le ∧ s.SameBytes v := by
    simp only [v, hu]
    split <;> exact ⟨rfl, rfl, rfl, rfl, rfl, rfl⟩
  obtain ⟨hvops, hvl, hvt, hvle, hvb⟩ := hv
  have ht : t = w' := answerLaunch_idle (s := w') (hvops.trans hops) ..
  have hq : w.queue ctx qn = s.queue ctx qn := congrArg (fun y : LaunchEng => tget .empty y.queues (1024 * ctx + qn)) hvle
  rw [if_pos hok', ht]
  refine ⟨l, ⟨?launches, ?waiting, ?cursor, hvb⟩, rfl, rfl, rfl, ?cls, if_neg (by simp [counted, hcount]), if_pos hok', ?tick⟩
  case launches => exact congrArg (· ++ [l]) hvl
  case waiting =>
    simp only [w', queue_setQueue, if_pos hok', k, hvl, q]
  case cursor =>
    simp only [w', queue_setQueue]
    exact congrArg Queue.cursor hq
  case cls =>
    have hmin : (if clamp = true then q.cls else r.cls) = min r.cls (s.queue ctx qn).cls := by
      simp only [hclamp, decide_eq_true_eq, q]
      split <;> omega
    simp only [l, hmin]
  case tick => simp only [l, hvt]

/-! ### The event -/

theorem execRecordAccept_none {s : State} {ctx qn : Nat} (h : (s.queue ctx qn).st ≠ .mw ∨ 64 ≤ (s.queue ctx qn).waiting.length) :
    execRecordAccept ctx qn s = .next s :=
  if_pos (h.imp_right Or.inl)

section

variable {s v : State} {ctx qn x : Nat} (hst : (s.queue ctx qn).st = .mw) (hw : (s.queue ctx qn).waiting.length < 64)
  (hval : s.seqValid ctx (s.queue ctx qn).seq = true) (hcur : (s.queue ctx qn).cursor < (s.seqGet ctx (s.queue ctx qn).seq).clen)
  (hx : s.recAt ctx (s.seqGet ctx (s.queue ctx qn).seq) (s.queue ctx qn).cursor = some x)
  (hv : (s.noteReads ctx (s.brickSectors ctx (s.seqGet ctx (s.queue ctx qn).seq)
      (s.brickAt ctx (s.seqGet ctx (s.queue ctx qn).seq) (s.queue ctx qn).cursor).toList)).noteReads ctx
        (s.recSectors ctx (s.seqGet ctx (s.queue ctx qn).seq) (s.queue ctx qn).cursor) = v)

include hst hw hval hcur hx hv

theorem execRecordAccept_version (hr : (LRec.ofBits x).ver ≠ 1) :
    execRecordAccept ctx qn s = .next (((v.count 0 0 4 1).answerLaunch ctx qn (s.queue ctx qn).cursor 0x7FFFFFFF).pastRecord ctx qn) := by
  refine (if_neg (by simp [hst, hw, hval, hcur])).trans ?_
  rw [hx]
  dsimp only
  rw [hv, if_pos hr]

theorem execRecordAccept_uncounted (hr : (LRec.ofBits x).ver = 1) (hc : (LRec.ofBits x).cctr < 128) :
    execRecordAccept ctx qn s = .next ((v.acceptRec ctx qn (s.queue ctx qn).cursor (LRec.ofBits x)).pastRecord ctx qn) := by
  have hcount : fld (LRec.ofBits x).cctr 7 1 = 0 := by simp [fld]; omega
  refine (if_neg (by simp [hst, hw, hval, hcur])).trans ?_
  rw [hx]
  dsimp only
  rw [hv, if_neg (by simp [hr]), if_neg (by simp [hcount])]

end

/-- Settles O40: what the engine reads is at the homes and leaves the queue alone, and what it takes over is one launch and one queue. -/
theorem recordsAreAccepted : Obligations.RecordsAreAccepted := by
  intro s ctx qn x q d r v
  have hhome : s.AtHome v := ((State.AtHome.refl s).noteReads).noteReads
  have hledger : s.SameLedger v := ((State.SameLedger.refl s).noteReads).noteReads
  have hv : (s.noteReads ctx (s.brickSectors ctx d (s.brickAt ctx d q.cursor).toList)).noteReads ctx (s.recSectors ctx d q.cursor) = v := rfl
  clear_value v
  refine ⟨fun h => ⟨s, execRecordAccept_none h, rfl⟩, fun hops hst hw hval hcur hx => ⟨fun hr => ?version, fun hr hc hok => ?accepted⟩⟩
  case version =>
    have hidle : (v.count 0 0 4 1).answerLaunch ctx qn q.cursor 0x7FFFFFFF = v.count 0 0 4 1 := answerLaunch_idle (s := v.count 0 0 4 1) (hhome.noOps hops) ..
    refine ⟨_, (execRecordAccept_version hst hw hval hcur hx hv hr), ?_⟩
    rw [hidle]
    obtain ⟨hcur, -⟩ := pastRecord_queue (v.count 0 0 4 1) ctx qn
    obtain ⟨hmem, hblocks⟩ := pastRecord_sameBytes (v.count 0 0 4 1) ctx qn
    exact ⟨(pastRecord_launches ..).trans hledger.launches, hcur.trans (by rw [queue_count, hledger.queue]), pastRecord_cnt .., hmem, hblocks⟩
  case accepted =>
    obtain ⟨l, ⟨hl, hwait, hcursor, hb⟩, hctx, hqn, hpos, hlr, htok, hlst, htick⟩ :=
      acceptRec_uncounted (ctx := ctx) (qn := qn) (pos := q.cursor) (hhome.noOps hops) hc hok
    refine ⟨_, execRecordAccept_uncounted hst hw hval hcur hx hv hr hc, l, ?_⟩
    obtain ⟨hcur', hwait'⟩ := pastRecord_queue (v.acceptRec ctx qn q.cursor r) ctx qn
    obtain ⟨hmem, hblocks⟩ := pastRecord_sameBytes (v.acceptRec ctx qn q.cursor r) ctx qn
    rw [hledger.queue] at hwait hcursor hlr
    refine ⟨(pastRecord_launches ..).trans (hl.trans (by rw [hledger.launches])), hctx, hqn, hpos, hlr, htok, hlst, hledger.tick ▸ htick,
      hwait'.trans ?_, hcur'.trans (congrArg (· + 1) hcursor), hmem.trans hb.1, hblocks.trans hb.2⟩
    rw [hwait, hledger.launches]

end Sys2Proof.Machine
end

section
/-! ## Launch queue slots, ticks and replays (O42) -/

namespace Sys2Proof.Machine

open Sys2Proof

/-! ### Slots -/

theorem queueSlotsMove : Claims.QueueSlotsMove := by
  intro s ctx qn _ q
  refine ⟨fun hm hw => ?_, fun hm hw => ?_, fun hm => ⟨_, if_pos (by simp [← hm, q]), rfl⟩, fun h => ⟨_, if_pos h, rfl⟩,
    fun h => ⟨_, if_neg (by simp [← h, q]), rfl⟩, fun h => ⟨_, if_pos h, rfl⟩, fun h => ⟨_, if_neg (by simp [← h, q]), rfl⟩⟩
  · exact ⟨_, (if_neg (by simp [← hm, q])).trans (if_pos hw), (queue_push ..).trans (queue_setQueue ..),
      List.mem_append_right _ (List.mem_singleton.2 rfl)⟩
  · exact ⟨_, (if_neg (by simp [← hm, q])).trans (if_neg (by simp [← hw, q])), queue_setQueue ..⟩

/-! ### The package tick -/

/-- The tick counts, every eighth brings the system tick and every 64th the predictors' decay. -/
def State.ticked (s : State) : State :=
  { s with
    tick := s.tick + 1
    agenda := s.agenda ++ (if (s.tick + 1) % 8 = 0 then [.systemTick] else []) ++ (if (s.tick + 1) % 64 = 0 then [.predictorDecay] else []) }

theorem execPackageTick_eq (s : State) : execPackageTick s =
    if s.mg.boot = .ready then .next s.ticked.tickFences.tickLaunch.tickIrqs.serveAtomics else .next s.ticked := by
  unfold execPackageTick State.ticked
  by_cases h8 : (s.tick + 1) % 8 = 0 <;> by_cases h64 : (s.tick + 1) % 64 = 0 <;> simp [h8, h64, State.push]

/-- There is nothing that a tick would move but the sc fences: no launch, queue or core, no vector due, nothing that waits for the link. -/
structure State.AtRest (s : State) : Prop where
  launches : s.launches = []
  queues : s.le.queues = []
  cores : s.cores = []
  irqDue : s.link.irqDue = []
  waiting : s.link.waiting = []

theorem tickQueues_rest {s : State} (h : s.le.queues = []) : s.tickQueues = s := by
  have hw : s.watchWaits = s := by rw [State.watchWaits, h]; rfl
  have hg : s.grants = s := by simp [State.grants, h, sortOn, List.flatMap_eq_nil_iff.2 fun _ _ => rfl]
  rw [State.tickQueues, hw, hg, h]
  rfl

theorem candidates_rest {s : State} (h : s.launches = []) : s.candidates = [] := by simp [State.candidates, h]

theorem placeAll_rest {s : State} (h : s.launches = []) (n : Nat) : s.placeAll n = s := by
  cases n with
  | zero => rfl
  | succ n => rw [State.placeAll, candidates_rest h]; rfl

theorem tickWaits_rest {s : State} (h : s.launches = []) : s.tickWaits = s := by rw [State.tickWaits, candidates_rest h]; rfl

theorem lendAll_rest {s : State} (h : s.cores = []) : s.lendAll = s := by rw [State.lendAll, h, List.map_nil, ← h]

theorem tickWaves_rest {s : State} (h : s.launches = []) : s.tickWaves = s := by simp [State.tickWaves, h]

theorem tickIrqs_rest {s : State} (h : s.link.irqDue = []) : s.tickIrqs = s := by
  rw [State.tickIrqs, h, List.filter_nil, List.foldl_nil, ← h]

theorem tickLaunch_rest {s : State} (h : s.AtRest) : s.tickLaunch = s := by
  rw [State.tickLaunch, tickQueues_rest h.queues, h.launches, List.length_nil, List.range_zero, List.foldl_nil, placeAll_rest h.launches,
    tickWaits_rest h.launches, lendAll_rest h.cores, tickWaves_rest h.launches]

theorem serveAtomics_rest {s : State} (h : s.link.waiting = []) : s.serveAtomics = s := by rw [State.serveAtomics, h]; rfl

/-- At rest the launch engine, the interrupts and the link bring nothing about. -/
theorem tick_rest {s : State} (h : s.AtRest) : s.tickLaunch.tickIrqs.serveAtomics = s := by
  rw [tickLaunch_rest h, tickIrqs_rest h.irqDue, serveAtomics_rest h.waiting]

/-! ### The sc fences that are due -/

theorem pushNew_eq (s : State) (e : Event) : ∃ a, s.pushNew e = { s with agenda := a } ∧ (∀ x ∈ s.agenda, x ∈ a) ∧ e ∈ a := by
  unfold State.pushNew
  split
  · next h => exact ⟨s.agenda, rfl, fun _ hx => hx, List.contains_iff_mem.1 h⟩
  · exact ⟨s.agenda ++ [e], rfl, fun _ hx => List.mem_append_left _ hx, List.mem_append_right _ (List.mem_singleton.2 rfl)⟩

/-- What a tick does for one operation: the end of its fence, when that is due, becomes due. -/
def State.tickFence (s : State) (e : Nat × Op) : State :=
  match e.2.instr, e.2.stage with
  | .fence _ _, .tick n => if n ≤ s.tick then s.pushNew (.fenceScComplete e.1) else s
  | _, _ => s

theorem tickFences_eq_foldl (s : State) : s.tickFences = s.ops.foldl State.tickFence s := rfl

theorem tickFence_eq (s : State) (e : Nat × Op) : ∃ a, s.tickFence e = { s with agenda := a } ∧ ∀ x ∈ s.agenda, x ∈ a := by
  unfold State.tickFence
  split
  · split
    · obtain ⟨a, ha, hkeep, -⟩ := pushNew_eq s (.fenceScComplete e.1)
      exact ⟨a, ha, hkeep⟩
    · exact ⟨s.agenda, rfl, fun _ hx => hx⟩
  · exact ⟨s.agenda, rfl, fun _ hx => hx⟩

/-- The fences due add to the agenda, and do nothing else. -/
theorem tickFences_eq (s : State) : ∃ a, s.tickFences = { s with agenda := a } := by
  refine List.foldlRecOn (motive := fun u => ∃ a, u = { s with agenda := a }) s.ops State.tickFence ⟨s.agenda, rfl⟩ fun u hu e _ => ?_
  obtain ⟨a, rfl⟩ := hu
  obtain ⟨b, hb, -⟩ := tickFence_eq { s with agenda := a } e
  exact ⟨b, hb⟩

theorem tickFences_due {s : State} {e : Nat × Op} {r : Order} {k : Scope} {n : Nat} (he : e ∈ s.ops) (hi : e.2.instr = .fence r k)
    (hst : e.2.stage = .tick n) (hn : n ≤ s.tick) : .fenceScComplete e.1 ∈ s.tickFences.agenda := by
  rw [tickFences_eq_foldl]
  refine foldl_of_mem (P := fun u : State => u.tick = s.tick) (Q := fun u : State => .fenceScComplete e.1 ∈ u.agenda) he (fun u x hu => ?_) (fun u x hu => ?_)
    (fun u hu => ?_) rfl
  · obtain ⟨a, ha, -⟩ := tickFence_eq u x
    rw [ha]
    exact hu
  · obtain ⟨a, ha, hkeep⟩ := tickFence_eq u x
    rw [ha]
    exact hkeep _ hu
  · obtain ⟨a, ha, -, hnew⟩ := pushNew_eq u (.fenceScComplete e.1)
    have hgo : u.tickFence e = u.pushNew (.fenceScComplete e.1) := by
      rw [State.tickFence, hi, hst]
      exact if_pos (hu ▸ hn)
    rw [hgo, ha]
    exact hnew

/-- No fence waits for a tick. -/
theorem tickFences_rest {s : State} (h : ∀ e ∈ s.ops, ∀ n, e.2.stage ≠ .tick n) : s.tickFences = s := by
  refine List.foldlRecOn (motive := fun u => u = s) s.ops State.tickFence rfl fun u hu e he => ?_
  subst hu
  unfold State.tickFence
  split
  · next n _ hst => exact absurd hst (h e he n)
  · rfl

/-! ### The predictors' decay -/

theorem tget_map_snd {α β : Type} (d : α) {d' : β} {f : α → β} (hd : f d = d') (m : SMap α) (k : Nat) :
    tget d' (m.map fun e => (e.1, f e.2)) k = f (tget d m k) := by
  induction m with
  | nil => exact hd.symm
  | cons e t ih =>
    rw [List.map_cons, tget, tget]
    split
    · rfl
    · exact ih

theorem tget_of_all {α : Type} {P : α → Prop} {d : α} (hd : P d) {m : SMap α} (h : ∀ e ∈ m, P e.2) (k : Nat) : P (tget d m k) := by
  induction m with
  | nil => exact hd
  | cons e t ih =>
    rw [tget]
    split
    · exact h e List.mem_cons_self
    · exact ih fun x hx => h x (List.mem_cons_of_mem e hx)

/-- Every counter of a predictor falls by one. -/
def decayed (m : SMap Nat) : SMap Nat := (m.map fun p => (p.1, p.2 - 1)).filter fun p => p.2 != 0

theorem tget_decayed {m : SMap Nat} (h : (m.map fun x => x.1).Nodup) (k : Nat) : tget 0 (decayed m) k = tget 0 m k - 1 := by
  induction m with
  | nil => rfl
  | cons e t ih =>
    obtain ⟨he, ht⟩ := List.nodup_cons.1 h
    have hrest : e.1 = k → tget 0 (decayed t) k = 0 := fun hk => by
      rw [ih ht]
      by_contra hne
      have hmem : k ∈ t.map fun x => x.1 := List.mem_map_of_mem (f := fun x => x.1) (mem_of_tget_ne (d := 0) (m := t) (k := k) (by omega))
      exact he (hk.symm ▸ hmem : e.1 ∈ t.map fun x => x.1)
    by_cases hz : e.2 - 1 = 0
    · have hd : decayed (e :: t) = decayed t := by simp [decayed, hz]
      rw [hd, tget]
      split
      · next hk => rw [hrest hk, hz]
      · exact ih ht
    · have hd : decayed (e :: t) = (e.1, e.2 - 1) :: decayed t := by simp [decayed, hz]
      rw [hd, tget, tget]
      split
      · rfl
      · exact ih ht

theorem predictorDecay_falls {s : State} (hn : ∀ e ∈ s.cores, (e.2.pred.map fun x => x.1).Nodup) :
    Answers .predictorDecay s fun t => ∀ c k, tget 0 (t.core c).pred k = tget 0 (s.core c).pred k - 1 := by
  refine ⟨_, rfl, fun c k => ?_⟩
  have hcore := tget_map_snd Core.empty (f := fun x : Core => { x with pred := decayed x.pred }) (d' := Core.empty) rfl s.cores c
  have hdup := tget_of_all (P := fun x : Core => (x.pred.map fun x => x.1).Nodup) (d := Core.empty) List.nodup_nil hn c
  exact (congrArg (fun x : Core => tget 0 x.pred k) hcore).trans (tget_decayed hdup k)

/-! ### Replays -/

/-- Faults of the pages chosen are forgotten. -/
def State.unfault (s : State) (ctx : Nat) (pick : Nat → Nat → Bool) : State :=
  { s with slices := s.slices.map fun (e : Nat × Slice) => (e.1, { e.2 with faults := e.2.faults.filter fun f => !(f.ctx == ctx && pick f.obj f.page) }) }

/-- A group parked on operation `op` is parked no longer, which its core counts (R229). -/
def State.countUnparked (s : State) (op g : Nat) : State :=
  match (s.grp g).phase with
  | .parked _ o => if o = op ∧ s.resident g then s.count 2 (s.gblk g).core 1 1 else s
  | _ => s

/-- What a replay does for one operation: accesses that wait for a page chosen need their far check again, and a command that waits for one goes on. -/
def State.replayOp (s : State) (ctx : Nat) (pick : Nat → Nat → Bool) (e : Nat × Op) : State :=
  if e.2.accs.any fun a => a.st == .page && (s.glch e.2.gid).ctx == ctx && pick (a.adr / 2 ^ 40) (a.adr % 2 ^ 40 / 65536) then
    let t := s.setOp e.1 { e.2 with accs := e.2.accs.map fun a => if a.st == .page then { a with st := .need } else a }
    let t := if t.parkedOn e.1 ∧ t.resident e.2.gid then t.count 2 (t.gblk e.2.gid).core 1 1 else t
    (needLines ((e.2.accs.filter fun a => a.st == .page).map fun a => { a with st := .need })).foldl (fun s l => s.push (.portCheck e.1 l)) t
  else
    match e.2.stage with
    | .page obj page =>
      if (s.glch e.2.gid).ctx = ctx ∧ pick obj page then
        ((s.countUnparked e.1 e.2.gid).setOp e.1 { e.2 with stage := .cleared }).push (e.2.again e.1)
      else s
    | _ => s

/-- What a replay does for one group: its monitors look again, a fetch that waits for a page chosen goes on, and so do its walker's reads. -/
def State.replayGroup (ctx : Nat) (pick : Nat → Nat → Bool) (s : State) (g : Nat) : State :=
  if (s.glch g).ctx ≠ ctx then s
  else
    let s := (s.grp g).mons.foldl
      (fun s e => match e.2 with
        | .armed (.glob _) _ a _ => if pick (a / 2 ^ 40) (a % 2 ^ 40 / 65536) then s.push (.monitorReread g e.1) else s
        | _ => s)
      s
    let s : State := match (s.grp g).phase with
      | .parkedFetch pc page =>
        if pick (s.glch g).codeCap.obj page then s.setGrp g { s.grp g with phase := .fetch pc } else s
      | _ => s
    let w := (s.grp g).walk
    let on := fun (e : QEntry) => e.pages.any fun k => pick k.1 k.2
    let es := (w.queues.flatMap (·.2)).filter on
    if es = [] then s
    else
      es.foldl (fun s e => s.push (.walkerReadReturn g e.id))
          (s.setWalk g { w with queues := w.queues.map fun q => (q.1, q.2.map fun e => if on e then { e with pages := [] } else e) })

theorem replayWhere_eq (s : State) (ctx : Nat) (pick : Nat → Nat → Bool) : s.replayWhere ctx pick =
    let u := s.ops.foldl (fun s e => s.replayOp ctx pick e) (s.unfault ctx pick)
    (List.range u.groups.length).foldl (State.replayGroup ctx pick) u := rfl

theorem countUnparked_frame (s : State) (op g : Nat) : (s.countUnparked op g).ops = s.ops ∧ (s.countUnparked op g).slices = s.slices := by
  unfold State.countUnparked
  split
  · split <;> exact ⟨rfl, rfl⟩
  · exact ⟨rfl, rfl⟩

/-- The faults that a replay of chosen pages leaves are those of others. -/
theorem faults_unfault {s : State} {ctx m : Nat} {pick : Nat → Nat → Bool} {f : PageFault} (h : f ∈ ((s.unfault ctx pick).slice m).faults) :
    f ∈ (s.slice m).faults ∧ (f.ctx = ctx → pick f.obj f.page = false) := by
  have hs : (s.unfault ctx pick).slice m = { s.slice m with faults := (s.slice m).faults.filter fun f => !(f.ctx == ctx && pick f.obj f.page) } :=
    tget_map_snd Slice.empty (d' := Slice.empty)
      (f := fun x : Slice => { x with faults := x.faults.filter fun f => !(f.ctx == ctx && pick f.obj f.page) }) rfl s.slices m
  rw [hs] at h
  obtain ⟨hmem, hkept⟩ := List.mem_filter.1 h
  exact ⟨hmem, fun hc => by simpa [hc] using hkept⟩

/-- The operations and faults are as before, and what was due still is. -/
def State.OnlyAdds (s t : State) : Prop := t.ops = s.ops ∧ t.slices = s.slices ∧ ∀ e ∈ s.agenda, e ∈ t.agenda

namespace State.OnlyAdds

variable {s t : State}

theorem refl (s : State) : s.OnlyAdds s := ⟨rfl, rfl, fun _ h => h⟩

theorem push (h : s.OnlyAdds t) (e : Event) : s.OnlyAdds (t.push e) := ⟨h.1, h.2.1, fun x hx => List.mem_append_left _ (h.2.2 x hx)⟩

theorem setGrp (h : s.OnlyAdds t) (g : Nat) (x : Group) : s.OnlyAdds (t.setGrp g x) := h

theorem foldl {α : Type} {f : State → α → State} {l : List α} (h : s.OnlyAdds t) (hf : ∀ u x, s.OnlyAdds u → s.OnlyAdds (f u x)) :
    s.OnlyAdds (l.foldl f t) :=
  List.foldlRecOn l f h fun u hu x _ => hf u x hu

theorem replayGroup {ctx : Nat} {pick : Nat → Nat → Bool} (h : s.OnlyAdds t) (g : Nat) : s.OnlyAdds (t.replayGroup ctx pick g) := by
  unfold State.replayGroup
  extract_lets u _ v w on es
  have hu : s.OnlyAdds u := by
    refine h.foldl fun x e hx => ?_
    split
    · split
      · exact hx.push _
      · exact hx
    · exact hx
  have hv : s.OnlyAdds v := by
    simp only [v]
    split
    · split
      · exact hu.setGrp _ _
      · exact hu
    · exact hu
  split
  · exact h
  · split
    · exact hv
    · exact (hv.setGrp _ _).foldl fun x e hx => hx.push _

end State.OnlyAdds

/-- With one operation in flight a replay is what it does for that one, and then for the groups. -/
theorem replayWhere_single {s : State} {op : Nat} {p : Op} (h : s.ops = [(op, p)]) (ctx : Nat) (pick : Nat → Nat → Bool) :
    ((s.unfault ctx pick).replayOp ctx pick (op, p)).OnlyAdds (s.replayWhere ctx pick) := by
  rw [replayWhere_eq, h]
  exact (State.OnlyAdds.refl _).foldl fun _ g hu => hu.replayGroup g

section

variable {s : State} {ctx obj page op : Nat} {p : Op} {pick : Nat → Nat → Bool} (hops : s.ops = [(op, p)]) (hctx : (s.glch p.gid).ctx = ctx)
  (hpick : pick obj page = true)

include hops hctx hpick

/-- A command that waits for a page chosen goes on. -/
theorem replayOp_command (hst : p.stage = .page obj page) (haccs : p.accs = []) :
    (s.replayOp ctx pick (op, p)).ops = [(op, { p with stage := .cleared })] ∧ p.again op ∈ (s.replayOp ctx pick (op, p)).agenda ∧
      (s.replayOp ctx pick (op, p)).slices = s.slices := by
  unfold State.replayOp
  rw [if_neg (by simp [haccs])]
  simp only [hst]
  rw [if_pos ⟨hctx, hpick⟩]
  obtain ⟨hto, hts⟩ := countUnparked_frame s op p.gid
  refine ⟨?_, List.mem_append_right _ (List.mem_singleton.2 rfl), hts⟩
  exact (congrArg (fun o => tins o op _) (hto.trans hops)).trans (tins_single ..)

/-- Accesses that wait for a page chosen need their far check again, which comes due for every line. -/
theorem replayOp_accesses (h : ∃ a ∈ p.accs, a.st = .page ∧ a.adr / 2 ^ 40 = obj ∧ a.adr % 2 ^ 40 / 65536 = page) :
    (s.replayOp ctx pick (op, p)).ops = [(op, { p with accs := p.accs.map fun a => if a.st == .page then { a with st := .need } else a })] ∧
      (∀ a ∈ p.accs, a.st = .page → a.blk = none → .portCheck op (lineOf a.adr) ∈ (s.replayOp ctx pick (op, p)).agenda) ∧
      (s.replayOp ctx pick (op, p)).slices = s.slices := by
  obtain ⟨a, ha, hast, hobj, hpage⟩ := h
  unfold State.replayOp
  have hwaits : (a.st == .page && (s.glch p.gid).ctx == ctx && pick (a.adr / 2 ^ 40) (a.adr % 2 ^ 40 / 65536)) = true := by
    rw [hast, hctx, hobj, hpage, hpick, beq_self_eq_true ctx]
    rfl
  rw [if_pos (List.any_eq_true.2 ⟨a, ha, hwaits⟩)]
  extract_lets _ t u
  have hu : u.ops = t.ops ∧ u.slices = s.slices := by
    simp only [u]
    split <;> exact ⟨rfl, rfl⟩
  obtain ⟨huo, hus⟩ := hu
  rw [foldl_push]
  refine ⟨huo.trans ?_, fun b hb hbst hbblk => List.mem_append_right _ (List.mem_map_of_mem ?_), hus⟩
  · exact (congrArg (fun o => tins o op _) hops).trans (tins_single ..)
  · refine List.mem_eraseDups.2 (List.mem_map.2 ⟨{ b with st := .need }, List.mem_filter.2 ⟨?_, by simp [hbblk]⟩, rfl⟩)
    exact List.mem_map.2 ⟨b, List.mem_filter.2 ⟨hb, by simp [hbst]⟩, rfl⟩

end

/-- A replay of a context, or of one page, chooses the page. -/
theorem replays_of_pick {s : State} {ctx obj page : Nat} {P : State → Prop}
    (h : ∀ pick : Nat → Nat → Bool, pick obj page = true → P (s.replayWhere ctx pick)) :
    Answers (.replayPage ctx obj page) s P ∧ Answers (.replayContext ctx) s P :=
  ⟨⟨_, rfl, h _ (by simp)⟩, ⟨_, rfl, h _ rfl⟩⟩

/-- With one group, whose fetch waits for the page, a replay lets the fetch go on. -/
theorem replayGroup_fetch {s : State} {ctx page pc : Nat} {g : Group} {pick : Nat → Nat → Bool} (hg : s.groups = [g]) (hm : g.mons = [])
    (hw : g.walk.queues = []) (hph : g.phase = .parkedFetch pc page) (hctx : (s.glch 0).ctx = ctx) (hpick : pick (s.glch 0).codeCap.obj page = true) :
    (s.replayGroup ctx pick 0).groups = [{ g with phase := .fetch pc }] := by
  have hgrp : s.grp 0 = g := by simp [State.grp, hg]
  have hset : (s.setGrp 0 { g with phase := .fetch pc }).groups = [{ g with phase := .fetch pc }] := by simp [State.setGrp, hg]
  have hgrp' : (s.setGrp 0 { g with phase := .fetch pc }).grp 0 = { g with phase := .fetch pc } := by simp only [State.grp, hset]; rfl
  unfold State.replayGroup
  extract_lets u g' v w on es
  have hu : u = s := by simp only [u, hgrp, hm, List.foldl_nil]
  have hg' : g' = g := by simp only [g', hu, hgrp]
  have hv : v = s.setGrp 0 { g with phase := .fetch pc } := by simp only [v, hg', hu, hgrp, hph, hpick, if_true]
  have hes : es = [] := by simp only [es, w, hv, hgrp', hw, List.flatMap_nil, List.filter_nil]
  rw [if_neg (by simp [hctx]), if_pos hes, hv, hset]

theorem ticksAndReplays : Claims.TicksAndReplays := by
  refine ⟨fun s => ?tick, fun s => ?systemTick, fun s _ hn => predictorDecay_falls hn, fun s ctx obj page op p hops hctx => ?replays,
    fun s ctx obj page pc g hops hg hm hw hph hctx hobj => ?fetch⟩
  case tick =>
    refine ⟨fun h => ⟨_, (execPackageTick_eq s).trans (if_neg h), rfl⟩, fun h => ⟨_, (execPackageTick_eq s).trans (if_pos h), rfl⟩,
      fun hl hq hc hi hw => ⟨fun hst => ?_, fun hb e he r k n hins hst hn => ?_⟩⟩
    · have hrest : s.ticked.AtRest := ⟨hl, hq, hc, hi, hw⟩
      refine ⟨_, (execPackageTick_eq s).trans ?_, rfl⟩
      have hf : s.ticked.tickFences = s.ticked := tickFences_rest hst
      rw [hf, tick_rest hrest, ite_self]
      rfl
    · obtain ⟨a, ha⟩ := tickFences_eq s.ticked
      have hrest : s.ticked.tickFences.AtRest := by rw [ha]; exact ⟨hl, hq, hc, hi, hw⟩
      refine ⟨_, (execPackageTick_eq s).trans (if_pos hb), ?_⟩
      rw [tick_rest hrest]
      exact ⟨tickFences_due (s := s.ticked) he hins hst hn, by rw [ha]; rfl, by rw [ha]; rfl⟩
  case systemTick =>
    obtain ⟨a, ha⟩ := tickFences_eq s
    exact ⟨_, rfl, by rw [ha], by rw [ha]; exact ⟨rfl, rfl⟩, by rw [ha], fun e he r k n hi hst hn => tickFences_due he hi hst hn⟩
  case replays =>
    intro forgets goes checked
    have hforget : ∀ (pick : Nat → Nat → Bool) (t : State), pick obj page = true → t.slices = (s.unfault ctx pick).slices → forgets t := by
      intro pick t hpick ht m f hf
      obtain ⟨hold, hother⟩ := faults_unfault (s := s) (ctx := ctx) (pick := pick) (by rwa [State.slice, ht] at hf)
      refine ⟨hold, fun hc hpage => ?_⟩
      rw [hpage.1, hpage.2, hpick] at hother
      exact absurd (hother hc) (by decide)
    refine ⟨fun hst haccs => replays_of_pick fun pick hpick => ?_, fun hacc => replays_of_pick fun pick hpick => ?_⟩
    · obtain ⟨ho, hs, ha⟩ := replayWhere_single hops ctx pick
      obtain ⟨ho', ha', hs'⟩ := replayOp_command (s := s.unfault ctx pick) hops hctx hpick hst haccs
      exact ⟨ho.trans ho', ha _ ha', hforget pick _ hpick (hs.trans hs')⟩
    · obtain ⟨ho, hs, ha⟩ := replayWhere_single hops ctx pick
      obtain ⟨ho', ha', hs'⟩ := replayOp_accesses (s := s.unfault ctx pick) hops hctx hpick hacc
      exact ⟨ho.trans ho', fun a hm hst hb => ha _ (ha' a hm hst hb), hforget pick _ hpick (hs.trans hs')⟩
  case fetch =>
    refine ⟨_, rfl, ?_⟩
    rw [replayWhere_eq, hops]
    change State.groups ((List.range s.groups.length).foldl _ (s.unfault ctx _)) = _
    rw [hg]
    exact replayGroup_fetch (s := s.unfault ctx _) (pick := fun o k => o == obj && k == page) hg hm hw hph hctx
      ((Bool.and_eq_true _ _).mpr ⟨beq_iff_eq.2 hobj, beq_self_eq_true page⟩)

/-- Settles O42: slots by their cases, and ticks and replays by what they leave when all else is at rest. -/
theorem queueSlotsAndTicks : Obligations.QueueSlotsAndTicks := ⟨queueSlotsMove, ticksAndReplays⟩

end Sys2Proof.Machine
end

section
/-! ## Courses start, leave and come back (O43) -/

namespace Sys2Proof.Machine

open Sys2Proof

/-! ### Courses and blocks -/

theorem crs_of_getElem? {s : State} {c : Nat} {x : Course} (h : s.courses[c]? = some x) : s.crs c = x := by
  simp [State.crs, List.getD_eq_getElem?_getD, h]

theorem crs_setCrs (s : State) (j c : Nat) (x : Course) : (s.setCrs j x).crs c = if c = j ∧ j < s.courses.length then x else s.crs c := by
  simp only [State.crs, State.setCrs_courses, List.getD_eq_getElem?_getD, List.getElem?_set]
  by_cases hc : j = c
  · subst hc
    by_cases hl : j < s.courses.length <;> simp [hl]
  · simp [hc, Ne.symm hc]

theorem crs_setCrs_self {s : State} {c : Nat} (h : c < s.courses.length) (x : Course) : (s.setCrs c x).crs c = x :=
  (crs_setCrs ..).trans (if_pos ⟨rfl, h⟩)

theorem blk_setBlk_self {s : State} {b : Nat} (h : b < s.blocks.length) (x : Block) : (s.setBlk b x).blk b = x :=
  (blk_setBlk ..).trans (if_pos ⟨rfl, h⟩)

/-! ### The groups of a new block -/

/-- Group `g` of block `b` is its `i`-th, as it starts: its entry clause is to be fetched with the record's uniform registers (R145, R164). -/
def Group.Starts (s : State) (b i : Nat) (g : Group) : Prop :=
  let x := s.blk b
  let l := s.lch x.launch
  g.blk = b ∧ g.gid = i ∧ g.phase = .fetch l.lr.entry ∧ g.alloc = l.alloc ∧
    g.uregs = (List.range 16).foldl (fun m i => tset 0 m i (w32 (l.lr.s.getD i 0))) [] ∧
    g.lanes = State.startLanes (if l.lr.nlanes = 0 then l.lr.ncourse * l.lr.bpc * l.lr.gpb * 32 else l.lr.nlanes)
      (((s.crs x.course).num * l.lr.bpc + x.rank) * l.lr.gpb + i)

theorem newGroup_starts (s : State) (b i : Nat) : (s.newGroup b i).Starts s b i := ⟨rfl, rfl, rfl, rfl, rfl, rfl⟩

/-- The groups of a block are appended in order. -/
theorem foldl_newGroup (s : State) (b n : Nat) : ∃ gs : List Group,
    (List.range n).foldl (fun (s : State) g => { s with groups := s.groups ++ [s.newGroup b g] }) s = { s with groups := s.groups ++ gs } ∧
      gs.length = n ∧ ∀ (i : Nat) (g : Group), gs[i]? = some g → g.Starts s b i := by
  induction n with
  | zero => exact ⟨[], by simp, rfl, fun i g h => by simp at h⟩
  | succ n ih =>
    obtain ⟨gs, he, hlen, hgs⟩ := ih
    refine ⟨gs ++ [State.newGroup { s with groups := s.groups ++ gs } b n], ?_, by simp [hlen], fun i g h => ?_⟩
    · rw [List.range_succ, List.foldl_append, he, List.foldl_cons, List.foldl_nil]
      simp only [List.append_assoc]
    · rw [List.getElem?_append] at h
      split at h
      · exact hgs i g h
      · next hi =>
        obtain rfl : i = n := by
          have := (List.getElem?_eq_some_iff.1 h).1
          simp only [List.length_singleton] at this
          omega
        rw [hlen, Nat.sub_self] at h
        cases h
        exact newGroup_starts { s with groups := s.groups ++ gs } b i

theorem tget_foldl_tset (f : Nat → Word) (n k : Nat) :
    tget 0 ((List.range n).foldl (fun m i => tset 0 m i (f i)) []) k = if k < n then f k else 0 := by
  induction n with
  | zero => rfl
  | succ n ih =>
    rw [List.range_succ, List.foldl_append, List.foldl_cons, List.foldl_nil, tget_tset, ih]
    split
    · next h => rw [h, if_pos (by omega)]
    · exact if_congr (by omega) rfl rfl

/-- A group starts with the record's s0 to s15. -/
theorem Group.Starts.uni {s : State} {b i k : Nat} {g : Group} (h : g.Starts s b i) (hk : k < 16) :
    g.uni k = BitVec.ofNat 32 ((s.lch (s.blk b).launch).lr.s.getD k 0) := by
  obtain ⟨-, -, -, -, hu, -⟩ := h
  rw [Group.uni, hu]
  exact (tget_foldl_tset ..).trans (if_pos hk)

/-- Its launch lanes are those below the launch's lanes. -/
theorem startLanes_launch {n G L : Nat} (hL : L < 32) : (State.startLanes n G).launch.getLsbD L = true ↔ 32 * G + L < n := by
  rw [State.startLanes, getLsbD_maskOf _ _ hL, decide_eq_true_iff]

/-- Its helper lanes complete the last four. -/
theorem startLanes_helper {n G L : Nat} (hL : L < 32) :
    (State.startLanes n G).helper.getLsbD L = true ↔ n ≤ 32 * G + L ∧ 32 * G + L < (n + 3) / 4 * 4 := by
  rw [State.startLanes, getLsbD_maskOf _ _ hL, Bool.and_eq_true, decide_eq_true_iff, decide_eq_true_iff, Nat.mul_comm 4 ((n + 3) / 4)]

/-! ### A course starts -/

/-- A group that enters its partition changes its scheduling record alone, and takes the next age. -/
theorem enterPartition_frame (s : State) (g : Nat) : (s.enterPartition g).courses = s.courses ∧ (s.enterPartition g).blocks = s.blocks ∧
    (s.enterPartition g).groups.length = s.groups.length ∧ (s.enterPartition g).agenda = s.agenda := by
  unfold State.enterPartition
  dsimp only
  split
  · exact ⟨rfl, rfl, rfl, rfl⟩
  · exact ⟨rfl, rfl, rfl, rfl⟩
  · exact ⟨rfl, rfl, by simp [State.setGrp], rfl⟩

/-- What starting a course leaves: only its own record changes, and the groups' scheduling. -/
theorem startCourse_frame (s : State) (c : Nat) :
    (s.startCourse c).courses = s.courses.set c { s.crs c with
      st := .running, sliceStart := s.tick, outs := [], stretched := false, waitSince := none, yieldTo := none } ∧
    (s.startCourse c).blocks = s.blocks ∧ (s.startCourse c).groups.length = s.groups.length ∧ (s.startCourse c).agenda = s.agenda := by
  unfold State.startCourse
  extract_lets x t
  refine List.foldlRecOn (motive := fun u : State => u.courses = t.courses ∧ u.blocks = t.blocks ∧ u.groups.length = t.groups.length ∧
    u.agenda = t.agenda) _ State.enterPartition ⟨rfl, rfl, rfl, rfl⟩ fun u hu g _ => ?_
  obtain ⟨hc, hb, hg, ha⟩ := hu
  obtain ⟨hc', hb', hg', ha'⟩ := enterPartition_frame u g
  exact ⟨hc'.trans hc, hb'.trans hb, hg'.trans hg, ha'.trans ha⟩

/-- A new course that displaces none and is no third one of its cores starts at once. -/
theorem courseReady_starts {s : State} {c : Nat} (ho : (s.crs c).outs = []) (ht : s.third c = false) (hi : (s.crs c).image = none) :
    s.courseReady c = s.startCourse c :=
  (if_pos ⟨ho, by simp [ht]⟩).trans (if_neg (by simp [hi]))

/-- One that displaces others waits for the bank switch. -/
theorem courseReady_switches {s : State} {c : Nat} (ho : (s.crs c).outs ≠ []) :
    s.courseReady c = (s.setCrs c { s.crs c with st := .switching }).push (.bankSwitchComplete c) :=
  if_neg fun h => ho h.1

/-! ### What holds the shadow bank -/

theorem any_set_same {α : Type} {l : List α} {i : Nat} {x y : α} (h : l[i]? = some x) {f : α → Bool} (hf : f y = f x) : (l.set i y).any f = l.any f := by
  obtain ⟨hi, hx⟩ := List.getElem?_eq_some_iff.1 h
  have hmap : (l.set i y).map f = l.map f := by
    rw [List.map_set, hf, show f x = (l.map f)[i]'(by simpa using hi) by simp [hx], List.set_getElem_self]
  have hany : ∀ m : List α, m.any f = (m.map f).any id := fun m => by rw [List.any_map, Function.id_comp]
  rw [hany, hmap, ← hany]

section

variable {s t : State} {b : Nat} {x : Block} (hb : s.blocks[b]? = some x) (hx : x.st = .allocating)
  (ht : t.blocks = s.blocks.set b { x with st := .live }) (hc : t.courses = s.courses)

include hb hx ht hc

/-- A block that has its pool space holds what it did while that was allocated. -/
theorem onCore_any_live (k : Nat) {f : Block → Bool} (hf : f { x with st := .live } = f x) : (t.onCore k).any f = (s.onCore k).any f := by
  rw [State.onCore, State.onCore, List.any_filter, List.any_filter, ht]
  have hcrs : ∀ y, t.crs y = s.crs y := fun y => by rw [State.crs, hc]; rfl
  simp only [hcrs]
  exact any_set_same hb (by simp [hx, hf])

theorem third_live (c : Nat) : t.third c = s.third c := by
  have hcrs : ∀ y, t.crs y = s.crs y := fun y => by rw [State.crs, hc]; rfl
  have hcore : ∀ y, (t.blk y).core = (s.blk y).core := by
    intro y
    by_cases hy : y = b
    · subst hy
      rw [blk_of_getElem? hb, blk_of_getElem? (x := { x with st := .live }) (by rw [ht]; simp [(List.getElem?_eq_some_iff.1 hb).1])]
    · rw [State.blk, ht, List.getD_eq_getElem?_getD, List.getElem?_set_ne (Ne.symm hy), ← List.getD_eq_getElem?_getD]
      rfl
  unfold State.third
  simp only [hcrs, hcore, List.any_filter]
  congr 1
  funext y
  rw [onCore_any_live hb hx ht hc _ rfl, onCore_any_live hb hx ht hc _ rfl]

end

/-! ### A course leaves its cores -/

namespace State.AtHome

variable {s t : State}

theorem setCore {c : Nat} {x : Core} (h : s.AtHome t) : s.AtHome (t.setCore c x) := h.frame rfl

theorem unqueue {o : Nat} {next : Nat → Event} (h : s.AtHome t) : s.AtHome (t.unqueue o next) := by
  unfold State.unqueue
  extract_lets core c heads cut t₁ t₂ t₃ u
  have h₁ : s.AtHome t₁ := h.setCore
  have h₂ : s.AtHome t₂ := ite (h₁.foldl fun _ _ hv => hv.dropLine) h₁
  have h₃ : s.AtHome t₃ := ite (h₂.foldl fun _ _ hv => hv.dropLine) h₂
  have hu : s.AtHome u := by
    refine h₃.foldl fun _ _ hv => ?_
    split
    · exact hv.push
    · exact hv
  split
  · exact hu.push.ite hu
  · exact hu

end State.AtHome

theorem swapOp_groups (s : State) (o : Nat) : (s.swapOp o).groups = s.groups := by
  unfold State.swapOp
  extract_lets p u v
  have hu : s.AtHome u := (State.AtHome.refl s).frame rfl
  have hv : s.AtHome v := State.AtHome.unqueue (hu.frame rfl)
  obtain ⟨hg, -⟩ := hv.fields
  clear_value v
  split
  · rfl
  · rw [State.setOp_groups, hg]

/-- Withdrawing operations touches no group. -/
theorem withdrawOps_groups (s : State) (c : Nat) : (s.withdrawOps c).groups = s.groups :=
  foldl_keeps State.groups (fun (u : State) (e : Nat × Op) => u.swapOp e.1) (fun u e => swapOp_groups u e.1) _ s

/-- What a course leaves behind on its cores. -/
def State.departed (s : State) (o : Nat) : State := (((s.groupsIn o).foldl State.leavePartition s).withdrawOps o).dropTables o

theorem departed_sameLedger (s : State) (o : Nat) : s.SameLedger (s.departed o) :=
  (((State.SameLedger.refl s).foldl fun _ _ hu => hu.leavePartition).withdrawOps).dropTables

theorem swapOut_eq {s : State} {o a : Nat} (h : s.imageAt o = some a) : s.swapOut o =
    ((((s.departed o).setCrs o { (s.departed o).crs o with st := .spilling, image := some a, complete := false, stretched := false }).imageHeader o
      0).imageBody o).push (.spillComplete o) := by
  unfold State.swapOut
  rw [h]
  rfl

/-- A course that leaves its cores begins its image; of the courses only its own record changes. -/
theorem swapOut_ledger {s : State} {o a : Nat} (h : s.imageAt o = some a) : (s.swapOut o).courses = s.courses.set o
      { s.crs o with st := .spilling, image := some a, complete := false, stretched := false } ∧ (s.swapOut o).tick = s.tick ∧
    .spillComplete o ∈ (s.swapOut o).agenda := by
  have hd := departed_sameLedger s o
  rw [swapOut_eq h, hd.crs]
  generalize s.departed o = u at hd
  have hv := ((State.SameLedger.refl (u.setCrs o { s.crs o with st := .spilling, image := some a, complete := false, stretched := false })).imageHeader
    (c := o) (flags := 0)).imageBody (c := o)
  generalize (State.imageBody _ o) = v at hv ⊢
  refine ⟨?_, ?_, List.mem_append_right _ (List.mem_singleton.2 rfl)⟩
  · rw [State.push_courses, hv.courses, State.setCrs_courses, hd.courses]
  · rw [State.push_tick, hv.tick, State.setCrs_tick, hd.tick]

/-! ### The events -/

/-- The state once a block's groups are made, before its course starts. -/
theorem execPoolAllocationComplete_allocating {s : State} {b : Nat} {x : Block} (hb : s.blocks[b]? = some x) (hx : x.st = .allocating) :
    ∃ gs : List Group, gs.length = (s.lch x.launch).lr.gpb ∧ (∀ (i : Nat) (g : Group), gs[i]? = some g → g.Starts s b i) ∧
      execPoolAllocationComplete b s =
        let t := State.setBlk { s with groups := s.groups ++ gs } b { x with st := .live }
        if (s.crs x.course).st = .placed ∧ ((s.crs x.course).blocks.all fun y => (t.blk y).st != .allocating) then .next (t.courseReady x.course)
        else .next t := by
  obtain ⟨gs, he, hlen, hgs⟩ := foldl_newGroup s b (s.lch x.launch).lr.gpb
  have hblk := blk_of_getElem? hb
  refine ⟨gs, hlen, hgs, ?_⟩
  rw [execPoolAllocationComplete, hblk, if_neg (by simp [hx])]
  dsimp only
  rw [he]
  simp only [show State.blk { s with groups := s.groups ++ gs } b = x from hblk]
  rfl

/-- A saved course keeps what its image waits for no longer; its groups stay as they are. -/
theorem execSpillComplete_saves {s : State} {c : Nat} (hx : (s.crs c).st = .spilling) (hw : s.spillWaits c = false) (hc : c < s.courses.length) :
    ∃ t, execSpillComplete c s = .next t ∧ t.crs c = { s.crs c with st := .saved, complete := true, waitSince := some s.tick } ∧ t.groups = s.groups := by
  have hv : s.SameLedger (s.withdrawOps c) := (State.SameLedger.refl s).withdrawOps
  have hg := withdrawOps_groups s c
  refine ⟨_, (if_neg (by simp [hx])).trans (if_neg (by simp [hw])), ?_⟩
  dsimp only
  rw [hv.crs, hv.tick]
  generalize s.withdrawOps c = v at hv hg ⊢
  have hhome := (State.AtHome.refl (v.setCrs c { s.crs c with st := .saved, complete := true, waitSince := some s.tick })).imageHeader (c := c) (flags := 1)
  obtain ⟨hgroups, -, hcourses, -⟩ := hhome.fields
  rw [State.crs, hcourses, hgroups]
  exact ⟨crs_setCrs_self (by rwa [hv.courses]) _, hg⟩

/-- A filled image whose blocks have no pool space to wait for makes its course ready, with the words found bad marked. -/
theorem execImageFillComplete_filled {s : State} {c : Nat} (bad : List (Nat × Nat)) (hx : (s.crs c).st = .filling)
    (hk : ∀ b ∈ (s.crs c).blocks, b ∉ (s.core (s.blk b).core).reclaim) :
    execImageFillComplete c bad s = .next ((bad.foldl (fun s w => s.markWord c w.1 w.2) s).courseReady c) :=
  (if_neg fun h => by
    obtain ⟨b, hb, hin⟩ := List.any_eq_true.1 h.2
    exact hk b hb (List.contains_iff_mem.1 hin)).trans (if_pos hx)

/-- A word of a one-block course that is not marked yet is marked and logged. -/
theorem markWord_one {s : State} {c b w : Nat} (hb : (s.crs c).blocks = [b]) (hw : w % 4 = 0) (hm : w ∉ (s.blk b).marked)
    (hscr : w + 4 ≤ (s.lch (s.blk b).launch).scr) : s.markWord c 0 w =
      (s.setBlk b { s.blk b with marked := (s.blk b).marked ++ [w] }).logErr 2 (dieOf (s.blk b).core) 1 5 0 (s.courseCtx c) none w := by
  have hword : w / 4 * 4 = w := by omega
  unfold State.markWord
  rw [hb]
  dsimp only [List.getElem?_cons_zero]
  rw [hword, if_neg (by simp [hm]; omega)]

/-- The one outgoing course leaves its cores and the incoming one, which is new, starts. -/
theorem execBankSwitchComplete_starts {s : State} {c o a : Nat} (hx : (s.crs c).st = .switching) (houts : (s.crs c).outs = [o])
    (hi : (s.crs c).image = none) (hy : (s.crs o).st = .running) (ha : s.imageAt o = some a) (hh : s.holdsSwitch o = false) (ht : s.third c = false)
    (hm : (s.swapOut o).matrixBusy o = false) (hcrs : (s.swapOut o).crs c = s.crs c) :
    execBankSwitchComplete c s = .next (((s.swapOut o).count 0 0 0 1).startCourse c) := by
  have hgo : ((s.crs c).outs.filter fun c => (s.crs c).st == .running) = [o] := by simp [houts, hy]
  have hlate : ([o].filter fun k => (s.imageAt k).isNone || s.holdsSwitch k || s.third c) = [] := by simp [ha, hh, ht]
  have hwhile : ([o].takeWhile fun k => k != o) = [] := by simp
  unfold execBankSwitchComplete
  rw [if_neg (by simp [hx])]
  simp only [hgo, hlate]
  rw [if_neg (by simp [ht]), if_neg (by simp [hwhile, ha])]
  simp only [List.foldl_cons, List.foldl_nil, hcrs, houts]
  rw [if_neg (by simp [hm]), if_neg (by simp)]
  exact congrArg Host.Outcome.next (if_neg (by simp [show ((s.swapOut o).count 0 0 0 1).crs c = s.crs c from hcrs, hi]))

/-- Settles O43: each event by the state it answers, of which the ledger of courses and blocks says what changed. -/
theorem coursesComeAndGo : Obligations.CoursesComeAndGo := by
  refine ⟨?pool, ?course⟩
  case pool =>
    intro s b x hb l c total
    have hblk := blk_of_getElem? hb
    have hlt := (List.getElem?_eq_some_iff.1 hb).1
    refine ⟨fun hx => ⟨s, if_pos (by rw [hblk]; exact hx), rfl⟩, fun hx hy => ?more, fun hx hc hst hall ho ht hi => ?last⟩
    case more =>
      obtain ⟨gs, hlen, hgs, he⟩ := execPoolAllocationComplete_allocating hb hx
      obtain ⟨y, hy, hne, hyst⟩ := hy
      refine ⟨_, he.trans (if_neg fun h => ?_), gs, rfl, hlen, congrArg Block.st (blk_setBlk_self hlt _), fun i g hg => ?_⟩
      · have := List.all_eq_true.1 h.2 y hy
        rw [blk_setBlk, if_neg fun h => hne h.1] at this
        exact bne_iff_ne.1 this hyst
      · have hstarts := hgs i g hg
        have huni := fun k (hk : k < 16) => hstarts.uni hk
        obtain ⟨hgb, hgi, hph, hal, -, hl⟩ := hstarts
        rw [hblk] at hph hal hl huni
        refine ⟨hgb, hgi, hph, hal, huni, fun L hL => ?_⟩
        rw [hl]
        exact ⟨startLanes_launch hL, startLanes_helper hL⟩
    case last =>
      obtain ⟨gs, hlen, hgs, he⟩ := execPoolAllocationComplete_allocating hb hx
      have hthird := third_live (t := State.setBlk { s with groups := s.groups ++ gs } b { x with st := .live }) hb hx rfl rfl x.course
      have hready := courseReady_starts (s := State.setBlk { s with groups := s.groups ++ gs } b { x with st := .live }) (c := x.course) ho
        (hthird.trans ht) hi
      obtain ⟨hcs, hbs, hgl, -⟩ := startCourse_frame (State.setBlk { s with groups := s.groups ++ gs } b { x with st := .live }) x.course
      have hall' : ((s.crs x.course).blocks.all fun y =>
          ((State.setBlk { s with groups := s.groups ++ gs } b { x with st := .live }).blk y).st != .allocating) = true := by
        refine List.all_eq_true.2 fun y hy => ?_
        rw [blk_setBlk]
        split
        · rfl
        · next h => exact bne_iff_ne.2 (hall y hy fun hyb => h ⟨hyb, hlt⟩)
      refine ⟨_, he.trans ((if_pos ⟨hst, hall'⟩).trans (congrArg _ hready)), ?_⟩
      generalize State.startCourse _ x.course = v at hcs hbs hgl ⊢
      have hrun : v.crs x.course = _ := crs_of_getElem? (by rw [hcs]; exact List.getElem?_set_self hc)
      have hlive : v.blk b = _ := blk_of_getElem? (by rw [hbs]; exact List.getElem?_set_self hlt)
      rw [hrun, hlive, hgl]
      exact ⟨rfl, rfl, rfl, by rw [State.setBlk_groups, List.length_append, hlen]⟩
  case course =>
    intro s c x hc
    have hcrs := crs_of_getElem? hc
    have hlt := (List.getElem?_eq_some_iff.1 hc).1
    refine ⟨fun hx => ⟨s, if_pos (by rwa [hcrs]), rfl⟩, fun hx hw => ⟨_, (if_neg (by simp [hcrs, hx])).trans (if_pos hw), rfl⟩, fun hx hw => ?saved,
      fun hx bad => ⟨s, (if_neg (by simp [hcrs, hx])).trans (if_neg (by rwa [hcrs])), rfl⟩, fun hx ho hk => ?filled,
      fun b w hx ho hbs hb hk hw4 hscr hm => ?marked, fun hx => ⟨s, if_pos (by rwa [hcrs]), rfl⟩,
      fun o a y ho hne hx houts hi hy ha hh ht hm => ?switched⟩
    case saved =>
      obtain ⟨t, ht, htc, htg⟩ := execSpillComplete_saves (hcrs ▸ hx) hw hlt
      exact ⟨t, ht, hcrs ▸ htc, htg⟩
    case filled =>
      refine ⟨_, (execImageFillComplete_filled [] (hcrs ▸ hx) (hcrs ▸ hk)).trans (congrArg _ (courseReady_switches (hcrs ▸ ho))), ?_⟩
      rw [List.foldl_nil, hcrs]
      rfl
    case marked =>
      have hmark := markWord_one (s := s) (c := c) (hcrs ▸ hbs) hw4 hm hscr
      have hhome := (State.AtHome.refl (s.setBlk b { s.blk b with marked := (s.blk b).marked ++ [w] })).logErr (srck := 2) (srci := dieOf (s.blk b).core)
        (cls := 1) (code := 5) (adr := 0) (ctx := s.courseCtx c) (ctx2 := none) (detail := w)
      have hnext := logErr_next (s.setBlk b { s.blk b with marked := (s.blk b).marked ++ [w] }) 2 (dieOf (s.blk b).core) 1 5 0 (s.courseCtx c) none w
      rw [← hmark] at hhome hnext
      obtain ⟨-, hblocks, hcourses, -⟩ := hhome.fields
      have houts : ((s.markWord c 0 w).crs c).outs ≠ [] := by
        rw [crs_of_getElem? (s := s.markWord c 0 w) (x := x) (by rw [hcourses]; exact hc)]
        exact ho
      refine ⟨_, (execImageFillComplete_filled [(0, w)] (hcrs ▸ hx) (by rw [hcrs, hbs]; simpa using hk)).trans
        (congrArg _ (courseReady_switches houts)), ?_, hnext⟩
      have hset : (s.markWord c 0 w).blk b = _ := blk_of_getElem? (by rw [hblocks]; exact List.getElem?_set_self hb)
      exact congrArg Block.marked hset
    case switched =>
      have hcrso := crs_of_getElem? ho
      have hlto := (List.getElem?_eq_some_iff.1 ho).1
      obtain ⟨hcourses, htick, hagenda⟩ := swapOut_ledger ha
      have hcrs' : (s.swapOut o).crs c = x := crs_of_getElem? (by rw [hcourses, List.getElem?_set_ne (Ne.symm hne)]; exact hc)
      have hgo := execBankSwitchComplete_starts (hcrs ▸ hx) (hcrs ▸ houts) (hcrs ▸ hi) (hcrso ▸ hy) ha hh ht hm (hcrs'.trans hcrs.symm)
      refine ⟨_, hgo, rfl, ?_⟩
      obtain ⟨hcs, -, -, hag⟩ := startCourse_frame ((s.swapOut o).count 0 0 0 1) c
      generalize State.startCourse _ c = v at hcs hag ⊢
      generalize s.swapOut o = u at hcs hag hcourses htick hagenda hcrs'
      rw [State.count_courses] at hcs
      have hrun : v.crs c = _ := crs_of_getElem? (by rw [hcs, hcourses]; exact List.getElem?_set_self (by simpa using hlt))
      have hspill : v.crs o = _ := crs_of_getElem? (by rw [hcs, hcourses, List.getElem?_set_ne hne]; exact List.getElem?_set_self hlto)
      rw [hrun, hspill, hag]
      exact ⟨rfl, htick, rfl, rfl, hagenda⟩

end Sys2Proof.Machine
end

section
/-! ## Traps and their return (O8) -/

namespace Sys2Proof.Machine

open Sys2Proof

/-! ### A group that stops -/

/-- From `s` to `t` only operations of group `n` leave their flight, and steps become due. -/
structure State.Sheds (s : State) (n : Nat) (t : State) : Prop where
  frame : ∃ ops agenda, t = { s with ops := ops, agenda := agenda }
  fewer : ∀ e ∈ t.ops, e ∈ s.ops
  others : ∀ e ∈ s.ops, (∀ d ∈ s.ops, d.1 = e.1 → d.2.gid ≠ n) → e ∈ t.ops

theorem State.Sheds.refl (s : State) (n : Nat) : s.Sheds n s := ⟨⟨_, _, rfl⟩, fun _ h => h, fun _ h _ => h⟩

theorem State.Sheds.push {s t : State} {n : Nat} (h : s.Sheds n t) (x : Event) : s.Sheds n (t.push x) := by
  obtain ⟨⟨ops, agenda, rfl⟩, hfewer, hothers⟩ := h
  exact ⟨⟨_, _, rfl⟩, hfewer, hothers⟩

theorem State.Sheds.delOp {s t : State} {n : Nat} (h : s.Sheds n t) {d : Nat × Op} (hd : d ∈ s.ops) (hn : d.2.gid = n) : s.Sheds n (t.delOp d.1) := by
  obtain ⟨⟨ops, agenda, rfl⟩, hfewer, hothers⟩ := h
  refine ⟨⟨_, _, rfl⟩, fun e he => hfewer e (List.mem_of_mem_filter he), fun e he hne => List.mem_filter.2 ⟨hothers e he hne, ?_⟩⟩
  exact bne_iff_ne.2 fun h => hne d hd h.symm hn

/-- A group that ends takes along only operations of its own (R158, R298, R345). -/
theorem dropIdle_sheds (s : State) (n : Nat) : s.Sheds n (s.dropIdle n) := by
  unfold State.dropIdle
  refine List.foldlRecOn (motive := s.Sheds n) _ _ (List.foldlRecOn (motive := s.Sheds n) _ _ (.refl s n) fun t ht e he => ?_) fun t ht e _ => ?_
  · obtain ⟨hmem, hgid⟩ := List.mem_filter.1 (List.mem_of_mem_filter he)
    exact ht.delOp hmem (beq_iff_eq.1 hgid)
  · split
    · exact ht.push _
    · exact ht

/-- A group that stops changes itself, the operations in flight or waiting at a sequence, and the steps due (R158, R190). -/
theorem stopGroup_eq (s : State) (n : Nat) : ∃ ops seqWait agenda,
    s.stopGroup n = { s with groups := s.groups.set n ((s.grp n).finish .stopped), ops := ops, seqWait := seqWait, agenda := agenda } := by
  have hparked : ∃ ops, s.dropParked n = { s with ops := ops } := by
    unfold State.dropParked
    split <;> exact ⟨_, rfl⟩
  have hwithdraw : ∀ t : State, ∃ ops seqWait, t.withdraw n = { t with ops := ops, seqWait := seqWait } := fun t =>
    List.foldlRecOn (motive := fun u => ∃ ops seqWait, u = { t with ops := ops, seqWait := seqWait }) _ _ ⟨_, _, rfl⟩
      fun u ⟨_, _, hu⟩ _ _ => ⟨_, _, by rw [hu]; rfl⟩
  obtain ⟨ops₁, h₁⟩ := hparked
  obtain ⟨ops₂, wait, h₂⟩ := hwithdraw (s.dropParked n)
  obtain ⟨ops₃, agenda, h₃⟩ := (dropIdle_sheds ((s.dropParked n).withdraw n) n).frame
  refine ⟨ops₃, wait, agenda ++ [.blockRetire (s.grp n).blk], ?_⟩
  unfold State.stopGroup
  rw [h₃, h₂, h₁]
  rfl

theorem stopGroup_grp_ne (s : State) {n k : Nat} (h : k ≠ n) : (s.stopGroup n).grp k = s.grp k := by
  obtain ⟨ops, wait, agenda, e⟩ := stopGroup_eq s n
  rw [e]
  exact grp_setGrp_ne s h _

/-- A group that has stopped is not stopped again. -/
theorem finish_stopped_stopsNow (g : Group) : (g.finish .stopped).stopsNow = false := rfl

/-- Of an unhandled trap (R190): its group is stopped, its launch is as the trap leaves it, and memory is as before. -/
theorem unhandled_stops {s : State} {n : Nat} (hn : n < s.groups.length) (t : Trap) (pc : Nat) :
    (s.unhandled n t pc).grp n = (s.grp n).finish .stopped ∧ (s.unhandled n t pc).mem = s.mem ∧
      (s.unhandled n t pc).launches = if (s.lch (s.gblk n).launch).status = 0 then
        s.launches.set (s.gblk n).launch { s.lch (s.gblk n).launch with status := 1, tcause := t.cause, tpc := pc } else s.launches := by
  unfold State.unhandled
  extract_lets l x u v
  have hu : u.grp n = s.grp n ∧ u.groups = s.groups ∧ u.mem = s.mem ∧ u.launches = if x.status = 0 then
      s.launches.set l { x with status := 1, tcause := t.cause, tpc := pc } else s.launches := by
    unfold u
    split <;> exact ⟨rfl, rfl, rfl, rfl⟩
  obtain ⟨hug, hugs, hum, hul⟩ := hu
  clear_value u
  have hv : v.grp n = (s.grp n).finish .stopped ∧ v.mem = s.mem ∧ v.launches = u.launches := by
    obtain ⟨ops, wait, agenda, e⟩ := stopGroup_eq u n
    rw [show v = _ from e, hug, hum, hugs]
    exact ⟨grp_of_getElem? (by simp [hn]), rfl, rfl⟩
  rw [← hul]
  refine List.foldlRecOn (motive := fun w : State => w.grp n = (s.grp n).finish .stopped ∧ w.mem = s.mem ∧ w.launches = u.launches) _ _ hv ?_
  rintro w ⟨hg, hm, hl⟩ k -
  by_cases hk : (w.grp k).stopsNow = true
  · have hne : n ≠ k := by
      rintro rfl
      rw [hg, finish_stopped_stopsNow] at hk
      cases hk
    obtain ⟨ops, wait, agenda, e⟩ := stopGroup_eq w k
    rw [if_pos hk]
    refine ⟨(stopGroup_grp_ne w hne).trans hg, ?_, ?_⟩
    · rw [e]; exact hm
    · rw [e]; exact hl
  · rw [if_neg hk]
    exact ⟨hg, hm, hl⟩

/-! ### Entry, return and encodings -/

theorem trapEntrySavesAndTransfers : Claims.TrapEntrySavesAndTransfers := by
  intro s n t pc c d hh hl
  unfold State.takeTrap
  exact if_neg (not_or.2 ⟨ne_true_of_eq_false hh, hl⟩)

theorem unhandledTrapStopsTheGroup : Claims.UnhandledTrapStopsTheGroup := by
  intro s n t pc c d hn hh hl hst
  have htrap : s.takeTrap n t pc c d = (s.count 1 (s.partOf n) 5 1).unhandled n t pc := if_pos hh
  obtain ⟨hg, hm, hls⟩ := unhandled_stops (s := s.count 1 (s.partOf n) 5 1) hn t pc
  rw [← htrap, if_pos (show ((s.count 1 (s.partOf n) 5 1).lch ((s.count 1 (s.partOf n) 5 1).gblk n).launch).status = 0 from hst)] at hls
  rw [← htrap] at hg hm
  have hlch : (s.takeTrap n t pc c d).lch (s.gblk n).launch = _ := lch_of_getElem? (by rw [hls]; exact List.getElem?_set_self hl)
  dsimp only
  rw [hg, hlch]
  exact ⟨rfl, rfl, rfl, rfl, rfl, hm⟩

theorem trapAndBreakpointEnterTheHandler : Claims.TrapAndBreakpointEnterTheHandler := by
  intro s g ⟨hh, hl⟩
  refine ⟨fun n h => h.answers (execTrap n s) rfl rfl ?_, fun h => h.answers (execBrk s) rfl rfl ?_⟩
  · exact takeTrap_inHandler h.1.1 hh hl _ _ _ _
  · rw [pc_of_atIssue h.1.2]
    exact takeTrap_inHandler h.1.1 hh hl _ _ _ _

/-- TRET to a word outside the remembered clause, or of the handler's choice: the word is fetched as a clause header (R192). -/
theorem tret_fetches {g : Group} (h : g.trap.tpcWritten = true ∨ g.trap.tpc.toNat ≤ g.trap.clause.hdr ∨
      g.trap.clause.hdr + 4 * (g.trap.clause.words.length + 1) ≤ g.trap.tpc.toNat) :
    g.tret = { g with
      trap := { g.trap with handler := false }, phase := .fetch g.trap.tpc.toNat
      lanes := { g.lanes with em := g.trap.tem &&& g.lanes.live, only := some (BitVec.allOnes 32) } } := by
  unfold Group.tret
  refine if_neg ?_
  simp only [Bool.and_eq_true, Bool.not_eq_true', decide_eq_true_eq]
  rintro ⟨hw, ⟨h1, h2⟩, -⟩
  rcases h with h | h | h
  · exact Bool.noConfusion (hw.symm.trans h)
  · omega
  · omega

/-- TRET to word `k` of the remembered clause resumes there (R192). -/
theorem tret_resumes {g : Group} {k : Nat} (hw : g.trap.tpcWritten = false) (hk : k < g.trap.clause.words.length)
    (hpc : g.trap.tpc.toNat = g.trap.clause.hdr + 4 * (k + 1)) :
    g.tret = { g with
      trap := { g.trap with handler := false }, clause := g.trap.clause, phase := .resume k
      lanes := { g.lanes with
        em := g.trap.tem &&& g.lanes.live, only := some (if g.trap.tdef = true then BitVec.allOnes 32 else g.trap.tfm) } } := by
  have hidx : (g.trap.tpc.toNat - g.trap.clause.hdr) / 4 - 1 = k := by omega
  have hwords : g.trap.clause.words.isEmpty = false := by
    rw [List.isEmpty_eq_false_iff]
    exact List.ne_nil_of_length_pos (by omega)
  unfold Group.tret
  refine (if_pos ?_).trans (by rw [hidx])
  simp only [hw, hwords, Bool.not_false, Bool.true_and, Bool.and_true, Bool.and_eq_true, decide_eq_true_eq]
  omega

/-- TRET in handler mode passes its privilege check (R192). -/
theorem execTret_next {s : State} {g : Group} (h : Issues s g .tret) (hh : g.trap.handler = true) :
    execTret s = .next (s.setGrp s.cur g.tret) :=
  issueChecked_next h _ (if_pos hh) _

theorem tretLeavesTheHandler : Claims.TretLeavesTheHandler := by
  intro s g h hh
  refine ⟨fun ht => ⟨_, execTret_next h hh, ?_⟩, fun k hw hk hpc => ⟨_, execTret_next h hh, ?_⟩⟩
  · rw [tret_fetches ht]
    rfl
  · rw [tret_resumes hw hk hpc]
    rfl

theorem trapEncodings : Claims.TrapEncodings := ⟨fun _ => rfl, rfl, rfl⟩

/-- Settles O8: how a trap is taken, with a handler and without one, the two words that trap of themselves, and the return. -/
theorem trapsAndTheirReturn : Obligations.TrapsAndTheirReturn :=
  ⟨trapEntrySavesAndTransfers, unhandledTrapStopsTheGroup, trapAndBreakpointEnterTheHandler, tretLeavesTheHandler, trapEncodings⟩

end Sys2Proof.Machine
end

section
/-! ## Transfers, divergence, joins, exits and yields (O9) -/

namespace Sys2Proof.Machine

open Sys2Proof

/-! ### Transfers -/

theorem goto_eq_toClause (g : Group) (pc : Nat) : g.goto pc = g.toClause pc := rfl

/-- A transfer to a target in registers that is a multiple of 4 is taken (R39, R200). -/
theorem jump_aligned (s : State) (n : Nat) (g : Group) {t : Word} (h : t.toNat % 4 = 0) : s.jump n g t = s.setGrp n (g.toClause t.toNat) := if_pos h

theorem transfersReachTheirTargets : Claims.TransfersReachTheirTargets := by
  intro s g
  refine ⟨fun h => h.groupWord rfl rfl, fun inv q o h => h.answers (execBra inv q o s) rfl rfl rfl, fun o h hj => ?_,
    fun o h => h.answers (execCall o s) rfl rfl rfl, fun a h ha => ?_, fun a b h ha => ?_⟩
  · exact h.answers (execPushj o s) rfl rfl (if_neg hj)
  · exact h.answers (execRet a s) rfl rfl (jump_aligned s s.cur g ha)
  · exact h.answers (execBrx a b s) rfl rfl (jump_aligned s s.cur g ha)

theorem transfersTrap : Claims.TransfersTrap := by
  intro s g hm
  refine ⟨fun o h hj => h.traps hm (execPushj o s) rfl rfl (if_pos hj), fun h hj => h.traps hm (execJoin s) rfl rfl (if_pos hj),
    fun a h ha => h.traps hm (execRet a s) rfl rfl (if_neg ha), fun n h hn => h.traps hm (execWbase n s) rfl rfl (if_pos hn),
    fun a h ha => h.traps hm (execFmts a s) rfl rfl (if_neg ?_)⟩
  rw [fmtLegal_iff]
  exact Nat.not_lt.2 ha

/-! ### Divergence -/

/-- The lanes that BRD takes (R183). -/
theorem taken_eq {g : Group} {inv : Bool} {p : Nat} {live taken : Mask}
    (h : ∀ L, L < 32 → taken.getLsbD L = (live.getLsbD L && ((g.pred p).getLsbD L ^^ inv))) : live &&& g.predLanes inv p = taken :=
  BitVec.eq_of_getLsbD_eq fun L hL => by rw [BitVec.getLsbD_and, getLsbD_predLanes g inv p L hL, h L hL]

theorem brdSplitsTheLanes : Claims.BrdSplitsTheLanes := by
  rintro s g inv p o h live taken rfl ht
  obtain rfl := taken_eq ht
  refine ⟨fun hall => ?_, fun hsome hnone => ?_, fun hsome hnone hj => ?_, fun hsome hnone hj hm => ?_⟩
  · exact h.answers (execBrd inv p o s) rfl rfl (if_pos hall)
  · exact h.answers (execBrd inv p o s) rfl rfl ((if_neg hsome).trans (if_pos hnone))
  · exact h.answers (execBrd inv p o s) rfl rfl ((if_neg hsome).trans ((if_neg hnone).trans (if_neg hj)))
  · exact h.traps hm (execBrd inv p o s) rfl rfl ((if_neg hsome).trans ((if_neg hnone).trans (if_pos hj)))

/-! ### Paths that end -/

/-- The next path is the first stacked entry with a live lane (R184). -/
theorem endPath_append {live : Mask} {e : JoinEntry} (rest : List JoinEntry) (he : e.em &&& live ≠ 0) :
    ∀ dead : List JoinEntry, (∀ x ∈ dead, x.em &&& live = 0) → endPath live (dead ++ e :: rest) = some (e, rest)
  | [], _ => if_pos he
  | x :: dead, h => (if_neg (not_not.2 (h x List.mem_cons_self))).trans (endPath_append rest he dead fun y hy => h y (List.mem_cons_of_mem x hy))

/-- With no such entry no path is left. -/
theorem endPath_none {live : Mask} : ∀ l : List JoinEntry, (∀ x ∈ l, x.em &&& live = 0) → endPath live l = none
  | [], _ => rfl
  | x :: l, h => (if_neg (not_not.2 (h x List.mem_cons_self))).trans (endPath_none l fun y hy => h y (List.mem_cons_of_mem x hy))

/-- The group resumes the next path with its PC, its lanes and its FMT (R184). -/
theorem leavePath_resumes (s : State) (n : Nat) {g : Group} {dead rest : List JoinEntry} {e : JoinEntry} (hj : g.join = dead ++ e :: rest)
    (hd : ∀ x ∈ dead, x.em &&& g.lanes.live = 0) (he : e.em &&& g.lanes.live ≠ 0) :
    s.leavePath n g = s.setGrp n
      { g.toClause e.pc with join := rest, fmt := e.fmt, lanes := { g.lanes with em := e.em &&& g.lanes.live, only := none } } := by
  unfold State.leavePath
  rw [hj, endPath_append rest he dead hd]
  rfl

/-- A group that ends with no deferred fault (R185): its block is looked at, and only operations of its own leave their flight. -/
theorem groupEnd_ends {s : State} {n : Nat} {g : Group} (hg : s.groups[n]? = some g) (hd : g.deferred = []) :
    let t := s.groupEnd n
    t.grp n = g.finish .exited ∧ .blockRetire g.blk ∈ t.agenda ∧ t.mem = s.mem ∧ (∀ e ∈ t.ops, e ∈ s.ops) ∧
      ∀ e ∈ s.ops, (∀ d ∈ s.ops, d.1 = e.1 → d.2.gid ≠ n) → e ∈ t.ops := by
  obtain ⟨⟨ops, agenda, hframe⟩, hfewer, hothers⟩ := dropIdle_sheds s n
  rw [hframe] at hfewer hothers
  have hend : s.groupEnd n = ((s.dropIdle n).setGrp n (g.finish .exited)).push (.blockRetire g.blk) := by
    have hx : (s.dropIdle n).grp n = g := by
      rw [hframe]
      exact grp_of_getElem? hg
    unfold State.groupEnd
    simp only [grp_of_getElem? hg, hd, hx]
  rw [hend, hframe]
  exact ⟨grp_of_getElem? (by simp [lt_of_getElem? hg]), List.mem_append_right _ List.mem_cons_self, rfl, hfewer, hothers⟩

/-- With no stacked path left the group ends (R184, R185). -/
theorem leavePath_ends {s : State} {n : Nat} {g x : Group} (hg : s.groups[n]? = some x) (hj : ∀ y ∈ g.join, y.em &&& g.lanes.live = 0)
    (hd : g.deferred = []) :
    let t := s.leavePath n g
    (t.grp n).phase = .exited ∧ (t.grp n).lanes.live = 0 ∧ .blockRetire g.blk ∈ t.agenda ∧ t.mem = s.mem ∧ (∀ e ∈ t.ops, e ∈ s.ops) ∧
      ∀ e ∈ s.ops, (∀ d ∈ s.ops, d.1 = e.1 → d.2.gid ≠ n) → e ∈ t.ops := by
  have hend : s.leavePath n g = (s.setGrp n { g with join := [] }).groupEnd n := by
    unfold State.leavePath
    rw [endPath_none g.join hj]
  obtain ⟨hgrp, hrest⟩ := groupEnd_ends (setGrp_getElem? hg { g with join := [] }) hd
  rw [hend]
  refine ⟨?_, ?_, hrest⟩
  · rw [hgrp]; rfl
  · rw [hgrp]; rfl

/-- A stacked entry for the lanes of `left` only. -/
def JoinEntry.within (left : Mask) (e : JoinEntry) : JoinEntry := { e with em := e.em &&& left }

theorem within_and (left : Mask) (e : JoinEntry) : (e.within left).em &&& left = e.em &&& left := by
  rw [JoinEntry.within, BitVec.and_assoc, BitVec.and_self]

/-- The group whose lanes but for those of `left` have exited (R185): they have left every stacked entry. -/
def Group.exits (g : Group) (left : Mask) : Group :=
  { g with join := g.join.map (JoinEntry.within left), lanes := { g.lanes with live := left, em := g.lanes.em &&& left } }

theorem execExit_answers {s : State} {g : Group} {left : Mask} {P : State → Prop} (h : Issues s g .exit)
    (hl : left = g.lanes.live &&& ~~~g.lanes.em) (hP : P (s.leavePath s.cur (g.exits left))) : Answers .exit s P := by
  subst hl
  exact h.answers (execExit s) rfl rfl hP

theorem joinAndExitEndAPath : Claims.JoinAndExitEndAPath := by
  intro s g
  refine ⟨fun dead e rest h hj hd he => ?join, fun dead e rest left h hleft hj hd he => ?exit, fun i hi h hdef => ?ends⟩
  case join =>
    refine h.answers (execJoin s) rfl rfl ((if_neg ?_).trans (leavePath_resumes s s.cur hj hd he))
    rw [hj]
    exact List.append_ne_nil_of_right_ne_nil _ (List.cons_ne_nil e rest)
  case exit =>
    have hjoin : (g.exits left).join = dead.map (JoinEntry.within left) ++ e.within left :: rest.map (JoinEntry.within left) := by
      rw [← List.map_cons, ← List.map_append, ← hj]
      rfl
    refine execExit_answers h hleft ((leavePath_resumes s s.cur hjoin (fun x hx => ?_) fun h0 => he ((within_and left e).symm.trans h0)).trans ?_)
    · obtain ⟨y, hy, rfl⟩ := List.mem_map.1 hx
      exact (within_and left y).trans (hd y hy)
    · rw [show (e.within left).em &&& (g.exits left).lanes.live = e.em &&& left from within_and left e]
      rfl
  case ends =>
    rcases hi with ⟨rfl, hne, hdead⟩ | ⟨rfl, hdead⟩
    · refine h.answers (execJoin s) rfl rfl ?_
      rw [if_neg hne]
      exact leavePath_ends h.1.1 hdead hdef
    · refine execExit_answers h rfl (leavePath_ends (g := g.exits _) h.1.1 (fun y hy => ?_) hdef)
      obtain ⟨x, hx, rfl⟩ := List.mem_map.1 hy
      exact (within_and _ x).trans (hdead x hx)

/-! ### YIELD -/

/-- A group of a launch that has not stopped waits at its word (R177). -/
theorem enterWait_waits {s : State} {n : Nat} {g : Group} (hg : s.groups[n]? = some g) (hs : (s.glch n).status ≠ 1) (w : WaitOn) :
    s.enterWait n w = (s.setGrp n { g with phase := .waiting g.idx w }).count 1 (s.partOf n) 4 1 := by
  have hx : ((s.setGrp n { g with phase := .waiting g.idx w }).count 1 (s.partOf n) 4 1).glch n = s.glch n := by
    have hw : ((s.setGrp n { g with phase := .waiting g.idx w }).count 1 (s.partOf n) 4 1).grp n = { g with phase := .waiting g.idx w } :=
      grp_of_getElem? (setGrp_getElem? hg _)
    simp only [State.glch, State.gblk, hw, grp_of_getElem? hg]
    rfl
  unfold State.enterWait
  rw [grp_of_getElem? hg]
  exact if_neg fun h => hs (hx ▸ h.1)

theorem yieldWaitsOnItsFlag : Claims.YieldWaitsOnItsFlag := by
  intro s g o hs
  refine ⟨fun f h hf => ?_, fun f h hf => ?_, fun h => h.answers (execYield none o s) rfl rfl rfl⟩
  · exact h.answers (execYield (some f) o s) rfl rfl (if_pos hf)
  · refine h.answers (execYield (some f) o s) rfl rfl ?_
    simp only [if_neg hf, enterWait_waits h.1.1 hs]
    exact ⟨rfl, rfl⟩

/-! ### Encodings -/

theorem controlEncodings : Claims.ControlEncodings := by
  refine ⟨fun inv q o => ⟨rfl, rfl, rfl, rfl⟩, rfl, rfl⟩

/-- Settles O9: the transfers and what they refuse, divergence, the paths that end, YIELD, and the encodings. -/
theorem controlFlow : Obligations.ControlFlow :=
  ⟨transfersReachTheirTargets, transfersTrap, brdSplitsTheLanes, joinAndExitEndAPath, yieldWaitsOnItsFlag, controlEncodings⟩

end Sys2Proof.Machine
end

section
/-! ## Swaps of the active set (O25) -/

namespace Sys2Proof.Machine

open Sys2Proof

/-! ### The first of a list -/

/-- A fold that keeps the first of what it has seen ends with an element that comes before every other. -/
theorem foldl_keeps_first {f : Option Nat → Nat → Option Nat} {r : Nat → Nat → Prop} (hrefl : ∀ k, r k k)
    (htrans : ∀ i k j, r i k → r k j → r i j) (hnone : ∀ k, f none k = some k)
    (hsome : ∀ j k, r j k ∧ f (some j) k = some j ∨ r k j ∧ f (some j) k = some k) (j : Nat) (l : List Nat) :
    ∃ k, (j :: l).foldl f none = some k ∧ k ∈ j :: l ∧ ∀ i ∈ j :: l, r k i := by
  rw [List.foldl_cons, hnone]
  induction l generalizing j with
  | nil => exact ⟨j, rfl, List.mem_singleton_self j, fun i hi => List.mem_singleton.1 hi ▸ hrefl j⟩
  | cons x l ih =>
    rw [List.foldl_cons]
    obtain ⟨hx, hf⟩ | ⟨hx, hf⟩ := hsome j x <;> rw [hf]
    · obtain ⟨k, hk, hmem, hall⟩ := ih j
      obtain ⟨hj, hl⟩ := List.forall_mem_cons.1 hall
      refine ⟨k, hk, ?_, List.forall_mem_cons.2 ⟨hj, List.forall_mem_cons.2 ⟨htrans k j x hj hx, hl⟩⟩⟩
      exact List.mem_cons.2 ((List.mem_cons.1 hmem).imp_right (List.mem_cons_of_mem x))
    · obtain ⟨k, hk, hmem, hall⟩ := ih x
      obtain ⟨hj, hl⟩ := List.forall_mem_cons.1 hall
      exact ⟨k, hk, List.mem_cons_of_mem j hmem, List.forall_mem_cons.2 ⟨htrans k x j hj hx, hall⟩⟩

/-- Group `k` has been in the active set as long as group `i`, the older first of two that entered together (R174). -/
def State.EnteredBefore (s : State) (k i : Nat) : Prop :=
  (s.grp k).sched.entered < (s.grp i).sched.entered ∨
    ((s.grp k).sched.entered = (s.grp i).sched.entered ∧ (s.grp k).sched.age ≤ (s.grp i).sched.age)

theorem State.EnteredBefore.trans {s : State} {i k j : Nat} (h : s.EnteredBefore i k) (h' : s.EnteredBefore k j) : s.EnteredBefore i j := by
  unfold State.EnteredBefore at *
  omega

/-! ### The start of a swap -/

/-- A group that a swap holds (R174). -/
def Group.swapHeld (x : Group) : Group := { x with sched := { x.sched with swapping := true } }

/-- A group is held for a swap. -/
def State.holdForSwap (s : State) (n : Nat) : State := s.setGrp n (s.grp n).swapHeld

theorem startSwap_none (s : State) (inn : Nat) :
    s.startSwap inn none = ((s.holdForSwap inn).count 1 ((s.holdForSwap inn).partOf inn) 2 1).push (.swapDone inn none) := rfl

theorem startSwap_some (s : State) (inn k : Nat) :
    s.startSwap inn (some k) =
      (((s.holdForSwap inn).holdForSwap k).count 1 (((s.holdForSwap inn).holdForSwap k).partOf inn) 2 1).push (.swapDone inn (some k)) := rfl

theorem holdForSwap_length (s : State) (n : Nat) : (s.holdForSwap n).groups.length = s.groups.length := List.length_set ..

theorem grp_holdForSwap {s : State} {n : Nat} (h : n < s.groups.length) (k : Nat) :
    (s.holdForSwap n).grp k = if k = n then (s.grp k).swapHeld else s.grp k := by
  rw [State.holdForSwap, grp_setGrp]
  by_cases hk : k = n <;> simp [hk, h]

theorem partOf_holdForSwap {s : State} {n : Nat} (h : n < s.groups.length) (k : Nat) : (s.holdForSwap n).partOf k = s.partOf k := by
  unfold State.partOf State.gblk
  rw [grp_holdForSwap h]
  split <;> rfl

/-- A swap that starts holds its groups, is counted, and is to be ended (R174). -/
theorem startSwap_begins {s : State} {inn : Nat} {out : Option Nat} (hi : inn < s.groups.length) (ho : ∀ k, out = some k → k < s.groups.length) :
    s.startSwap inn out = { s with
      groups := (s.startSwap inn out).groups, cnt := (s.count 1 (s.partOf inn) 2 1).cnt, agenda := s.agenda ++ [.swapDone inn out] } ∧
    ∀ k, (s.startSwap inn out).grp k = if k = inn ∨ out = some k then (s.grp k).swapHeld else s.grp k := by
  cases out with
  | none =>
    rw [startSwap_none, partOf_holdForSwap hi]
    refine ⟨rfl, fun k => ?_⟩
    have hk : (s.holdForSwap inn).grp k = _ := grp_holdForSwap hi k
    exact hk.trans (by simp)
  | some o =>
    have ho' : o < (s.holdForSwap inn).groups.length := holdForSwap_length s inn ▸ ho o rfl
    rw [startSwap_some, partOf_holdForSwap ho', partOf_holdForSwap hi]
    refine ⟨rfl, fun k => ?_⟩
    have hk : ((s.holdForSwap inn).holdForSwap o).grp k = _ := grp_holdForSwap ho' k
    rw [grp_holdForSwap hi] at hk
    refine hk.trans ?_
    by_cases h1 : k = o
    · rw [if_pos h1, if_pos (Or.inr (congrArg some h1.symm))]
      split <;> rfl
    · simp [h1, Ne.symm h1]

/-! ### Swaps by age, swaps of ready groups, and their end -/

theorem mem_mates_lt {s : State} {n k : Nat} (h : k ∈ s.mates n) : k < s.groups.length := List.mem_range.1 (List.mem_of_mem_filter h)

/-- The groups of a partition's active set that no swap holds, of which the age of a pending group moves one out (R174). -/
def State.leavable (s : State) (n : Nat) : List Nat := (s.activeOf n).filter fun k => !(s.grp k).sched.swapping

theorem mem_leavable {s : State} {n k : Nat} : k ∈ s.leavable n ↔ k ∈ s.activeOf n ∧ (s.grp k).sched.swapping = false := by
  simp [State.leavable]

/-- The group that a pending group's age moves out: the one longest in the active set (R174). -/
def State.longestActive (s : State) (n : Nat) : Option Nat :=
  (s.leavable n).foldl
    (fun b k =>
      match b with
      | none => some k
      | some j =>
        let a := (s.grp k).sched
        let c := (s.grp j).sched
        if a.entered < c.entered ∨ (a.entered = c.entered ∧ a.age < c.age) then some k else some j)
    none

theorem longestActive_enteredBefore {s : State} {n j : Nat} (hj : j ∈ s.leavable n) :
    ∃ k, s.longestActive n = some k ∧ k ∈ s.leavable n ∧ ∀ i ∈ s.leavable n, s.EnteredBefore k i := by
  unfold State.longestActive
  cases hl : s.leavable n with
  | nil => exact absurd (hl ▸ hj) List.not_mem_nil
  | cons x l =>
    refine foldl_keeps_first (r := s.EnteredBefore) (fun k => Or.inr ⟨rfl, le_refl _⟩) (fun i k j => State.EnteredBefore.trans) (fun k => rfl)
      (fun j k => ?_) x l
    dsimp only
    unfold State.EnteredBefore
    split
    · right; exact ⟨by omega, rfl⟩
    · left; exact ⟨by omega, rfl⟩

theorem longestActive_none {s : State} {n : Nat} (h : ∀ j, j ∉ s.leavable n) : s.longestActive n = none := by
  rw [State.longestActive, List.eq_nil_iff_forall_not_mem.2 h]
  rfl

theorem exec_pendingAgeSwap {s : State} {n : Nat} (ha : (s.grp n).sched.active = false) (hw : 256 ≤ (s.grp n).sched.waited)
    (hp : s.wantsPlace n = true) (ho : (s.longestActive n).isSome ∨ s.placesTaken n < 8) :
    exec (.pendingAgeSwap n) s = .next (s.startSwap n (s.longestActive n)) :=
  if_pos ⟨by simp [ha], hw, hp, ho⟩

theorem swapDone_enters {s : State} {n : Nat} (h1 : (s.grp n).phase ≠ .exited) (h2 : (s.grp n).phase ≠ .stopped) :
    exec (.swapDone n none) s = .next (s.setGrp n { s.grp n with
      sched := { (s.grp n).sched with active := true, swapping := false, entered := s.turn, waited := 0, aged := false } }) := by
  show execSwapDone n none s = _
  unfold execSwapDone
  dsimp only
  split
  · contradiction
  · contradiction
  · rfl

/-- Settles O25: the group that a pending group's age moves out is the first of a fold, and a swap that starts changes its two groups only. -/
theorem swapsChangeTheActiveSet : Obligations.SwapsChangeTheActiveSet := by
  intro s begun done left
  refine ⟨fun n g hg => ?_, fun inn out hi he => ⟨fun hp => ?_, fun hp hout => ?_⟩, fun inn g hg hexit hstop => ⟨?_, fun out x hx hne => ?_⟩⟩
  · obtain rfl := grp_of_getElem? hg
    have hn : n < s.groups.length := (List.getElem?_eq_some_iff.1 hg).1
    refine ⟨fun ha hw hr => ⟨_, if_pos ⟨ha, hw, hr⟩, rfl⟩, fun hw => ⟨_, if_neg fun ⟨_, h, _⟩ => absurd h (by omega), rfl⟩,
      fun ha hw hp => ⟨fun j hj => ?_, fun hno hplace => ?_⟩⟩
    · obtain ⟨k, hk, hmem, hfirst⟩ := longestActive_enteredBefore (mem_leavable.2 hj)
      obtain ⟨hact, hswap⟩ := mem_leavable.1 hmem
      refine ⟨_, exec_pendingAgeSwap ha hw hp (.inl (hk ▸ rfl)), k, ⟨hact, hswap⟩, ?_, fun i hi => hfirst i (mem_leavable.2 hi)⟩
      rw [hk]
      exact startSwap_begins hn fun k' hk' => Option.some.inj hk' ▸ mem_mates_lt (List.mem_of_mem_filter hact)
    · have hnone : s.longestActive n = none := longestActive_none fun j hj => hno j (mem_leavable.1 hj)
      refine ⟨_, exec_pendingAgeSwap ha hw hp (.inr hplace), ?_⟩
      rw [hnone]
      exact startSwap_begins hn fun k hk => nomatch hk
  · exact ⟨s, if_neg (by simp [hp]), rfl⟩
  · obtain ⟨rfl, hplace⟩ | ⟨k, rfl, hk, hmem⟩ := hout
    · exact ⟨_, if_pos (by simp [he, hp, hplace]), startSwap_begins hi fun k hk => nomatch hk⟩
    · exact ⟨_, if_pos (by simp [he, hp, hk, hmem]), startSwap_begins hi fun k' hk' => Option.some.inj hk' ▸ mem_mates_lt hmem⟩
  · obtain rfl := grp_of_getElem? hg
    exact ⟨_, swapDone_enters hexit hstop, rfl⟩
  · obtain rfl := grp_of_getElem? hg
    obtain rfl := grp_of_getElem? hx
    have hgrp := grp_setGrp_ne s hne (left (s.grp out))
    refine ⟨_, swapDone_enters (s := s.setGrp out (left (s.grp out))) (hgrp ▸ hexit) (hgrp ▸ hstop), ?_⟩
    rw [hgrp]
    rfl

end Sys2Proof.Machine
end

section
/-! ## Far-check reports and the returns of atomics (O22) -/

namespace Sys2Proof.Machine

open Sys2Proof

/-! ### The far check of window loads -/

theorem isLoad_isRead {i : Instr} (h : i.isLoad = true) : i.isRead = true := by
  simp [Instr.isRead, h]

theorem map_eq_self {α : Type} {f : α → α} {l : List α} (h : ∀ a ∈ l, f a = a) : l.map f = l :=
  (List.map_congr_left h).trans (List.map_id l)

/-- A ready access of a scratchpad is not one that parks with a page. -/
theorem unfinished_ready {i : Instr} {as : List Acc} {a : Acc} {b : Nat} (h : a.st = .ready) (hb : a.blk = some b) : unfinished i as a = false := by
  simp [unfinished, h, hb]

/-- With every access ready, the far checks of a load have cleared it (R170). -/
theorem resolveOp_ready_load {s : State} {op : Nat} {p : Op} (hops : s.ops = [(op, p)]) (hi : p.instr.isLoad = true)
    (hr : ∀ x ∈ p.accs, x.st = .ready ∧ ∃ b, x.blk = some b) :
    s.resolveOp op = (s.setOp op { p with stage := .cleared }).push (.loadDataReturn op) := by
  have hset : s.setOp op p = s := congrArg (fun m => { s with ops := m }) (by rw [hops]; simp [tins])
  have hunf : ∀ x ∈ p.accs, unfinished p.instr p.accs x = false := fun x hx => by
    obtain ⟨hst, b, hb⟩ := hr x hx
    exact unfinished_ready hst hb
  unfold State.resolveOp
  simp only [op_single hops]
  rw [map_eq_self (l := p.accs) ?_]
  · have hfs : ∀ f : Acc → Option (Nat × Nat × Trap), (∀ a ∈ p.accs, f a = none) → p.accs.filterMap f = [] :=
      fun f h => List.filterMap_eq_nil_iff.2 h
    rw [if_neg, if_neg, hset, op_single hops, if_pos (isLoad_isRead hi)]
    · rw [hfs _ fun a ha => by simp [(hr a ha).1], List.filter_eq_nil_iff.2 fun a ha => by simp [hunf a ha]]
      simp
    · simp only [List.any_eq_true, not_exists, not_and]
      intro x hx
      simp [Acc.waits, (hr x hx).1]
  · intro x hx
    simp [(hr x hx).1]

/-- The far check of a load's window accesses finds them all ready (R170, R216, R396). -/
theorem exec_farCheckReport {s : State} {op : Nat} {p : Op} (hops : s.ops = [(op, p)]) (hst : p.stage = .issued)
    (hacc : ∀ x ∈ p.accs, x.st = .need ∧ ∃ b, x.blk = some b ∧ s.peerGone b = false ∧ (s.blk b).markedAt x.adr x.size = false) :
    exec (.farCheckReport op) s =
      .next ((s.setOp op { p with accs := p.accs.map fun x => { x with st := .ready } }).resolveOp op) := by
  have hmark : ∀ x ∈ p.accs, s.readsMarked p.instr x = false := fun x hx => by
    obtain ⟨-, b, hb, -, hm⟩ := hacc x hx
    simp [State.readsMarked, hb, hm]
  show execFarCheckReport op s = _
  unfold execFarCheckReport
  simp only [tfind_single hops]
  rw [if_neg (by simp [hst]), if_neg (by simp [hst]), if_neg (by simp [hst]), if_neg (by simp [mayPerform_single hops])]
  rw [List.map_congr_left (l := p.accs) (g := fun x => { x with st := .ready }) fun x hx => ?_]
  obtain ⟨hneed, b, hb, hgone, hm⟩ := hacc x hx
  simp [hneed, hb, hgone, hmark x hx]

theorem word_atomic {p : Op} {f : AtomOp} (h : p.instr.atomOp = some f) (v k : Nat) : p.word v k = w32 (v / 2 ^ (32 * k)) := by
  rw [Op.word, h]

/-- The value that an access is done with. -/
def Acc.value (a : Acc) : Nat := match a.st with | .done v => v | _ => 0

theorem value_done {a : Acc} {v : Nat} (h : a.st = .done v) : a.value = v := by
  rw [Acc.value, h]

/-- The old values of an atomic's lanes go to the lanes of its destination registers (R226). -/
theorem writeBack_atomic {s : State} {op n : Nat} {p : Op} {g : Group} {f : AtomOp} (hp : s.op op = p) (hg : s.groups[p.gid]? = some g)
    (hf : p.instr.atomOp = some f) (hd : p.dest = (List.range f.results).map fun k => .lane (n + k)) {as : List Acc}
    (has : ∀ a ∈ as, ∃ v, a.st = .done v) :
    s.writeBack op as = s.setGrp p.gid (g.setLanes n f.results (fun a k => w32 (a.value / 2 ^ (32 * k))) as) := by
  unfold State.writeBack
  simp only [hp, hd, grp_of_getElem? hg, zipIdx_map_range, List.foldl_map, word_atomic hf]
  refine congrArg (s.setGrp p.gid) (List.foldl_ext _ _ _ fun g a ha => ?_)
  obtain ⟨v, hv⟩ := has a ha
  simp only [hv, value_done hv]
  rfl

/-- Lanes that have no value leave the registers. -/
theorem writeBack_failed {s : State} {op : Nat} {p : Op} {g : Group} (hp : s.op op = p) (hg : s.groups[p.gid]? = some g) {as : List Acc}
    (has : ∀ a ∈ as, ∃ t, a.st = .failed t) : s.writeBack op as = s.setGrp p.gid g := by
  unfold State.writeBack
  simp only [hp, grp_of_getElem? hg]
  refine congrArg (s.setGrp p.gid) ((List.foldl_ext _ (fun g _ => g) _ fun g a ha => ?_).trans (List.foldl_fixed as))
  obtain ⟨t, ht⟩ := has a ha
  simp only [ht]

/-! ### The end of an atomic -/

/-- An operation that ends, its values being in group `x`, leaves nothing in flight and changes its group alone. -/
theorem completeOp_setGrp_keeps {s : State} {op : Nat} {p : Op} {g : Group} (hops : s.ops = [(op, p)]) (hg : s.groups[p.gid]? = some g) (x : Group) :
    ((s.setGrp p.gid x).completeOp op).ops = [] ∧ s.Around ((s.setGrp p.gid x).completeOp op) p.gid ∧
      x.SameRegs (((s.setGrp p.gid x).completeOp op).grp p.gid) := by
  have hp : (s.setGrp p.gid x).op op = p := op_single (s := s.setGrp p.gid x) hops
  obtain ⟨hend, haround, -⟩ := completeOp_around hp (setGrp_getElem? hg x)
  refine ⟨hend.trans ?_, haround.of_setGrp, completeOp_keeps hp (setGrp_getElem? hg x)⟩
  simp [hops, tdel]

theorem isOver_done {a : Acc} (h : ∃ v, a.st = .done v) : a.over = true := by
  obtain ⟨v, hv⟩ := h
  simp [Acc.over, hv]

theorem deferLost_done {s : State} {n : Nat} {as : List Acc} (h : ∀ a ∈ as, ∃ v, a.st = .done v) : s.deferLost n as = s := by
  have hnil : lostLanes as = [] := List.filter_eq_nil_iff.2 fun a ha => by
    obtain ⟨v, hv⟩ := h a ha
    simp [hv]
  rw [State.deferLost, hnil]

/-- Lost responses make one deferred trap of their group (R191, R420). -/
theorem deferLost_failed {s : State} {n : Nat} {x : Group} {as : List Acc} (hx : s.groups[n]? = some x) (hne : as ≠ [])
    (h : ∀ a ∈ as, ∃ t, a.st = .failed t ∧ t.cause = 0x0F) (hstop : x.phase ≠ .stopped) (hexit : x.phase ≠ .exited) :
    ∃ cnt d, s.deferLost n as = { s with cnt := cnt, groups := s.groups.set n { x with deferred := x.deferred ++ [d] } } ∧ d.cause = 0x0F := by
  have hall : lostLanes as = as := List.filter_eq_self.2 fun a ha => by
    obtain ⟨t, ht, hc⟩ := h a ha
    simp [ht, hc]
  obtain ⟨b, bs, rfl⟩ := List.exists_cons_of_ne_nil hne
  have hcnt : ∃ cnt, (b :: bs).foldl (fun s b => s.count 8 (homeSlice (lineOf b.adr)) 7 1) s = { s with cnt := cnt } :=
    List.foldlRecOn (motive := fun t : State => ∃ cnt, t = { s with cnt := cnt }) _ _ ⟨_, rfl⟩ (by
      rintro _ ⟨cnt, rfl⟩ a -
      exact ⟨_, rfl⟩)
  obtain ⟨cnt, hcnt⟩ := hcnt
  refine ⟨cnt, lostTrap (b :: bs), ?_, rfl⟩
  rw [State.deferLost, hall]
  show State.deferTrap (List.foldl _ s (b :: bs)) n _ = _
  rw [hcnt, State.deferTrap, show ({ s with cnt := cnt } : State).grp n = x from grp_of_getElem? hx]
  split
  · contradiction
  · contradiction
  · rfl

/-- An access whose response was lost (R420). -/
def Acc.lost (a : Acc) : Acc := { a with st := .failed (laneTrap 0x0F a.disp 0) }

theorem exec_atomicReturn {s : State} {op : Nat} {p : Op} (hops : s.ops = [(op, p)]) (hf : p.instr.atomOp.isSome = true) (hst : p.stage = .cleared)
    (hall : p.accs.all Acc.over = true) : exec (.atomicReturn op) s = .next (s.finishAtomic op) := by
  show execAtomicReturn op s = _
  rw [execAtomicReturn, tfind_single hops]
  exact if_pos ⟨hf, hst, hall⟩

theorem exec_atomicResultLost {s : State} {op : Nat} {p : Op} (hops : s.ops = [(op, p)]) (hf : p.instr.atomOp.isSome = true)
    (hst : p.stage = .cleared) (hall : p.accs.all Acc.over = true) (hblk : ∀ x ∈ p.accs, x.blk = none) :
    exec (.atomicResultLost op) s = .next ((s.setOp op { p with accs := p.accs.map Acc.lost }).finishAtomic op) := by
  have hmap : (p.accs.map fun a => if a.blk = none then { a with st := .failed (laneTrap 0x0F a.disp 0) } else a) = p.accs.map Acc.lost :=
    List.map_congr_left fun a ha => if_pos (hblk a ha)
  show execAtomicResultLost op s = _
  rw [execAtomicResultLost, tfind_single hops]
  exact (if_pos ⟨hf, hst, hall⟩).trans (by dsimp only; rw [hmap])

/-- An atomic's old values reach its registers, and it is over (R226). -/
theorem finishAtomic_done {s : State} {op n : Nat} {p : Op} {g : Group} {f : AtomOp} (hops : s.ops = [(op, p)]) (hg : s.groups[p.gid]? = some g)
    (hf : p.instr.atomOp = some f) (hd : p.dest = (List.range f.results).map fun k => .lane (n + k)) (hdone : ∀ x ∈ p.accs, ∃ v, x.st = .done v) :
    s.finishAtomic op =
      (s.setGrp p.gid (g.setLanes n f.results (fun a k => w32 (a.value / 2 ^ (32 * k))) p.accs)).completeOp op := by
  rw [State.finishAtomic, op_single hops, writeBack_atomic (op_single hops) hg hf hd hdone, deferLost_done hdone]
  exact settle_of_ops_nil (completeOp_setGrp_keeps hops hg _).1 2

/-- An atomic whose responses are lost is over with its registers as they were, and its group has a deferred trap (R191, R420). -/
theorem finishAtomic_failed {s : State} {op : Nat} {p : Op} {g : Group} (hops : s.ops = [(op, p)]) (hg : s.groups[p.gid]? = some g)
    (hne : p.accs ≠ []) (hfail : ∀ x ∈ p.accs, ∃ t, x.st = .failed t ∧ t.cause = 0x0F) (hstop : g.phase ≠ .stopped) (hexit : g.phase ≠ .exited) :
    (s.finishAtomic op).ops = [] ∧ s.SameBytes (s.finishAtomic op) ∧ ((s.finishAtomic op).grp p.gid).regs = g.regs ∧
      ∃ d, ((s.finishAtomic op).grp p.gid).deferred = g.deferred ++ [d] ∧ d.cause = 0x0F := by
  have hp : (s.setGrp p.gid g).op op = p := op_single (s := s.setGrp p.gid g) hops
  have hx := setGrp_getElem? hg g
  obtain ⟨hends, haround, -⟩ := completeOp_setGrp_keeps hops hg g
  have hgroup : ∃ x, ((s.setGrp p.gid g).completeOp op).grp p.gid = x ∧ x.regs = g.regs ∧ x.deferred = g.deferred ∧
      x.phase ≠ .stopped ∧ x.phase ≠ .exited := by
    obtain h | ⟨i, h⟩ := completeOp_grp hp hx
    · exact ⟨_, h, by rw [ended_eq], by rw [ended_eq], by rwa [ended_eq], by rwa [ended_eq]⟩
    · refine ⟨_, h, by rw [ended_eq]; rfl, by rw [ended_eq]; rfl, ?_, ?_⟩ <;> unfold Group.after <;> dsimp only <;> split <;> exact nofun
  obtain ⟨x, hgx, hregs, hdef, hxs, hxe⟩ := hgroup
  rw [State.finishAtomic, op_single hops, writeBack_failed (op_single hops) hg fun a ha => (hfail a ha).imp fun t h => h.1]
  generalize (s.setGrp p.gid g).completeOp op = u at *
  have hux : u.groups[p.gid]? = some x := by
    rw [haround, hgx]
    exact List.getElem?_set_self (List.getElem?_eq_some_iff.1 hg).1
  obtain ⟨cnt, d, hdefer, hcause⟩ := deferLost_failed hux hne hfail hxs hxe
  rw [settle_of_ops_nil (by rw [hdefer]; exact hends), hdefer]
  have hgrp : ({ u with cnt := cnt, groups := u.groups.set p.gid { x with deferred := x.deferred ++ [d] } } : State).grp p.gid = _ :=
    grp_of_getElem? (List.getElem?_set_self (List.getElem?_eq_some_iff.1 hux).1)
  rw [hgrp]
  exact ⟨hends, by rw [haround]; exact ⟨rfl, rfl⟩, hregs, d, by rw [hdef], hcause⟩

/-- Settles O22: a far check finds every access ready (`exec_farCheckReport`), and an atomic ends with its values (`finishAtomic_done`) or with
a deferred trap (`finishAtomic_failed`). -/
theorem accessReportsAndReturns : Obligations.AccessReportsAndReturns := by
  refine ⟨fun s op p hops hi hst _ hacc => ?_, fun s op p g f n hops hg hf hst hd hacc hnodup => ⟨?_, fun hblk hne hstop hexit => ?_⟩⟩
  · have hq : (s.setOp op { p with accs := p.accs.map fun x => { x with st := .ready } }).ops =
        [(op, { p with accs := p.accs.map fun x => { x with st := .ready } })] := by simp [hops, tins]
    refine ⟨_, exec_farCheckReport hops hst hacc, ?_⟩
    rw [resolveOp_ready_load hq hi (List.forall_mem_map.2 fun x hx => ⟨rfl, (hacc x hx).2.imp fun b h => h.1⟩)]
    refine ⟨⟨rfl, rfl⟩, rfl, List.mem_append_right _ (List.mem_singleton_self _), ?_⟩
    simp [hops, tins]
  all_goals
    have hdone : ∀ x ∈ p.accs, ∃ v, x.st = .done v := fun x hx => (hacc x hx).2
    have hover : p.accs.all Acc.over = true := List.all_eq_true.2 fun x hx => isOver_done (hdone x hx)
    have hsome : p.instr.atomOp.isSome = true := by simp [hf]
  · refine ⟨_, exec_atomicReturn hops hsome hst hover, ?_⟩
    rw [finishAtomic_done hops hg hf hd hdone]
    have h32 : ∀ x ∈ p.accs, x.lane < 32 := fun x h => (hacc x h).1
    obtain ⟨⟨kcaps, kfmt, kwb, kem, klive, klaunch, khelper, kjoin, ktrap⟩, -⟩ :=
      setLanes_keeps g n f.results (fun a k => w32 (a.value / 2 ^ (32 * k))) p.accs
    obtain ⟨hends, haround, hregs, -, -, -, hcaps, hfmt, hwb, hem, hlive, hlaunch, hhelper, hjoin, htrap⟩ :=
      completeOp_setGrp_keeps hops hg (g.setLanes n f.results (fun a k => w32 (a.value / 2 ^ (32 * k))) p.accs)
    generalize State.completeOp _ op = t at *
    have hphys : ∀ r L, (t.grp p.gid).phys r L = (g.setLanes n f.results (fun a k => w32 (a.value / 2 ^ (32 * k))) p.accs).phys r L :=
      fun r L => congrArg (fun m => tget 0 m (32 * r + L)) hregs
    refine ⟨hends, haround, ⟨hcaps.trans kcaps, hfmt.trans kfmt, hwb.trans kwb, hem.trans kem, hlive.trans klive, hlaunch.trans klaunch,
      hhelper.trans khelper, hjoin.trans kjoin, htrap.trans ktrap⟩, fun x hx v k hv hk => ?_, fun r L hL h => ?_⟩
    · rw [hphys, phys_setLanes p.accs h32 hnodup g x hx k hk, value_done hv]
      rfl
    · rw [hphys]
      exact phys_setLanes_of_ne hL p.accs h32 h g
  · refine ⟨_, exec_atomicResultLost hops hsome hst hover hblk, ?_⟩
    refine finishAtomic_failed (s := s.setOp op { p with accs := p.accs.map Acc.lost }) (p := { p with accs := p.accs.map Acc.lost })
      (by simp [hops, tins]) hg (by simpa using hne) (List.forall_mem_map.2 fun x _ => ⟨_, rfl, rfl⟩) hstop hexit

end Sys2Proof.Machine
end

section
/-! ## Memory ports, fault reports and poisoned sectors (O52) -/

namespace Sys2Proof.Machine

open Sys2Proof

/-! ### A load at its port -/

/-- An operation with one access keeps what its port makes of it. -/
theorem setAcc_single {s : State} {op : Nat} {p : Op} {x y : Acc} (hops : s.ops = [(op, p)]) (haccs : p.accs = [x]) (hlane : x.lane = y.lane) :
    s.setAcc op y = s.setOp op { p with accs := [y] } := by
  unfold State.setAcc
  simp [op_single hops, haccs, hlane]

theorem ops_setOp_single {s : State} {op : Nat} {p : Op} (hops : s.ops = [(op, p)]) (q : Op) : (s.setOp op q).ops = [(op, q)] := by
  rw [State.setOp_ops, hops, tins_single]

theorem setOp_setOp_single {s : State} {op : Nat} {p : Op} (hops : s.ops = [(op, p)]) (q r : Op) : (s.setOp op q).setOp op r = s.setOp op r :=
  congrArg (fun m => { s with ops := m }) (by simp [hops, tins_single])

theorem setAcc_setAcc_single {s : State} {op : Nat} {p : Op} {x y z : Acc} (hops : s.ops = [(op, p)]) (haccs : p.accs = [x])
    (hy : x.lane = y.lane) (hz : x.lane = z.lane) : (s.setAcc op y).setAcc op z = s.setOp op { p with accs := [z] } := by
  rw [setAcc_single hops haccs hy, setAcc_single (ops_setOp_single hops _) rfl (hy.symm.trans hz), setOp_setOp_single hops]

/-- A load with nothing else in flight need not wait to pass its port (R92, R96, R118). -/
theorem mustWait_load {s : State} {op : Nat} {p : Op} {x : Acc} (hops : s.ops = [(op, p)]) (haccs : p.accs = [x]) (hi : p.instr.isLoad = true) :
    s.mustWait op p x = false := by
  have hno : (s.opsOf p.gid).any (fun e => decide (e.1 < op) && e.2.instr.isAccess) = false := by
    rw [List.any_eq_false]
    intro e he
    obtain rfl : e = (op, p) := by simpa [hops] using List.mem_of_mem_filter he
    simp
  simp [State.mustWait, (isLoad_facts hi).1, isLoad_isRead hi, mayPerform_single hops, hno, haccs]

/-- The one access of a load in a resident group is checked, and the check is reported (R228, R406). -/
theorem exec_portCheck_load {s : State} {op : Nat} {p : Op} {x : Acc} (hops : s.ops = [(op, p)]) (haccs : p.accs = [x])
    (hi : p.instr.isLoad = true) (hst : x.st = .need) (hblk : x.blk = none) (hres : s.resident p.gid = true) :
    exec (.portCheck op (lineOf x.adr)) s = .next ((s.checkAcc op x).reportOp op) := by
  have hmine : (p.accs.filter fun a => a.st == .need && a.blk.isNone && lineOf a.adr == lineOf x.adr) = [x] := by simp [haccs, hst, hblk]
  have hlanes : s.checkLanes op p [x] = (s.checkAcc op x, true) := by
    have hwait : s.mustWait op { p with accs := (s.op op).accs } x = false := by
      rw [op_single hops]
      exact mustWait_load hops haccs hi
    simp [State.checkLanes, hwait]
  show execPortCheck op _ s = _
  unfold execPortCheck
  rw [tfind_single hops]
  dsimp only
  rw [hmine, if_neg (by simp), if_neg (by simp [hres]), hlanes]

/-- A load of device memory whose sector L1 holds has its access ready (R220, R433). -/
theorem accDevice_hit {s : State} {op : Nat} {p : Op} {x : Acc} {pol : Nat} {o : ObjRaw} (hi : p.instr.isLoad = true)
    (hpoison : s.poisonedSector x.adr = false) (hhit : (s.line (s.gblk p.gid).core 0 (lineOf x.adr)).readHit (x.adr / 128 % 2) = true) :
    s.accDevice op p x false pol o = s.setAcc op { x with st := .ready } := by
  simp [State.accDevice, isLoad_isRead hi, hi, hpoison, hhit]

/-- A load of device memory whose sector L1 does not hold asks for the sector (R433). -/
theorem accDevice_miss {s : State} {op : Nat} {p : Op} {x : Acc} {pol : Nat} {o : ObjRaw} (hi : p.instr.isLoad = true)
    (hpoison : s.poisonedSector x.adr = false) (hmiss : (s.line (s.gblk p.gid).core 0 (lineOf x.adr)).readHit (x.adr / 128 % 2) = false) :
    s.accDevice op p x false pol o =
      ((s.setAcc op { x with st := .clear }).sendRD (s.gblk p.gid).core 0 (lineOf x.adr) (x.adr / 128 % 2) (s.tagOf p.gid)).noteFill
        (s.gblk p.gid).core 0 x.adr x.pa x.mt (s.glch p.gid).ctx pol p.instr.hint := by
  simp [State.accDevice, isLoad_isRead hi, hi, hpoison, hmiss]

/-- With nothing of the line in flight a read of a sector is sent (R433). -/
theorem sendRD_sends {s : State} {core a l sector tag : Nat} (h : (s.line core a l).pending = 0) :
    ∃ y, s.sendRD core a l sector tag = (s.setLine core a l y).push (.rd (agentMsg core a l sector tag)) := by
  refine ⟨{ s.line core a l with tag := tag, pending := bitClr (bitSet 0 sector) 3 }, ?_⟩
  unfold State.sendRD
  simp only [h]
  rw [if_neg (by simp [fld]), if_neg (by simp [fld])]

/-- A load's access that is ready or has failed is reported (R170). -/
theorem reportOp_over {s : State} {op : Nat} {p : Op} {x : Acc} (hops : s.ops = [(op, p)]) (haccs : p.accs = [x]) (hx : x.waits p.instr = false) :
    s.reportOp op = s.push (.farCheckReport op) := by
  unfold State.reportOp
  simp [op_single hops, haccs, hx]

/-- A load's access that waits for its sector is not reported yet (R170). -/
theorem reportOp_clear {s : State} {op : Nat} {p : Op} {x : Acc} (hops : s.ops = [(op, p)]) (haccs : p.accs = [x]) (hx : x.st = .clear)
    (hi : p.instr.isStore = false) : s.reportOp op = s := by
  unfold State.reportOp
  simp [op_single hops, haccs, hx, hi, Acc.waits, unfinished]

theorem raise_single {s : State} {op : Nat} {p : Op} (hops : s.ops = [(op, p)]) (k : Nat) :
    s.raise op k = s.setOp op { p with cls := max p.cls k } := by
  rw [State.raise, op_single hops]

section
variable {s u : State} {op : Nat} {p : Op} {h : Bool} {z : LSize} {d a : RF} {c : Fin 16} {x : Acc}

theorem checkAcc_refused (hops : s.ops = [(op, p)]) (hi : p.instr = .ld h z d a c) {k : Nat}
    (hport : s.portCheck (s.glch p.gid).ctx x.adr (some p.cap1.gen) .read = (u, .fail k)) : s.checkAcc op x = u.setAcc op (x.fails k) := by
  unfold State.checkAcc
  simp only [op_single hops, hi, Instr.isDiscard, Instr.isRead, Instr.isLoad, Bool.true_or, if_true, hport, Bool.false_eq_true, if_false]

theorem checkAcc_device (hops : s.ops = [(op, p)]) (hi : p.instr = .ld h z d a c) {pa pol : Nat} {o : ObjRaw}
    (hport : s.portCheck (s.glch p.gid).ctx x.adr (some p.cap1.gen) .read = (u, .ok pa 0 false pol o)) :
    s.checkAcc op x = (u.setAcc op { x with pa := pa, mt := 0 }).accDevice op p { x with pa := pa, mt := 0 } false pol o := by
  unfold State.checkAcc
  simp only [op_single hops, hi, Instr.isDiscard, Instr.isRead, Instr.isLoad, Bool.true_or, if_true, hport, Bool.false_eq_true, if_false]

theorem checkAcc_unmapped (hops : s.ops = [(op, p)]) (hi : p.instr = .ld h z d a c) {pa pol : Nat} {o : ObjRaw}
    (hport : s.portCheck (s.glch p.gid).ctx x.adr (some p.cap1.gen) .read = (u, .ok pa 4 false pol o)) :
    s.checkAcc op x = ((u.setAcc op { x with pa := pa, mt := 4 }).raise op 7).setAcc op (({ x with pa := pa, mt := 4 } : Acc).fails 0x07) := by
  unfold State.checkAcc
  simp only [op_single hops, hi, Instr.isDiscard, Instr.isRead, Instr.isLoad, Bool.true_or, if_true, hport, Bool.false_eq_true, if_false]

variable (hops : s.ops = [(op, p)]) (hu : u.ops = [(op, p)]) (haccs : p.accs = [x]) (hi : p.instr = .ld h z d a c)
include hops hu haccs hi

/-- What the port refuses fails the access with its cause (R228). -/
theorem checkAcc_fail {k : Nat} (hport : s.portCheck (s.glch p.gid).ctx x.adr (some p.cap1.gen) .read = (u, .fail k)) :
    s.checkAcc op x = u.setOp op { p with accs := [x.fails k] } := by
  rw [checkAcc_refused hops hi hport]
  exact setAcc_single hu haccs rfl

/-- A sector that L1 holds is ready (R220, R433). -/
theorem checkAcc_hit {pa pol : Nat} {o : ObjRaw} (hport : s.portCheck (s.glch p.gid).ctx x.adr (some p.cap1.gen) .read = (u, .ok pa 0 false pol o))
    (hpoison : u.poisonedSector x.adr = false) (hhit : (u.line (u.gblk p.gid).core 0 (lineOf x.adr)).readHit (x.adr / 128 % 2) = true) :
    s.checkAcc op x = u.setOp op { p with accs := [{ x with pa := pa, mt := 0, st := .ready }] } := by
  rw [checkAcc_device hops hi hport]
  refine (accDevice_hit (by rw [hi]; rfl) ?_ ?_).trans (setAcc_setAcc_single hu haccs rfl rfl)
  · exact hpoison
  · exact hhit

/-- Another sector of device memory is asked for (R433). -/
theorem checkAcc_miss {pa pol : Nat} {o : ObjRaw} (hport : s.portCheck (s.glch p.gid).ctx x.adr (some p.cap1.gen) .read = (u, .ok pa 0 false pol o))
    (hpoison : u.poisonedSector x.adr = false) (hmiss : (u.line (u.gblk p.gid).core 0 (lineOf x.adr)).readHit (x.adr / 128 % 2) = false) :
    s.checkAcc op x =
      ((u.setOp op { p with accs := [{ x with pa := pa, mt := 0, st := .clear }] }).sendRD (u.gblk p.gid).core 0 (lineOf x.adr) (x.adr / 128 % 2)
        (u.tagOf p.gid)).noteFill (u.gblk p.gid).core 0 x.adr pa 0 (u.glch p.gid).ctx pol p.instr.hint := by
  have hset := setAcc_setAcc_single (y := { x with pa := pa, mt := 0 }) (z := { x with pa := pa, mt := 0, st := .clear }) hu haccs rfl rfl
  rw [checkAcc_device hops hi hport, ← hset]
  refine accDevice_miss (by rw [hi]; rfl) ?_ ?_
  · exact hpoison
  · exact hmiss

/-- Memory of type 4 is none: a load of it fails with 0x07 (R406). -/
theorem checkAcc_noMemory {pa pol : Nat} {o : ObjRaw}
    (hport : s.portCheck (s.glch p.gid).ctx x.adr (some p.cap1.gen) .read = (u, .ok pa 4 false pol o)) :
    s.checkAcc op x = u.setOp op { p with accs := [({ x with pa := pa, mt := 4 } : Acc).fails 0x07], cls := max p.cls 7 } := by
  have hraise := raise_single (ops_setOp_single hu { p with accs := [{ x with pa := pa, mt := 4 }] }) 7
  rw [checkAcc_unmapped hops hi hport, setAcc_single hu haccs (y := { x with pa := pa, mt := 4 }) rfl, hraise, setOp_setOp_single hu]
  have hfail := setAcc_single (p := { p with accs := [{ x with pa := pa, mt := 4 }], cls := max p.cls 7 }) (x := { x with pa := pa, mt := 4 })
    (y := ({ x with pa := pa, mt := 4 } : Acc).fails 0x07) (ops_setOp_single hu _) rfl rfl
  rw [hfail, setOp_setOp_single hu]

end

theorem loadsPassTheirPort : Claims.LoadsPassTheirPort := by
  intro s u op p h z d a c x hops hi haccs hst hblk hres core line
  have hexec := exec_portCheck_load hops haccs (by rw [hi]; rfl) hst hblk hres
  refine ⟨fun k hport => ?_, fun pa pol o hport hpoison => ⟨fun hhit => ?_, fun hmiss hpend => ?_⟩, fun pa pol o hport => ?_⟩
  all_goals
    obtain ⟨hgroups, hblocks, -, hlaunches, huops, -⟩ := ((State.AtHome.refl s).portCheck.of_eq hport).fields
    have hu : u.ops = [(op, p)] := huops.trans hops
    have hcore : core = (u.gblk p.gid).core := by
      unfold core State.gblk
      rw [grp_congr hgroups, blk_congr hblocks]
  · rw [checkAcc_fail hops hu haccs hi hport] at hexec
    have ht := ops_setOp_single hu { p with accs := [x.fails k] }
    rw [reportOp_over ht rfl rfl] at hexec
    exact ⟨_, hexec, ht, List.mem_append_right _ (List.mem_singleton_self _), rfl⟩
  · rw [checkAcc_hit hops hu haccs hi hport hpoison (hcore ▸ hhit)] at hexec
    have ht := ops_setOp_single hu { p with accs := [{ x with pa := pa, mt := 0, st := .ready }] }
    rw [reportOp_over ht rfl rfl] at hexec
    exact ⟨_, hexec, ht, List.mem_append_right _ (List.mem_singleton_self _), rfl⟩
  · have htag : (s.glch p.gid).tag = u.tagOf p.gid := by
      unfold State.tagOf State.glch State.lch State.gblk
      rw [grp_congr hgroups, blk_congr hblocks, hlaunches]
    have ht := ops_setOp_single hu { p with accs := [{ x with pa := pa, mt := 0, st := .clear }] }
    obtain ⟨y, hsend⟩ := sendRD_sends (s := u.setOp op { p with accs := [{ x with pa := pa, mt := 0, st := .clear }] }) (core := core) (a := 0)
      (l := line) (sector := x.adr / 128 % 2) (tag := u.tagOf p.gid) hpend
    rw [checkAcc_miss hops hu haccs hi hport hpoison (hcore ▸ hmiss), ← hcore, hsend, ← htag] at hexec
    generalize hv : State.noteFill _ core 0 x.adr pa 0 _ pol _ = v at hexec
    have hvops : v.ops = [(op, { p with accs := [{ x with pa := pa, mt := 0, st := .clear }] })] := by
      rw [← hv]
      exact ht
    rw [reportOp_clear hvops rfl rfl (by rw [hi]; rfl)] at hexec
    refine ⟨_, hexec, hvops, ?_, ?_⟩ <;> rw [← hv]
    · rfl
    · exact List.mem_append_right _ (List.mem_singleton_self _)
  · rw [checkAcc_noMemory hops hu haccs hi hport] at hexec
    have ht := ops_setOp_single hu { p with accs := [({ x with pa := pa, mt := 4 } : Acc).fails 0x07], cls := max p.cls 7 }
    rw [reportOp_over ht rfl rfl] at hexec
    exact ⟨_, hexec, ht, List.mem_append_right _ (List.mem_singleton_self _)⟩

/-! ### Poisoned sectors stay through the error log's record -/

theorem slice_setSlice (s : State) (m k : Nat) (x : Slice) : (s.setSlice m x).slice k = if k = m then x else s.slice k :=
  tget_tset ..

theorem slice_setSlice_self (s : State) (m : Nat) (x : Slice) : (s.setSlice m x).slice m = x := tget_tset_self ..

theorem slice_congr {s t : State} (h : t.slices = s.slices) (m : Nat) : t.slice m = s.slice m := by
  rw [State.slice, h]
  rfl

/-- Slice `m` holds sector `q` to be poisoned (R416). -/
def State.Poisons (s : State) (m q : Nat) : Prop := q ∈ (s.slice m).poisonSec

theorem poisonedSector_iff {s : State} {a : Nat} : s.poisonedSector a = true ↔ s.Poisons (homeSlice (lineOf a)) (a / 128) := List.contains_iff_mem

namespace State.Poisons

variable {s : State} {m q : Nat}

theorem frame {agenda sched cur turn stuck free tick mem groups blocks courses launches ops nextOp seqWait cores ctxs le fab link mg cnt}
    (h : s.Poisons m q) :
    (State.mk agenda sched cur turn stuck free tick mem groups blocks courses launches ops nextOp seqWait cores ctxs le s.slices fab
      link mg cnt).Poisons m q := h

theorem ite {c : Prop} [Decidable c] {a b : State} (ha : a.Poisons m q) (hb : b.Poisons m q) : (if c then a else b).Poisons m q := by
  split
  · exact ha
  · exact hb

theorem foldl {α : Type} {f : State → α → State} {l : List α} (h : s.Poisons m q) (hf : ∀ u x, u.Poisons m q → (f u x).Poisons m q) :
    (l.foldl f s).Poisons m q :=
  List.foldlRecOn l f h fun u hu x _ => hf u x hu

theorem of_eq {β : Type} {p : State × β} {t : State} {r : β} (h : p.1.Poisons m q) (e : p = (t, r)) : t.Poisons m q := by
  subst e
  exact h

theorem setSlice {k : Nat} {x : Slice} (h : s.Poisons m q) (hx : x.poisonSec = (s.slice k).poisonSec) : (s.setSlice k x).Poisons m q := by
  unfold State.Poisons at h ⊢
  rw [slice_setSlice]
  split
  · next e => rw [hx, ← e]; exact h
  · exact h

theorem count {b i k n : Nat} (h : s.Poisons m q) : (s.count b i k n).Poisons m q := h

theorem push {e : Event} (h : s.Poisons m q) : (s.push e).Poisons m q := h

theorem setLine {core a l : Nat} {x : CLine} (h : s.Poisons m q) : (s.setLine core a l x).Poisons m q := h

theorem fillL2 {l sector : Nat} {stream dirty : Bool} {by_ : Nat} (h : s.Poisons m q) : (s.fillL2 l sector stream dirty by_).Poisons m q := by
  refine h.setSlice ?_
  dsimp only
  split
  · unfold Slice.backLine
    split <;> rfl
  · rfl

theorem allocL2 {a n : Nat} {stream : Bool} {by_ : Nat} (h : s.Poisons m q) : (s.allocL2 a n stream by_).Poisons m q :=
  h.ite (h.foldl fun _ _ hu => hu.fillL2)

theorem touch {a n : Nat} (h : s.Poisons m q) : (s.touch a n).Poisons m q := by
  unfold State.touch
  refine h.foldl fun _ _ hu => hu.foldl fun _ _ hv => ?_
  split
  · exact hv.push.ite hv
  · exact hv

theorem tearLine {l : Nat} (h : s.Poisons m q) : (s.tearLine l).Poisons m q := by
  unfold State.tearLine
  extract_lets d watched filled _ cleared rerun _ bare u
  have hf : filled.Poisons m q := h.foldl fun _ _ hv => hv.fillL2.ite hv
  have hc : cleared.Poisons m q := hf.foldl fun _ _ hv => hv.foldl fun _ _ hw => hw.ite hw.setLine
  have hr : bare.Poisons m q := hc.foldl fun _ _ hv => hv.push
  have hu : u.Poisons m q := hr.foldl fun _ _ hv => hv.push
  exact hu.touch.ite hu

theorem tearRange {a n : Nat} (h : s.Poisons m q) : (s.tearRange a n).Poisons m q := h.foldl fun _ _ hu => hu.tearLine

theorem pwrite {a n v : Nat} (h : s.Poisons m q) : (s.pwrite a n v).Poisons m q := h.frame.ite h.frame

theorem homeWant {a n : Nat} {write : Bool} (h : s.Poisons m q) : (s.homeWant a n write).Poisons m q := h.ite h.frame

/-- Bytes that are written leave every sector poisoned that they do not cover (R416). -/
theorem cleanSectors {a n : Nat} (h : s.Poisons m q) (hq : ¬ (a ≤ 128 * q ∧ 128 * q + 128 ≤ a + n)) : (s.cleanSectors a n).Poisons m q := by
  have hslice := tget_map_snd (d' := .empty) Slice.empty (f := fun x : Slice =>
    { x with poisonSec := x.poisonSec.filter fun q => !(decide (a ≤ 128 * q) && decide (128 * q + 128 ≤ a + n)) }) rfl s.slices m
  unfold State.Poisons State.cleanSectors State.slice
  dsimp only
  rw [hslice]
  exact List.mem_filter.2 ⟨h, by simpa [-not_and, not_and_or] using hq⟩

theorem putEntry {ctx a e : Nat} (h : s.Poisons m q) : (s.putEntry ctx a e).Poisons m q := by
  unfold State.putEntry
  extract_lets u
  have hu : u.Poisons m q := h
  split
  · exact hu.homeWant.tearLine.touch
  · exact hu

/-- A frame's zeros clean sectors of its own page alone (R409, R416). -/
theorem zeroFrame {adr mt pfn : Nat} (h : s.Poisons m q) (hq : q / 2 ^ 33 ≠ adr / 2 ^ 40) : (s.zeroFrame adr mt pfn).Poisons m q := by
  unfold State.zeroFrame
  split
  · refine cleanSectors h ?_
    omega
  · exact h.foldl fun _ _ hu => hu
  · exact h

theorem dropPage {k ctx n page : Nat} (h : s.Poisons m q) : (s.dropPage k ctx n page).Poisons m q := h.setSlice rfl

theorem portObj {k ctx n : Nat} (h : s.Poisons m q) : (s.portObj k ctx n).1.Poisons m q := by
  unfold State.portObj
  extract_lets x o
  split
  · exact h
  · split
    · exact h.setSlice rfl
    · exact h

theorem portPage {k ctx n page pmap : Nat} (h : s.Poisons m q) : (s.portPage k ctx n page pmap).1.Poisons m q := by
  unfold State.portPage
  extract_lets x e u
  have hu : u.Poisons m q := h
  split
  · exact h
  · split
    · exact hu.setSlice rfl
    · exact hu

theorem portHead {ctx adr : Nat} {gen : Option Nat} (h : s.Poisons m q) : (s.portHead ctx adr gen).1.Poisons m q := by
  dsimp only [State.portHead]
  split
  · exact h
  · split
    · exact h.portObj
    · split <;> exact h.portObj

theorem hpol {k e : Nat} {o : ObjRaw} (h : s.Poisons m q) : (s.hpol k e o).Poisons m q := h.count.ite h

theorem frameThere {mt pfn : Nat} (h : s.Poisons m q) : (s.frameThere mt pfn).Poisons m q := h.frame.ite h

/-- By induction on the tries left: the port writes no bytes but those of the page it translates. -/
theorem portTry {ctx adr : Nat} {gen : Option Nat} {k : PKind} {fuel : Nat} (h : s.Poisons m q) (hq : q / 2 ^ 33 ≠ adr / 2 ^ 40) :
    (s.portTry ctx adr gen k fuel).1.Poisons m q := by
  induction fuel generalizing s with
  | zero => exact h
  | succ fuel ih =>
    unfold State.portTry
    extract_lets m n off
    split
    · next e => exact h.portHead.of_eq e
    next e =>
    have hu := h.portHead.of_eq e
    split
    · split
      · exact hu.hpol
      · exact hu
    split
    next v e' hp =>
    have hv := hu.portPage.of_eq hp
    split
    · exact hv
    split
    · exact hv
    split
    · exact hv
    extract_lets pfn pa w peer needA needD dead a x e₁ x₁ x₂ y x₃
    have hw : w.Poisons _ q := hv.hpol.frameThere
    split
    · exact hw
    split
    · split
      · exact ih hw.count.dropPage
      · exact ((zeroFrame hw.count hq).ite hw.count).putEntry.dropPage.setSlice rfl
    · exact hw

theorem portCheck {ctx adr : Nat} {gen : Option Nat} {k : PKind} (h : s.Poisons m q) (hq : q / 2 ^ 33 ≠ adr / 2 ^ 40) :
    (s.portCheck ctx adr gen k).1.Poisons m q := h.portTry hq

theorem logPut {l : ErrLog} {i bits : Nat} (h : s.Poisons m q) (hq : q / 2 ^ 33 ≠ (l.obj * 2 ^ 40 + 32 * i) / 2 ^ 40) :
    (s.logPut l i bits).Poisons m q :=
  ((h.portCheck hq).homeWant.tearRange.pwrite.cleanSectors (by omega)).allocL2.touch

/-- A record of the log leaves a sector poisoned that is not of the log's object (R416, R468). -/
theorem logErr {srck srci cls code adr ctx : Nat} {ctx2 : Option Nat} {detail : Nat} (h : s.Poisons m q)
    (hlog : s.mg.log.obj = 0 ∨ (q / 2 ^ 33 ≠ s.mg.log.obj ∧ s.mg.log.size ≤ 2 ^ 40)) :
    (s.logErr srck srci cls code adr ctx ctx2 detail).Poisons m q := by
  unfold State.logErr
  extract_lets l r put i
  split
  · exact h.frame.ite h.frame.count
  next hobj =>
    split
    · next hroom =>
      obtain hlog | ⟨hq, hsize : l.size ≤ 2 ^ 40⟩ := hlog
      · exact absurd hlog hobj
      have hadr : (l.obj * 2 ^ 40 + 32 * i) / 2 ^ 40 = l.obj := by omega
      have hput : (s.logPut l i r.bits).Poisons m q := h.logPut (by rw [hadr]; exact hq)
      exact hput.frame
    · exact h.frame.count

end State.Poisons

/-! ### A sector read from memory -/

theorem fillMsg_congr {s t : State} (h : t.cores = s.cores) (c a l k : Nat) : t.fillMsg c a l k = s.fillMsg c a l k := by
  unfold State.fillMsg State.line State.core
  rw [h]

/-- The agents that wait for a sector are answered with the state that finds them (R433). -/
theorem foldl_push_fillMsg (l k : Nat) (ws : List (Nat × Nat)) : ∀ s : State,
    ws.foldl (fun s w => s.push (.data (s.fillMsg w.1 w.2 l k))) s = { s with agenda := s.agenda ++ ws.map fun w => .data (s.fillMsg w.1 w.2 l k) } := by
  induction ws with
  | nil => intro s; simp
  | cons w ws ih =>
    intro s
    rw [List.foldl_cons, ih, List.map_cons, ← List.singleton_append, ← List.append_assoc]
    rfl

/-- An agent whose read of a sector is in flight is one of its fillers, and no other is. -/
theorem mem_fillers {s : State} {l k c a : Nat} : (c, a) ∈ s.fillers l k ↔ a < 4 ∧ fld (s.line c a l).pending k 1 = 1 := by
  unfold State.fillers
  rw [List.mem_flatMap]
  constructor
  · rintro ⟨e, -, he⟩
    obtain ⟨b, hb, hw⟩ := List.mem_filterMap.1 he
    split at hw
    · next hbit =>
      obtain ⟨rfl, rfl⟩ := Prod.mk.inj (Option.some.inj hw)
      exact ⟨List.mem_range.1 hb, hbit⟩
    · cases hw
  · rintro ⟨ha, hbit⟩
    have hcore : s.core c ≠ Core.empty := fun h => by
      have hline : s.line c a l = CLine.none := by
        rw [State.line, h]
        rfl
      rw [hline] at hbit
      exact absurd hbit (by simp [CLine.none, fld])
    exact ⟨_, mem_of_tget_ne hcore, List.mem_filterMap.2 ⟨a, List.mem_range.2 ha, if_pos hbit⟩⟩

theorem fld_bitSet (x k : Nat) : fld (bitSet x k) k 1 = 1 := by
  unfold bitSet
  split
  · assumption
  · next h =>
    unfold fld at *
    rw [Nat.add_div_right _ (by positivity)]
    omega

/-- A sector that is brought into L2 is there (R401). -/
theorem fillL2_inL2 (s : State) (l k : Nat) (stream dirty : Bool) (by_ : Nat) : (s.fillL2 l k stream dirty by_).inL2 l k = true := by
  unfold State.inL2 State.fillL2
  dsimp only
  rw [slice_setSlice_self]
  dsimp only
  rw [tget_tset_self]
  exact beq_iff_eq.2 (fld_bitSet ..)

/-- A sector that memory gives without an error comes into L2, unless every agent that waits for it reads past L2, and they are answered
(R401, R433). -/
theorem exec_hbmReadComplete_clean (s : State) (l k : Nat) :
    ∃ u, exec (.hbmReadComplete l k .clean) s = .next { u with agenda := u.agenda ++ (s.fillers l k).map fun w => .data (s.fillMsg w.1 w.2 l k) } ∧
      s.SameBytes u ∧ ((∃ w ∈ s.fillers l k, fld (s.line w.1 w.2 l).pending 4 1 = 0) ∨ s.fillers l k = [] → u.inL2 l k = true) := by
  show ∃ u, execHbmReadComplete l k .clean s = _ ∧ _
  unfold execHbmReadComplete
  simp only [reduceCtorEq, if_false]
  split
  · next hall =>
    obtain ⟨hne, hpast⟩ := hall
    refine ⟨_, congrArg _ (foldl_push_fillMsg l k _ _), ⟨rfl, rfl⟩, fun h => ?_⟩
    obtain ⟨w, hw, hbit⟩ | h := h
    · have := List.all_eq_true.1 hpast w hw
      simp [hbit] at this
    · exact absurd h hne
  · exact ⟨_, congrArg _ (foldl_push_fillMsg l k _ _), ⟨rfl, rfl⟩, fun _ => fillL2_inL2 ..⟩

/-- The operations in flight, the slices and the management engine, which no message of a core's agent changes. -/
def State.homes (s : State) : SMap Op × SMap Slice × Mgmt := (s.ops, s.slices, s.mg)

theorem sendRD_homes (s : State) (c a l k tag : Nat) : (s.sendRD c a l k tag).homes = s.homes := by
  unfold State.sendRD
  dsimp only
  split
  · rfl
  · split <;> rfl

theorem sendWanted_homes (s : State) (c a l k : Nat) (x : CLine) : (s.sendWanted c a l k x).homes = s.homes := by
  unfold State.sendWanted
  dsimp only
  split
  · rfl
  · exact sendRD_homes ..

theorem lineArrived_of_ops_nil {s : State} (h : s.ops = []) (c a l : Nat) (k : Option Nat) : s.lineArrived c a l k = s := by
  unfold State.lineArrived
  simp only [h, List.foldl_nil]
  exact settle_of_ops_nil h 2

/-- With nothing in flight a read that ends without data concerns its agent alone (R416). -/
theorem endFill_homes {s : State} (h : s.ops = []) (c a l k : Nat) : (s.endFill c a l k).homes = s.homes := by
  unfold State.endFill
  extract_lets x rest m m' u v
  have hu : v.homes = s.homes := by
    unfold v
    split <;> rfl
  have hw := (sendWanted_homes v c a l k x).trans hu
  rw [lineArrived_of_ops_nil ((congrArg Prod.fst hw).trans h)]
  exact hw

theorem foldl_endFill_homes {s : State} (h : s.ops = []) (l k : Nat) (ws : List (Nat × Nat)) :
    (ws.foldl (fun s w => s.endFill w.1 w.2 l k) s).homes = s.homes :=
  List.foldlRecOn (motive := fun t : State => t.homes = s.homes) _ _ rfl fun _ ht w _ =>
    (endFill_homes ((congrArg Prod.fst ht).trans h) w.1 w.2 l k).trans ht

/-- A sector that cannot be corrected is poisoned, and recorded in the log (R416). -/
theorem exec_hbmReadComplete_uncorrectable {s : State} {l k : Nat} (hops : s.ops = []) (hk : k < 2)
    (hlog : s.mg.log.obj = 0 ∨ (l / 2 ^ 32 ≠ s.mg.log.obj ∧ s.mg.log.size ≤ 2 ^ 40)) :
    ∃ t, exec (.hbmReadComplete l k .uncorrectable) s = .next t ∧ t.Poisons (homeSlice l) (2 * l + k) ∧ t.mg.log.next = s.mg.log.next + 1 := by
  show ∃ t, execHbmReadComplete l k .uncorrectable s = .next t ∧ _
  unfold execHbmReadComplete
  simp only [reduceCtorEq, if_false, if_true]
  generalize hu : State.count (State.setSlice s (homeSlice l) _) 8 (homeSlice l) 8 _ = u
  have hpoison : u.Poisons (homeSlice l) (2 * l + k) := by
    rw [← hu]
    show _ ∈ (State.slice (State.setSlice s (homeSlice l) _) (homeSlice l)).poisonSec
    rw [slice_setSlice_self]
    dsimp only
    split
    · next h => exact List.contains_iff_mem.1 h
    · exact List.mem_append_right _ (List.mem_singleton_self _)
  have huops : u.ops = [] := by rw [← hu]; exact hops
  have humg : u.mg = s.mg := by rw [← hu]; rfl
  have hobj : (2 * l + k) / 2 ^ 33 = l / 2 ^ 32 := by omega
  have hlogged := hpoison.logErr (srck := 1) (srci := homeSlice l) (cls := 1) (code := 1) (adr := 256 * l) (ctx := 0) (ctx2 := none) (detail := k)
    (by rw [humg, hobj]; exact hlog)
  have hnext := logErr_next u 1 (homeSlice l) 1 1 (256 * l) 0 none k
  have hvops := ((State.AtHome.refl u).logErr (srck := 1) (srci := homeSlice l) (cls := 1) (code := 1) (adr := 256 * l) (ctx := 0) (ctx2 := none)
    (detail := k)).noOps huops
  generalize State.logErr u 1 _ 1 1 _ 0 none k = v at *
  simp only [hvops, List.foldl_nil]
  have hhomes := foldl_endFill_homes hvops l k (v.fillers l k)
  obtain ⟨-, hslices, hmg⟩ : _ = v.ops ∧ _ = v.slices ∧ _ = v.mg := by simpa [State.homes] using hhomes
  refine ⟨_, rfl, ?_, ?_⟩
  · unfold State.Poisons
    rw [slice_congr hslices]
    exact hlogged
  · rw [hmg, hnext, humg]

theorem exec_hbmReadComplete_corrected (s : State) (l k : Nat) :
    exec (.hbmReadComplete l k .corrected) s = exec (.hbmReadComplete l k .clean) (s.logErr 1 (homeSlice l) 0 1 (256 * l + 128 * k) 0 none 0) := by
  show execHbmReadComplete l k .corrected s = execHbmReadComplete l k .clean _
  unfold execHbmReadComplete
  simp only [reduceCtorEq, if_false, if_true]

/-! ### A page's fault -/

theorem exec_faultReport_again {s : State} {r : FaultRec}
    (h : ⟨r.ctx, r.obj, r.page⟩ ∈ (s.slice (homeSlice (lineOf (r.obj * 2 ^ 40 + r.page * 65536)))).faults) :
    exec (.faultReport r) s = .next (s.count 8 r.port 3 1) :=
  if_pos (List.contains_iff_mem.2 h)

/-- A page's first fault is recorded in its context's fault sequence, and is outstanding at its reporting slice (R413). -/
theorem exec_faultReport_first {s u : State} {r : FaultRec} {h : Nat} {l : List Placed}
    (hnew : ⟨r.ctx, r.obj, r.page⟩ ∉ (s.slice (homeSlice (lineOf (r.obj * 2 ^ 40 + r.page * 65536)))).faults)
    (hseq : (s.ctx r.ctx).faultSeq = some h) (hvalid : s.seqValid r.ctx h = true)
    (happend : s.appendRec r.ctx h s.nextOp (s.reportBytes r (homeSlice (lineOf (r.obj * 2 ^ 40 + r.page * 65536))) (s.waitingOn r.ctx r.obj r.page)) =
      (u, .got l)) :
    ∃ y, exec (.faultReport r) s = .next ((u.setSlice (homeSlice (lineOf (r.obj * 2 ^ 40 + r.page * 65536))) y).count 8
        (homeSlice (lineOf (r.obj * 2 ^ 40 + r.page * 65536))) 2 1) ∧
      y.faults = (u.slice (homeSlice (lineOf (r.obj * 2 ^ 40 + r.page * 65536)))).faults ++ [⟨r.ctx, r.obj, r.page⟩] := by
  refine ⟨{ u.slice (homeSlice (lineOf (r.obj * 2 ^ 40 + r.page * 65536))) with faults := _ }, ?_, rfl⟩
  show execFaultReport r s = _
  unfold execFaultReport
  dsimp only
  rw [if_neg (by simpa using hnew), hseq]
  dsimp only
  rw [if_neg (by simp [hvalid]), happend]

theorem faultsAndSectorsAreReported : Claims.FaultsAndSectorsAreReported := by
  refine ⟨fun s r => ⟨fun h => ⟨_, exec_faultReport_again h, rfl⟩, fun h u l hnew hseq hvalid happend => ?_⟩,
    fun s l k hk => ⟨?_, fun hops hlog => ?_, ?_⟩⟩
  · obtain ⟨y, hexec, hy⟩ := exec_faultReport_first hnew hseq hvalid happend
    refine ⟨_, hexec, ?_, rfl⟩
    show (State.slice (u.setSlice _ y) _).faults = _
    rw [slice_setSlice_self, hy]
  · obtain ⟨u, hexec, hbytes, hin⟩ := exec_hbmReadComplete_clean s l k
    refine ⟨_, hexec, hbytes, fun c a ha hbit => ?_, fun hpast => hin ?_⟩
    · exact List.mem_append_right _ (List.mem_map.2 ⟨(c, a), mem_fillers.2 ⟨ha, hbit⟩, rfl⟩)
    · cases hw : s.fillers l k with
      | nil => exact .inr rfl
      | cons w ws =>
        obtain ⟨ha, hbit⟩ := mem_fillers.1 (hw ▸ List.mem_cons_self : w ∈ s.fillers l k)
        exact .inl ⟨w, List.mem_cons_self, hpast w.1 w.2 ha hbit⟩
  · obtain ⟨t, hexec, hpoison, hnext⟩ := exec_hbmReadComplete_uncorrectable hops hk hlog
    refine ⟨t, hexec, poisonedSector_iff.2 ?_, hnext⟩
    have hline : lineOf (256 * l + 128 * k) = l := by
      unfold lineOf
      omega
    have hsec : (256 * l + 128 * k) / 128 = 2 * l + k := by omega
    rw [hline, hsec]
    exact hpoison
  · exact exec_hbmReadComplete_corrected s l k

/-- Settles O52: `loadsPassTheirPort` for the port, `faultsAndSectorsAreReported` for faults and sectors. -/
theorem portsAndFaults : Obligations.PortsAndFaults := ⟨loadsPassTheirPort, faultsAndSectorsAreReported⟩

end Sys2Proof.Machine
end

section
/-! ## TCINV (O51) -/

namespace Sys2Proof.Machine

open Sys2Proof

/-! ### Trees that are torn down

What a slice does for a TCINV leaves every byte, and takes lines out of caches without bringing one in. It may let an access of the operation in
flight be checked afresh. -/

theorem line_setLine_at (s : State) (core a l : Nat) (x : CLine) (c b k : Nat) :
    (s.setLine core a l x).line c b k = if c = core ∧ 4 * k + b = 4 * l + a then x else s.line c b k := by
  unfold State.setLine State.line State.core
  simp only [State.setCore_cores, tget_tset]
  by_cases hc : c = core
  · subst hc
    simp [tget_tset]
  · simp [hc]

/-- From `s` to `t` no byte changes, no agent comes to hold a line, and operation `op` alone is in flight. -/
structure State.TearsDown (s : State) (op : Nat) (t : State) : Prop where
  bytes : s.SameBytes t
  flight : ∃ q, t.ops = [(op, q)]
  lines : ∀ c a l, (s.line c a l).st = .I → (t.line c a l).st = .I

namespace State.TearsDown

variable {s t : State} {op : Nat}

theorem refl {p : Op} (h : s.ops = [(op, p)]) : s.TearsDown op s := ⟨⟨rfl, rfl⟩, ⟨p, h⟩, fun _ _ _ h => h⟩

theorem frame {agenda sched cur turn stuck free tick groups courses launches nextOp seqWait ctxs le slices fab link mg cnt} (h : s.TearsDown op t) :
    s.TearsDown op (State.mk agenda sched cur turn stuck free tick t.mem groups t.blocks courses launches t.ops nextOp seqWait t.cores ctxs le slices
      fab link mg cnt) :=
  ⟨h.bytes, h.flight, h.lines⟩

theorem ite {c : Prop} [Decidable c] {a b : State} (ha : s.TearsDown op a) (hb : s.TearsDown op b) : s.TearsDown op (if c then a else b) := by
  split
  · exact ha
  · exact hb

theorem foldl {α : Type} {f : State → α → State} {l : List α} (h : s.TearsDown op t) (hf : ∀ u x, s.TearsDown op u → s.TearsDown op (f u x)) :
    s.TearsDown op (l.foldl f t) :=
  List.foldlRecOn l f h fun u hu x _ => hf u x hu

theorem push {e : Event} (h : s.TearsDown op t) : s.TearsDown op (t.push e) := h.frame

theorem setSlice {m : Nat} {x : Slice} (h : s.TearsDown op t) : s.TearsDown op (t.setSlice m x) := h.frame

theorem setOp {x : Op} (h : s.TearsDown op t) : s.TearsDown op (t.setOp op x) := by
  obtain ⟨q, hq⟩ := h.flight
  exact ⟨h.bytes, ⟨x, ops_setOp_single hq x⟩, h.lines⟩

/-- An agent that did not hold a line still does not. -/
theorem setLine {core a l : Nat} {x : CLine} (h : s.TearsDown op t) (hx : (t.line core a l).st = .I → x.st = .I) :
    s.TearsDown op (t.setLine core a l x) := by
  refine ⟨h.bytes, h.flight, fun c b k hk => ?_⟩
  rw [line_setLine_at]
  split
  · next e =>
    obtain ⟨rfl, hkey⟩ := e
    refine hx ?_
    have hold := h.lines c b k hk
    unfold State.line at hold ⊢
    rwa [← hkey]
  · exact h.lines c b k hk

theorem fillL2 {l sector : Nat} {stream dirty : Bool} {by_ : Nat} (h : s.TearsDown op t) : s.TearsDown op (t.fillL2 l sector stream dirty by_) :=
  h.setSlice

theorem touch {a n : Nat} (h : s.TearsDown op t) : s.TearsDown op (t.touch a n) := by
  unfold State.touch
  refine h.foldl fun _ _ hu => hu.foldl fun _ _ hv => ?_
  split
  · exact hv.push.ite hv
  · exact hv

theorem tearLine {l : Nat} (h : s.TearsDown op t) : s.TearsDown op (t.tearLine l) := by
  unfold State.tearLine
  extract_lets d watched filled _ cleared rerun _ bare u
  have hf : s.TearsDown op filled := h.foldl fun _ _ hv => hv.fillL2.ite hv
  have hc : s.TearsDown op cleared := hf.foldl fun _ _ hv => hv.foldl fun _ _ hw => hw.ite (hw.setLine fun _ => rfl)
  have hr : s.TearsDown op rerun := hc.foldl fun _ _ hv => hv.push
  have hb : s.TearsDown op bare := hr.frame
  have hu : s.TearsDown op u := hb.foldl fun _ _ hv => hv.push
  exact hu.touch.ite hu

theorem backL2 {l by_ : Nat} (h : s.TearsDown op t) : s.TearsDown op (t.backL2 l by_) := by
  unfold State.backL2
  extract_lets m x
  split
  · exact h.setSlice
  · exact h

/-! ### A slab of a peer goes home -/

theorem linkSend {p : Nat} {m : LinkMsg} (h : s.TearsDown op t) : s.TearsDown op (t.linkSend p m) := ite h h.frame

theorem returnLines {port : Nat} {m : SlabMsg} {ls : List Nat} {wrap : SlabMsg → LinkMsg} (h : s.TearsDown op t) :
    s.TearsDown op (t.returnLines port m ls wrap) :=
  (h.foldl fun _ _ hu => hu.linkSend).linkSend

theorem unready {slab : Nat} {pick : Instr → Bool} (h : s.TearsDown op t) : s.TearsDown op (t.unready slab pick) := by
  obtain ⟨q, hq⟩ := h.flight
  unfold State.unready
  rw [hq]
  exact (h.setOp.foldl fun _ _ hv => hv.push).ite h

theorem endReads {slab : Nat} (h : s.TearsDown op t) : s.TearsDown op (t.endReads slab) := by
  refine h.foldl fun _ _ hu => hu.foldl fun _ _ hv => hv.ite (.ite (hv.setLine id) ?_)
  exact push (hv.setLine id)

theorem invCopies {l : Nat} {spare : Nat × Nat → Bool} (h : s.TearsDown op t) : s.TearsDown op (t.invCopies l spare) :=
  (h.foldl fun _ _ hu => hu.setLine fun _ => rfl).touch

theorem clearSlab {slab : Nat} (h : s.TearsDown op t) : s.TearsDown op (t.clearSlab slab) := by
  unfold State.clearSlab
  extract_lets u v
  have hd : s.TearsDown op ((t.unready slab fun _ => true).dropSlabTree slab) := h.unready.frame
  have hv : s.TearsDown op v := hd.endReads.foldl fun _ _ hw => hw.invCopies
  have hb : s.TearsDown op { v with link := { v.link with peerMem := mzero v.link.peerMem (4096 * slab) 4096 } } := hv.frame
  exact hb.touch.foldl fun _ _ hw => hw.push

theorem giveBack {slab : Nat} (h : s.TearsDown op t) : s.TearsDown op (t.giveBack slab) := by
  unfold State.giveBack
  split
  · exact h.returnLines.clearSlab
  · exact h

end State.TearsDown

/-! ### A line that is torn down is held by no agent -/

/-- No copy of line `l` is in agent `a` of core `c` (R434). -/
def State.Gone (s : State) (c a l : Nat) : Prop := (s.line c a l).st = .I

theorem gone_of_unlisted {s : State} {c : Nat} (h : s.core c = Core.empty) (a l : Nat) : s.Gone c a l := by
  unfold State.Gone State.line
  rw [h]
  rfl

theorem State.Gone.setLine {s : State} {c a l core b k : Nat} {x : CLine} (h : s.Gone c a l) (hx : x.st = .I) : (s.setLine core b k x).Gone c a l := by
  unfold State.Gone at *
  rw [line_setLine_at]
  split
  · exact hx
  · exact h

theorem State.Gone.foldl {α : Type} {f : State → α → State} {s : State} {xs : List α} {c a l : Nat} (h : s.Gone c a l)
    (hf : ∀ u x, u.Gone c a l → (f u x).Gone c a l) : (xs.foldl f s).Gone c a l :=
  List.foldlRecOn (motive := fun t : State => t.Gone c a l) xs f h fun u hu x _ => hf u x hu

/-- One pass over the agents of one core takes a line from each. -/
def tearAgent (core l : Nat) (s : State) (a : Nat) : State :=
  if (s.line core a l).st = .I ∧ (s.line core a l).pending = 0 then s
  else s.setLine core a l { CLine.none with pending := if (s.line core a l).pending = 0 then 0 else bitSet (s.line core a l).pending 3 }

theorem tearAgent_gone (core l a : Nat) (s : State) : (tearAgent core l s a).Gone core a l := by
  unfold tearAgent
  split
  · next h => exact h.1
  · unfold State.Gone
    rw [line_setLine_at, if_pos ⟨rfl, rfl⟩]
    rfl

theorem State.Gone.tearAgent {s : State} {c a l : Nat} (h : s.Gone c a l) (core k b : Nat) : (tearAgent core k s b).Gone c a l := by
  unfold Machine.tearAgent
  split
  · exact h
  · exact h.setLine rfl

theorem touch_cores (s : State) (a n : Nat) : (s.touch a n).cores = s.cores := by
  refine foldl_keeps State.cores _ (fun u g => foldl_keeps State.cores _ (fun v e => ?_) ..) ..
  split
  · split <;> rfl
  · rfl

theorem gone_congr {s t : State} (h : t.cores = s.cores) {c a l : Nat} (hs : s.Gone c a l) : t.Gone c a l := by
  unfold State.Gone State.line State.core at *
  rwa [h]

/-- A line that is torn down leaves every agent (R30, R436). -/
theorem tearLine_gone (s : State) (c : Nat) {a : Nat} (ha : a < 4) (l : Nat) : (s.tearLine l).Gone c a l := by
  unfold State.tearLine
  extract_lets d watched filled _ cleared rerun _ bare u
  clear_value filled
  have hcleared : cleared.Gone c a l := by
    have hstep : ∀ (v : State) (e : Nat × Core), v.Gone c a l → ((List.range 4).foldl (tearAgent e.1 l) v).Gone c a l :=
      fun v e hv => hv.foldl fun w b hw => hw.tearAgent e.1 l b
    by_cases hc : filled.core c = Core.empty
    · exact (gone_of_unlisted hc a l).foldl hstep
    · refine foldl_of_mem (P := fun _ => True) (Q := fun v : State => v.Gone c a l) (mem_of_tget_ne hc) (fun _ _ _ => trivial) hstep (fun v _ => ?_) trivial
      exact foldl_of_mem (f := tearAgent c l) (P := fun _ => True) (Q := fun v : State => v.Gone c a l) (List.mem_range.2 ha) (fun _ _ _ => trivial)
        (fun w b hw => hw.tearAgent c l b) (fun w _ => tearAgent_gone c l a w) trivial
  have hrerun : rerun.cores = cleared.cores := foldl_keeps State.cores _ (fun v _ => State.push_cores v _) ..
  have hu : u.cores = cleared.cores := (foldl_keeps State.cores _ (fun v _ => State.push_cores v _) ..).trans hrerun
  split
  · exact gone_congr ((touch_cores ..).trans hu) hcleared
  · exact gone_congr hu hcleared

theorem backL2_cores (s : State) (l by_ : Nat) : (s.backL2 l by_).cores = s.cores := by
  unfold State.backL2
  dsimp only
  split <;> rfl

/-- A line that some agent holds is listed (R410). -/
theorem mem_listedLines {s : State} {c a l : Nat} (ha : a < 4) (h : ¬ s.Gone c a l) : l ∈ s.listedLines := by
  have hcore : s.core c ≠ Core.empty := fun hc => h (gone_of_unlisted hc a l)
  have hline : s.line c a l ≠ CLine.none := fun hl => h (by rw [State.Gone, hl]; rfl)
  refine List.mem_append_left _ (List.mem_append_left _ (List.mem_flatMap.2 ⟨_, mem_of_tget_ne hcore, ?_⟩))
  refine List.mem_map.2 ⟨_, mem_of_tget_ne hline, ?_⟩
  show (4 * l + a) / 4 = l
  omega

/-! ### TCINV at its issue -/

/-- TCINV of a privileged context holds its group, and asks each slice (R207). -/
theorem tcinv_issues {s : State} {g : Group} {a : RF} (h : Issues s g (.tcinv a)) (h0 : (g.src a 0 0).toNat < 2 ^ 12)
    (h1 : (g.src a 1 0).toNat < 2 ^ 24) (hpriv : (s.ctx (s.glch s.cur).ctx).priv = true) : Answers (.tcinv a) s fun t =>
      InFlight s t g (.tcinv a) (fun o => o.ps = g.params a 3 ∧ o.stage = .parts 16) ∧ (t.grp s.cur).phase = .held g.idx s.nextOp ∧
      ∀ m, m < 16 → .sliceTcinv s.nextOp m ∈ t.agenda := by
  have hin := issuedOp_inFlight (P := fun o => o.ps = g.params a 3 ∧ o.stage = .parts 16) (i := .tcinv a)
    (o := { g.newOp s.cur (.tcinv a) with ps := g.params a 3, stage := .parts 16, cls := 5 }) h.1.1 ⟨rfl, rfl, rfl, rfl⟩ fun _ => ⟨rfl, rfl⟩
  obtain ⟨hheld, hphase⟩ := hin.setPhase (List.getElem?_eq_some_iff.1 h.1.1).1 (.held g.idx s.nextOp)
  unfold Answers
  rw [show exec (.tcinv a) s = execTcinv a s from rfl, execTcinv, issueChecked_next h _ ((if_neg (params_fit h0 h1)).trans (if_pos hpriv))]
  refine ⟨_, rfl, ?_⟩
  dsimp only
  rw [foldl_push]
  exact ⟨hheld.frame _ _ _, hphase, fun m hm => List.mem_append_right _ (List.mem_map.2 ⟨m, List.mem_range.2 hm, rfl⟩)⟩

/-! ### A slice's part -/

theorem earlierThan_single {s : State} {op : Nat} {p : Op} (hops : s.ops = [(op, p)]) : s.earlierThan op = false := by
  unfold State.earlierThan
  rw [List.any_eq_false]
  intro e he
  obtain rfl : e = (op, p) := by simpa [hops] using List.mem_of_mem_filter he
  simp

/-- The named translations leave their port (R410). -/
theorem dropNamed_pages (s : State) (m : Nat) (ps : List Nat) : ∀ e ∈ ((s.dropNamed m ps).slice m).pages,
    ¬ (e.1 = ps.getD 0 0 ∧ e.2.1 = ps.getD 1 0 ∧ (ps.getD 2 0 = 0xFFFFFFFF ∨ e.2.2.1 = ps.getD 2 0)) := by
  intro e he
  unfold State.dropNamed at he
  dsimp only at he
  rw [slice_setSlice_self] at he
  have hkept := (List.mem_filter.1 he).2
  rintro ⟨h0, h1, h2⟩
  have hmatch : (e.1 == ps.getD 0 0 && e.2.1 == ps.getD 1 0 && (ps.getD 2 0 == 0xFFFFFFFF || e.2.2.1 == ps.getD 2 0)) = true := by
    rw [h0, h1, beq_self_eq_true, beq_self_eq_true]
    exact Bool.or_eq_true_iff.2 (h2.imp beq_iff_eq.2 beq_iff_eq.2)
  rw [hmatch] at hkept
  exact absurd hkept (by decide)

theorem dropNamed_tcinv (s : State) (m : Nat) (ps : List Nat) : ((s.dropNamed m ps).slice m).tcinv = (s.slice m).tcinv := by
  unfold State.dropNamed
  dsimp only
  rw [slice_setSlice_self]

/-- The lines that a TCINV names at a slice (R207, R410). -/
def State.namedLines (s : State) (m : Nat) (ps : List Nat) : List Nat := s.listedLines.eraseDups.filter fun l => named ps l && homeSlice l == m

theorem mem_namedLines {s : State} {m l c a : Nat} {ps : List Nat} (ha : a < 4) (hn : named ps l = true) (hm : homeSlice l = m)
    (h : ¬ s.Gone c a l) : l ∈ s.namedLines m ps :=
  List.mem_filter.2 ⟨List.mem_eraseDups.2 (mem_listedLines ha h), by simp [hn, hm]⟩

/-- One named line leaves the package: its slab goes home, its tree is torn down, and L2 writes it back (R410). -/
def State.dropLineOf (s : State) (g l : Nat) : State := ((s.giveBack (l / 16)).tearLine l).backL2 l (s.glch g).ctx

theorem State.TearsDown.dropLineOf {s t : State} {op : Nat} (h : s.TearsDown op t) (g l : Nat) : s.TearsDown op (t.dropLineOf g l) :=
  h.giveBack.tearLine.backL2

theorem dropLineOf_gone (s : State) (g c : Nat) {a : Nat} (ha : a < 4) (l : Nat) : (s.dropLineOf g l).Gone c a l :=
  gone_congr (backL2_cores ..) (tearLine_gone _ c ha l)

/-- After them all no agent holds a named line. -/
theorem foldl_dropLineOf_gone {s : State} {op g : Nat} {p : Op} (hops : s.ops = [(op, p)]) {m c a l : Nat} {ps : List Nat} (ha : a < 4)
    (hn : named ps l = true) (hm : homeSlice l = m) : ((s.namedLines m ps).foldl (fun s l => s.dropLineOf g l) s).Gone c a l := by
  have hdown : s.TearsDown op ((s.namedLines m ps).foldl (fun s l => s.dropLineOf g l) s) :=
    (State.TearsDown.refl hops).foldl fun _ l hu => hu.dropLineOf g l
  by_cases h : s.Gone c a l
  · exact hdown.lines c a l h
  · have hstep : ∀ (u : State) (k : Nat), ((∃ q, u.ops = [(op, q)]) ∧ u.Gone c a l) →
        (∃ q, (u.dropLineOf g k).ops = [(op, q)]) ∧ (u.dropLineOf g k).Gone c a l := by
      rintro u k ⟨⟨q, hq⟩, hu⟩
      have hd := (State.TearsDown.refl hq).dropLineOf g k
      exact ⟨hd.flight, hd.lines c a l hu⟩
    refine And.right (foldl_of_mem (P := fun u : State => ∃ q, u.ops = [(op, q)]) (Q := fun u : State => (∃ q, u.ops = [(op, q)]) ∧ u.Gone c a l)
      (mem_namedLines ha hn hm h) ?_ hstep ?_ ⟨p, hops⟩)
    · rintro u k ⟨q, hq⟩
      exact ((State.TearsDown.refl hq).dropLineOf g k).flight
    · rintro u ⟨q, hq⟩
      exact ⟨((State.TearsDown.refl hq).dropLineOf g l).flight, dropLineOf_gone u g c ha l⟩

theorem sliceTcinvDrained_eq {s : State} {op m : Nat} {p : Op} (hops : s.ops = [(op, p)]) : exec (.sliceTcinvDrained op m) s =
    if (s.namedLines m p.ps).any fun l => s.engineIn (256 * l) 256 || tget [] s.fab.roots l != [] then .next (s.later (.sliceTcinvDrained op m))
    else if (s.namedLines m p.ps).any fun l => (s.slabHolder (l / 16)).isSome then
      .next (((s.namedLines m p.ps).foldl (fun s l => (s.recall (256 * l) true).getD s) s).later (.sliceTcinvDrained op m))
    else
      let u := ((s.namedLines m p.ps).foldl (fun s l => s.dropLineOf p.gid l) s).dropNamed m p.ps
      let v := u.setSlice m { u.slice m with tcinv := (u.slice m).tcinv.filter (· != op) }
      match p.stage with
      | .parts n =>
        if n ≤ 1 then .next ((v.setOp op { p with stage := .parts (n - 1) }).push (.tcinvComplete op))
        else .next (v.setOp op { p with stage := .parts (n - 1) })
      | _ => .next v := by
  have htrans : s.translating op m p.ps = false := by
    unfold State.translating
    rw [hops]
    simp
  show execSliceTcinvDrained op m s = _
  unfold execSliceTcinvDrained
  rw [tfind_single hops]
  dsimp only
  rw [if_neg (by simp [htrans])]
  rfl

/-! ### The last acknowledgement -/

/-- A group that its operation held goes on when the operation is over (R207, R231). -/
theorem completeOp_held {s : State} {op i : Nat} {p : Op} {g : Group} (hops : s.ops = [(op, p)]) (hg : s.groups[p.gid]? = some g)
    (hphase : g.phase = .held i op) : (s.completeOp op).grp p.gid = (g.ended p).after i := by
  obtain ⟨agenda, he⟩ := endOp_eq s op
  rw [op_single hops, grp_of_getElem? hg] at he
  have hx : (s.endOp op).groups[p.gid]? = some (g.ended p) := by
    rw [he]
    exact List.getElem?_set_self (List.getElem?_eq_some_iff.1 hg).1
  have hph : ((s.endOp op).grp p.gid).phase = .held i op := by rw [grp_of_getElem? hx, ended_eq]; exact hphase
  unfold State.completeOp
  simp only [op_single hops, hph, if_true]
  rw [grp_of_getElem? hx, grp_setGrp_self hx]

theorem exec_sliceTcinv {s : State} {op m : Nat} {p : Op} (hops : s.ops = [(op, p)]) : exec (.sliceTcinv op m) s =
    .next (((s.dropNamed m p.ps).setSlice m { (s.dropNamed m p.ps).slice m with tcinv := ((s.dropNamed m p.ps).slice m).tcinv ++ [op] }).push
      (.sliceTcinvDrained op m)) := by
  show execSliceTcinv op m s = _
  unfold execSliceTcinv
  rw [tfind_single hops]
  dsimp only
  rw [if_neg (by simp [earlierThan_single hops])]

/-- A slice asked uses the named translations no more, and is to drain (R410). -/
theorem sliceTcinv_answers {s : State} {op m : Nat} {p : Op} (hops : s.ops = [(op, p)]) : Answers (.sliceTcinv op m) s fun t =>
    (t.slice m).tcinv = (s.slice m).tcinv ++ [op] ∧ .sliceTcinvDrained op m ∈ t.agenda ∧ t.ops = s.ops ∧ s.SameBytes t ∧
      ∀ e ∈ (t.slice m).pages, ¬ (e.1 = p.ps.getD 0 0 ∧ e.2.1 = p.ps.getD 1 0 ∧ (p.ps.getD 2 0 = 0xFFFFFFFF ∨ e.2.2.1 = p.ps.getD 2 0)) := by
  refine ⟨_, exec_sliceTcinv hops, ?_⟩
  have hslice : ∀ (x : Slice) (e : Event), (((s.dropNamed m p.ps).setSlice m x).push e).slice m = x := fun x _ => slice_setSlice_self _ m x
  beta_reduce
  rw [hslice]
  exact ⟨by rw [dropNamed_tcinv], List.mem_append_right _ (List.mem_singleton_self _), rfl, ⟨rfl, rfl⟩, dropNamed_pages s m p.ps⟩

/-- With nothing that keeps a named line it leaves the package, and the slice acknowledges (R207, R410). -/
theorem sliceTcinvDrained_acknowledges {s : State} {op m n : Nat} {p : Op} (hops : s.ops = [(op, p)]) (hst : p.stage = .parts n)
    (hfree : ∀ l ∈ s.namedLines m p.ps, ¬ (s.engineIn (256 * l) 256 = true ∨ tget [] s.fab.roots l ≠ []) ∧ s.slabHolder (l / 16) = none) :
    Answers (.sliceTcinvDrained op m) s fun t => t.ops = [(op, { p with stage := .parts (n - 1) })] ∧ s.SameBytes t ∧
      (n ≤ 1 → .tcinvComplete op ∈ t.agenda) ∧ op ∉ (t.slice m).tcinv ∧
      ∀ c a l, a < 4 → named p.ps l = true → homeSlice l = m → (t.line c a l).st = .I := by
  have hbusy : ((s.namedLines m p.ps).any fun l => s.engineIn (256 * l) 256 || tget [] s.fab.roots l != []) = false := by
    rw [List.any_eq_false]
    intro l hl
    simpa using (hfree l hl).1
  have hshared : ((s.namedLines m p.ps).any fun l => (s.slabHolder (l / 16)).isSome) = false := by
    rw [List.any_eq_false]
    intro l hl
    simp [(hfree l hl).2]
  have hdown : s.TearsDown op ((s.namedLines m p.ps).foldl (fun s l => s.dropLineOf p.gid l) s) :=
    (State.TearsDown.refl hops).foldl fun _ l hu => hu.dropLineOf p.gid l
  have hgone : ∀ c a l, a < 4 → named p.ps l = true → homeSlice l = m →
      ((s.namedLines m p.ps).foldl (fun s l => s.dropLineOf p.gid l) s).Gone c a l := fun c a l => foldl_dropLineOf_gone hops
  have hexec := sliceTcinvDrained_eq (m := m) hops
  rw [if_neg (by simp [hbusy]), if_neg (by simp [hshared]), hst] at hexec
  generalize (s.namedLines m p.ps).foldl (fun s l => s.dropLineOf p.gid l) s = u at *
  obtain ⟨q, hq⟩ := hdown.flight
  dsimp only at hexec
  generalize hv : State.setSlice (u.dropNamed m p.ps) m _ = v at hexec
  have hbytes : s.SameBytes v := by rw [← hv]; exact hdown.bytes
  have hops' : v.ops = [(op, q)] := by rw [← hv]; exact hq
  have hleft : op ∉ (v.slice m).tcinv := by
    rw [← hv, slice_setSlice_self]
    exact fun h => by simpa using (List.mem_filter.1 h).2
  have hlines : v.cores = u.cores := by rw [← hv]; rfl
  have hnone : ∀ c a l, a < 4 → named p.ps l = true → homeSlice l = m → v.Gone c a l :=
    fun c a l ha hn hm => gone_congr hlines (hgone c a l ha hn hm)
  split at hexec
  · exact ⟨_, hexec, ops_setOp_single hops' _, hbytes, fun _ => List.mem_append_right _ (List.mem_singleton_self _), hleft, hnone⟩
  · next hn => exact ⟨_, hexec, ops_setOp_single hops' _, hbytes, fun h => absurd h hn, hleft, hnone⟩

/-- Settles O51: TCINV's issue, the two steps of a slice, and the last acknowledgement, each by its own lemma. -/
theorem translationsAreInvalidated : Obligations.TranslationsAreInvalidated := by
  refine ⟨fun s g a => tcinv_issues, fun s op m p hops => ⟨sliceTcinv_answers hops, ?_, ?_, fun n => sliceTcinvDrained_acknowledges hops⟩,
    fun s op i p g hops hg hst hphase => ?_⟩
  · rintro ⟨l, hl, hb⟩
    have hbusy : ((s.namedLines m p.ps).any fun l => s.engineIn (256 * l) 256 || tget [] s.fab.roots l != []) = true :=
      List.any_eq_true.2 ⟨l, hl, by simpa using hb⟩
    exact ⟨_, (sliceTcinvDrained_eq hops).trans (if_pos hbusy), rfl⟩
  · rintro hfree ⟨l, hl, hs⟩
    have hbusy : ¬ ((s.namedLines m p.ps).any fun l => s.engineIn (256 * l) 256 || tget [] s.fab.roots l != []) = true := by
      rw [List.any_eq_true]
      rintro ⟨k, hk, hb⟩
      exact hfree k hk (by simpa using hb)
    exact ⟨_, (sliceTcinvDrained_eq hops).trans ((if_neg hbusy).trans (if_pos (List.any_eq_true.2 ⟨l, hl, hs⟩))), rfl⟩
  · have hexec : exec (.tcinvComplete op) s = .next (s.completeOp op) := by
      show execTcinvComplete op s = _
      rw [execTcinvComplete, tfind_single hops]
      exact if_pos hst
    obtain ⟨hends, haround, -⟩ := completeOp_around (op_single hops) hg
    refine ⟨_, hexec, ?_, ?_, ?_, completeOp_keeps (op_single hops) hg⟩
    · rw [hends, hops]
      simp [tdel]
    · rw [haround]
      exact ⟨rfl, rfl⟩
    · rw [completeOp_held hops hg hphase, ended_eq]
      rfl

end Sys2Proof.Machine
end
